-- ==== Sys2Proof/Word.lean ====
section
/-! DEFINITION. Words, bytes and the one container of the model: a sparse map held as a list of keyed entries. -/

namespace Sys2Proof

/-- A scalar register, a plane lane, an instruction word: 32 bits (R143, R158, R163). -/
abbrev Word := BitVec 32

/-- One byte of any memory space. -/
abbrev Byte := BitVec 8

/-- A value of a 64-bit register, virtual address or memory word (R41, R167). -/
abbrev DWord := BitVec 64

/-- A sparse map: entries in strictly rising key order, none equal to the map's default value.
Memories, register files, planes and tiles are all held this way; see `Machine/Map.lean`. -/
abbrev Map (α : Type) := List (Nat × α)

end Sys2Proof
end

