-- ==== Sys2Proof/Config.lean ====
section
/-! DEFINITION. What the implementation fixes, and the free values: opaque constants about which nothing can be proved. -/

namespace Sys2Proof.Config

/-- R54: where the two halves of a key come from: an empty slot, the draw `n` of the entropy source and the one after it, or KDATA.
Equal keys are equal data (log 6). -/
inductive KeyMat where
  | empty
  | drawn (n : Nat)
  | loaded (k1 k2 : BitVec 256)
  deriving DecidableEq, Repr

/-- R52: what a line of device memory that nothing has written holds is unpredictable. Free value: the byte of the ciphertext at
physical address `pa`, since the memory lost its power for the `n`-th time (log 5). -/
opaque coldByte (n pa : Nat) : BitVec 8

/-- R54, R50: a generated key is drawn from the entropy source.
Free value: 256 bits of the draw `n` (log 7). -/
opaque entropy (n : Nat) : BitVec 256

/-- R262: the spec gives the bytes of a Tailrace entry's fixed part only for the lanes that store a remainder. Free value: the
other bytes, by the pushing bundle's number `n` and the offset in the entry (log 14). -/
opaque entryByte (n off : Nat) : BitVec 8

/-- R98, R105: a copy of an LC2 tensor that transposes, or reads outside its source, has weights for which the spec names no
index. Free value: the index word at window row `r` and column `c` of the record at `p` (log 15). -/
opaque lc2Index (p r c : Nat) : BitVec 16

/-- R491: a 4 KiB entry of the snapshot region holds a block's latched values, but the spec does not place them in it. Free value: the
word at offset `off` of an entry whose block latched these values (log 19). -/
opaque snapshotWord (latched : List (BitVec 64)) (off : Nat) : BitVec 64

/-- R443: whether system software names a spare for a failed device, which loads its gang's mirror, is not the device's to decide. Free
value: the answer at draw `n` (log 67). -/
opaque spareNamed (n : Nat) : Bool

/-- R483: the system class has a credit pool of its own, whose size the spec does not give. Free value: its flits on a link
(log 65). -/
opaque systemFlits : Nat

/-- The number of logical cores (R13). -/
def numCores : Nat := 1280

/-- The number of logical clusters, of 16 cores each (R13). -/
def numClusters : Nat := 80

/-- Bytes in one scratchpad slice: 2 MiB (R120). -/
def sliceBytes : Nat := 2097152

/-- Bytes in one scratchpad granule: 64 KiB (R120). -/
def granuleBytes : Nat := 65536

/-- The end of the G space, 0xA000_0000 (R122). -/
def gSpaceEnd : Nat := 2684354560

end Sys2Proof.Config
end

