-- ==== Sys2Proof/Syntax.lean ====
section
/-! DEFINITION. The operand types and the one instruction type: a constructor for every row of the opcode table.
The first 193 constructors are the instruction words of the map of R148; the rest are the events of the device. -/

namespace Sys2Proof

/-- The width field w of R160: how many consecutive scalar registers an operand names. -/
inductive Width where
  | s | d | q | o
  deriving DecidableEq, Repr

/-- R160: 0b00 single, 0b01 .d, 0b10 .q, 0b11 .o. -/
def Width.ofCode : Nat → Width
  | 0 => .s
  | 1 => .d
  | 2 => .q
  | _ => .o

/-- The code of a width (R160). -/
def Width.code : Width → Nat
  | .s => 0 | .d => 1 | .q => 2 | .o => 3

/-- Registers named by an operand of a width (R160). -/
def Width.regs : Width → Nat
  | .s => 1 | .d => 2 | .q => 4 | .o => 8

/-- Bytes moved by an access of a width (R219). -/
def Width.bytes (w : Width) : Nat := 4 * w.regs

/-- The two queues of hidden-latency accesses of a core (R40, R353). -/
inductive Queue where
  | m | g
  deriving DecidableEq, Repr

/-- The management registers whose fields a write simply sets, clears (W1C) or ignores (R7):
the operand of REGISTER_WRITE. -/
inductive MReg where
  | mtroot (vd : Nat) | mwlim (vd : Nat) | mtinva (vd : Nat) | mtistat (vd : Nat)
  | tidbase (vd : Nat) | tidn (vd : Nat) | olbase (vd : Nat) | olsize (vd : Nat)
  | fqbase (vd : Nat) | fqctl (vd : Nat) | fqhead (vd : Nat) | fqrval (vd : Nat)
  | vdpol (vd : Nat) | vdstat (vd : Nat) | dbgctl (vd : Nat) | snctl (vd : Nat) | snstat (vd : Nat)
  | qcfg (vd q : Nat) | lstat (vd : Nat)
  | ksel | kstat | kdata (i : Nat) | parg (i : Nat)
  | devctl | thstat | qpctl (port : Nat)
  deriving DecidableEq, Repr

/-- What a Windlass operation's matched peers compare (R342): OP, RED, DT, COUNT, ROOT. -/
structure OpHead where
  op : Nat
  red : Nat
  dt : Nat
  count : Nat
  root : Nat
  deriving DecidableEq, Repr

/-- R341, R482, R483: flits of credit returned for a communicator of a gang on one link; communicator 32 is the system class. A frame
word names only their virtual channel (log 65). -/
structure Credit where
  gang : Nat
  comm : Nat
  flits : Nat
  deriving DecidableEq, Repr

/-- R323, R326, R492: what a gang's arrivals at one barrier share: the launch's LID, the kind of word (0 phase, 1 bar) and the scope. A
flit of R484 holds the scope only (log 64). -/
structure GangWord where
  lid : Nat
  kind : Nat
  scope : Nat
  deriving DecidableEq, Repr

/-- R333, R492: a flag or a result of a vote of the launch with an LID. A flit of R484 holds the flag only (log 64). -/
structure GangFlag where
  lid : Nat
  flag : Bool
  deriving DecidableEq, Repr

/-- A Quija packet (R482). `index` is the operation's number on its communicator and `head` its matched fields:
how ranks learn them is not given, so the model's packets carry them (log 1). `failed` says that the operation has failed at the
sender, which the spec has every rank learn and gives no packet for (log 65); `credits` lists the credits that its flits bring. -/
structure Packet where
  vc : Nat
  comm : Nat
  dst : Nat
  src : Nat
  len : Nat
  gang : Nat
  index : Nat
  head : OpHead
  payload : List Byte
  failed : Bool
  credits : List Credit
  deriving DecidableEq, Repr

/-- R481: a flit: 64 bytes, with the frame word beside them. -/
structure Flit where
  frame : BitVec 64
  bytes : List Byte
  deriving DecidableEq, Repr

/-- What a packet's flits do not hold and its receiver must know: the number of the operation, its matched fields, its failure, and, for
each flit that is not the first, the gang and the communicator whose credits it returns (log 1, log 65). -/
structure PacketNote where
  index : Nat
  head : OpHead
  failed : Bool
  owners : List (Nat × Nat)
  deriving DecidableEq, Repr

/-- R482: what arrives of a packet at a port, malformed flits among it, and what the model adds to it. -/
structure PacketIn where
  flits : List Flit
  note : PacketNote
  deriving DecidableEq, Repr

/-- R410, R484: the gang and the epoch that RESUME names. -/
structure GangEpoch where
  gid : Nat
  epoch : BitVec 32
  deriving DecidableEq, Repr

/-- Where an error of R440 strikes. -/
inductive ErrorSite where
  | sramCorrected
  | hbmCorrected
  | residue (core : Nat)
  | gang (gang : Nat)
  | spare
  | unowned
  deriving DecidableEq, Repr

/-- The instructions and events of the HF4, one constructor for each row of the opcode table. -/
inductive Instr where
  -- instruction words
  /-- `nop` (R146). Does nothing; counts toward the eight words of its bundle. -/
  | nop
  /-- `add` (R197). d := a + b, wrapping. -/
  | add (d : Fin 64) (a : Fin 64) (b : Fin 64) (w : Width)
  /-- `sub` (R197). d := a - b, wrapping. -/
  | sub (d : Fin 64) (a : Fin 64) (b : Fin 64) (w : Width)
  /-- `and` (R197). d := a and b. -/
  | and (d : Fin 64) (a : Fin 64) (b : Fin 64) (w : Width)
  /-- `or` (R197). d := a or b. -/
  | or (d : Fin 64) (a : Fin 64) (b : Fin 64) (w : Width)
  /-- `xor` (R197). d := a xor b. -/
  | xor (d : Fin 64) (a : Fin 64) (b : Fin 64) (w : Width)
  /-- `andn` (R197). d := a and not b. -/
  | andn (d : Fin 64) (a : Fin 64) (b : Fin 64) (w : Width)
  /-- `orn` (R197). d := a or not b. -/
  | orn (d : Fin 64) (a : Fin 64) (b : Fin 64) (w : Width)
  /-- `shl` (R197). Shifts a left by b mod n. -/
  | shl (d : Fin 64) (a : Fin 64) (b : Fin 64) (w : Width)
  /-- `shr` (R197). Shifts a right by b mod n, zeros entering. -/
  | shr (d : Fin 64) (a : Fin 64) (b : Fin 64) (w : Width)
  /-- `sar` (R197). Shifts a right by b mod n, the sign bit entering. -/
  | sar (d : Fin 64) (a : Fin 64) (b : Fin 64) (w : Width)
  /-- `rotl` (R197). Rotates a left by b mod n. -/
  | rotl (d : Fin 64) (a : Fin 64) (b : Fin 64) (w : Width)
  /-- `min` (R197). Signed minimum of a and b. -/
  | min (d : Fin 64) (a : Fin 64) (b : Fin 64) (w : Width)
  /-- `max` (R197). Signed maximum of a and b. -/
  | max (d : Fin 64) (a : Fin 64) (b : Fin 64) (w : Width)
  /-- `minn` (R197). Natural minimum of a and b. -/
  | minn (d : Fin 64) (a : Fin 64) (b : Fin 64) (w : Width)
  /-- `maxn` (R197). Natural maximum of a and b. -/
  | maxn (d : Fin 64) (a : Fin 64) (b : Fin 64) (w : Width)
  /-- `ceq` (R197). d := 1 if a = b, else 0. -/
  | ceq (d : Fin 64) (a : Fin 64) (b : Fin 64) (w : Width)
  /-- `clt` (R197). d := 1 if a < b signed, else 0. -/
  | clt (d : Fin 64) (a : Fin 64) (b : Fin 64) (w : Width)
  /-- `cltn` (R197). d := 1 if a < b natural, else 0. -/
  | cltn (d : Fin 64) (a : Fin 64) (b : Fin 64) (w : Width)
  /-- `cmov` (R197). d := a if b is non-zero, otherwise rewrites d with its old value. -/
  | cmov (d : Fin 64) (a : Fin 64) (b : Fin 64) (w : Width)
  /-- `mul` (R198). Low n bits of a × b, latency 3. -/
  | mul (d : Fin 64) (a : Fin 64) (b : Fin 64) (w : Width)
  /-- `mulh` (R198). High 32 bits of the signed 64-bit product. -/
  | mulh (d : Fin 64) (a : Fin 64) (b : Fin 64)
  /-- `mulhn` (R198). High 32 bits of the natural 64-bit product. -/
  | mulhn (d : Fin 64) (a : Fin 64) (b : Fin 64)
  /-- `div` (R199). Signed quotient on the single divider, latency 18, never traps. -/
  | div (d : Fin 64) (a : Fin 64) (b : Fin 64) (w : Width)
  /-- `divn` (R199). Natural quotient on the divider. -/
  | divn (d : Fin 64) (a : Fin 64) (b : Fin 64) (w : Width)
  /-- `rem` (R199). Signed remainder on the divider. -/
  | rem (d : Fin 64) (a : Fin 64) (b : Fin 64) (w : Width)
  /-- `remn` (R199). Natural remainder on the divider. -/
  | remn (d : Fin 64) (a : Fin 64) (b : Fin 64) (w : Width)
  /-- `clz` (R200). Counts leading zeros of a. -/
  | clz (d : Fin 64) (a : Fin 64) (w : Width)
  /-- `popc` (R200). Counts one bits of a. -/
  | popc (d : Fin 64) (a : Fin 64) (w : Width)
  /-- `brev` (R200). Reverses the bit order of a. -/
  | brev (d : Fin 64) (a : Fin 64) (w : Width)
  /-- `bext` (R201). Extracts a bit field of a, optionally sign-extended. -/
  | bext (d : Fin 64) (a : Fin 64) (b : Fin 64) (w : Width) (sx : Bool)
  /-- `bins` (R201). Inserts the low bits of a into a field of d. -/
  | bins (d : Fin 64) (a : Fin 64) (b : Fin 64) (w : Width)
  /-- `addi` (R202). d := a + imm. -/
  | addi (d : Fin 64) (a : Fin 64) (imm : BitVec 11)
  /-- `andi` (R202). d := a and imm. -/
  | andi (d : Fin 64) (a : Fin 64) (imm : BitVec 11)
  /-- `ori` (R202). d := a or imm. -/
  | ori (d : Fin 64) (a : Fin 64) (imm : BitVec 11)
  /-- `xori` (R202). d := a xor imm. -/
  | xori (d : Fin 64) (a : Fin 64) (imm : BitVec 11)
  /-- `shli` (R202). Shifts a left by an immediate 0-31. -/
  | shli (d : Fin 64) (a : Fin 64) (imm : BitVec 11)
  /-- `shri` (R202). Shifts a right by an immediate, zeros entering. -/
  | shri (d : Fin 64) (a : Fin 64) (imm : BitVec 11)
  /-- `sari` (R202). Shifts a right by an immediate, the sign entering. -/
  | sari (d : Fin 64) (a : Fin 64) (imm : BitVec 11)
  /-- `ceqi` (R202). d := 1 if a = imm, else 0. -/
  | ceqi (d : Fin 64) (a : Fin 64) (imm : BitVec 11)
  /-- `clti` (R202). d := 1 if a < imm signed, else 0. -/
  | clti (d : Fin 64) (a : Fin 64) (imm : BitVec 11)
  /-- `cltni` (R202). d := 1 if a < imm natural, else 0. -/
  | cltni (d : Fin 64) (a : Fin 64) (imm : BitVec 11)
  /-- `movi` (R203). Writes the effective 32-bit immediate to d. -/
  | movi (d : Fin 64) (imm : BitVec 17)
  /-- `lui` (R203). Writes imm17 << 15 to d. -/
  | lui (d : Fin 64) (imm : BitVec 17)
  /-- `madd` (R204). d := d + a × b, low n bits, latency 3. -/
  | madd (d : Fin 64) (a : Fin 64) (b : Fin 64) (w : Width)
  /-- `lea` (R204). d := a + (extended b << K). -/
  | lea (d : Fin 64) (a : Fin 64) (b : Fin 64) (w : Width) (nat : Bool) (sh : Fin 4)
  /-- `mov` (R204). Copies a register group to d. -/
  | mov (d : Fin 64) (a : Fin 64) (w : Width)
  /-- `ext` (R204). Sign- or zero-extends a narrow value of a into d. -/
  | ext (d : Fin 64) (a : Fin 64) (w : Width) (sub : Fin 8)
  /-- `fadd` (R207). FP32 addition with the encoded rounding. -/
  | fadd (d : Fin 64) (a : Fin 64) (b : Fin 64) (sub : Fin 8)
  /-- `fsub` (R207). FP32 subtraction. -/
  | fsub (d : Fin 64) (a : Fin 64) (b : Fin 64) (sub : Fin 8)
  /-- `fmul` (R207). FP32 multiplication. -/
  | fmul (d : Fin 64) (a : Fin 64) (b : Fin 64) (sub : Fin 8)
  /-- `ffma` (R207). FP32 fused multiply-add into d with one rounding. -/
  | ffma (d : Fin 64) (a : Fin 64) (b : Fin 64) (sub : Fin 8)
  /-- `fmin` (R208). FP32 lesser value, NaN giving canonical NaN. -/
  | fmin (d : Fin 64) (a : Fin 64) (b : Fin 64)
  /-- `fmax` (R208). FP32 greater value. -/
  | fmax (d : Fin 64) (a : Fin 64) (b : Fin 64)
  /-- `fcmp` (R208). FP32 comparison by predicate into d. -/
  | fcmp (d : Fin 64) (a : Fin 64) (b : Fin 64) (sub : Fin 8)
  /-- `fcvt` (R209). Scalar conversion of the kind in b through Convert. -/
  | fcvt (d : Fin 64) (a : Fin 64) (b : Fin 64) (sub : Fin 8)
  /-- `br` (R211). Branches when c is non-zero. -/
  | br (c : Fin 64) (off : BitVec 17)
  /-- `jmp` (R212). Always jumps to the offset target. -/
  | jmp (off : BitVec 23)
  /-- `call` (R212). Jumps and writes the return address into s54 and s55. -/
  | call (off : BitVec 23)
  /-- `ret` (R213). Jumps to the 64-bit value of pair a. -/
  | ret (a : Fin 64)
  /-- `jx` (R213). Jumps to the value of pair a without link. -/
  | jx (a : Fin 64)
  /-- `jx.l` (R213). Jumps to pair a and writes the return address into pair d. -/
  | jxl (d : Fin 64) (a : Fin 64)
  /-- `loop` (R217). Opens a hardware loop at a level with its count from a register. -/
  | loop (c : Fin 64) (fin : Fin 2048) (lvl : Fin 4)
  /-- `loopi` (R217). Opens a hardware loop with an immediate count. -/
  | loopi (n : Fin 1024) (fin : Fin 2048) (lvl : Fin 4)
  /-- `brv` (R211). Branches when c is zero. -/
  | brv (c : Fin 64) (off : BitVec 17)
  /-- `ldl` (R221). Loads from the local slice at exposed latency 3. -/
  | ldl (d : Fin 64) (a : Fin 64) (b : Fin 64) (w : Width) (sh : Fin 4)
  /-- `stl` (R221). Stores to the local slice, landing 2 cc after issue. -/
  | stl (d : Fin 64) (a : Fin 64) (b : Fin 64) (w : Width) (sh : Fin 4)
  /-- `ldg` (R223). Hidden-latency load from the G space, setting busy bits. -/
  | ldg (d : Fin 64) (a : Fin 64) (b : Fin 64) (w : Width) (sh : Fin 4)
  /-- `stg` (R223). Places a G store in the store queue under the bundle's scope. -/
  | stg (d : Fin 64) (a : Fin 64) (b : Fin 64) (w : Width) (sh : Fin 4)
  /-- `ldm` (R223). Hidden-latency load from the M space. -/
  | ldm (d : Fin 64) (a : Fin 64) (b : Fin 64) (w : Width)
  /-- `stm` (R223). Places an M store in the store queue. -/
  | stm (d : Fin 64) (a : Fin 64) (b : Fin 64) (w : Width)
  /-- `ldk` (R222). Loads from the launch's constant window. -/
  | ldk (d : Fin 64) (a : Fin 64) (b : Fin 64) (w : Width) (sh : Fin 4)
  /-- `ldh` (R226). Reads 4 bytes from a handle's visible bank as a reader with an expected generation. -/
  | ldh (h : Fin 64) (r : Fin 64) (imm : BitVec 11)
  /-- `sth` (R226). Stores 4 bytes into a handle's bank as a core store. -/
  | sth (h : Fin 64) (r : Fin 64) (imm : BitVec 11)
  /-- `pld` (R235). Loads a 4 KiB plane from the local slice. -/
  | pld (d : Fin 16) (k : Fin 16) (r : Fin 64) (mask : Fin 8)
  /-- `pst` (R235). Stores a plane to the local slice. -/
  | pst (d : Fin 16) (k : Fin 16) (r : Fin 64) (mask : Fin 8)
  /-- `pldh` (R236). Loads a plane from a handle's visible bank as a reader. -/
  | pldh (h : Fin 64) (pl : Fin 16) (imm : BitVec 11)
  /-- `psth` (R236). Stores a plane into a handle's bank. -/
  | psth (h : Fin 64) (pl : Fin 16) (imm : BitVec 11)
  /-- `pldg` (R235). Hidden-latency plane load from G. -/
  | pldg (d : Fin 16) (k : Fin 16) (r : Fin 64) (mask : Fin 8)
  /-- `pstg` (R235). Places a plane store to G in the store queue. -/
  | pstg (d : Fin 16) (k : Fin 16) (r : Fin 64) (mask : Fin 8)
  /-- `pgather` (R237). Gathers one 32-bit word per enabled lane from L or G. -/
  | pgather (d : Fin 16) (a : Fin 16) (mask : Fin 8) (g : Bool)
  /-- `pscatter` (R237). Scatters one 32-bit word per enabled lane to L or G. -/
  | pscatter (d : Fin 16) (a : Fin 16) (mask : Fin 8) (g : Bool)
  /-- `scope` (R153). Prefix giving one scope to the bundle's G and M stores and atomics. -/
  | scope (scope : Fin 8)
  /-- `limm` (R152). Supplies 23 extra immediate bits to the following word. -/
  | limm (imm : BitVec 23)
  /-- `padd` (R238). Element-wise addition of planes. -/
  | padd (d : Fin 16) (a : Fin 16) (b : Fin 16) (mask : Fin 8) (pw : Fin 4) (ty : Fin 8) (sub : Fin 8)
  /-- `psub` (R238). Element-wise subtraction. -/
  | psub (d : Fin 16) (a : Fin 16) (b : Fin 16) (mask : Fin 8) (pw : Fin 4) (ty : Fin 8) (sub : Fin 8)
  /-- `pmul` (R238). Element-wise multiplication. -/
  | pmul (d : Fin 16) (a : Fin 16) (b : Fin 16) (mask : Fin 8) (pw : Fin 4) (ty : Fin 8) (sub : Fin 8)
  /-- `pfma` (R239). Element-wise a × b + d with one rounding. -/
  | pfma (d : Fin 16) (a : Fin 16) (b : Fin 16) (mask : Fin 8) (pw : Fin 4) (ty : Fin 8) (sub : Fin 8)
  /-- `pfms` (R239). Element-wise a × b - d with one rounding. -/
  | pfms (d : Fin 16) (a : Fin 16) (b : Fin 16) (mask : Fin 8) (pw : Fin 4) (ty : Fin 8) (sub : Fin 8)
  /-- `pmin` (R238). Element-wise lesser value. -/
  | pmin (d : Fin 16) (a : Fin 16) (b : Fin 16) (mask : Fin 8) (pw : Fin 4) (ty : Fin 8) (sub : Fin 8)
  /-- `pmax` (R238). Element-wise greater value. -/
  | pmax (d : Fin 16) (a : Fin 16) (b : Fin 16) (mask : Fin 8) (pw : Fin 4) (ty : Fin 8) (sub : Fin 8)
  /-- `pabs` (R238). Element-wise absolute value. -/
  | pabs (d : Fin 16) (a : Fin 16) (mask : Fin 8) (pw : Fin 4) (ty : Fin 8) (sub : Fin 8)
  /-- `pneg` (R238). Element-wise negation. -/
  | pneg (d : Fin 16) (a : Fin 16) (mask : Fin 8) (pw : Fin 4) (ty : Fin 8) (sub : Fin 8)
  /-- `pcmp` (R243). Writes a per-lane comparison predicate. -/
  | pcmp (d : Fin 16) (a : Fin 16) (b : Fin 16) (mask : Fin 8) (ty : Fin 8) (sub : Fin 8)
  /-- `psel` (R244). Selects lanes of a into d where a predicate is set. -/
  | psel (d : Fin 16) (a : Fin 16) (b : Fin 16) (mask : Fin 8) (pw : Fin 4)
  /-- `pcvt` (R248). Converts every element of a source group into a destination group. -/
  | pcvt (d : Fin 16) (a : Fin 16) (b : Fin 16) (mask : Fin 8) (pw : Fin 4) (ty : Fin 8) (sub : Fin 8)
  /-- `pand` (R242). Lane-wise and. -/
  | pand (d : Fin 16) (a : Fin 16) (b : Fin 16) (mask : Fin 8) (pw : Fin 4)
  /-- `por` (R242). Lane-wise or. -/
  | por (d : Fin 16) (a : Fin 16) (b : Fin 16) (mask : Fin 8) (pw : Fin 4)
  /-- `pxor` (R242). Lane-wise exclusive or. -/
  | pxor (d : Fin 16) (a : Fin 16) (b : Fin 16) (mask : Fin 8) (pw : Fin 4)
  /-- `pnot` (R242). Lane-wise not. -/
  | pnot (d : Fin 16) (a : Fin 16) (mask : Fin 8) (pw : Fin 4)
  /-- `pshl` (R242). Per-element left shift. -/
  | pshl (d : Fin 16) (a : Fin 16) (b : Fin 16) (mask : Fin 8) (pw : Fin 4) (ty : Fin 8) (sub : Fin 8)
  /-- `pshr` (R242). Per-element logical right shift. -/
  | pshr (d : Fin 16) (a : Fin 16) (b : Fin 16) (mask : Fin 8) (pw : Fin 4) (ty : Fin 8) (sub : Fin 8)
  /-- `psar` (R242). Per-element arithmetic right shift. -/
  | psar (d : Fin 16) (a : Fin 16) (b : Fin 16) (mask : Fin 8) (pw : Fin 4) (ty : Fin 8) (sub : Fin 8)
  /-- `pmov` (R242). Copies a plane. -/
  | pmov (d : Fin 16) (a : Fin 16) (mask : Fin 8) (pw : Fin 4)
  /-- `pbcs` (R240). Broadcasts a scalar into every element. -/
  | pbcs (d : Fin 16) (r : Fin 64) (mask : Fin 8) (ty : Fin 8) (sub : Fin 8)
  /-- `pins` (R241). Inserts a scalar element into a plane at an index. -/
  | pins (d : Fin 16) (r : Fin 64) (mask : Fin 8) (ty : Fin 8) (sub : Fin 8)
  /-- `pext` (R241). Extracts one plane element into a scalar. -/
  | pext (a : Fin 16) (r : Fin 64) (ty : Fin 8) (sub : Fin 8)
  /-- `piota` (R242). Writes each element's number. -/
  | piota (d : Fin 16) (mask : Fin 8) (pw : Fin 4) (ty : Fin 8) (sub : Fin 8)
  /-- `pmand` (R245). And of predicates. -/
  | pmand (d : Fin 16) (a : Fin 16) (b : Fin 16) (mask : Fin 8)
  /-- `pmor` (R245). Or of predicates. -/
  | pmor (d : Fin 16) (a : Fin 16) (b : Fin 16) (mask : Fin 8)
  /-- `pmxor` (R245). Exclusive or of predicates. -/
  | pmxor (d : Fin 16) (a : Fin 16) (b : Fin 16) (mask : Fin 8)
  /-- `pmnot` (R245). Not of a predicate. -/
  | pmnot (d : Fin 16) (a : Fin 16) (mask : Fin 8)
  /-- `pvote` (R246). Reduces a predicate over voters into a predicate or scalar. -/
  | pvote (d : Fin 16) (a : Fin 16) (mask : Fin 8) (sub : Fin 8)
  /-- `pflag` (R247). Clears or combines flag planes. -/
  | pflag (d : Fin 16) (mask : Fin 8) (sub : Fin 8)
  /-- `prng` (R250). Fills lanes with Philox random bits and advances sr.rngctr. -/
  | prng (d : Fin 16) (mask : Fin 8) (pw : Fin 4) (sub : Fin 8)
  /-- `pscale` (R240). Multiplies elements by 2^s. -/
  | pscale (d : Fin 16) (a : Fin 16) (r : Fin 64) (mask : Fin 8) (ty : Fin 8) (sub : Fin 8)
  /-- `pdot2` (R239). Two-element dot product accumulated into a 32-bit lane. -/
  | pdot2 (d : Fin 16) (a : Fin 16) (b : Fin 16) (mask : Fin 8) (pw : Fin 4) (ty : Fin 8) (sub : Fin 8)
  /-- `pmuls` (R240). Multiplies elements by a scalar. -/
  | pmuls (d : Fin 16) (a : Fin 16) (r : Fin 64) (mask : Fin 8) (ty : Fin 8) (sub : Fin 8)
  /-- `pfmas` (R240). a × scalar + d with one rounding. -/
  | pfmas (d : Fin 16) (a : Fin 16) (r : Fin 64) (mask : Fin 8) (ty : Fin 8) (sub : Fin 8)
  /-- `pclamp` (R238). Clamps d between a and b. -/
  | pclamp (d : Fin 16) (a : Fin 16) (b : Fin 16) (mask : Fin 8) (pw : Fin 4) (ty : Fin 8) (sub : Fin 8)
  /-- `pround` (R238). Rounds elements to integral values. -/
  | pround (d : Fin 16) (a : Fin 16) (mask : Fin 8) (pw : Fin 4) (ty : Fin 8) (sub : Fin 8)
  /-- `paddi` (R240). Adds a signed 6-bit immediate to integer elements. -/
  | paddi (d : Fin 16) (a : Fin 16) (r : Fin 64) (mask : Fin 8) (ty : Fin 8) (sub : Fin 8)
  /-- `pabsd` (R238). Element-wise absolute difference. -/
  | pabsd (d : Fin 16) (a : Fin 16) (b : Fin 16) (mask : Fin 8) (pw : Fin 4) (ty : Fin 8) (sub : Fin 8)
  /-- `prot.row` (R251). Rotates lanes within each row. -/
  | protRow (d : Fin 16) (a : Fin 16) (k : Fin 128) (mask : Fin 8) (pw : Fin 4)
  /-- `prot.col` (R251). Rotates lanes within each column. -/
  | protCol (d : Fin 16) (a : Fin 16) (k : Fin 128) (mask : Fin 8) (pw : Fin 4)
  /-- `pbc.row` (R251). Broadcasts one column across each row. -/
  | pbcRow (d : Fin 16) (a : Fin 16) (k : Fin 128) (mask : Fin 8) (pw : Fin 4)
  /-- `pbc.col` (R251). Broadcasts one row across each column. -/
  | pbcCol (d : Fin 16) (a : Fin 16) (k : Fin 128) (mask : Fin 8) (pw : Fin 4)
  /-- `psum.row` (R252). Sums each row with one rounding. -/
  | psumRow (d : Fin 16) (a : Fin 16) (mask : Fin 8) (pw : Fin 4) (ty : Fin 8) (sub : Fin 8)
  /-- `psum.col` (R252). Sums each column with one rounding. -/
  | psumCol (d : Fin 16) (a : Fin 16) (mask : Fin 8) (pw : Fin 4) (ty : Fin 8) (sub : Fin 8)
  /-- `pred.row` (R252). Minimum or maximum of each row. -/
  | predRow (d : Fin 16) (a : Fin 16) (mask : Fin 8) (pw : Fin 4) (ty : Fin 8) (sub : Fin 8)
  /-- `pred.col` (R252). Minimum or maximum of each column. -/
  | predCol (d : Fin 16) (a : Fin 16) (mask : Fin 8) (pw : Fin 4) (ty : Fin 8) (sub : Fin 8)
  /-- `pspf` (R253). Evaluates a special function on the special-function unit. -/
  | pspf (d : Fin 16) (a : Fin 16) (mask : Fin 8) (pw : Fin 4) (ty : Fin 8) (sub : Fin 8)
  /-- `pdiv` (R254). Element-wise division rounded once. -/
  | pdiv (d : Fin 16) (a : Fin 16) (b : Fin 16) (mask : Fin 8) (pw : Fin 4) (ty : Fin 8) (sub : Fin 8)
  /-- `ptrig` (R254). Computes sin(πx) or cos(πx). -/
  | ptrig (d : Fin 16) (a : Fin 16) (mask : Fin 8) (pw : Fin 4) (ty : Fin 8) (sub : Fin 8)
  /-- `pxbar` (R257). Routes lanes through a crossbar pattern slot. -/
  | pxbar (d : Fin 16) (a : Fin 16) (b : Fin 16) (mask : Fin 8)
  /-- `pxset` (R256). Loads a crossbar pattern slot from a plane. -/
  | pxset (d : Fin 16) (a : Fin 16) (mask : Fin 8)
  /-- `pxtr` (R258). Transposes each 16 × 16 block of a plane. -/
  | pxtr (d : Fin 16) (a : Fin 16) (mask : Fin 8)
  /-- `rvadd` (R268). Reversible addition pushing the rounding remainder. -/
  | rvadd (d : Fin 16) (a : Fin 16) (b : Fin 16) (mask : Fin 8) (sub : Fin 8)
  /-- `unadd` (R268). Pops an rvadd entry and rebuilds the operand. -/
  | unadd (d : Fin 16) (a : Fin 16) (b : Fin 16) (sub : Fin 8)
  /-- `rvmul` (R268). Reversible multiplication pushing the remainder. -/
  | rvmul (d : Fin 16) (a : Fin 16) (b : Fin 16) (mask : Fin 8) (sub : Fin 8)
  /-- `unmul` (R268). Pops an rvmul entry and rebuilds the operand. -/
  | unmul (d : Fin 16) (a : Fin 16) (b : Fin 16) (sub : Fin 8)
  /-- `rvnarrow` (R270). Narrows f32 to BF16 into one half, pushing low halves and carries. -/
  | rvnarrow (d : Fin 16) (a : Fin 16) (b : Fin 16) (mask : Fin 8) (sub : Fin 8)
  /-- `unnarrow` (R270). Rebuilds the f32 plane from one BF16 half and its entry. -/
  | unnarrow (d : Fin 16) (a : Fin 16) (b : Fin 16) (sub : Fin 8)
  /-- `rvscale` (R269). Reversible scaling by 2^s. -/
  | rvscale (d : Fin 16) (a : Fin 16) (r : Fin 64) (mask : Fin 8) (sub : Fin 8)
  /-- `unscale` (R269). Undoes rvscale. -/
  | unscale (d : Fin 16) (a : Fin 16) (sub : Fin 8)
  /-- `rvlrelu` (R269). Reversible leaky ReLU with slope 2^-k. -/
  | rvlrelu (d : Fin 16) (a : Fin 16) (b : Fin 16) (mask : Fin 8) (sub : Fin 8)
  /-- `unlrelu` (R269). Undoes rvlrelu. -/
  | unlrelu (d : Fin 16) (a : Fin 16) (sub : Fin 8)
  /-- `rvcvt` (R271). Reversible conversion to FP8 into one element. -/
  | rvcvt (d : Fin 16) (a : Fin 16) (b : Fin 16) (mask : Fin 8) (sub : Fin 8)
  /-- `uncvt` (R271). Rebuilds f32 from an FP8 element and its remainder. -/
  | uncvt (d : Fin 16) (a : Fin 16) (b : Fin 16) (sub : Fin 8)
  /-- `rvmark` (R272). Pushes a marker entry carrying a scalar. -/
  | rvmark (r : Fin 64) (sub : Fin 8)
  /-- `unmark` (R272). Pops a marker and checks its tag and value. -/
  | unmark (r : Fin 64) (sub : Fin 8)
  /-- `rvspill` (R273). Marks resident Tailrace entries for spill, optionally waiting. -/
  | rvspill (r : Fin 64) (wt : Bool)
  /-- `rvinfo` (R274). Returns Tailrace information into a scalar. -/
  | rvinfo (r : Fin 64) (sub : Fin 8)
  /-- `tload` (R288). Starts loading and checking a tensor identifier entry into a tensor register. -/
  | tload (d : Fin 64) (a : Fin 64) (imm : BitVec 11)
  /-- `tset` (R289). Writes one view part of a tensor register. -/
  | tset (d : Fin 64) (a : Fin 64) (imm : BitVec 11)
  /-- `mma` (R297). Issues a matrix multiply-accumulate command into an accumulator tile. -/
  | mma (acc : Fin 8) (a : Fin 16) (b : Fin 16) (pf : Fin 32) (clr : Bool) (ret : Bool) (ta : Bool) (tb : Bool)
  /-- `mmag` (R297). Issues a matrix command whose A rows are gathered by an index plane. -/
  | mmag (acc : Fin 8) (a : Fin 16) (b : Fin 16) (pf : Fin 32) (ix : Fin 16) (clr : Bool) (ret : Bool) (tb : Bool)
  /-- `mret` (R303). Issues a command that converts and writes a tile into a handle. -/
  | mret (h : Fin 64) (r : Fin 64) (acc : Fin 8) (fmt : Fin 8) (pub : Bool) (clr : Bool) (rm : Fin 4) (sat : Bool)
  /-- `mclr` (R307). Issues a command that zeroes a tile. -/
  | mclr (acc : Fin 8)
  /-- `mld` (R305). Issues a command that loads a tile from a handle. -/
  | mld (h : Fin 64) (r : Fin 64) (acc : Fin 8) (fmt : Fin 4) (gen : Bool)
  /-- `mwait` (R308). Stalls until a tile is not busy. -/
  | mwait (acc : Fin 8)
  /-- `mwait.all` (R308). Stalls until both Millstone command sets are empty. -/
  | mwaitAll
  /-- `mprof` (R309). Starts profile setup of the Millstone when idle. -/
  | mprof (pf : Fin 32)
  /-- `flow` (R335). Latches a chain and a register snapshot into a Flume channel's shadow set. -/
  | flow (a : Fin 64) (ch : Fin 2)
  /-- `fpoll` (R336). Returns a Flume channel status word. -/
  | fpoll (d : Fin 64) (ch : Fin 2)
  /-- `fhalt` (R337). Halts a Flume channel, abandoning unstarted records. -/
  | fhalt (ch : Fin 2)
  /-- `hdef` (R338). Defines a handle's region and banking. -/
  | hdef (h : Fin 64) (r : Fin 64) (dbl : Bool)
  /-- `hset` (R339). Sets a handle's generation and swizzle tag. -/
  | hset (h : Fin 64) (tag : Fin 4) (gen : Bool)
  /-- `await` (R340). Waits, or yields, until a handle is ready with a generation. -/
  | await (h : Fin 64) (yld : Bool) (gen : Bool)
  /-- `hrel` (R339). Releases a handle to empty or draining. -/
  | hrel (h : Fin 64)
  /-- `hpub` (R339). Publishes a handle after the core's stores to it land. -/
  | hpub (h : Fin 64)
  /-- `wpost` (R342). Appends a collective descriptor to a communicator queue. -/
  | wpost (a : Fin 64) (b : Fin 64)
  /-- `wpoll` (R346). Returns a communicator status word. -/
  | wpoll (d : Fin 64) (a : Fin 64)
  /-- `wcomm` (R346). Returns one fact of a communicator. -/
  | wcomm (d : Fin 64) (a : Fin 64) (sub : Fin 8)
  /-- `wbar` (R346). Posts a barrier operation on a communicator. -/
  | wbar (a : Fin 64)
  /-- `phase` (R324). Arrives at a phase barrier of a scope and stalls until it completes. -/
  | phase (scope : Fin 8)
  /-- `fence` (R327). Stalls until earlier loads and atomics have performed. -/
  | fence
  /-- `atom` (R329). Sends an immediate atomic to the memory-side atomic unit. -/
  | atom (d : Fin 64) (a : Fin 64) (b : Fin 64) (w : Width) (sp : Bool) (rt : Bool)
  /-- `cas` (R329). Sends a compare-and-swap to the atomic unit. -/
  | cas (d : Fin 64) (a : Fin 64) (b : Fin 64) (w : Width) (sp : Bool)
  /-- `oatom` (R330). Sends one ordered update, held until a phase closes it. -/
  | oatom (d : Fin 64) (a : Fin 64) (b : Fin 64) (w : Width) (sp : Bool)
  /-- `oatom.p` (R330). Sends one ordered update per active lane of an address plane. -/
  | oatomP (d : Fin 16) (a : Fin 16) (b : Fin 64)
  /-- `bar` (R325). Arrives at a barrier of a scope without releasing anything. -/
  | bar (scope : Fin 8)
  /-- `ostep` (R333). Casts a vote in the gang-wide optimiser-step vote. -/
  | ostep (d : Fin 64) (a : Fin 64)
  /-- `mbtag` (R334). Writes sr.mbtag. -/
  | mbtag (a : Fin 64)
  /-- `trap` (R436). Raises a program trap, or halts under TSTOP. -/
  | trap (imm : BitVec 17)
  /-- `resume` (R438). Resolves a fault-queue entry from a program. -/
  | resume (d : Fin 64) (a : Fin 64) (b : Fin 64)
  /-- `yield` (R372). Suspends the continuation as ready at the next bundle. -/
  | yieldItem
  /-- `end` (R372). Ends the continuation and frees its pool entry. -/
  | endItem
  /-- `mfsr` (R205). Reads a system register into a scalar. -/
  | mfsr (d : Fin 64) (imm : BitVec 17)
  /-- `mtsr` (R205). Writes a system register from a scalar. -/
  | mtsr (d : Fin 64) (imm : BitVec 17)
  /-- `snap` (R439). Fires the snapshot trigger when enabled. -/
  | snap (imm : BitVec 17)
  /-- `halt` (R436). Enters the debug halted state, or traps when no debugger is attached. -/
  | halt
  /-- `sysc` (R437). Parks the continuation with a system-call fault-queue entry. -/
  | sysc (d : Fin 64) (imm : BitVec 17)
  /-- Event EXPOSED_RESULT_LAND (R185). An exposed-latency result lands in its register and bypass latch at its schedule cycle. -/
  | exposedResultLand (core : Nat)
  /-- Event HIDDEN_RESULT_LAND (R188). A hidden-latency load or atomic returns, lands and clears its busy bit. -/
  | hiddenResultLand (core : Nat) (q : Queue)
  /-- Event GOVERNOR_TICK (R191). Each cycle the Governor charges ready bundles and waves against LIMIT or freezes. -/
  | governorTick (core : Nat)
  /-- Event TABLE_WALK (R35). A walker, once granted, walks the six-level translation tables for a miss. -/
  | tableWalk (core : Nat)
  /-- Event LATE_FAULT (R432). An access faults after younger bundles issued; the scoreboard is saved. -/
  | lateFault (core : Nat)
  /-- Event FAULT_ENTRY_WRITE (R426). A fault-queue entry is written once the ring has room and TAIL advances. -/
  | faultEntryWrite (vd : Nat)
  /-- Event LAUNCH_FAULT_END (R425). A non-recoverable fault ends the launch, stopping cores and engines and writing the fault frame. -/
  | launchFaultEnd (core : Nat)
  /-- Event ATOMIC_PERFORM (R329). The atomic unit performs an immediate atomic indivisibly. -/
  | atomicPerform (core : Nat) (q : Queue)
  /-- Event OATOM_ARRIVE (R331). An ordered update reaches its atomic unit and is held or logged. -/
  | oatomArrive (core : Nat)
  /-- Event PHASE_COMPLETE (R324). All participants have arrived; stores are released and the phase completes. -/
  | phaseComplete (core : Nat)
  /-- Event BARRIER_COMPLETE (R325). All participants have arrived at a bar and leave together. -/
  | barrierComplete (core : Nat)
  /-- Event OSTEP_VOTE_COMPLETE (R333). The k-th gang vote completes and sr.ostep advances unless a flag was set. -/
  | ostepVoteComplete (core : Nat)
  /-- Event GRANULE_SPILL (R128). A touch by another gang spills the owner's granule to its save area. -/
  | granuleSpill (core : Nat) (gran : Nat)
  /-- Event GRANULE_RESTORE (R128). A touch restores the accessor's spilled granule copy. -/
  | granuleRestore (core : Nat) (gran : Nat)
  /-- Event HANDLE_SWAP (R136). A double-banked handle's banks swap once its swap condition holds. -/
  | handleSwap (core : Nat) (h : Fin 64)
  /-- Event FLUME_RECORD_FETCH (R110). A channel fetches and checks the next record of its chain. -/
  | flumeRecordFetch (core : Nat) (ch : Fin 2)
  /-- Event FLUME_RECORD_START (R111). A record whose waits and handle claims are satisfied checks its extent and streams. -/
  | flumeRecordStart (core : Nat) (ch : Fin 2)
  /-- Event FLUME_RECORD_COMPLETE (R110). All writes have landed; CTRL is rewritten, handles released or published and DONE advances. -/
  | flumeRecordComplete (core : Nat) (ch : Fin 2)
  /-- Event TLOAD_COMPLETE (R288). A tensor entry, scales and codebook are in place and the register's busy bit clears. -/
  | tloadComplete (core : Nat)
  /-- Event MILLSTONE_LATCH_FILL (R294). The operand latch fill ends and reader counts are returned. -/
  | millstoneLatchFill (core : Nat)
  /-- Event MILLSTONE_WAVE (R319). One self-timed wave completes. -/
  | millstoneWave (core : Nat)
  /-- Event MILLSTONE_COMMAND_COMPLETE (R311). A command completes, landing writes, clearing busy bits and counting its token. -/
  | millstoneCommandComplete (core : Nat)
  /-- Event TAILRACE_SPILL_COMPLETE (R275). A Tailrace entry's spill writes land and it leaves the ring. -/
  | tailraceSpillComplete (core : Nat)
  /-- Event TAILRACE_REFILL_COMPLETE (R275). A refilled entry lands in the ring and the Tailrace busy bit clears. -/
  | tailraceRefillComplete (core : Nat)
  /-- Event SUSPEND_COMMIT (R372). After the suspension wait, the pool entry records the continuation's state. -/
  | suspendCommit (core : Nat)
  /-- Event WINDLASS_OP_START (R342). An operation reaches the head of its queue and its descriptor is read and checked. -/
  | windlassOpStart (vd : Nat) (comm : Nat)
  /-- Event WINDLASS_CHUNK_START (R345). At a chunk boundary the highest-priority eligible communicator starts a chunk. -/
  | windlassChunkStart (port : Nat) (vd : Nat) (comm : Nat)
  /-- Event WINDLASS_OP_COMPLETE (R344). An operation completes: OWN clears, PH is published and DONE advances. -/
  | windlassOpComplete (vd : Nat) (comm : Nat)
  /-- Event INVALIDATION_START (R47). A write of MTINVN starts an invalidation, or is dropped with OVF. -/
  | invalidationStart (vd : Nat) (count : BitVec 52)
  /-- Event INVALIDATION_COMPLETE (R44). An invalidation completes and MTISTAT.DONE advances. -/
  | invalidationComplete (vd : Nat)
  /-- Event BWLIM_WRITE (R55). Configures all channel limiters of a virtual device, or is refused. -/
  | bwlimWrite (vd : Nat) (v : BitVec 64)
  /-- Event LIMITER_TICK (R56). Each cycle a channel limiter refills and admits requests in order. -/
  | limiterTick (vd : Nat) (chan : Nat)
  /-- Event KEY_GENERATE (R54). Fills an empty key slot from the entropy source. -/
  | keyGenerate
  /-- Event KEY_LOAD (R54). Fills an empty key slot from KDATA0-7. -/
  | keyLoad
  /-- Event KEY_ZEROISE (R54). Moves a loaded key slot to zeroising. -/
  | keyZeroise
  /-- Event KEY_ZEROISE_COMPLETE (R54). Admitted accesses finish and the slot is cleared to empty. -/
  | keyZeroiseComplete (slot : Nat)
  /-- Event GOVCTL_WRITE (R194). Sets the Governor limit, raising values below 256. -/
  | govctlWrite (v : BitVec 64)
  /-- Event QBWLIM_WRITE (R402). Configures the Quija injection limiter, or is refused. -/
  | qbwlimWrite (vd : Nat) (v : BitVec 64)
  /-- Event REGISTER_WRITE (R7). Writes a register field that has no behaviour of its own. -/
  | registerWrite (reg : MReg) (v : BitVec 64)
  /-- Event KICK (R381). A doorbell TAIL write kicks a launch queue, or is refused or latched in PEND. -/
  | kick (vd : Nat) (q : Nat) (tail : BitVec 32)
  /-- Event HINT (R388). Preloads the named launch record's code image. -/
  | hint (vd : Nat) (va : BitVec 64)
  /-- Event LSTAT_INV (R380). Drops every resident and preloaded code image of the virtual device. -/
  | lstatInv (vd : Nat)
  /-- Event CCFG_WRITE (R393). Sets completion interrupt enable and window, closing an open window when IE clears. -/
  | ccfgWrite (vd : Nat) (v : BitVec 64)
  /-- Event COALESCE_WINDOW_CLOSE (R393). The coalescing window expires and one interrupt is sent. -/
  | coalesceWindowClose (vd : Nat)
  /-- Event LAUNCH_RECORD_FETCH (R364). The Sluice reads a ring entry and launch record, checks it and arms its node. -/
  | launchRecordFetch (vd : Nat) (q : Nat)
  /-- Event PRELOAD (R387). A free standby bank is loaded with a coming launch's code image. -/
  | preload (cluster : Nat) (launch : Nat)
  /-- Event LAUNCH_START (R378). A selected launch starts on its granted clusters once they are idle. -/
  | launchStart (launch : Nat) (grant : List Nat)
  /-- Event LAUNCH_SKIP (R385). A ready launch with a failed predecessor and RUNF 0 is skipped with status 2. -/
  | launchSkip (launch : Nat)
  /-- Event WORK_ITEM_START (R371). An idle core or flight starts a new work item in a free pool entry. -/
  | workItemStart (core : Nat) (widx : Nat) (entry : Nat)
  /-- Event CONTINUATION_RESUME (R371). An idle core takes a ready suspended continuation and restores it. -/
  | continuationResume (core : Nat) (entry : Nat)
  /-- Event LAUNCH_COMPLETE (R390). A finished launch writes its completion record, updates successors and advances its queue. -/
  | launchComplete (launch : Nat)
  /-- Event FQRES_WRITE (R428). A write of FQRES resolves a fault-queue entry with a settling mask. -/
  | fqresWrite (vd : Nat) (seq : BitVec 32) (mask : BitVec 16)
  /-- Event PARKED_RESTORE (R428). A resolved parked continuation is restored on an idle core and its pending accesses settle. -/
  | parkedRestore (vd : Nat) (seq : Nat) (core : Nat)
  /-- Event PARK_FRAME_CONFIG_WRITE (R429). Writes PFBASE or PFCNT, ignored while a launch runs or a frame is in use. -/
  | parkFrameConfigWrite (vd : Nat) (cnt : Bool) (v : BitVec 64)
  /-- Event PCREATE (R396). Creates an empty partition. -/
  | pcreate (part : Nat)
  /-- Event PGRANT (R399). Grants free resources to a partition. -/
  | pgrant (part : Nat)
  /-- Event PREVOKE (R419). Takes resources back from a partition, refused while in use. -/
  | prevoke (part : Nat)
  /-- Event PDESTROY (R396). Frees every resource of an empty partition. -/
  | pdestroy (part : Nat)
  /-- Event VDCREATE (R403). Creates a virtual device with its gang-of-one save area. -/
  | vdcreate (part : Nat)
  /-- Event VDSCHED (R401). Sets a virtual device's weight and quantum. -/
  | vdsched (part : Nat)
  /-- Event VDSTOP (R420). Stops a virtual device and writes its dirty report. -/
  | vdstop (part : Nat)
  /-- Event VDDESTROY (R396). Removes a stopped virtual device. -/
  | vddestroy (part : Nat)
  /-- Event GJOIN (R403). Makes a virtual device this device's member of a gang. -/
  | gjoin (part : Nat)
  /-- Event GRETIRE (R405). Retires a gang that is not running. -/
  | gretire (part : Nat)
  /-- Event SLOTW (R406). Writes one row of this device's slot column. -/
  | slotw (part : Nat)
  /-- Event BFILLW (R408). Writes one backfill list entry. -/
  | bfillw (part : Nat)
  /-- Event CCREATE (R416). Creates a Windlass communicator. -/
  | ccreate (part : Nat)
  /-- Event CDESTROY (R416). Destroys an idle communicator. -/
  | cdestroy (part : Nat)
  /-- Event SLOT_ROW_EXPIRE (R407). The slot master's row duration elapses and the next row starts. -/
  | slotRowExpire (part : Nat)
  /-- Event QUANTUM_EXPIRE (R407). A gang's quantum ends and its switch vote starts. -/
  | quantumExpire (gang : Nat)
  /-- Event SLOT (R407). A slot message on the control lane starts a row on a device. -/
  | slot (part : Nat) (row : Nat) (epoch : Nat) (backfill : List Nat)
  /-- Event PREPARE (R411). A member checks Sump room and save deadline and halts or refuses. -/
  | prepare (gang : Nat) (epoch : BitVec 32)
  /-- Event REFUSE (R412). The coordinator receives a refusal and aborts the vote. -/
  | refuse (gang : Nat) (epoch : BitVec 32) (dev : Nat) (reason : Nat)
  /-- Event REPORT (R412). The coordinator receives a member's sent and received sums. -/
  | report (gang : Nat) (epoch : BitVec 32) (dev : Nat) (sent : List (BitVec 64)) (received : List (BitVec 64))
  /-- Event QUERY (R411). A halted member sends a new REPORT. -/
  | query (gang : Nat) (epoch : BitVec 32)
  /-- Event CAPTURE (R413). A member starts capturing arriving gang packets into its Sump. -/
  | capture (gang : Nat) (epoch : BitVec 32)
  /-- Event COMMIT (R414). Each cluster of the gang settles by drain, save or discard. -/
  | commit (gang : Nat) (epoch : BitVec 32)
  /-- Event ABORT (R411). A member resumes injection and the gang continues. -/
  | abort (gang : Nat) (epoch : BitVec 32)
  /-- Event DONE (R412). The coordinator counts a member's settling; when all are in, the gang is out. -/
  | doneMessage (gang : Nat) (epoch : BitVec 32) (dev : Nat)
  /-- Event RESUME_MESSAGE (R415). A member restores contexts, re-injects its Sump and restarts discarded launches. -/
  | resumeMessage (gang : GangEpoch)
  /-- Event ROLLBACK (R442). Restores the gang on every member to its last checkpoint and re-executes. -/
  | rollback (gang : Nat)
  /-- Event BARRIER_ARRIVAL (R484). A control-lane barrier or phase arrival from another member. -/
  | barrierArrival (gang : Nat) (dev : Nat) (word : GangWord)
  /-- Event BARRIER_RELEASE (R484). A control-lane barrier or phase release from another member. -/
  | barrierRelease (gang : Nat) (dev : Nat) (word : GangWord)
  /-- Event OSTEP_FLAG (R333). A member's combined ostep skip flag on the control lane. -/
  | ostepFlag (gang : Nat) (dev : Nat) (flag : GangFlag)
  /-- Event OSTEP_RESULT (R333). The ostep vote result on the control lane. -/
  | ostepResult (gang : Nat) (result : GangFlag)
  /-- Event SNAPSHOT_TRIGGER (R448). A control-lane snapshot trigger latches this member's snapshot registers. -/
  | snapshotTrigger (vd : Nat)
  /-- Event VOTE_POLL_TICK (R412). Every 1 µs the coordinator compares sums and sends COMMIT, CAPTURE or QUERY. -/
  | votePollTick (gang : Nat)
  /-- Event VOTE_RETRY (R412). 20 µs after a refusal the coordinator retries PREPARE. -/
  | voteRetry (gang : Nat)
  /-- Event CHUNKS_DRAINED (R411). A halting member's chunks in progress finish and it sends REPORT. -/
  | chunksDrained (gang : Nat)
  /-- Event CLUSTER_SETTLED (R411). The last cluster of the gang settles and the member sends DONE. -/
  | clusterSettled (gang : Nat) (cluster : Nat)
  /-- Event RESTORE_DONE (R411). Restore and re-injection finish and the gang runs again. -/
  | restoreDone (gang : Nat)
  /-- Event MEMBER_SILENT_TIMEOUT (R443). A member silent for 1 ms during a vote is treated as failed. -/
  | memberSilentTimeout (gang : Nat) (dev : Nat)
  /-- Event CHECKPOINT_TIMER (R441). The CKUS interval expires and a checkpoint vote starts. -/
  | checkpointTimer (gang : Nat)
  /-- Event UNDO_LOG_THRESHOLD (R441). The undo log reaches 90 % full and starts a checkpoint. -/
  | undoLogThreshold (gang : Nat)
  /-- Event MIRROR_COMPLETE (R443). The mirror copy to the peer completes and the checkpoint is committed. -/
  | mirrorComplete (gang : Nat)
  /-- Event UNCORRECTABLE_ERROR (R440). An uncorrectable error rolls a gang back, retires a spare or fails the device. -/
  | uncorrectableError (site : ErrorSite)
  /-- Event QUIJA_PACKET_RECEIVE (R482). A Quija packet arrives and is delivered, captured or dropped. -/
  | quijaPacketReceive (port : Nat) (pkt : PacketIn)
  /-- Event LINK_REPLAY (R485). An uncorrectable codeword makes the receiver request a replay. -/
  | linkReplay (port : Nat)
  /-- Event LINK_RETRAIN_TIMEOUT (R485). A Quija port that cannot retrain within 1 ms goes down. -/
  | linkRetrainTimeout (port : Nat)
  /-- Event SEUST_RETRAIN_TIMEOUT (R476). A Seust link that cannot retrain within 1 ms stays down. -/
  | seustRetrainTimeout
  /-- Event MRD (R475). A host management-window or kick-page read, answered by ACK. -/
  | mrd (func : Nat) (tag : Nat) (off : BitVec 64)
  /-- Event MWR (R475). A host management-window or kick-page write, answered by ACK. -/
  | mwr (func : Nat) (tag : Nat) (off : BitVec 64) (v : BitVec 64)
  /-- Event HRD (R475). A host read of a virtual device's M space, answered with data. -/
  | hrd (func : Nat) (tag : Nat) (vd : Nat) (va : BitVec 64) (len : Nat)
  /-- Event HWR (R475). A host write of a virtual device's M space. -/
  | hwr (func : Nat) (tag : Nat) (vd : Nat) (va : BitVec 64) (data : List Byte)
  /-- Event DBG_HALT (R445). Halts every core of the running launch at a bundle boundary. -/
  | dbgHalt (vd : Nat)
  /-- Event DBG_RUN (R445). Releases the halted launch. -/
  | dbgRun (vd : Nat)
  /-- Event DBG_STEP (R446). Moves every halted core by exactly one core cycle. -/
  | dbgStep (vd : Nat)
  /-- Event DBG_RUN_MILLSTONE (R446). Runs the named core's active Millstone command to completion. -/
  | dbgRunMillstone (vd : Nat) (core : Nat)
  /-- Event DBG_DUMP (R445). Writes the named core's context to the fault frame. -/
  | dbgDump (vd : Nat) (core : Nat)
  /-- Event DBG_LOAD (R445). Writes the fault frame back into the named core. -/
  | dbgLoad (vd : Nat) (core : Nat)
  /-- Event SNSTAT_FIRE (R448). A debugger write fires the snapshot trigger. -/
  | snstatFire (vd : Nat)
  /-- Event THERMAL_THROTTLE (R488). TJ above 105 °C halves every Governor limit. -/
  | thermalThrottle (tj : BitVec 16)
  /-- Event THERMAL_HOLD (R488). TJ at 115 °C stops every core and holds every Millstone. -/
  | thermalHold (tj : BitVec 16)
  /-- Event THERMAL_HOLD_END (R488). TJ below 100 °C ends a hold and issue resumes. -/
  | thermalHoldEnd (tj : BitVec 16)
  /-- Event THERMAL_HOLD_TIMEOUT (R488). A hold lasting 10 ms treats the device as failed. -/
  | thermalHoldTimeout
  /-- Event THERMTRIP (R488). TJ at 125 °C or a sensor fault asserts THERMTRIP_N and loses all state. -/
  | thermtrip
  /-- Event BRING_UP (R490). PWROK asserted and RST_N released run the bring-up steps. -/
  | bringUp (ok : Bool)
  /-- Event PWROK_DEASSERT (R487). PWROK deasserted with rails in range stops the device as at a thermal trip. -/
  | pwrokDeassert
  /-- Event DEVICE_RESET (R480). A DEVCTL.RESET write ends every launch, clears partitions and keys and restarts bring-up. -/
  | deviceReset
  /-- Event THERMAL_THROTTLE_END (R488). TJ falls back to 105 °C or below, THROT clears, ALERT_N deasserts and every Governor limit returns to LIMIT. -/
  | thermalThrottleEnd (tj : BitVec 16)
  /-- Event QUIJA_LINK_UP (R486). A Quija port finishes training or retraining and QPSTAT.UP becomes 1. -/
  | quijaLinkUp (port : Nat)
  /-- Event PORT_RETRAIN (R485). A Quija receiver loses its link and starts retraining, which starts the 1 ms retrain timer. -/
  | portRetrain (port : Nat)
  /-- Event SEUST_LINK_UP (R476). The Seust link is trained or retrained and comes up, and the INTs held while it was down leave. -/
  | seustLinkUp
  /-- Event SEUST_LINK_RETRAIN (R476). The Seust link loses its footing and starts retraining, which starts its 1 ms timer. -/
  | seustLinkRetrain
  /-- Event RST_N_ASSERT (R489). The RST_N pin is asserted low, which holds the device in reset until its release restarts bring-up. -/
  | rstNAssert
  /-- Event SEUST_MALFORMED_PACKET (R477). A Seust packet arrives with a malformed header, a host-sent INT or ACK type, or a TAG still outstanding; it is answered with status 3 or dropped. `readable` says whether FUNC and TAG can be read; `flits` is the length of the packet. -/
  | seustMalformedPacket (readable : Bool) (header : BitVec 64) (flits : Nat)
  deriving DecidableEq, Repr

end Sys2Proof
end

