-- ==== Sys2Proof/Machine/Legal.lean ====
section
/-! DEFINITION. Operand legality: which operand values of each instruction word the spec accepts (R154-R166 and
each instruction's own definition). An instruction word whose operands fail here raises IENC. -/

namespace Sys2Proof.Machine

/-- R158: a single source names s0-s55 or a bypass latch, 0-60. -/
def srcOk (r : Fin 64) : Bool := r.val ≤ 60

/-- R158: a single destination names s0-s55. -/
def dstOk (r : Fin 64) : Bool := r.val ≤ 55

/-- R160: the first register of an `n`-register group: aligned, not s0, inside s1-s55. -/
def groupOk (n : Nat) (r : Fin 64) : Bool := r.val % n == 0 && r.val != 0 && r.val + n ≤ 56

/-- R158, R160: a source of width `w`. -/
def srcW (w : Width) (r : Fin 64) : Bool := if w = .s then srcOk r else groupOk w.regs r

/-- R158, R160: a destination of width `w`. -/
def dstW (w : Width) (r : Fin 64) : Bool := if w = .s then dstOk r else groupOk w.regs r

/-- R167, R213: an aligned non-zero pair. -/
def pairOk (r : Fin 64) : Bool := groupOk 2 r

/-- R162: the `n` registers from `d` and the `m` registers from `a` are the same set or disjoint. -/
def apart (d n a m : Nat) : Bool := (d == a && n == m) || d + n ≤ a || a + m ≤ d

/-- R160: integer arithmetic accepts single and .d. -/
def widthSD (w : Width) : Bool := w = .s || w = .d

/-- R196: a three-operand integer word in which every operand has width `w`. -/
def legalABC (w : Width) (d a b : Fin 64) : Bool := widthSD w && dstW w d && srcW w a && srcW w b

/-- R197, R201: as `legalABC` with b single. -/
def legalABs (w : Width) (d a b : Fin 64) : Bool :=
  widthSD w && dstW w d && srcW w a && srcOk b && apart d w.regs b 1

/-- R197: a comparison, whose destination is single. R162 restricts wider destinations only, so it may lie in a source pair. -/
def legalCmp (w : Width) (d a b : Fin 64) : Bool := widthSD w && dstOk d && srcW w a && srcW w b

/-- R163: the plane group of `n` planes that starts at `p` is aligned. -/
def planesOk (n : Nat) (p : Fin 16) : Bool := p.val % n == 0

/-- R163: the planes of a group, by pw; pw = 3 raises IENC. -/
def pwPlanes (pw : Fin 4) : Nat := if pw.val = 0 then 1 else if pw.val = 1 then 2 else 4

/-- R163: pw and the alignment of one plane operand. -/
def legalP1 (pw : Fin 4) (d : Fin 16) : Bool := pw.val ≤ 2 && planesOk (pwPlanes pw) d
/-- R163: as `legalP1` for two operands. -/
def legalP2 (pw : Fin 4) (d a : Fin 16) : Bool := legalP1 pw d && planesOk (pwPlanes pw) a
/-- R163: as `legalP1` for three operands. -/
def legalP3 (pw : Fin 4) (d a b : Fin 16) : Bool := legalP2 pw d a && planesOk (pwPlanes pw) b

/-- R164: a type and sub without a variant of the instruction's own: sub[2:1] = 0 where sub[0] is the element
variant, sub = 0 elsewhere. -/
def subNone (ty sub : Fin 8) : Bool :=
  if ty.val = 3 || ty.val = 6 || ty.val = 7 then sub.val ≤ 1 else sub.val = 0

/-- R238: type and sub of `padd`, `psub`, `pmul`, `pfma` and their kin: rounding variants for the floats,
saturation for the integers. -/
def subArith (ty sub : Fin 8) : Bool :=
  if ty.val ≤ 2 then sub.val ≤ 4
  else if ty.val = 3 then false
  else if ty.val ≤ 5 then sub.val ≤ 1
  else sub.val ≤ 3

/-- R165: a predicate operand, 0-12. -/
def predOk (p : Fin 16) : Bool := p.val ≤ 12

/-- R165: a predicate destination, 1-12. -/
def predDst (p : Fin 16) : Bool := p.val ≤ 12 && p.val != 0

/-- R156: the scope codes 0-4. -/
def scopeOk (sc : Fin 8) : Bool := sc.val ≤ 4

/-- R167: the width in bits of a tabled system register, 0 for a number not tabled. -/
def sysregBits (n : Nat) : Nat :=
  if n ≤ 4 || n = 0x10 || n = 0x11 || n = 0x21 || n = 0x22 || n = 0x30 || n = 0x31 || n = 0x32 || n = 0x40 then 32
  else if n = 0x20 || n = 0x41 || n = 0x50 || n = 0x51 then 64
  else 0

/-- R167: the registers that `mtsr` may write. -/
def sysregWritable (n : Nat) : Bool := n = 0x20 || n = 0x21 || n = 0x22 || n = 0x31 || n = 0x32

/-- R164: elements per lane of a type code. -/
def elems (ty : Nat) : Nat := if ty = 1 || ty = 2 || ty = 6 then 2 else if ty = 3 || ty = 7 then 4 else 1

/-- R164: types 3, 6 and 7 carry an element variant. -/
def hasVariant (ty : Nat) : Bool := ty = 3 || ty = 6 || ty = 7

/-- R248: planes of the destination group of a conversion, times the destination's elements per lane. -/
def cvtSrcElems (b : Fin 16) (pw : Fin 4) : Nat := pwPlanes pw * elems (b.val % 8)

/-- R248: planes of the destination group of a conversion. -/
def cvtPlanes (b : Fin 16) (pw : Fin 4) (ty : Fin 8) : Nat := cvtSrcElems b pw / elems ty.val

/-- R248, R249: the operands of `pcvt`. -/
def legalCvt (d a b : Fin 16) (pw : Fin 4) (ty sub : Fin 8) : Bool :=
  pw.val ≤ 2 && planesOk (pwPlanes pw) a
  && (b.val < 8 || hasVariant (b.val % 8))
  && cvtSrcElems b pw % elems ty.val == 0
  && (cvtPlanes b pw ty = 1 || cvtPlanes b pw ty = 2 || cvtPlanes b pw ty = 4)
  && planesOk (cvtPlanes b pw ty) d
  && apart d (cvtPlanes b pw ty) a (pwPlanes pw)
  && (hasVariant ty.val || sub.val ≤ 5)

/-- R329: registers of an atomic's address, one for G and a pair for M. -/
def addrRegs (sp : Bool) : Nat := if sp then 2 else 1

/-- R329: the address operand of an atomic. -/
def addrOk (a : Fin 64) (sp : Bool) : Bool := if sp then pairOk a else srcOk a

/-- R329: an address register of an atomic that lies in d's group makes the word illegal, also where the two are the same registers
(log 12). s0 and the bypass names are no registers in the sense of R169. -/
def addrApart (d a : Fin 64) (w : Width) (sp : Bool) : Bool := a.val = 0 || 56 ≤ a.val || d.val + w.regs ≤ a.val || a.val + addrRegs sp ≤ d.val

/-- R328, R329: operation, widths and address of `atom` and scalar `oatom`. -/
def legalAtom (d a b : Fin 64) (w : Width) (sp : Bool) : Bool :=
  widthSD w && b.val ≤ 11 && (b.val ≤ 8 || w = .s) && addrOk a sp && addrApart d a w sp

/-- R147, R154, R157: the operands of an instruction word are ones its definition accepts. An event has no
operand fields, and every event is legal. -/
def legal : Instr → Bool
  | .nop => true
  | .add d a b w => legalABC w d a b
  | .sub d a b w => legalABC w d a b
  | .and d a b w => legalABC w d a b
  | .or d a b w => legalABC w d a b
  | .xor d a b w => legalABC w d a b
  | .andn d a b w => legalABC w d a b
  | .orn d a b w => legalABC w d a b
  | .min d a b w => legalABC w d a b
  | .max d a b w => legalABC w d a b
  | .minn d a b w => legalABC w d a b
  | .maxn d a b w => legalABC w d a b
  | .mul d a b w => legalABC w d a b
  | .div d a b w => legalABC w d a b
  | .divn d a b w => legalABC w d a b
  | .rem d a b w => legalABC w d a b
  | .remn d a b w => legalABC w d a b
  | .shl d a b w => legalABs w d a b
  | .shr d a b w => legalABs w d a b
  | .sar d a b w => legalABs w d a b
  | .rotl d a b w => legalABs w d a b
  | .ceq d a b w => legalCmp w d a b
  | .clt d a b w => legalCmp w d a b
  | .cltn d a b w => legalCmp w d a b
  | .cmov d a b w => dstW w d && srcW w a && srcOk b && apart d w.regs b 1
  | .mulh d a b => dstOk d && srcOk a && srcOk b
  | .mulhn d a b => dstOk d && srcOk a && srcOk b
  | .fmin d a b => dstOk d && srcOk a && srcOk b
  | .fmax d a b => dstOk d && srcOk a && srcOk b
  | .clz d a w => widthSD w && dstW w d && srcW w a
  | .popc d a w => widthSD w && dstW w d && srcW w a
  | .brev d a w => widthSD w && dstW w d && srcW w a
  | .bext d a b w _ => legalABs w d a b
  | .bins d a b w => legalABs w d a b
  | .addi d a _ => dstOk d && srcOk a
  | .andi d a _ => dstOk d && srcOk a
  | .ori d a _ => dstOk d && srcOk a
  | .xori d a _ => dstOk d && srcOk a
  | .ceqi d a _ => dstOk d && srcOk a
  | .clti d a _ => dstOk d && srcOk a
  | .cltni d a _ => dstOk d && srcOk a
  | .shli d a imm => dstOk d && srcOk a && imm.toNat < 32
  | .shri d a imm => dstOk d && srcOk a && imm.toNat < 32
  | .sari d a imm => dstOk d && srcOk a && imm.toNat < 32
  | .movi d _ => dstOk d
  | .lui d _ => dstOk d
  | .madd d a b w => legalABC w d a b
  | .lea d a b w _ _ => legalABs w d a b
  | .mov d a w => dstW w d && srcW w a
  | .ext d a w sub =>
    if sub.val ≤ 3 then w = .s && dstOk d && srcOk a
    else sub.val ≤ 5 && w = .d && dstW .d d && srcOk a && apart d 2 a 1
  | .fadd d a b sub => dstOk d && srcOk a && srcOk b && sub.val ≤ 3
  | .fsub d a b sub => dstOk d && srcOk a && srcOk b && sub.val ≤ 3
  | .fmul d a b sub => dstOk d && srcOk a && srcOk b && sub.val ≤ 3
  | .ffma d a b sub => dstOk d && srcOk a && srcOk b && sub.val ≤ 3
  | .fcmp d a b sub => dstOk d && srcOk a && srcOk b && sub.val ≤ 3
  | .fcvt d a b sub => dstOk d && srcOk a && b.val ≤ 7 && sub.val ≤ (if b.val = 5 || b.val = 7 then 0 else 3)
  | .br c _ => srcOk c
  | .brv c _ => srcOk c
  | .jmp _ => true
  | .call _ => true
  | .ret a => pairOk a
  | .jx a => pairOk a
  | .jxl d a => pairOk d && pairOk a
  | .loop c _ _ => srcOk c
  | .loopi _ _ _ => true
  | .ldl d a b w _ => dstW w d && srcOk a && srcOk b && apart d w.regs a 1 && apart d w.regs b 1
  | .ldg d a b w _ => dstW w d && srcOk a && srcOk b && apart d w.regs a 1 && apart d w.regs b 1
  | .ldk d a b w _ => dstW w d && srcOk a && srcOk b && apart d w.regs a 1 && apart d w.regs b 1
  | .ldm d a b w => dstW w d && srcOk a && srcOk b && apart d w.regs a 1 && apart d w.regs b 1
  | .stl d a b w _ => srcW w d && srcOk a && srcOk b
  | .stg d a b w _ => srcW w d && srcOk a && srcOk b
  | .stm d a b w => srcW w d && srcOk a && srcOk b
  | .ldh _ r imm => dstOk r && !imm.getLsbD 1
  | .sth _ r imm => srcOk r && !imm.getLsbD 1 && !imm.getLsbD 0
  | .pld _ _ r _ => srcOk r
  | .pldg _ _ r _ => srcOk r
  | .pst _ _ r _ => srcOk r
  | .pstg _ _ r _ => srcOk r
  | .pldh _ _ _ => true
  | .psth _ _ imm => !imm.getLsbD 0
  | .pgather _ _ _ _ => true
  | .pscatter _ _ _ _ => true
  | .scope sc => scopeOk sc
  | .limm _ => true
  | .padd d a b _ pw ty sub => legalP3 pw d a b && subArith ty sub
  | .psub d a b _ pw ty sub => legalP3 pw d a b && subArith ty sub
  | .pmul d a b _ pw ty sub => legalP3 pw d a b && subArith ty sub
  | .pfma d a b _ pw ty sub => legalP3 pw d a b && subArith ty sub
  | .pfms d a b _ pw ty sub => legalP3 pw d a b && subArith ty sub
  | .pabsd d a b _ pw ty sub => legalP3 pw d a b && subArith ty sub
  | .pmin d a b _ pw ty sub => legalP3 pw d a b && ty.val != 3 && subNone ty sub
  | .pmax d a b _ pw ty sub => legalP3 pw d a b && ty.val != 3 && subNone ty sub
  | .pclamp d a b _ pw ty sub => legalP3 pw d a b && ty.val != 3 && subNone ty sub
  | .pabs d a _ pw ty sub => legalP2 pw d a && (if ty.val ≤ 2 then sub.val = 0 else subArith ty sub)
  | .pneg d a _ pw ty sub => legalP2 pw d a && (if ty.val ≤ 2 then sub.val = 0 else subArith ty sub)
  | .pcmp d _ _ _ ty sub =>
    predDst d && ((ty.val = 0 && sub.val ≤ 4) || ((ty.val = 4 || ty.val = 5) && sub.val ≤ 3))
  | .psel d a b _ pw => legalP2 pw d a && predOk b
  | .pcvt d a b _ pw ty sub => legalCvt d a b pw ty sub
  | .pand d a b _ pw => legalP3 pw d a b
  | .por d a b _ pw => legalP3 pw d a b
  | .pxor d a b _ pw => legalP3 pw d a b
  | .pnot d a _ pw => legalP2 pw d a
  | .pmov d a _ pw => legalP2 pw d a
  | .pshl d a b _ pw ty sub => legalP3 pw d a b && 4 ≤ ty.val && subNone ty sub
  | .pshr d a b _ pw ty sub => legalP3 pw d a b && 4 ≤ ty.val && subNone ty sub
  | .psar d a b _ pw ty sub => legalP3 pw d a b && 4 ≤ ty.val && subNone ty sub
  | .pbcs _ r _ ty sub => srcOk r && subNone ty sub
  | .pins _ r _ ty sub => pairOk r && subNone ty sub
  | .pext _ r ty sub => pairOk r && subNone ty sub
  | .piota d _ pw ty sub => legalP1 pw d && 4 ≤ ty.val && subNone ty sub
  | .pmand d a b _ => predDst d && predOk a && predOk b
  | .pmor d a b _ => predDst d && predOk a && predOk b
  | .pmxor d a b _ => predDst d && predOk a && predOk b
  | .pmnot d a _ => predDst d && predOk a
  | .pvote d a _ sub =>
    predOk a && ((sub.val ≤ 2 && predDst d) || (4 ≤ sub.val && sub.val ≤ 6))
  | .pflag d _ sub =>
    (sub.val = 0 && 8 ≤ d.val && d.val ≤ 12) || (sub.val = 1 && predDst d) || (sub.val = 2 && d.val = 0)
  | .prng d _ pw sub => legalP1 pw d && sub.val ≤ 1
  | .pscale _ _ r _ ty sub => srcOk r && ty.val ≤ 2 && sub.val ≤ 4
  | .pdot2 d a b _ pw ty sub =>
    legalP3 pw d a b && (((ty.val = 1 || ty.val = 2) && sub.val ≤ 4) || (ty.val = 6 && sub.val ≤ 1))
  | .pmuls _ _ r _ ty sub => srcOk r && subArith ty sub
  | .pfmas _ _ r _ ty sub => srcOk r && subArith ty sub
  | .pround d a _ pw ty sub => legalP2 pw d a && ty.val ≤ 2 && sub.val ≤ 3
  | .paddi _ _ _ _ ty sub => 4 ≤ ty.val && subArith ty sub
  | .protRow d a k _ pw => legalP2 pw d a && k.val ≤ 63
  | .pbcRow d a k _ pw => legalP2 pw d a && k.val ≤ 63
  | .protCol d a k _ pw => legalP2 pw d a && k.val ≤ 15
  | .pbcCol d a k _ pw => legalP2 pw d a && k.val ≤ 15
  | .psumRow d a _ pw ty sub => legalP2 pw d a && subArith ty sub
  | .psumCol d a _ pw ty sub => legalP2 pw d a && subArith ty sub
  | .predRow d a _ pw ty sub => legalP2 pw d a && ty.val != 3 && sub.val ≤ (if ty.val ≤ 5 then 1 else 3)
  | .predCol d a _ pw ty sub => legalP2 pw d a && ty.val != 3 && sub.val ≤ (if ty.val ≤ 5 then 1 else 3)
  | .pspf d a _ pw ty _ => legalP2 pw d a && ty.val ≤ 2
  | .pdiv d a b _ pw ty sub => legalP3 pw d a b && ty.val ≤ 2 && sub.val ≤ 4
  | .ptrig d a _ pw ty sub => legalP2 pw d a && ty.val ≤ 2 && sub.val ≤ 1
  | .pxbar _ _ b _ => b.val ≤ 7
  | .pxset d _ _ => d.val ≤ 7
  | .pxtr _ _ _ => true
  | .rvadd _ _ _ _ _ => true
  | .rvmul _ _ _ _ _ => true
  | .unadd _ _ _ _ => true
  | .unmul _ _ _ _ => true
  | .rvnarrow _ _ b _ _ => b.val ≤ 1
  | .unnarrow _ _ b _ => b.val ≤ 1
  | .rvscale _ _ r _ _ => srcOk r
  | .unscale _ _ _ => true
  | .rvlrelu _ _ _ _ _ => true
  | .unlrelu _ _ _ => true
  | .rvcvt _ _ b _ _ => b.val ≤ 3
  | .uncvt _ _ b _ => b.val ≤ 3
  | .rvmark r _ => srcOk r
  | .unmark r _ => srcOk r
  | .rvspill r _ => srcOk r
  | .rvinfo r sub => dstOk r && sub.val ≤ 3
  | .tload d a _ => d.val ≤ 15 && srcOk a
  | .tset d a imm => d.val ≤ 15 && imm.toNat ≤ 4 && (if imm.toNat ≤ 3 then pairOk a else srcOk a)
  | .mma _ _ _ _ _ _ _ _ => true
  | .mmag _ _ _ _ _ _ _ _ => true
  | .mret _ r _ fmt _ _ rm sat =>
    srcOk r && fmt.val != 7 && (if fmt.val = 0 || fmt.val = 5 || fmt.val = 6 then rm.val = 0 else true)
      && (if fmt.val = 3 || fmt.val = 4 then true else !sat)
  | .mclr _ => true
  | .mld _ r _ fmt _ => srcOk r && fmt.val ≤ 2
  | .mwait _ => true
  | .mwaitAll => true
  | .mprof _ => true
  | .flow a _ => pairOk a
  | .fpoll d _ => pairOk d
  | .fhalt _ => true
  | .hdef _ r _ => pairOk r
  | .hset _ _ _ => true
  | .await _ _ _ => true
  | .hrel _ => true
  | .hpub _ => true
  | .wpost a b => srcOk a && pairOk b
  | .wpoll d a => pairOk d && srcOk a && apart d 2 a 1
  | .wcomm d a sub => dstOk d && srcOk a && sub.val ≤ 3
  | .wbar a => srcOk a
  | .phase sc => scopeOk sc
  | .fence => true
  | .bar sc => scopeOk sc
  | .atom d a b w sp rt => legalAtom d a b w sp && (if rt then dstW w d else srcW w d)
  | .cas d a b w sp => widthSD w && dstW w d && srcW w b && addrOk a sp && addrApart d a w sp
  | .oatom d a b w sp => legalAtom d a b w sp && srcW w d
  | .oatomP _ _ b => b.val ≤ 11
  | .ostep d a => dstOk d && srcOk a
  | .mbtag a => srcOk a
  | .trap _ => true
  | .resume d a b => srcOk d && srcOk a && srcOk b
  | .yieldItem => true
  | .endItem => true
  | .mfsr d imm => (if sysregBits imm.toNat = 64 then pairOk d else sysregBits imm.toNat = 32 && dstOk d)
  | .mtsr d imm => sysregWritable imm.toNat && (if sysregBits imm.toNat = 64 then pairOk d else srcOk d)
  | .snap _ => true
  | .halt => true
  | .sysc d _ => dstOk d
  | _ => true

end Sys2Proof.Machine
end

