-- ==== Sys2Proof/WellFormed.lean ====
section
/-! DEFINITION. Well-formed instructions: the ones whose operands the spec accepts. The rules stand in
`Machine/Legal.lean`, where a repair may mend them. -/

namespace Sys2Proof

/-- R147, R154-R167: the word's operands are legal; every event is well formed. -/
def Instr.wf (i : Instr) : Bool := Sys2Proof.Machine.legal i

end Sys2Proof
end

