-- ==== Sys2Proof/Decode.lean ====
section
/-! DEFINITION. The decoder of instruction words (R143-R167), total on any word and any bytes, and the encoder written from the
same formats. A chain of words is cut into bundles in `Machine/Bundle.lean`. -/

namespace Sys2Proof

/-- Why a word is no instruction. Each of them raises IENC at issue (R148, R154, R157). -/
inductive DecodeError where
  /-- the opcode is a dash of the map of R148, or 0xF0-0xFF -/
  | reservedOpcode
  /-- a bit or field that the format or the definition leaves unused is not 0 (R154) -/
  | reservedField
  /-- an operand, width, type or sub value that the definition does not accept (R157-R167) -/
  | illegalOperand
  /-- fewer than four bytes are left -/
  | truncated
  deriving DecidableEq, Repr

/-- Opcodes 0x0_ of the map of R148, row by row; `lo` is the low digit, `w` the 23 operand bits. -/
def decodeGroup0 (lo w : Nat) : Except DecodeError Instr :=
  match lo with
  | 0 => if w % 2 ^ 23 = 0 then .ok (.nop) else .error .reservedField
  | 1 => if w % 8 = 0 then .ok (.add (Fin.ofNat 64 (w / 2 ^ 17)) (Fin.ofNat 64 (w / 2 ^ 11)) (Fin.ofNat 64 (w / 32)) (Width.ofCode (w / 8 % 4))) else .error .reservedField
  | 2 => if w % 8 = 0 then .ok (.sub (Fin.ofNat 64 (w / 2 ^ 17)) (Fin.ofNat 64 (w / 2 ^ 11)) (Fin.ofNat 64 (w / 32)) (Width.ofCode (w / 8 % 4))) else .error .reservedField
  | 3 => if w % 8 = 0 then .ok (.and (Fin.ofNat 64 (w / 2 ^ 17)) (Fin.ofNat 64 (w / 2 ^ 11)) (Fin.ofNat 64 (w / 32)) (Width.ofCode (w / 8 % 4))) else .error .reservedField
  | 4 => if w % 8 = 0 then .ok (.or (Fin.ofNat 64 (w / 2 ^ 17)) (Fin.ofNat 64 (w / 2 ^ 11)) (Fin.ofNat 64 (w / 32)) (Width.ofCode (w / 8 % 4))) else .error .reservedField
  | 5 => if w % 8 = 0 then .ok (.xor (Fin.ofNat 64 (w / 2 ^ 17)) (Fin.ofNat 64 (w / 2 ^ 11)) (Fin.ofNat 64 (w / 32)) (Width.ofCode (w / 8 % 4))) else .error .reservedField
  | 6 => if w % 8 = 0 then .ok (.andn (Fin.ofNat 64 (w / 2 ^ 17)) (Fin.ofNat 64 (w / 2 ^ 11)) (Fin.ofNat 64 (w / 32)) (Width.ofCode (w / 8 % 4))) else .error .reservedField
  | 7 => if w % 8 = 0 then .ok (.orn (Fin.ofNat 64 (w / 2 ^ 17)) (Fin.ofNat 64 (w / 2 ^ 11)) (Fin.ofNat 64 (w / 32)) (Width.ofCode (w / 8 % 4))) else .error .reservedField
  | 8 => if w % 8 = 0 then .ok (.shl (Fin.ofNat 64 (w / 2 ^ 17)) (Fin.ofNat 64 (w / 2 ^ 11)) (Fin.ofNat 64 (w / 32)) (Width.ofCode (w / 8 % 4))) else .error .reservedField
  | 9 => if w % 8 = 0 then .ok (.shr (Fin.ofNat 64 (w / 2 ^ 17)) (Fin.ofNat 64 (w / 2 ^ 11)) (Fin.ofNat 64 (w / 32)) (Width.ofCode (w / 8 % 4))) else .error .reservedField
  | 10 => if w % 8 = 0 then .ok (.sar (Fin.ofNat 64 (w / 2 ^ 17)) (Fin.ofNat 64 (w / 2 ^ 11)) (Fin.ofNat 64 (w / 32)) (Width.ofCode (w / 8 % 4))) else .error .reservedField
  | 11 => if w % 8 = 0 then .ok (.rotl (Fin.ofNat 64 (w / 2 ^ 17)) (Fin.ofNat 64 (w / 2 ^ 11)) (Fin.ofNat 64 (w / 32)) (Width.ofCode (w / 8 % 4))) else .error .reservedField
  | 12 => if w % 8 = 0 then .ok (.min (Fin.ofNat 64 (w / 2 ^ 17)) (Fin.ofNat 64 (w / 2 ^ 11)) (Fin.ofNat 64 (w / 32)) (Width.ofCode (w / 8 % 4))) else .error .reservedField
  | 13 => if w % 8 = 0 then .ok (.max (Fin.ofNat 64 (w / 2 ^ 17)) (Fin.ofNat 64 (w / 2 ^ 11)) (Fin.ofNat 64 (w / 32)) (Width.ofCode (w / 8 % 4))) else .error .reservedField
  | 14 => if w % 8 = 0 then .ok (.minn (Fin.ofNat 64 (w / 2 ^ 17)) (Fin.ofNat 64 (w / 2 ^ 11)) (Fin.ofNat 64 (w / 32)) (Width.ofCode (w / 8 % 4))) else .error .reservedField
  | _ => if w % 8 = 0 then .ok (.maxn (Fin.ofNat 64 (w / 2 ^ 17)) (Fin.ofNat 64 (w / 2 ^ 11)) (Fin.ofNat 64 (w / 32)) (Width.ofCode (w / 8 % 4))) else .error .reservedField

/-- Opcodes 0x1_ of the map of R148, row by row; `lo` is the low digit, `w` the 23 operand bits. -/
def decodeGroup1 (lo w : Nat) : Except DecodeError Instr :=
  match lo with
  | 0 => if w % 8 = 0 then .ok (.ceq (Fin.ofNat 64 (w / 2 ^ 17)) (Fin.ofNat 64 (w / 2 ^ 11)) (Fin.ofNat 64 (w / 32)) (Width.ofCode (w / 8 % 4))) else .error .reservedField
  | 1 => if w % 8 = 0 then .ok (.clt (Fin.ofNat 64 (w / 2 ^ 17)) (Fin.ofNat 64 (w / 2 ^ 11)) (Fin.ofNat 64 (w / 32)) (Width.ofCode (w / 8 % 4))) else .error .reservedField
  | 2 => if w % 8 = 0 then .ok (.cltn (Fin.ofNat 64 (w / 2 ^ 17)) (Fin.ofNat 64 (w / 2 ^ 11)) (Fin.ofNat 64 (w / 32)) (Width.ofCode (w / 8 % 4))) else .error .reservedField
  | 3 => if w % 8 = 0 then .ok (.cmov (Fin.ofNat 64 (w / 2 ^ 17)) (Fin.ofNat 64 (w / 2 ^ 11)) (Fin.ofNat 64 (w / 32)) (Width.ofCode (w / 8 % 4))) else .error .reservedField
  | 4 => if w % 8 = 0 then .ok (.mul (Fin.ofNat 64 (w / 2 ^ 17)) (Fin.ofNat 64 (w / 2 ^ 11)) (Fin.ofNat 64 (w / 32)) (Width.ofCode (w / 8 % 4))) else .error .reservedField
  | 5 => if w % 32 = 0 then .ok (.mulh (Fin.ofNat 64 (w / 2 ^ 17)) (Fin.ofNat 64 (w / 2 ^ 11)) (Fin.ofNat 64 (w / 32))) else .error .reservedField
  | 6 => if w % 32 = 0 then .ok (.mulhn (Fin.ofNat 64 (w / 2 ^ 17)) (Fin.ofNat 64 (w / 2 ^ 11)) (Fin.ofNat 64 (w / 32))) else .error .reservedField
  | 7 => if w % 8 = 0 then .ok (.div (Fin.ofNat 64 (w / 2 ^ 17)) (Fin.ofNat 64 (w / 2 ^ 11)) (Fin.ofNat 64 (w / 32)) (Width.ofCode (w / 8 % 4))) else .error .reservedField
  | 8 => if w % 8 = 0 then .ok (.divn (Fin.ofNat 64 (w / 2 ^ 17)) (Fin.ofNat 64 (w / 2 ^ 11)) (Fin.ofNat 64 (w / 32)) (Width.ofCode (w / 8 % 4))) else .error .reservedField
  | 9 => if w % 8 = 0 then .ok (.rem (Fin.ofNat 64 (w / 2 ^ 17)) (Fin.ofNat 64 (w / 2 ^ 11)) (Fin.ofNat 64 (w / 32)) (Width.ofCode (w / 8 % 4))) else .error .reservedField
  | 10 => if w % 8 = 0 then .ok (.remn (Fin.ofNat 64 (w / 2 ^ 17)) (Fin.ofNat 64 (w / 2 ^ 11)) (Fin.ofNat 64 (w / 32)) (Width.ofCode (w / 8 % 4))) else .error .reservedField
  | 11 => if w % 8 = 0 ∧ w / 32 % 64 = 0 then .ok (.clz (Fin.ofNat 64 (w / 2 ^ 17)) (Fin.ofNat 64 (w / 2 ^ 11)) (Width.ofCode (w / 8 % 4))) else .error .reservedField
  | 12 => if w % 8 = 0 ∧ w / 32 % 64 = 0 then .ok (.popc (Fin.ofNat 64 (w / 2 ^ 17)) (Fin.ofNat 64 (w / 2 ^ 11)) (Width.ofCode (w / 8 % 4))) else .error .reservedField
  | 13 => if w % 8 = 0 ∧ w / 32 % 64 = 0 then .ok (.brev (Fin.ofNat 64 (w / 2 ^ 17)) (Fin.ofNat 64 (w / 2 ^ 11)) (Width.ofCode (w / 8 % 4))) else .error .reservedField
  | 14 => if w / 2 % 4 = 0 then .ok (.bext (Fin.ofNat 64 (w / 2 ^ 17)) (Fin.ofNat 64 (w / 2 ^ 11)) (Fin.ofNat 64 (w / 32)) (Width.ofCode (w / 8 % 4)) (w % 2 == 1)) else .error .reservedField
  | _ => if w % 8 = 0 then .ok (.bins (Fin.ofNat 64 (w / 2 ^ 17)) (Fin.ofNat 64 (w / 2 ^ 11)) (Fin.ofNat 64 (w / 32)) (Width.ofCode (w / 8 % 4))) else .error .reservedField

/-- Opcodes 0x2_ of the map of R148, row by row; `lo` is the low digit, `w` the 23 operand bits. -/
def decodeGroup2 (lo w : Nat) : Except DecodeError Instr :=
  match lo with
  | 0 => .ok (.addi (Fin.ofNat 64 (w / 2 ^ 17)) (Fin.ofNat 64 (w / 2 ^ 11)) (BitVec.ofNat 11 w))
  | 1 => .ok (.andi (Fin.ofNat 64 (w / 2 ^ 17)) (Fin.ofNat 64 (w / 2 ^ 11)) (BitVec.ofNat 11 w))
  | 2 => .ok (.ori (Fin.ofNat 64 (w / 2 ^ 17)) (Fin.ofNat 64 (w / 2 ^ 11)) (BitVec.ofNat 11 w))
  | 3 => .ok (.xori (Fin.ofNat 64 (w / 2 ^ 17)) (Fin.ofNat 64 (w / 2 ^ 11)) (BitVec.ofNat 11 w))
  | 4 => .ok (.shli (Fin.ofNat 64 (w / 2 ^ 17)) (Fin.ofNat 64 (w / 2 ^ 11)) (BitVec.ofNat 11 w))
  | 5 => .ok (.shri (Fin.ofNat 64 (w / 2 ^ 17)) (Fin.ofNat 64 (w / 2 ^ 11)) (BitVec.ofNat 11 w))
  | 6 => .ok (.sari (Fin.ofNat 64 (w / 2 ^ 17)) (Fin.ofNat 64 (w / 2 ^ 11)) (BitVec.ofNat 11 w))
  | 7 => .ok (.ceqi (Fin.ofNat 64 (w / 2 ^ 17)) (Fin.ofNat 64 (w / 2 ^ 11)) (BitVec.ofNat 11 w))
  | 8 => .ok (.clti (Fin.ofNat 64 (w / 2 ^ 17)) (Fin.ofNat 64 (w / 2 ^ 11)) (BitVec.ofNat 11 w))
  | 9 => .ok (.cltni (Fin.ofNat 64 (w / 2 ^ 17)) (Fin.ofNat 64 (w / 2 ^ 11)) (BitVec.ofNat 11 w))
  | 10 => .ok (.movi (Fin.ofNat 64 (w / 2 ^ 17)) (BitVec.ofNat 17 w))
  | 11 => .ok (.lui (Fin.ofNat 64 (w / 2 ^ 17)) (BitVec.ofNat 17 w))
  | 12 => if w % 8 = 0 then .ok (.madd (Fin.ofNat 64 (w / 2 ^ 17)) (Fin.ofNat 64 (w / 2 ^ 11)) (Fin.ofNat 64 (w / 32)) (Width.ofCode (w / 8 % 4))) else .error .reservedField
  | 13 => .ok (.lea (Fin.ofNat 64 (w / 2 ^ 17)) (Fin.ofNat 64 (w / 2 ^ 11)) (Fin.ofNat 64 (w / 32)) (Width.ofCode (w / 8 % 4)) (w / 4 % 2 == 1) (Fin.ofNat 4 w))
  | 14 => if w % 8 = 0 ∧ w / 32 % 64 = 0 then .ok (.mov (Fin.ofNat 64 (w / 2 ^ 17)) (Fin.ofNat 64 (w / 2 ^ 11)) (Width.ofCode (w / 8 % 4))) else .error .reservedField
  | _ => if w / 32 % 64 = 0 then .ok (.ext (Fin.ofNat 64 (w / 2 ^ 17)) (Fin.ofNat 64 (w / 2 ^ 11)) (Width.ofCode (w / 8 % 4)) (Fin.ofNat 8 w)) else .error .reservedField

/-- Opcodes 0x3_ of the map of R148, row by row; `lo` is the low digit, `w` the 23 operand bits. -/
def decodeGroup3 (lo w : Nat) : Except DecodeError Instr :=
  match lo with
  | 0 => if w / 8 % 4 = 0 then .ok (.fadd (Fin.ofNat 64 (w / 2 ^ 17)) (Fin.ofNat 64 (w / 2 ^ 11)) (Fin.ofNat 64 (w / 32)) (Fin.ofNat 8 w)) else .error .reservedField
  | 1 => if w / 8 % 4 = 0 then .ok (.fsub (Fin.ofNat 64 (w / 2 ^ 17)) (Fin.ofNat 64 (w / 2 ^ 11)) (Fin.ofNat 64 (w / 32)) (Fin.ofNat 8 w)) else .error .reservedField
  | 2 => if w / 8 % 4 = 0 then .ok (.fmul (Fin.ofNat 64 (w / 2 ^ 17)) (Fin.ofNat 64 (w / 2 ^ 11)) (Fin.ofNat 64 (w / 32)) (Fin.ofNat 8 w)) else .error .reservedField
  | 3 => if w / 8 % 4 = 0 then .ok (.ffma (Fin.ofNat 64 (w / 2 ^ 17)) (Fin.ofNat 64 (w / 2 ^ 11)) (Fin.ofNat 64 (w / 32)) (Fin.ofNat 8 w)) else .error .reservedField
  | 4 => if w % 32 = 0 then .ok (.fmin (Fin.ofNat 64 (w / 2 ^ 17)) (Fin.ofNat 64 (w / 2 ^ 11)) (Fin.ofNat 64 (w / 32))) else .error .reservedField
  | 5 => if w % 32 = 0 then .ok (.fmax (Fin.ofNat 64 (w / 2 ^ 17)) (Fin.ofNat 64 (w / 2 ^ 11)) (Fin.ofNat 64 (w / 32))) else .error .reservedField
  | 6 => if w / 8 % 4 = 0 then .ok (.fcmp (Fin.ofNat 64 (w / 2 ^ 17)) (Fin.ofNat 64 (w / 2 ^ 11)) (Fin.ofNat 64 (w / 32)) (Fin.ofNat 8 w)) else .error .reservedField
  | 7 => if w / 8 % 4 = 0 then .ok (.fcvt (Fin.ofNat 64 (w / 2 ^ 17)) (Fin.ofNat 64 (w / 2 ^ 11)) (Fin.ofNat 64 (w / 32)) (Fin.ofNat 8 w)) else .error .reservedField
  | 8 => .ok (.br (Fin.ofNat 64 (w / 2 ^ 17)) (BitVec.ofNat 17 w))
  | 9 => .ok (.jmp (BitVec.ofNat 23 w))
  | 10 => .ok (.call (BitVec.ofNat 23 w))
  | 11 => if w % 2 ^ 11 = 8 ∧ w / 2 ^ 17 % 64 = 0 then .ok (.ret (Fin.ofNat 64 (w / 2 ^ 11))) else .error .reservedField
  | 12 => if w % 2 ^ 11 = 8 ∧ w / 2 ^ 17 % 64 = 0 then .ok (.jx (Fin.ofNat 64 (w / 2 ^ 11))) else if w % 2 ^ 11 = 9 then .ok (.jxl (Fin.ofNat 64 (w / 2 ^ 17)) (Fin.ofNat 64 (w / 2 ^ 11))) else .error .reservedField
  | 13 => if w % 16 = 0 then .ok (.loop (Fin.ofNat 64 (w / 2 ^ 17)) (Fin.ofNat 2048 (w / 64)) (Fin.ofNat 4 (w / 16))) else .error .reservedField
  | 14 => .ok (.loopi (Fin.ofNat 1024 ((w / 2 ^ 17 % 64) * 16 + w % 16)) (Fin.ofNat 2048 (w / 64)) (Fin.ofNat 4 (w / 16)))
  | _ => .ok (.brv (Fin.ofNat 64 (w / 2 ^ 17)) (BitVec.ofNat 17 w))

/-- Opcodes 0x4_ of the map of R148, row by row; `lo` is the low digit, `w` the 23 operand bits. -/
def decodeGroup4 (lo w : Nat) : Except DecodeError Instr :=
  match lo with
  | 0 => if w / 4 % 2 = 0 then .ok (.ldl (Fin.ofNat 64 (w / 2 ^ 17)) (Fin.ofNat 64 (w / 2 ^ 11)) (Fin.ofNat 64 (w / 32)) (Width.ofCode (w / 8 % 4)) (Fin.ofNat 4 w)) else .error .reservedField
  | 1 => if w / 4 % 2 = 0 then .ok (.stl (Fin.ofNat 64 (w / 2 ^ 17)) (Fin.ofNat 64 (w / 2 ^ 11)) (Fin.ofNat 64 (w / 32)) (Width.ofCode (w / 8 % 4)) (Fin.ofNat 4 w)) else .error .reservedField
  | 2 => if w / 4 % 2 = 0 then .ok (.ldg (Fin.ofNat 64 (w / 2 ^ 17)) (Fin.ofNat 64 (w / 2 ^ 11)) (Fin.ofNat 64 (w / 32)) (Width.ofCode (w / 8 % 4)) (Fin.ofNat 4 w)) else .error .reservedField
  | 3 => if w / 4 % 2 = 0 then .ok (.stg (Fin.ofNat 64 (w / 2 ^ 17)) (Fin.ofNat 64 (w / 2 ^ 11)) (Fin.ofNat 64 (w / 32)) (Width.ofCode (w / 8 % 4)) (Fin.ofNat 4 w)) else .error .reservedField
  | 4 => if w % 8 = 0 then .ok (.ldm (Fin.ofNat 64 (w / 2 ^ 17)) (Fin.ofNat 64 (w / 2 ^ 11)) (Fin.ofNat 64 (w / 32)) (Width.ofCode (w / 8 % 4))) else .error .reservedField
  | 5 => if w % 8 = 0 then .ok (.stm (Fin.ofNat 64 (w / 2 ^ 17)) (Fin.ofNat 64 (w / 2 ^ 11)) (Fin.ofNat 64 (w / 32)) (Width.ofCode (w / 8 % 4))) else .error .reservedField
  | 6 => if w / 4 % 2 = 0 then .ok (.ldk (Fin.ofNat 64 (w / 2 ^ 17)) (Fin.ofNat 64 (w / 2 ^ 11)) (Fin.ofNat 64 (w / 32)) (Width.ofCode (w / 8 % 4)) (Fin.ofNat 4 w)) else .error .reservedField
  | 7 => .ok (.ldh (Fin.ofNat 64 (w / 2 ^ 17)) (Fin.ofNat 64 (w / 2 ^ 11)) (BitVec.ofNat 11 w))
  | 8 => .ok (.sth (Fin.ofNat 64 (w / 2 ^ 17)) (Fin.ofNat 64 (w / 2 ^ 11)) (BitVec.ofNat 11 w))
  | _ => .error .reservedOpcode

/-- Opcodes 0x5_ of the map of R148, row by row; `lo` is the low digit, `w` the 23 operand bits. -/
def decodeGroup5 (lo w : Nat) : Except DecodeError Instr :=
  match lo with
  | 0 => if w % 64 = 0 then .ok (.pld (Fin.ofNat 16 (w / 2 ^ 19)) (Fin.ofNat 16 (w / 2 ^ 15)) (Fin.ofNat 64 (w / 2 ^ 9)) (Fin.ofNat 8 (w / 64))) else .error .reservedField
  | 1 => if w % 64 = 0 then .ok (.pst (Fin.ofNat 16 (w / 2 ^ 19)) (Fin.ofNat 16 (w / 2 ^ 15)) (Fin.ofNat 64 (w / 2 ^ 9)) (Fin.ofNat 8 (w / 64))) else .error .reservedField
  | 2 => if w / 2 ^ 15 % 4 = 0 then .ok (.pldh (Fin.ofNat 64 (w / 2 ^ 17)) (Fin.ofNat 16 (w / 2 ^ 11)) (BitVec.ofNat 11 w)) else .error .reservedField
  | 3 => if w / 2 ^ 15 % 4 = 0 then .ok (.psth (Fin.ofNat 64 (w / 2 ^ 17)) (Fin.ofNat 16 (w / 2 ^ 11)) (BitVec.ofNat 11 w)) else .error .reservedField
  | 4 => if w % 64 = 0 then .ok (.pldg (Fin.ofNat 16 (w / 2 ^ 19)) (Fin.ofNat 16 (w / 2 ^ 15)) (Fin.ofNat 64 (w / 2 ^ 9)) (Fin.ofNat 8 (w / 64))) else .error .reservedField
  | 5 => if w % 64 = 0 then .ok (.pstg (Fin.ofNat 16 (w / 2 ^ 19)) (Fin.ofNat 16 (w / 2 ^ 15)) (Fin.ofNat 64 (w / 2 ^ 9)) (Fin.ofNat 8 (w / 64))) else .error .reservedField
  | 6 => if w / 2 % 2 ^ 7 = 0 ∧ w / 2 ^ 11 % 16 = 0 then .ok (.pgather (Fin.ofNat 16 (w / 2 ^ 19)) (Fin.ofNat 16 (w / 2 ^ 15)) (Fin.ofNat 8 (w / 2 ^ 8)) (w % 2 == 1)) else .error .reservedField
  | 7 => if w / 2 % 2 ^ 7 = 0 ∧ w / 2 ^ 11 % 16 = 0 then .ok (.pscatter (Fin.ofNat 16 (w / 2 ^ 19)) (Fin.ofNat 16 (w / 2 ^ 15)) (Fin.ofNat 8 (w / 2 ^ 8)) (w % 2 == 1)) else .error .reservedField
  | 8 => if w % 2 ^ 20 = 0 then .ok (.scope (Fin.ofNat 8 (w / 2 ^ 20))) else .error .reservedField
  | 9 => .ok (.limm (BitVec.ofNat 23 w))
  | _ => .error .reservedOpcode

/-- Opcodes 0x6_ of the map of R148, row by row; `lo` is the low digit, `w` the 23 operand bits. -/
def decodeGroup6 (lo w : Nat) : Except DecodeError Instr :=
  match lo with
  | 0 => .ok (.padd (Fin.ofNat 16 (w / 2 ^ 19)) (Fin.ofNat 16 (w / 2 ^ 15)) (Fin.ofNat 16 (w / 2 ^ 11)) (Fin.ofNat 8 (w / 2 ^ 8)) (Fin.ofNat 4 (w / 64)) (Fin.ofNat 8 (w / 8)) (Fin.ofNat 8 w))
  | 1 => .ok (.psub (Fin.ofNat 16 (w / 2 ^ 19)) (Fin.ofNat 16 (w / 2 ^ 15)) (Fin.ofNat 16 (w / 2 ^ 11)) (Fin.ofNat 8 (w / 2 ^ 8)) (Fin.ofNat 4 (w / 64)) (Fin.ofNat 8 (w / 8)) (Fin.ofNat 8 w))
  | 2 => .ok (.pmul (Fin.ofNat 16 (w / 2 ^ 19)) (Fin.ofNat 16 (w / 2 ^ 15)) (Fin.ofNat 16 (w / 2 ^ 11)) (Fin.ofNat 8 (w / 2 ^ 8)) (Fin.ofNat 4 (w / 64)) (Fin.ofNat 8 (w / 8)) (Fin.ofNat 8 w))
  | 3 => .ok (.pfma (Fin.ofNat 16 (w / 2 ^ 19)) (Fin.ofNat 16 (w / 2 ^ 15)) (Fin.ofNat 16 (w / 2 ^ 11)) (Fin.ofNat 8 (w / 2 ^ 8)) (Fin.ofNat 4 (w / 64)) (Fin.ofNat 8 (w / 8)) (Fin.ofNat 8 w))
  | 4 => .ok (.pfms (Fin.ofNat 16 (w / 2 ^ 19)) (Fin.ofNat 16 (w / 2 ^ 15)) (Fin.ofNat 16 (w / 2 ^ 11)) (Fin.ofNat 8 (w / 2 ^ 8)) (Fin.ofNat 4 (w / 64)) (Fin.ofNat 8 (w / 8)) (Fin.ofNat 8 w))
  | 5 => .ok (.pmin (Fin.ofNat 16 (w / 2 ^ 19)) (Fin.ofNat 16 (w / 2 ^ 15)) (Fin.ofNat 16 (w / 2 ^ 11)) (Fin.ofNat 8 (w / 2 ^ 8)) (Fin.ofNat 4 (w / 64)) (Fin.ofNat 8 (w / 8)) (Fin.ofNat 8 w))
  | 6 => .ok (.pmax (Fin.ofNat 16 (w / 2 ^ 19)) (Fin.ofNat 16 (w / 2 ^ 15)) (Fin.ofNat 16 (w / 2 ^ 11)) (Fin.ofNat 8 (w / 2 ^ 8)) (Fin.ofNat 4 (w / 64)) (Fin.ofNat 8 (w / 8)) (Fin.ofNat 8 w))
  | 7 => if w / 2 ^ 11 % 16 = 0 then .ok (.pabs (Fin.ofNat 16 (w / 2 ^ 19)) (Fin.ofNat 16 (w / 2 ^ 15)) (Fin.ofNat 8 (w / 2 ^ 8)) (Fin.ofNat 4 (w / 64)) (Fin.ofNat 8 (w / 8)) (Fin.ofNat 8 w)) else .error .reservedField
  | 8 => if w / 2 ^ 11 % 16 = 0 then .ok (.pneg (Fin.ofNat 16 (w / 2 ^ 19)) (Fin.ofNat 16 (w / 2 ^ 15)) (Fin.ofNat 8 (w / 2 ^ 8)) (Fin.ofNat 4 (w / 64)) (Fin.ofNat 8 (w / 8)) (Fin.ofNat 8 w)) else .error .reservedField
  | 9 => if w / 64 % 4 = 0 then .ok (.pcmp (Fin.ofNat 16 (w / 2 ^ 19)) (Fin.ofNat 16 (w / 2 ^ 15)) (Fin.ofNat 16 (w / 2 ^ 11)) (Fin.ofNat 8 (w / 2 ^ 8)) (Fin.ofNat 8 (w / 8)) (Fin.ofNat 8 w)) else .error .reservedField
  | 10 => if w % 64 = 0 then .ok (.psel (Fin.ofNat 16 (w / 2 ^ 19)) (Fin.ofNat 16 (w / 2 ^ 15)) (Fin.ofNat 16 (w / 2 ^ 11)) (Fin.ofNat 8 (w / 2 ^ 8)) (Fin.ofNat 4 (w / 64))) else .error .reservedField
  | 11 => .ok (.pcvt (Fin.ofNat 16 (w / 2 ^ 19)) (Fin.ofNat 16 (w / 2 ^ 15)) (Fin.ofNat 16 (w / 2 ^ 11)) (Fin.ofNat 8 (w / 2 ^ 8)) (Fin.ofNat 4 (w / 64)) (Fin.ofNat 8 (w / 8)) (Fin.ofNat 8 w))
  | 12 => if w % 64 = 0 then .ok (.pand (Fin.ofNat 16 (w / 2 ^ 19)) (Fin.ofNat 16 (w / 2 ^ 15)) (Fin.ofNat 16 (w / 2 ^ 11)) (Fin.ofNat 8 (w / 2 ^ 8)) (Fin.ofNat 4 (w / 64))) else .error .reservedField
  | 13 => if w % 64 = 0 then .ok (.por (Fin.ofNat 16 (w / 2 ^ 19)) (Fin.ofNat 16 (w / 2 ^ 15)) (Fin.ofNat 16 (w / 2 ^ 11)) (Fin.ofNat 8 (w / 2 ^ 8)) (Fin.ofNat 4 (w / 64))) else .error .reservedField
  | 14 => if w % 64 = 0 then .ok (.pxor (Fin.ofNat 16 (w / 2 ^ 19)) (Fin.ofNat 16 (w / 2 ^ 15)) (Fin.ofNat 16 (w / 2 ^ 11)) (Fin.ofNat 8 (w / 2 ^ 8)) (Fin.ofNat 4 (w / 64))) else .error .reservedField
  | _ => if w % 64 = 0 ∧ w / 2 ^ 11 % 16 = 0 then .ok (.pnot (Fin.ofNat 16 (w / 2 ^ 19)) (Fin.ofNat 16 (w / 2 ^ 15)) (Fin.ofNat 8 (w / 2 ^ 8)) (Fin.ofNat 4 (w / 64))) else .error .reservedField

/-- Opcodes 0x7_ of the map of R148, row by row; `lo` is the low digit, `w` the 23 operand bits. -/
def decodeGroup7 (lo w : Nat) : Except DecodeError Instr :=
  match lo with
  | 0 => .ok (.pshl (Fin.ofNat 16 (w / 2 ^ 19)) (Fin.ofNat 16 (w / 2 ^ 15)) (Fin.ofNat 16 (w / 2 ^ 11)) (Fin.ofNat 8 (w / 2 ^ 8)) (Fin.ofNat 4 (w / 64)) (Fin.ofNat 8 (w / 8)) (Fin.ofNat 8 w))
  | 1 => .ok (.pshr (Fin.ofNat 16 (w / 2 ^ 19)) (Fin.ofNat 16 (w / 2 ^ 15)) (Fin.ofNat 16 (w / 2 ^ 11)) (Fin.ofNat 8 (w / 2 ^ 8)) (Fin.ofNat 4 (w / 64)) (Fin.ofNat 8 (w / 8)) (Fin.ofNat 8 w))
  | 2 => .ok (.psar (Fin.ofNat 16 (w / 2 ^ 19)) (Fin.ofNat 16 (w / 2 ^ 15)) (Fin.ofNat 16 (w / 2 ^ 11)) (Fin.ofNat 8 (w / 2 ^ 8)) (Fin.ofNat 4 (w / 64)) (Fin.ofNat 8 (w / 8)) (Fin.ofNat 8 w))
  | 3 => if w % 64 = 0 ∧ w / 2 ^ 11 % 16 = 0 then .ok (.pmov (Fin.ofNat 16 (w / 2 ^ 19)) (Fin.ofNat 16 (w / 2 ^ 15)) (Fin.ofNat 8 (w / 2 ^ 8)) (Fin.ofNat 4 (w / 64))) else .error .reservedField
  | 4 => if w / 2 ^ 15 % 16 = 0 then .ok (.pbcs (Fin.ofNat 16 (w / 2 ^ 19)) (Fin.ofNat 64 (w / 2 ^ 9)) (Fin.ofNat 8 (w / 64)) (Fin.ofNat 8 (w / 8)) (Fin.ofNat 8 w)) else .error .reservedField
  | 5 => if w / 2 ^ 15 % 16 = 0 then .ok (.pins (Fin.ofNat 16 (w / 2 ^ 19)) (Fin.ofNat 64 (w / 2 ^ 9)) (Fin.ofNat 8 (w / 64)) (Fin.ofNat 8 (w / 8)) (Fin.ofNat 8 w)) else .error .reservedField
  | 6 => if w / 64 % 8 = 0 ∧ w / 2 ^ 19 % 16 = 0 then .ok (.pext (Fin.ofNat 16 (w / 2 ^ 15)) (Fin.ofNat 64 (w / 2 ^ 9)) (Fin.ofNat 8 (w / 8)) (Fin.ofNat 8 w)) else .error .reservedField
  | 7 => if w / 2 ^ 11 % 2 ^ 8 = 0 then .ok (.piota (Fin.ofNat 16 (w / 2 ^ 19)) (Fin.ofNat 8 (w / 2 ^ 8)) (Fin.ofNat 4 (w / 64)) (Fin.ofNat 8 (w / 8)) (Fin.ofNat 8 w)) else .error .reservedField
  | 8 => if w % 2 ^ 8 = 0 then .ok (.pmand (Fin.ofNat 16 (w / 2 ^ 19)) (Fin.ofNat 16 (w / 2 ^ 15)) (Fin.ofNat 16 (w / 2 ^ 11)) (Fin.ofNat 8 (w / 2 ^ 8))) else .error .reservedField
  | 9 => if w % 2 ^ 8 = 0 then .ok (.pmor (Fin.ofNat 16 (w / 2 ^ 19)) (Fin.ofNat 16 (w / 2 ^ 15)) (Fin.ofNat 16 (w / 2 ^ 11)) (Fin.ofNat 8 (w / 2 ^ 8))) else .error .reservedField
  | 10 => if w % 2 ^ 8 = 0 then .ok (.pmxor (Fin.ofNat 16 (w / 2 ^ 19)) (Fin.ofNat 16 (w / 2 ^ 15)) (Fin.ofNat 16 (w / 2 ^ 11)) (Fin.ofNat 8 (w / 2 ^ 8))) else .error .reservedField
  | 11 => if w % 2 ^ 8 = 0 ∧ w / 2 ^ 11 % 16 = 0 then .ok (.pmnot (Fin.ofNat 16 (w / 2 ^ 19)) (Fin.ofNat 16 (w / 2 ^ 15)) (Fin.ofNat 8 (w / 2 ^ 8))) else .error .reservedField
  | 12 => if w / 8 % 32 = 0 ∧ w / 2 ^ 11 % 16 = 0 then .ok (.pvote (Fin.ofNat 16 (w / 2 ^ 19)) (Fin.ofNat 16 (w / 2 ^ 15)) (Fin.ofNat 8 (w / 2 ^ 8)) (Fin.ofNat 8 w)) else .error .reservedField
  | 13 => if w / 8 % 32 = 0 ∧ w / 2 ^ 11 % 2 ^ 8 = 0 then .ok (.pflag (Fin.ofNat 16 (w / 2 ^ 19)) (Fin.ofNat 8 (w / 2 ^ 8)) (Fin.ofNat 8 w)) else .error .reservedField
  | 14 => if w / 8 % 8 = 0 ∧ w / 2 ^ 11 % 2 ^ 8 = 0 then .ok (.prng (Fin.ofNat 16 (w / 2 ^ 19)) (Fin.ofNat 8 (w / 2 ^ 8)) (Fin.ofNat 4 (w / 64)) (Fin.ofNat 8 w)) else .error .reservedField
  | _ => .ok (.pscale (Fin.ofNat 16 (w / 2 ^ 19)) (Fin.ofNat 16 (w / 2 ^ 15)) (Fin.ofNat 64 (w / 2 ^ 9)) (Fin.ofNat 8 (w / 64)) (Fin.ofNat 8 (w / 8)) (Fin.ofNat 8 w))

/-- Opcodes 0x8_ of the map of R148, row by row; `lo` is the low digit, `w` the 23 operand bits. -/
def decodeGroup8 (lo w : Nat) : Except DecodeError Instr :=
  match lo with
  | 0 => .ok (.pdot2 (Fin.ofNat 16 (w / 2 ^ 19)) (Fin.ofNat 16 (w / 2 ^ 15)) (Fin.ofNat 16 (w / 2 ^ 11)) (Fin.ofNat 8 (w / 2 ^ 8)) (Fin.ofNat 4 (w / 64)) (Fin.ofNat 8 (w / 8)) (Fin.ofNat 8 w))
  | 1 => .ok (.pmuls (Fin.ofNat 16 (w / 2 ^ 19)) (Fin.ofNat 16 (w / 2 ^ 15)) (Fin.ofNat 64 (w / 2 ^ 9)) (Fin.ofNat 8 (w / 64)) (Fin.ofNat 8 (w / 8)) (Fin.ofNat 8 w))
  | 2 => .ok (.pfmas (Fin.ofNat 16 (w / 2 ^ 19)) (Fin.ofNat 16 (w / 2 ^ 15)) (Fin.ofNat 64 (w / 2 ^ 9)) (Fin.ofNat 8 (w / 64)) (Fin.ofNat 8 (w / 8)) (Fin.ofNat 8 w))
  | 3 => .ok (.pclamp (Fin.ofNat 16 (w / 2 ^ 19)) (Fin.ofNat 16 (w / 2 ^ 15)) (Fin.ofNat 16 (w / 2 ^ 11)) (Fin.ofNat 8 (w / 2 ^ 8)) (Fin.ofNat 4 (w / 64)) (Fin.ofNat 8 (w / 8)) (Fin.ofNat 8 w))
  | 4 => if w / 2 ^ 11 % 16 = 0 then .ok (.pround (Fin.ofNat 16 (w / 2 ^ 19)) (Fin.ofNat 16 (w / 2 ^ 15)) (Fin.ofNat 8 (w / 2 ^ 8)) (Fin.ofNat 4 (w / 64)) (Fin.ofNat 8 (w / 8)) (Fin.ofNat 8 w)) else .error .reservedField
  | 5 => .ok (.paddi (Fin.ofNat 16 (w / 2 ^ 19)) (Fin.ofNat 16 (w / 2 ^ 15)) (Fin.ofNat 64 (w / 2 ^ 9)) (Fin.ofNat 8 (w / 64)) (Fin.ofNat 8 (w / 8)) (Fin.ofNat 8 w))
  | 6 => .ok (.pabsd (Fin.ofNat 16 (w / 2 ^ 19)) (Fin.ofNat 16 (w / 2 ^ 15)) (Fin.ofNat 16 (w / 2 ^ 11)) (Fin.ofNat 8 (w / 2 ^ 8)) (Fin.ofNat 4 (w / 64)) (Fin.ofNat 8 (w / 8)) (Fin.ofNat 8 w))
  | _ => .error .reservedOpcode

/-- Opcodes 0x9_ of the map of R148, row by row; `lo` is the low digit, `w` the 23 operand bits. -/
def decodeGroup9 (lo w : Nat) : Except DecodeError Instr :=
  match lo with
  | 0 => if w / 8 % 8 = 0 then .ok (.protRow (Fin.ofNat 16 (w / 2 ^ 19)) (Fin.ofNat 16 (w / 2 ^ 15)) (Fin.ofNat 128 ((w / 2 ^ 11 % 16) * 8 + w % 8)) (Fin.ofNat 8 (w / 2 ^ 8)) (Fin.ofNat 4 (w / 64))) else .error .reservedField
  | 1 => if w / 8 % 8 = 0 then .ok (.protCol (Fin.ofNat 16 (w / 2 ^ 19)) (Fin.ofNat 16 (w / 2 ^ 15)) (Fin.ofNat 128 ((w / 2 ^ 11 % 16) * 8 + w % 8)) (Fin.ofNat 8 (w / 2 ^ 8)) (Fin.ofNat 4 (w / 64))) else .error .reservedField
  | 2 => if w / 8 % 8 = 0 then .ok (.pbcRow (Fin.ofNat 16 (w / 2 ^ 19)) (Fin.ofNat 16 (w / 2 ^ 15)) (Fin.ofNat 128 ((w / 2 ^ 11 % 16) * 8 + w % 8)) (Fin.ofNat 8 (w / 2 ^ 8)) (Fin.ofNat 4 (w / 64))) else .error .reservedField
  | 3 => if w / 8 % 8 = 0 then .ok (.pbcCol (Fin.ofNat 16 (w / 2 ^ 19)) (Fin.ofNat 16 (w / 2 ^ 15)) (Fin.ofNat 128 ((w / 2 ^ 11 % 16) * 8 + w % 8)) (Fin.ofNat 8 (w / 2 ^ 8)) (Fin.ofNat 4 (w / 64))) else .error .reservedField
  | 4 => if w / 2 ^ 11 % 16 = 0 then .ok (.psumRow (Fin.ofNat 16 (w / 2 ^ 19)) (Fin.ofNat 16 (w / 2 ^ 15)) (Fin.ofNat 8 (w / 2 ^ 8)) (Fin.ofNat 4 (w / 64)) (Fin.ofNat 8 (w / 8)) (Fin.ofNat 8 w)) else .error .reservedField
  | 5 => if w / 2 ^ 11 % 16 = 0 then .ok (.psumCol (Fin.ofNat 16 (w / 2 ^ 19)) (Fin.ofNat 16 (w / 2 ^ 15)) (Fin.ofNat 8 (w / 2 ^ 8)) (Fin.ofNat 4 (w / 64)) (Fin.ofNat 8 (w / 8)) (Fin.ofNat 8 w)) else .error .reservedField
  | 6 => if w / 2 ^ 11 % 16 = 0 then .ok (.predRow (Fin.ofNat 16 (w / 2 ^ 19)) (Fin.ofNat 16 (w / 2 ^ 15)) (Fin.ofNat 8 (w / 2 ^ 8)) (Fin.ofNat 4 (w / 64)) (Fin.ofNat 8 (w / 8)) (Fin.ofNat 8 w)) else .error .reservedField
  | 7 => if w / 2 ^ 11 % 16 = 0 then .ok (.predCol (Fin.ofNat 16 (w / 2 ^ 19)) (Fin.ofNat 16 (w / 2 ^ 15)) (Fin.ofNat 8 (w / 2 ^ 8)) (Fin.ofNat 4 (w / 64)) (Fin.ofNat 8 (w / 8)) (Fin.ofNat 8 w)) else .error .reservedField
  | 8 => if w / 2 ^ 11 % 16 = 0 then .ok (.pspf (Fin.ofNat 16 (w / 2 ^ 19)) (Fin.ofNat 16 (w / 2 ^ 15)) (Fin.ofNat 8 (w / 2 ^ 8)) (Fin.ofNat 4 (w / 64)) (Fin.ofNat 8 (w / 8)) (Fin.ofNat 8 w)) else .error .reservedField
  | 9 => .ok (.pdiv (Fin.ofNat 16 (w / 2 ^ 19)) (Fin.ofNat 16 (w / 2 ^ 15)) (Fin.ofNat 16 (w / 2 ^ 11)) (Fin.ofNat 8 (w / 2 ^ 8)) (Fin.ofNat 4 (w / 64)) (Fin.ofNat 8 (w / 8)) (Fin.ofNat 8 w))
  | 10 => if w / 2 ^ 11 % 16 = 0 then .ok (.ptrig (Fin.ofNat 16 (w / 2 ^ 19)) (Fin.ofNat 16 (w / 2 ^ 15)) (Fin.ofNat 8 (w / 2 ^ 8)) (Fin.ofNat 4 (w / 64)) (Fin.ofNat 8 (w / 8)) (Fin.ofNat 8 w)) else .error .reservedField
  | 12 => if w % 2 ^ 8 = 0 then .ok (.pxbar (Fin.ofNat 16 (w / 2 ^ 19)) (Fin.ofNat 16 (w / 2 ^ 15)) (Fin.ofNat 16 (w / 2 ^ 11)) (Fin.ofNat 8 (w / 2 ^ 8))) else .error .reservedField
  | 13 => if w % 2 ^ 8 = 0 ∧ w / 2 ^ 11 % 16 = 0 then .ok (.pxset (Fin.ofNat 16 (w / 2 ^ 19)) (Fin.ofNat 16 (w / 2 ^ 15)) (Fin.ofNat 8 (w / 2 ^ 8))) else .error .reservedField
  | 14 => if w % 2 ^ 8 = 0 ∧ w / 2 ^ 11 % 16 = 0 then .ok (.pxtr (Fin.ofNat 16 (w / 2 ^ 19)) (Fin.ofNat 16 (w / 2 ^ 15)) (Fin.ofNat 8 (w / 2 ^ 8))) else .error .reservedField
  | _ => .error .reservedOpcode

/-- Opcodes 0xA_ of the map of R148, row by row; `lo` is the low digit, `w` the 23 operand bits. -/
def decodeGroupA (lo w : Nat) : Except DecodeError Instr :=
  match lo with
  | 0 => if w / 8 % 32 = 0 then .ok (.rvadd (Fin.ofNat 16 (w / 2 ^ 19)) (Fin.ofNat 16 (w / 2 ^ 15)) (Fin.ofNat 16 (w / 2 ^ 11)) (Fin.ofNat 8 (w / 2 ^ 8)) (Fin.ofNat 8 w)) else .error .reservedField
  | 1 => if w / 8 % 2 ^ 8 = 0 then .ok (.unadd (Fin.ofNat 16 (w / 2 ^ 19)) (Fin.ofNat 16 (w / 2 ^ 15)) (Fin.ofNat 16 (w / 2 ^ 11)) (Fin.ofNat 8 w)) else .error .reservedField
  | 2 => if w / 8 % 32 = 0 then .ok (.rvmul (Fin.ofNat 16 (w / 2 ^ 19)) (Fin.ofNat 16 (w / 2 ^ 15)) (Fin.ofNat 16 (w / 2 ^ 11)) (Fin.ofNat 8 (w / 2 ^ 8)) (Fin.ofNat 8 w)) else .error .reservedField
  | 3 => if w / 8 % 2 ^ 8 = 0 then .ok (.unmul (Fin.ofNat 16 (w / 2 ^ 19)) (Fin.ofNat 16 (w / 2 ^ 15)) (Fin.ofNat 16 (w / 2 ^ 11)) (Fin.ofNat 8 w)) else .error .reservedField
  | 4 => if w / 8 % 32 = 1 then .ok (.rvnarrow (Fin.ofNat 16 (w / 2 ^ 19)) (Fin.ofNat 16 (w / 2 ^ 15)) (Fin.ofNat 16 (w / 2 ^ 11)) (Fin.ofNat 8 (w / 2 ^ 8)) (Fin.ofNat 8 w)) else .error .reservedField
  | 5 => if w / 8 % 2 ^ 8 = 1 then .ok (.unnarrow (Fin.ofNat 16 (w / 2 ^ 19)) (Fin.ofNat 16 (w / 2 ^ 15)) (Fin.ofNat 16 (w / 2 ^ 11)) (Fin.ofNat 8 w)) else .error .reservedField
  | 6 => if w / 8 % 8 = 0 then .ok (.rvscale (Fin.ofNat 16 (w / 2 ^ 19)) (Fin.ofNat 16 (w / 2 ^ 15)) (Fin.ofNat 64 (w / 2 ^ 9)) (Fin.ofNat 8 (w / 64)) (Fin.ofNat 8 w)) else .error .reservedField
  | 7 => if w / 8 % 2 ^ 12 = 0 then .ok (.unscale (Fin.ofNat 16 (w / 2 ^ 19)) (Fin.ofNat 16 (w / 2 ^ 15)) (Fin.ofNat 8 w)) else .error .reservedField
  | 8 => if w / 8 % 32 = 0 then .ok (.rvlrelu (Fin.ofNat 16 (w / 2 ^ 19)) (Fin.ofNat 16 (w / 2 ^ 15)) (Fin.ofNat 16 (w / 2 ^ 11)) (Fin.ofNat 8 (w / 2 ^ 8)) (Fin.ofNat 8 w)) else .error .reservedField
  | 9 => if w / 8 % 2 ^ 12 = 0 then .ok (.unlrelu (Fin.ofNat 16 (w / 2 ^ 19)) (Fin.ofNat 16 (w / 2 ^ 15)) (Fin.ofNat 8 w)) else .error .reservedField
  | 10 => if w / 8 % 32 = 3 then .ok (.rvcvt (Fin.ofNat 16 (w / 2 ^ 19)) (Fin.ofNat 16 (w / 2 ^ 15)) (Fin.ofNat 16 (w / 2 ^ 11)) (Fin.ofNat 8 (w / 2 ^ 8)) (Fin.ofNat 8 w)) else .error .reservedField
  | 11 => if w / 8 % 2 ^ 8 = 3 then .ok (.uncvt (Fin.ofNat 16 (w / 2 ^ 19)) (Fin.ofNat 16 (w / 2 ^ 15)) (Fin.ofNat 16 (w / 2 ^ 11)) (Fin.ofNat 8 w)) else .error .reservedField
  | 12 => if w / 8 % 64 = 0 ∧ w / 2 ^ 15 % 2 ^ 8 = 0 then .ok (.rvmark (Fin.ofNat 64 (w / 2 ^ 9)) (Fin.ofNat 8 w)) else .error .reservedField
  | 13 => if w / 8 % 64 = 0 ∧ w / 2 ^ 15 % 2 ^ 8 = 0 then .ok (.unmark (Fin.ofNat 64 (w / 2 ^ 9)) (Fin.ofNat 8 w)) else .error .reservedField
  | 14 => if w / 2 % 2 ^ 8 = 0 ∧ w / 2 ^ 15 % 2 ^ 8 = 0 then .ok (.rvspill (Fin.ofNat 64 (w / 2 ^ 9)) (w % 2 == 1)) else .error .reservedField
  | _ => if w / 8 % 64 = 0 ∧ w / 2 ^ 15 % 2 ^ 8 = 0 then .ok (.rvinfo (Fin.ofNat 64 (w / 2 ^ 9)) (Fin.ofNat 8 w)) else .error .reservedField

/-- Opcodes 0xB_ of the map of R148, row by row; `lo` is the low digit, `w` the 23 operand bits. -/
def decodeGroupB (lo w : Nat) : Except DecodeError Instr :=
  match lo with
  | 0 => .ok (.tload (Fin.ofNat 64 (w / 2 ^ 17)) (Fin.ofNat 64 (w / 2 ^ 11)) (BitVec.ofNat 11 w))
  | 1 => .ok (.tset (Fin.ofNat 64 (w / 2 ^ 17)) (Fin.ofNat 64 (w / 2 ^ 11)) (BitVec.ofNat 11 w))
  | 2 => if w % 8 = 0 then .ok (.mma (Fin.ofNat 8 (w / 2 ^ 20)) (Fin.ofNat 16 (w / 2 ^ 16)) (Fin.ofNat 16 (w / 2 ^ 12)) (Fin.ofNat 32 (w / 2 ^ 7)) (w / 64 % 2 == 1) (w / 32 % 2 == 1) (w / 16 % 2 == 1) (w / 8 % 2 == 1)) else .error .reservedField
  | 3 => .ok (.mmag (Fin.ofNat 8 (w / 2 ^ 20)) (Fin.ofNat 16 (w / 2 ^ 16)) (Fin.ofNat 16 (w / 2 ^ 12)) (Fin.ofNat 32 (w / 2 ^ 7)) (Fin.ofNat 16 (w / 8)) (w / 4 % 2 == 1) (w / 2 % 2 == 1) (w % 2 == 1))
  | 4 => .ok (.mret (Fin.ofNat 64 (w / 2 ^ 17)) (Fin.ofNat 64 (w / 2 ^ 11)) (Fin.ofNat 8 (w / 2 ^ 8)) (Fin.ofNat 8 (w / 32)) (w / 16 % 2 == 1) (w / 8 % 2 == 1) (Fin.ofNat 4 (w / 2)) (w % 2 == 1))
  | 5 => if w % 2 ^ 20 = 0 then .ok (.mclr (Fin.ofNat 8 (w / 2 ^ 20))) else .error .reservedField
  | 6 => if w / 2 % 32 = 0 then .ok (.mld (Fin.ofNat 64 (w / 2 ^ 17)) (Fin.ofNat 64 (w / 2 ^ 11)) (Fin.ofNat 8 (w / 2 ^ 8)) (Fin.ofNat 4 (w / 64)) (w % 2 == 1)) else .error .reservedField
  | 7 => if w % 2 ^ 20 = 0 then .ok (.mwait (Fin.ofNat 8 (w / 2 ^ 20))) else if w % 2 ^ 23 = 64 then .ok (.mwaitAll) else .error .reservedField
  | 8 => if w % 2 ^ 7 = 0 ∧ w / 2 ^ 12 % 2 ^ 11 = 0 then .ok (.mprof (Fin.ofNat 32 (w / 2 ^ 7))) else .error .reservedField
  | _ => .error .reservedOpcode

/-- Opcodes 0xC_ of the map of R148, row by row; `lo` is the low digit, `w` the 23 operand bits. -/
def decodeGroupC (lo w : Nat) : Except DecodeError Instr :=
  match lo with
  | 0 => if w / 2 % 2 ^ 10 = 4 ∧ w / 2 ^ 17 % 64 = 0 then .ok (.flow (Fin.ofNat 64 (w / 2 ^ 11)) (Fin.ofNat 2 w)) else .error .reservedField
  | 1 => if w / 2 % 2 ^ 16 = 4 then .ok (.fpoll (Fin.ofNat 64 (w / 2 ^ 17)) (Fin.ofNat 2 w)) else .error .reservedField
  | 2 => if w / 2 % 2 ^ 22 = 0 then .ok (.fhalt (Fin.ofNat 2 w)) else .error .reservedField
  | 3 => if w / 2 % 2 ^ 10 = 0 then .ok (.hdef (Fin.ofNat 64 (w / 2 ^ 17)) (Fin.ofNat 64 (w / 2 ^ 11)) (w % 2 == 1)) else .error .reservedField
  | 4 => if w / 8 % 2 ^ 14 = 0 then .ok (.hset (Fin.ofNat 64 (w / 2 ^ 17)) (Fin.ofNat 4 (w / 2)) (w % 2 == 1)) else .error .reservedField
  | 5 => if w / 4 % 2 ^ 15 = 0 then .ok (.await (Fin.ofNat 64 (w / 2 ^ 17)) (w / 2 % 2 == 1) (w % 2 == 1)) else .error .reservedField
  | 6 => if w % 2 ^ 17 = 0 then .ok (.hrel (Fin.ofNat 64 (w / 2 ^ 17))) else .error .reservedField
  | 7 => if w % 2 ^ 17 = 0 then .ok (.hpub (Fin.ofNat 64 (w / 2 ^ 17))) else .error .reservedField
  | 8 => if w % 32 = 8 ∧ w / 2 ^ 17 % 64 = 0 then .ok (.wpost (Fin.ofNat 64 (w / 2 ^ 11)) (Fin.ofNat 64 (w / 32))) else .error .reservedField
  | 9 => if w % 2 ^ 11 = 8 then .ok (.wpoll (Fin.ofNat 64 (w / 2 ^ 17)) (Fin.ofNat 64 (w / 2 ^ 11))) else .error .reservedField
  | 10 => if w / 8 % 2 ^ 8 = 0 then .ok (.wcomm (Fin.ofNat 64 (w / 2 ^ 17)) (Fin.ofNat 64 (w / 2 ^ 11)) (Fin.ofNat 8 w)) else .error .reservedField
  | 11 => if w % 2 ^ 11 = 0 ∧ w / 2 ^ 17 % 64 = 0 then .ok (.wbar (Fin.ofNat 64 (w / 2 ^ 11))) else .error .reservedField
  | _ => .error .reservedOpcode

/-- Opcodes 0xD_ of the map of R148, row by row; `lo` is the low digit, `w` the 23 operand bits. -/
def decodeGroupD (lo w : Nat) : Except DecodeError Instr :=
  match lo with
  | 0 => if w % 2 ^ 20 = 0 then .ok (.phase (Fin.ofNat 8 (w / 2 ^ 20))) else .error .reservedField
  | 1 => if w % 2 ^ 23 = 0 then .ok (.fence) else .error .reservedField
  | 2 => if w / 4 % 2 = 0 then .ok (.atom (Fin.ofNat 64 (w / 2 ^ 17)) (Fin.ofNat 64 (w / 2 ^ 11)) (Fin.ofNat 64 (w / 32)) (Width.ofCode (w / 8 % 4)) (w / 2 % 2 == 1) (w % 2 == 1)) else .error .reservedField
  | 3 => if w % 2 = 0 ∧ w / 4 % 2 = 0 then .ok (.cas (Fin.ofNat 64 (w / 2 ^ 17)) (Fin.ofNat 64 (w / 2 ^ 11)) (Fin.ofNat 64 (w / 32)) (Width.ofCode (w / 8 % 4)) (w / 2 % 2 == 1)) else .error .reservedField
  | 4 => if w % 2 = 0 ∧ w / 4 % 2 = 0 then .ok (.oatom (Fin.ofNat 64 (w / 2 ^ 17)) (Fin.ofNat 64 (w / 2 ^ 11)) (Fin.ofNat 64 (w / 32)) (Width.ofCode (w / 8 % 4)) (w / 2 % 2 == 1)) else if w % 32 = 4 ∧ w / 2 ^ 15 % 4 = 0 ∧ w / 2 ^ 21 % 4 = 0 then .ok (.oatomP (Fin.ofNat 16 (w / 2 ^ 17)) (Fin.ofNat 16 (w / 2 ^ 11)) (Fin.ofNat 64 (w / 32))) else .error .reservedField
  | 5 => if w % 2 ^ 20 = 0 then .ok (.bar (Fin.ofNat 8 (w / 2 ^ 20))) else .error .reservedField
  | 6 => if w % 2 ^ 11 = 0 then .ok (.ostep (Fin.ofNat 64 (w / 2 ^ 17)) (Fin.ofNat 64 (w / 2 ^ 11))) else .error .reservedField
  | 7 => if w % 2 ^ 11 = 0 ∧ w / 2 ^ 17 % 64 = 0 then .ok (.mbtag (Fin.ofNat 64 (w / 2 ^ 11))) else .error .reservedField
  | _ => .error .reservedOpcode

/-- Opcodes 0xE_ of the map of R148, row by row; `lo` is the low digit, `w` the 23 operand bits. -/
def decodeGroupE (lo w : Nat) : Except DecodeError Instr :=
  match lo with
  | 0 => if w / 2 ^ 17 % 64 = 0 then .ok (.trap (BitVec.ofNat 17 w)) else .error .reservedField
  | 1 => if w % 32 = 0 then .ok (.resume (Fin.ofNat 64 (w / 2 ^ 17)) (Fin.ofNat 64 (w / 2 ^ 11)) (Fin.ofNat 64 (w / 32))) else .error .reservedField
  | 2 => if w % 2 ^ 23 = 0 then .ok (.yieldItem) else .error .reservedField
  | 3 => if w % 2 ^ 23 = 0 then .ok (.endItem) else .error .reservedField
  | 4 => .ok (.mfsr (Fin.ofNat 64 (w / 2 ^ 17)) (BitVec.ofNat 17 w))
  | 5 => .ok (.mtsr (Fin.ofNat 64 (w / 2 ^ 17)) (BitVec.ofNat 17 w))
  | 6 => if w / 2 ^ 17 % 64 = 0 then .ok (.snap (BitVec.ofNat 17 w)) else .error .reservedField
  | 7 => if w % 2 ^ 23 = 0 then .ok (.halt) else .error .reservedField
  | 8 => .ok (.sysc (Fin.ofNat 64 (w / 2 ^ 17)) (BitVec.ofNat 17 w))
  | _ => .error .reservedOpcode

/-- The opcode map of R148: `op` is bits [30:23], `w` bits [22:0]. Values with a dash are reserved. -/
def decodeOp (op w : Nat) : Except DecodeError Instr :=
  match op / 16 with
  | 0 => decodeGroup0 (op % 16) w
  | 1 => decodeGroup1 (op % 16) w
  | 2 => decodeGroup2 (op % 16) w
  | 3 => decodeGroup3 (op % 16) w
  | 4 => decodeGroup4 (op % 16) w
  | 5 => decodeGroup5 (op % 16) w
  | 6 => decodeGroup6 (op % 16) w
  | 7 => decodeGroup7 (op % 16) w
  | 8 => decodeGroup8 (op % 16) w
  | 9 => decodeGroup9 (op % 16) w
  | 10 => decodeGroupA (op % 16) w
  | 11 => decodeGroupB (op % 16) w
  | 12 => decodeGroupC (op % 16) w
  | 13 => decodeGroupD (op % 16) w
  | 14 => decodeGroupE (op % 16) w
  | _ => .error .reservedOpcode

/-- R143: the chain bit C of a word. -/
def chainBit (w : BitVec 32) : Bool := w.getLsbD 31

/-- R143, R148, R157: the instruction of a word, whatever its chain bit. -/
def decodeWord (w : BitVec 32) : Except DecodeError Instr :=
  match decodeOp (w.toNat / 2 ^ 23 % 256) (w.toNat % 2 ^ 23) with
  | .ok i => if i.wf then .ok i else .error .illegalOperand
  | .error e => .error e

/-- R5: the little-endian value of four bytes. -/
def wordOfBytes (b0 b1 b2 b3 : Byte) : BitVec 32 := b3 ++ b2 ++ b1 ++ b0

/-- R5: the four bytes of a word, lowest address first. -/
def bytesOfWord (w : BitVec 32) : List Byte :=
  [w.extractLsb' 0 8, w.extractLsb' 8 8, w.extractLsb' 16 8, w.extractLsb' 24 8]

/-- Decoding from a list of bytes: the chain bit, the instruction and the bytes left. -/
def decodeBytes : List Byte → Except DecodeError (Bool × Instr × List Byte)
  | b0 :: b1 :: b2 :: b3 :: rest =>
    match decodeWord (wordOfBytes b0 b1 b2 b3) with
    | .ok i => .ok (chainBit (wordOfBytes b0 b1 b2 b3), i, rest)
    | .error e => .error e
  | _ => .error .truncated

/-- R143: an opcode in [30:23] and fields, each a value and the position of its lowest bit. -/
def pack (op : Nat) : List (Nat × Nat) → Nat
  | [] => op * 2 ^ 23
  | (v, p) :: fs => v * 2 ^ p + pack op fs

/-- The number of a word with chain bit 0 (R154); an event has no encoding. -/
def encodeNat : Instr → Option Nat
  | .nop => some (pack 0x00 [])
  | .add d a b w => some (pack 0x01 [(d.val, 17), (a.val, 11), (b.val, 5), (w.code, 3)])
  | .sub d a b w => some (pack 0x02 [(d.val, 17), (a.val, 11), (b.val, 5), (w.code, 3)])
  | .and d a b w => some (pack 0x03 [(d.val, 17), (a.val, 11), (b.val, 5), (w.code, 3)])
  | .or d a b w => some (pack 0x04 [(d.val, 17), (a.val, 11), (b.val, 5), (w.code, 3)])
  | .xor d a b w => some (pack 0x05 [(d.val, 17), (a.val, 11), (b.val, 5), (w.code, 3)])
  | .andn d a b w => some (pack 0x06 [(d.val, 17), (a.val, 11), (b.val, 5), (w.code, 3)])
  | .orn d a b w => some (pack 0x07 [(d.val, 17), (a.val, 11), (b.val, 5), (w.code, 3)])
  | .shl d a b w => some (pack 0x08 [(d.val, 17), (a.val, 11), (b.val, 5), (w.code, 3)])
  | .shr d a b w => some (pack 0x09 [(d.val, 17), (a.val, 11), (b.val, 5), (w.code, 3)])
  | .sar d a b w => some (pack 0x0A [(d.val, 17), (a.val, 11), (b.val, 5), (w.code, 3)])
  | .rotl d a b w => some (pack 0x0B [(d.val, 17), (a.val, 11), (b.val, 5), (w.code, 3)])
  | .min d a b w => some (pack 0x0C [(d.val, 17), (a.val, 11), (b.val, 5), (w.code, 3)])
  | .max d a b w => some (pack 0x0D [(d.val, 17), (a.val, 11), (b.val, 5), (w.code, 3)])
  | .minn d a b w => some (pack 0x0E [(d.val, 17), (a.val, 11), (b.val, 5), (w.code, 3)])
  | .maxn d a b w => some (pack 0x0F [(d.val, 17), (a.val, 11), (b.val, 5), (w.code, 3)])
  | .ceq d a b w => some (pack 0x10 [(d.val, 17), (a.val, 11), (b.val, 5), (w.code, 3)])
  | .clt d a b w => some (pack 0x11 [(d.val, 17), (a.val, 11), (b.val, 5), (w.code, 3)])
  | .cltn d a b w => some (pack 0x12 [(d.val, 17), (a.val, 11), (b.val, 5), (w.code, 3)])
  | .cmov d a b w => some (pack 0x13 [(d.val, 17), (a.val, 11), (b.val, 5), (w.code, 3)])
  | .mul d a b w => some (pack 0x14 [(d.val, 17), (a.val, 11), (b.val, 5), (w.code, 3)])
  | .mulh d a b => some (pack 0x15 [(d.val, 17), (a.val, 11), (b.val, 5)])
  | .mulhn d a b => some (pack 0x16 [(d.val, 17), (a.val, 11), (b.val, 5)])
  | .div d a b w => some (pack 0x17 [(d.val, 17), (a.val, 11), (b.val, 5), (w.code, 3)])
  | .divn d a b w => some (pack 0x18 [(d.val, 17), (a.val, 11), (b.val, 5), (w.code, 3)])
  | .rem d a b w => some (pack 0x19 [(d.val, 17), (a.val, 11), (b.val, 5), (w.code, 3)])
  | .remn d a b w => some (pack 0x1A [(d.val, 17), (a.val, 11), (b.val, 5), (w.code, 3)])
  | .clz d a w => some (pack 0x1B [(d.val, 17), (a.val, 11), (w.code, 3)])
  | .popc d a w => some (pack 0x1C [(d.val, 17), (a.val, 11), (w.code, 3)])
  | .brev d a w => some (pack 0x1D [(d.val, 17), (a.val, 11), (w.code, 3)])
  | .bext d a b w sx => some (pack 0x1E [(d.val, 17), (a.val, 11), (b.val, 5), (w.code, 3), (sx.toNat, 0)])
  | .bins d a b w => some (pack 0x1F [(d.val, 17), (a.val, 11), (b.val, 5), (w.code, 3)])
  | .addi d a imm => some (pack 0x20 [(d.val, 17), (a.val, 11), (imm.toNat, 0)])
  | .andi d a imm => some (pack 0x21 [(d.val, 17), (a.val, 11), (imm.toNat, 0)])
  | .ori d a imm => some (pack 0x22 [(d.val, 17), (a.val, 11), (imm.toNat, 0)])
  | .xori d a imm => some (pack 0x23 [(d.val, 17), (a.val, 11), (imm.toNat, 0)])
  | .shli d a imm => some (pack 0x24 [(d.val, 17), (a.val, 11), (imm.toNat, 0)])
  | .shri d a imm => some (pack 0x25 [(d.val, 17), (a.val, 11), (imm.toNat, 0)])
  | .sari d a imm => some (pack 0x26 [(d.val, 17), (a.val, 11), (imm.toNat, 0)])
  | .ceqi d a imm => some (pack 0x27 [(d.val, 17), (a.val, 11), (imm.toNat, 0)])
  | .clti d a imm => some (pack 0x28 [(d.val, 17), (a.val, 11), (imm.toNat, 0)])
  | .cltni d a imm => some (pack 0x29 [(d.val, 17), (a.val, 11), (imm.toNat, 0)])
  | .movi d imm => some (pack 0x2A [(d.val, 17), (imm.toNat, 0)])
  | .lui d imm => some (pack 0x2B [(d.val, 17), (imm.toNat, 0)])
  | .madd d a b w => some (pack 0x2C [(d.val, 17), (a.val, 11), (b.val, 5), (w.code, 3)])
  | .lea d a b w nat sh => some (pack 0x2D [(d.val, 17), (a.val, 11), (b.val, 5), (w.code, 3), (nat.toNat, 2), (sh.val, 0)])
  | .mov d a w => some (pack 0x2E [(d.val, 17), (a.val, 11), (w.code, 3)])
  | .ext d a w sub => some (pack 0x2F [(d.val, 17), (a.val, 11), (w.code, 3), (sub.val, 0)])
  | .fadd d a b sub => some (pack 0x30 [(d.val, 17), (a.val, 11), (b.val, 5), (sub.val, 0)])
  | .fsub d a b sub => some (pack 0x31 [(d.val, 17), (a.val, 11), (b.val, 5), (sub.val, 0)])
  | .fmul d a b sub => some (pack 0x32 [(d.val, 17), (a.val, 11), (b.val, 5), (sub.val, 0)])
  | .ffma d a b sub => some (pack 0x33 [(d.val, 17), (a.val, 11), (b.val, 5), (sub.val, 0)])
  | .fmin d a b => some (pack 0x34 [(d.val, 17), (a.val, 11), (b.val, 5)])
  | .fmax d a b => some (pack 0x35 [(d.val, 17), (a.val, 11), (b.val, 5)])
  | .fcmp d a b sub => some (pack 0x36 [(d.val, 17), (a.val, 11), (b.val, 5), (sub.val, 0)])
  | .fcvt d a b sub => some (pack 0x37 [(d.val, 17), (a.val, 11), (b.val, 5), (sub.val, 0)])
  | .br c off => some (pack 0x38 [(c.val, 17), (off.toNat, 0)])
  | .jmp off => some (pack 0x39 [(off.toNat, 0)])
  | .call off => some (pack 0x3A [(off.toNat, 0)])
  | .ret a => some (pack 0x3B [(8, 0), (a.val, 11)])
  | .jx a => some (pack 0x3C [(8, 0), (a.val, 11)])
  | .jxl d a => some (pack 0x3C [(9, 0), (d.val, 17), (a.val, 11)])
  | .loop c fin lvl => some (pack 0x3D [(c.val, 17), (fin.val, 6), (lvl.val, 4)])
  | .loopi n fin lvl => some (pack 0x3E [(n.val / 16, 17), (n.val % 16, 0), (fin.val, 6), (lvl.val, 4)])
  | .brv c off => some (pack 0x3F [(c.val, 17), (off.toNat, 0)])
  | .ldl d a b w sh => some (pack 0x40 [(d.val, 17), (a.val, 11), (b.val, 5), (w.code, 3), (sh.val, 0)])
  | .stl d a b w sh => some (pack 0x41 [(d.val, 17), (a.val, 11), (b.val, 5), (w.code, 3), (sh.val, 0)])
  | .ldg d a b w sh => some (pack 0x42 [(d.val, 17), (a.val, 11), (b.val, 5), (w.code, 3), (sh.val, 0)])
  | .stg d a b w sh => some (pack 0x43 [(d.val, 17), (a.val, 11), (b.val, 5), (w.code, 3), (sh.val, 0)])
  | .ldm d a b w => some (pack 0x44 [(d.val, 17), (a.val, 11), (b.val, 5), (w.code, 3)])
  | .stm d a b w => some (pack 0x45 [(d.val, 17), (a.val, 11), (b.val, 5), (w.code, 3)])
  | .ldk d a b w sh => some (pack 0x46 [(d.val, 17), (a.val, 11), (b.val, 5), (w.code, 3), (sh.val, 0)])
  | .ldh h r imm => some (pack 0x47 [(h.val, 17), (r.val, 11), (imm.toNat, 0)])
  | .sth h r imm => some (pack 0x48 [(h.val, 17), (r.val, 11), (imm.toNat, 0)])
  | .pld d k r mask => some (pack 0x50 [(d.val, 19), (k.val, 15), (r.val, 9), (mask.val, 6)])
  | .pst d k r mask => some (pack 0x51 [(d.val, 19), (k.val, 15), (r.val, 9), (mask.val, 6)])
  | .pldh h pl imm => some (pack 0x52 [(h.val, 17), (pl.val, 11), (imm.toNat, 0)])
  | .psth h pl imm => some (pack 0x53 [(h.val, 17), (pl.val, 11), (imm.toNat, 0)])
  | .pldg d k r mask => some (pack 0x54 [(d.val, 19), (k.val, 15), (r.val, 9), (mask.val, 6)])
  | .pstg d k r mask => some (pack 0x55 [(d.val, 19), (k.val, 15), (r.val, 9), (mask.val, 6)])
  | .pgather d a mask g => some (pack 0x56 [(d.val, 19), (a.val, 15), (mask.val, 8), (g.toNat, 0)])
  | .pscatter d a mask g => some (pack 0x57 [(d.val, 19), (a.val, 15), (mask.val, 8), (g.toNat, 0)])
  | .scope scope => some (pack 0x58 [(scope.val, 20)])
  | .limm imm => some (pack 0x59 [(imm.toNat, 0)])
  | .padd d a b mask pw ty sub => some (pack 0x60 [(d.val, 19), (a.val, 15), (b.val, 11), (mask.val, 8), (pw.val, 6), (ty.val, 3), (sub.val, 0)])
  | .psub d a b mask pw ty sub => some (pack 0x61 [(d.val, 19), (a.val, 15), (b.val, 11), (mask.val, 8), (pw.val, 6), (ty.val, 3), (sub.val, 0)])
  | .pmul d a b mask pw ty sub => some (pack 0x62 [(d.val, 19), (a.val, 15), (b.val, 11), (mask.val, 8), (pw.val, 6), (ty.val, 3), (sub.val, 0)])
  | .pfma d a b mask pw ty sub => some (pack 0x63 [(d.val, 19), (a.val, 15), (b.val, 11), (mask.val, 8), (pw.val, 6), (ty.val, 3), (sub.val, 0)])
  | .pfms d a b mask pw ty sub => some (pack 0x64 [(d.val, 19), (a.val, 15), (b.val, 11), (mask.val, 8), (pw.val, 6), (ty.val, 3), (sub.val, 0)])
  | .pmin d a b mask pw ty sub => some (pack 0x65 [(d.val, 19), (a.val, 15), (b.val, 11), (mask.val, 8), (pw.val, 6), (ty.val, 3), (sub.val, 0)])
  | .pmax d a b mask pw ty sub => some (pack 0x66 [(d.val, 19), (a.val, 15), (b.val, 11), (mask.val, 8), (pw.val, 6), (ty.val, 3), (sub.val, 0)])
  | .pabs d a mask pw ty sub => some (pack 0x67 [(d.val, 19), (a.val, 15), (mask.val, 8), (pw.val, 6), (ty.val, 3), (sub.val, 0)])
  | .pneg d a mask pw ty sub => some (pack 0x68 [(d.val, 19), (a.val, 15), (mask.val, 8), (pw.val, 6), (ty.val, 3), (sub.val, 0)])
  | .pcmp d a b mask ty sub => some (pack 0x69 [(d.val, 19), (a.val, 15), (b.val, 11), (mask.val, 8), (ty.val, 3), (sub.val, 0)])
  | .psel d a b mask pw => some (pack 0x6A [(d.val, 19), (a.val, 15), (b.val, 11), (mask.val, 8), (pw.val, 6)])
  | .pcvt d a b mask pw ty sub => some (pack 0x6B [(d.val, 19), (a.val, 15), (b.val, 11), (mask.val, 8), (pw.val, 6), (ty.val, 3), (sub.val, 0)])
  | .pand d a b mask pw => some (pack 0x6C [(d.val, 19), (a.val, 15), (b.val, 11), (mask.val, 8), (pw.val, 6)])
  | .por d a b mask pw => some (pack 0x6D [(d.val, 19), (a.val, 15), (b.val, 11), (mask.val, 8), (pw.val, 6)])
  | .pxor d a b mask pw => some (pack 0x6E [(d.val, 19), (a.val, 15), (b.val, 11), (mask.val, 8), (pw.val, 6)])
  | .pnot d a mask pw => some (pack 0x6F [(d.val, 19), (a.val, 15), (mask.val, 8), (pw.val, 6)])
  | .pshl d a b mask pw ty sub => some (pack 0x70 [(d.val, 19), (a.val, 15), (b.val, 11), (mask.val, 8), (pw.val, 6), (ty.val, 3), (sub.val, 0)])
  | .pshr d a b mask pw ty sub => some (pack 0x71 [(d.val, 19), (a.val, 15), (b.val, 11), (mask.val, 8), (pw.val, 6), (ty.val, 3), (sub.val, 0)])
  | .psar d a b mask pw ty sub => some (pack 0x72 [(d.val, 19), (a.val, 15), (b.val, 11), (mask.val, 8), (pw.val, 6), (ty.val, 3), (sub.val, 0)])
  | .pmov d a mask pw => some (pack 0x73 [(d.val, 19), (a.val, 15), (mask.val, 8), (pw.val, 6)])
  | .pbcs d r mask ty sub => some (pack 0x74 [(d.val, 19), (r.val, 9), (mask.val, 6), (ty.val, 3), (sub.val, 0)])
  | .pins d r mask ty sub => some (pack 0x75 [(d.val, 19), (r.val, 9), (mask.val, 6), (ty.val, 3), (sub.val, 0)])
  | .pext a r ty sub => some (pack 0x76 [(a.val, 15), (r.val, 9), (ty.val, 3), (sub.val, 0)])
  | .piota d mask pw ty sub => some (pack 0x77 [(d.val, 19), (mask.val, 8), (pw.val, 6), (ty.val, 3), (sub.val, 0)])
  | .pmand d a b mask => some (pack 0x78 [(d.val, 19), (a.val, 15), (b.val, 11), (mask.val, 8)])
  | .pmor d a b mask => some (pack 0x79 [(d.val, 19), (a.val, 15), (b.val, 11), (mask.val, 8)])
  | .pmxor d a b mask => some (pack 0x7A [(d.val, 19), (a.val, 15), (b.val, 11), (mask.val, 8)])
  | .pmnot d a mask => some (pack 0x7B [(d.val, 19), (a.val, 15), (mask.val, 8)])
  | .pvote d a mask sub => some (pack 0x7C [(d.val, 19), (a.val, 15), (mask.val, 8), (sub.val, 0)])
  | .pflag d mask sub => some (pack 0x7D [(d.val, 19), (mask.val, 8), (sub.val, 0)])
  | .prng d mask pw sub => some (pack 0x7E [(d.val, 19), (mask.val, 8), (pw.val, 6), (sub.val, 0)])
  | .pscale d a r mask ty sub => some (pack 0x7F [(d.val, 19), (a.val, 15), (r.val, 9), (mask.val, 6), (ty.val, 3), (sub.val, 0)])
  | .pdot2 d a b mask pw ty sub => some (pack 0x80 [(d.val, 19), (a.val, 15), (b.val, 11), (mask.val, 8), (pw.val, 6), (ty.val, 3), (sub.val, 0)])
  | .pmuls d a r mask ty sub => some (pack 0x81 [(d.val, 19), (a.val, 15), (r.val, 9), (mask.val, 6), (ty.val, 3), (sub.val, 0)])
  | .pfmas d a r mask ty sub => some (pack 0x82 [(d.val, 19), (a.val, 15), (r.val, 9), (mask.val, 6), (ty.val, 3), (sub.val, 0)])
  | .pclamp d a b mask pw ty sub => some (pack 0x83 [(d.val, 19), (a.val, 15), (b.val, 11), (mask.val, 8), (pw.val, 6), (ty.val, 3), (sub.val, 0)])
  | .pround d a mask pw ty sub => some (pack 0x84 [(d.val, 19), (a.val, 15), (mask.val, 8), (pw.val, 6), (ty.val, 3), (sub.val, 0)])
  | .paddi d a r mask ty sub => some (pack 0x85 [(d.val, 19), (a.val, 15), (r.val, 9), (mask.val, 6), (ty.val, 3), (sub.val, 0)])
  | .pabsd d a b mask pw ty sub => some (pack 0x86 [(d.val, 19), (a.val, 15), (b.val, 11), (mask.val, 8), (pw.val, 6), (ty.val, 3), (sub.val, 0)])
  | .protRow d a k mask pw => some (pack 0x90 [(d.val, 19), (a.val, 15), (k.val / 8, 11), (k.val % 8, 0), (mask.val, 8), (pw.val, 6)])
  | .protCol d a k mask pw => some (pack 0x91 [(d.val, 19), (a.val, 15), (k.val / 8, 11), (k.val % 8, 0), (mask.val, 8), (pw.val, 6)])
  | .pbcRow d a k mask pw => some (pack 0x92 [(d.val, 19), (a.val, 15), (k.val / 8, 11), (k.val % 8, 0), (mask.val, 8), (pw.val, 6)])
  | .pbcCol d a k mask pw => some (pack 0x93 [(d.val, 19), (a.val, 15), (k.val / 8, 11), (k.val % 8, 0), (mask.val, 8), (pw.val, 6)])
  | .psumRow d a mask pw ty sub => some (pack 0x94 [(d.val, 19), (a.val, 15), (mask.val, 8), (pw.val, 6), (ty.val, 3), (sub.val, 0)])
  | .psumCol d a mask pw ty sub => some (pack 0x95 [(d.val, 19), (a.val, 15), (mask.val, 8), (pw.val, 6), (ty.val, 3), (sub.val, 0)])
  | .predRow d a mask pw ty sub => some (pack 0x96 [(d.val, 19), (a.val, 15), (mask.val, 8), (pw.val, 6), (ty.val, 3), (sub.val, 0)])
  | .predCol d a mask pw ty sub => some (pack 0x97 [(d.val, 19), (a.val, 15), (mask.val, 8), (pw.val, 6), (ty.val, 3), (sub.val, 0)])
  | .pspf d a mask pw ty sub => some (pack 0x98 [(d.val, 19), (a.val, 15), (mask.val, 8), (pw.val, 6), (ty.val, 3), (sub.val, 0)])
  | .pdiv d a b mask pw ty sub => some (pack 0x99 [(d.val, 19), (a.val, 15), (b.val, 11), (mask.val, 8), (pw.val, 6), (ty.val, 3), (sub.val, 0)])
  | .ptrig d a mask pw ty sub => some (pack 0x9A [(d.val, 19), (a.val, 15), (mask.val, 8), (pw.val, 6), (ty.val, 3), (sub.val, 0)])
  | .pxbar d a b mask => some (pack 0x9C [(d.val, 19), (a.val, 15), (b.val, 11), (mask.val, 8)])
  | .pxset d a mask => some (pack 0x9D [(d.val, 19), (a.val, 15), (mask.val, 8)])
  | .pxtr d a mask => some (pack 0x9E [(d.val, 19), (a.val, 15), (mask.val, 8)])
  | .rvadd d a b mask sub => some (pack 0xA0 [(d.val, 19), (a.val, 15), (b.val, 11), (mask.val, 8), (sub.val, 0)])
  | .unadd d a b sub => some (pack 0xA1 [(d.val, 19), (a.val, 15), (b.val, 11), (sub.val, 0)])
  | .rvmul d a b mask sub => some (pack 0xA2 [(d.val, 19), (a.val, 15), (b.val, 11), (mask.val, 8), (sub.val, 0)])
  | .unmul d a b sub => some (pack 0xA3 [(d.val, 19), (a.val, 15), (b.val, 11), (sub.val, 0)])
  | .rvnarrow d a b mask sub => some (pack 0xA4 [(8, 0), (d.val, 19), (a.val, 15), (b.val, 11), (mask.val, 8), (sub.val, 0)])
  | .unnarrow d a b sub => some (pack 0xA5 [(8, 0), (d.val, 19), (a.val, 15), (b.val, 11), (sub.val, 0)])
  | .rvscale d a r mask sub => some (pack 0xA6 [(d.val, 19), (a.val, 15), (r.val, 9), (mask.val, 6), (sub.val, 0)])
  | .unscale d a sub => some (pack 0xA7 [(d.val, 19), (a.val, 15), (sub.val, 0)])
  | .rvlrelu d a b mask sub => some (pack 0xA8 [(d.val, 19), (a.val, 15), (b.val, 11), (mask.val, 8), (sub.val, 0)])
  | .unlrelu d a sub => some (pack 0xA9 [(d.val, 19), (a.val, 15), (sub.val, 0)])
  | .rvcvt d a b mask sub => some (pack 0xAA [(24, 0), (d.val, 19), (a.val, 15), (b.val, 11), (mask.val, 8), (sub.val, 0)])
  | .uncvt d a b sub => some (pack 0xAB [(24, 0), (d.val, 19), (a.val, 15), (b.val, 11), (sub.val, 0)])
  | .rvmark r sub => some (pack 0xAC [(r.val, 9), (sub.val, 0)])
  | .unmark r sub => some (pack 0xAD [(r.val, 9), (sub.val, 0)])
  | .rvspill r wt => some (pack 0xAE [(r.val, 9), (wt.toNat, 0)])
  | .rvinfo r sub => some (pack 0xAF [(r.val, 9), (sub.val, 0)])
  | .tload d a imm => some (pack 0xB0 [(d.val, 17), (a.val, 11), (imm.toNat, 0)])
  | .tset d a imm => some (pack 0xB1 [(d.val, 17), (a.val, 11), (imm.toNat, 0)])
  | .mma acc a b pf clr ret ta tb => some (pack 0xB2 [(acc.val, 20), (a.val, 16), (b.val, 12), (pf.val, 7), (clr.toNat, 6), (ret.toNat, 5), (ta.toNat, 4), (tb.toNat, 3)])
  | .mmag acc a b pf ix clr ret tb => some (pack 0xB3 [(acc.val, 20), (a.val, 16), (b.val, 12), (pf.val, 7), (ix.val, 3), (clr.toNat, 2), (ret.toNat, 1), (tb.toNat, 0)])
  | .mret h r acc fmt pub clr rm sat => some (pack 0xB4 [(h.val, 17), (r.val, 11), (acc.val, 8), (fmt.val, 5), (pub.toNat, 4), (clr.toNat, 3), (rm.val, 1), (sat.toNat, 0)])
  | .mclr acc => some (pack 0xB5 [(acc.val, 20)])
  | .mld h r acc fmt gen => some (pack 0xB6 [(h.val, 17), (r.val, 11), (acc.val, 8), (fmt.val, 6), (gen.toNat, 0)])
  | .mwait acc => some (pack 0xB7 [(acc.val, 20)])
  | .mwaitAll => some (pack 0xB7 [(64, 0)])
  | .mprof pf => some (pack 0xB8 [(pf.val, 7)])
  | .flow a ch => some (pack 0xC0 [(8, 0), (a.val, 11), (ch.val, 0)])
  | .fpoll d ch => some (pack 0xC1 [(8, 0), (d.val, 17), (ch.val, 0)])
  | .fhalt ch => some (pack 0xC2 [(ch.val, 0)])
  | .hdef h r dbl => some (pack 0xC3 [(h.val, 17), (r.val, 11), (dbl.toNat, 0)])
  | .hset h tag gen => some (pack 0xC4 [(h.val, 17), (tag.val, 1), (gen.toNat, 0)])
  | .await h yld gen => some (pack 0xC5 [(h.val, 17), (yld.toNat, 1), (gen.toNat, 0)])
  | .hrel h => some (pack 0xC6 [(h.val, 17)])
  | .hpub h => some (pack 0xC7 [(h.val, 17)])
  | .wpost a b => some (pack 0xC8 [(8, 0), (a.val, 11), (b.val, 5)])
  | .wpoll d a => some (pack 0xC9 [(8, 0), (d.val, 17), (a.val, 11)])
  | .wcomm d a sub => some (pack 0xCA [(d.val, 17), (a.val, 11), (sub.val, 0)])
  | .wbar a => some (pack 0xCB [(a.val, 11)])
  | .phase scope => some (pack 0xD0 [(scope.val, 20)])
  | .fence => some (pack 0xD1 [])
  | .atom d a b w sp rt => some (pack 0xD2 [(d.val, 17), (a.val, 11), (b.val, 5), (w.code, 3), (sp.toNat, 1), (rt.toNat, 0)])
  | .cas d a b w sp => some (pack 0xD3 [(d.val, 17), (a.val, 11), (b.val, 5), (w.code, 3), (sp.toNat, 1)])
  | .oatom d a b w sp => some (pack 0xD4 [(d.val, 17), (a.val, 11), (b.val, 5), (w.code, 3), (sp.toNat, 1)])
  | .oatomP d a b => some (pack 0xD4 [(4, 0), (d.val, 17), (a.val, 11), (b.val, 5)])
  | .bar scope => some (pack 0xD5 [(scope.val, 20)])
  | .ostep d a => some (pack 0xD6 [(d.val, 17), (a.val, 11)])
  | .mbtag a => some (pack 0xD7 [(a.val, 11)])
  | .trap imm => some (pack 0xE0 [(imm.toNat, 0)])
  | .resume d a b => some (pack 0xE1 [(d.val, 17), (a.val, 11), (b.val, 5)])
  | .yieldItem => some (pack 0xE2 [])
  | .endItem => some (pack 0xE3 [])
  | .mfsr d imm => some (pack 0xE4 [(d.val, 17), (imm.toNat, 0)])
  | .mtsr d imm => some (pack 0xE5 [(d.val, 17), (imm.toNat, 0)])
  | .snap imm => some (pack 0xE6 [(imm.toNat, 0)])
  | .halt => some (pack 0xE7 [])
  | .sysc d imm => some (pack 0xE8 [(d.val, 17), (imm.toNat, 0)])
  | .exposedResultLand _ => none
  | .hiddenResultLand _ _ => none
  | .governorTick _ => none
  | .tableWalk _ => none
  | .lateFault _ => none
  | .faultEntryWrite _ => none
  | .launchFaultEnd _ => none
  | .atomicPerform _ _ => none
  | .oatomArrive _ => none
  | .phaseComplete _ => none
  | .barrierComplete _ => none
  | .ostepVoteComplete _ => none
  | .granuleSpill _ _ => none
  | .granuleRestore _ _ => none
  | .handleSwap _ _ => none
  | .flumeRecordFetch _ _ => none
  | .flumeRecordStart _ _ => none
  | .flumeRecordComplete _ _ => none
  | .tloadComplete _ => none
  | .millstoneLatchFill _ => none
  | .millstoneWave _ => none
  | .millstoneCommandComplete _ => none
  | .tailraceSpillComplete _ => none
  | .tailraceRefillComplete _ => none
  | .suspendCommit _ => none
  | .windlassOpStart _ _ => none
  | .windlassChunkStart _ _ _ => none
  | .windlassOpComplete _ _ => none
  | .invalidationStart _ _ => none
  | .invalidationComplete _ => none
  | .bwlimWrite _ _ => none
  | .limiterTick _ _ => none
  | .keyGenerate => none
  | .keyLoad => none
  | .keyZeroise => none
  | .keyZeroiseComplete _ => none
  | .govctlWrite _ => none
  | .qbwlimWrite _ _ => none
  | .registerWrite _ _ => none
  | .kick _ _ _ => none
  | .hint _ _ => none
  | .lstatInv _ => none
  | .ccfgWrite _ _ => none
  | .coalesceWindowClose _ => none
  | .launchRecordFetch _ _ => none
  | .preload _ _ => none
  | .launchStart _ _ => none
  | .launchSkip _ => none
  | .workItemStart _ _ _ => none
  | .continuationResume _ _ => none
  | .launchComplete _ => none
  | .fqresWrite _ _ _ => none
  | .parkedRestore _ _ _ => none
  | .parkFrameConfigWrite _ _ _ => none
  | .pcreate _ => none
  | .pgrant _ => none
  | .prevoke _ => none
  | .pdestroy _ => none
  | .vdcreate _ => none
  | .vdsched _ => none
  | .vdstop _ => none
  | .vddestroy _ => none
  | .gjoin _ => none
  | .gretire _ => none
  | .slotw _ => none
  | .bfillw _ => none
  | .ccreate _ => none
  | .cdestroy _ => none
  | .slotRowExpire _ => none
  | .quantumExpire _ => none
  | .slot _ _ _ _ => none
  | .prepare _ _ => none
  | .refuse _ _ _ _ => none
  | .report _ _ _ _ _ => none
  | .query _ _ => none
  | .capture _ _ => none
  | .commit _ _ => none
  | .abort _ _ => none
  | .doneMessage _ _ _ => none
  | .resumeMessage _ => none
  | .rollback _ => none
  | .barrierArrival _ _ _ => none
  | .barrierRelease _ _ _ => none
  | .ostepFlag _ _ _ => none
  | .ostepResult _ _ => none
  | .snapshotTrigger _ => none
  | .votePollTick _ => none
  | .voteRetry _ => none
  | .chunksDrained _ => none
  | .clusterSettled _ _ => none
  | .restoreDone _ => none
  | .memberSilentTimeout _ _ => none
  | .checkpointTimer _ => none
  | .undoLogThreshold _ => none
  | .mirrorComplete _ => none
  | .uncorrectableError _ => none
  | .quijaPacketReceive _ _ => none
  | .linkReplay _ => none
  | .linkRetrainTimeout _ => none
  | .seustRetrainTimeout => none
  | .mrd _ _ _ => none
  | .mwr _ _ _ _ => none
  | .hrd _ _ _ _ _ => none
  | .hwr _ _ _ _ _ => none
  | .dbgHalt _ => none
  | .dbgRun _ => none
  | .dbgStep _ => none
  | .dbgRunMillstone _ _ => none
  | .dbgDump _ _ => none
  | .dbgLoad _ _ => none
  | .snstatFire _ => none
  | .thermalThrottle _ => none
  | .thermalHold _ => none
  | .thermalHoldEnd _ => none
  | .thermalHoldTimeout => none
  | .thermtrip => none
  | .bringUp _ => none
  | .pwrokDeassert => none
  | .deviceReset => none
  | .thermalThrottleEnd _ => none
  | .quijaLinkUp _ => none
  | .portRetrain _ => none
  | .seustLinkUp => none
  | .seustLinkRetrain => none
  | .rstNAssert => none
  | .seustMalformedPacket _ _ _ => none

/-- The word of an instruction, with chain bit 0. -/
def encode (i : Instr) : Option (BitVec 32) := (encodeNat i).map (BitVec.ofNat 32)

/-- The instruction the decoder reads from a word numbered as the opcode table numbers it: one 32-bit word, laid out
little-endian (R5, R143). -/
def decodeTableWord (nbits w : Nat) : Option Instr :=
  match decodeBytes (bytesOfWord (BitVec.ofNat 32 (w % 2 ^ nbits))) with
  | .ok (_, i, _) => some i
  | .error _ => none

end Sys2Proof
end

