-- ==== Sys2Proof/Machine/Map.lean ====
section
/-! DEFINITION. Sparse maps: lists of keyed entries in strictly rising key order. Memory is held in the canonical form in which
no entry equals what an unlisted key reads as. -/

namespace Sys2Proof.Machine

/-- The value at a key; an unlisted key reads as `d`. -/
def Map.get {α : Type} (d : α) : Map α → Nat → α
  | [], _ => d
  | (k', v) :: t, k => if k' = k then v else Map.get d t k

/-- Is the key listed? -/
def Map.has {α : Type} : Map α → Nat → Bool
  | [], _ => false
  | (k', _) :: t, k => if k' = k then true else Map.has t k

/-- Lists a value at a key, keeping the order. -/
def Map.put {α : Type} (m : Map α) (k : Nat) (v : α) : Map α :=
  match m with
  | [] => [(k, v)]
  | (k', v') :: t =>
    if k' < k then (k', v') :: Map.put t k v
    else if k' = k then (k, v) :: t
    else (k, v) :: (k', v') :: t

/-- Removes a key. -/
def Map.erase {α : Type} (m : Map α) (k : Nat) : Map α := m.filter (fun e => e.1 != k)

/-- Writes a value, keeping the canonical form: the value an unlisted key reads as is not listed. -/
def Map.set {α : Type} [DecidableEq α] (d : α) (m : Map α) (k : Nat) (v : α) : Map α :=
  if v = d then Map.erase m k else Map.put m k v

/-- Writes consecutive keys from `k`, canonically. -/
def Map.setList {α : Type} [DecidableEq α] (d : α) (m : Map α) (k : Nat) : List α → Map α
  | [] => m
  | v :: vs => Map.setList d (Map.set d m k v) (k + 1) vs

/-- Reads `n` consecutive keys from `k`. -/
def Map.getList {α : Type} (d : α) (m : Map α) (k n : Nat) : List α := (List.range n).map (fun i => Map.get d m (k + i))

/-- Changes one entry. -/
def Map.modify {α : Type} (d : α) (m : Map α) (k : Nat) (f : α → α) : Map α := Map.put m k (f (Map.get d m k))

/-- The canonical form: strictly rising keys, no entry equal to the default. -/
def Map.wf {α : Type} [DecidableEq α] (d : α) : Map α → Bool
  | [] => true
  | [(_, v)] => v != d
  | (k, v) :: (k', v') :: t => v != d && k < k' && Map.wf d ((k', v') :: t)

end Sys2Proof.Machine
end

