-- ==== Sys2Proof/Machine/Bits.lean ====
section
/-! DEFINITION. Bit fields, byte order and lane lists. -/

namespace Sys2Proof.Machine

/-- Bits [hi:lo] of a number. -/
def fld (x hi lo : Nat) : Nat := x / 2 ^ lo % 2 ^ (hi + 1 - lo)

/-- Bit `i` of a number. -/
def bit (x i : Nat) : Bool := x.testBit i

/-- A truth value as 0 or 1. -/
def b2n (b : Bool) : Nat := if b then 1 else 0

/-- R5: the little-endian value of a list of bytes. -/
def leNat : List Byte → Nat
  | [] => 0
  | b :: t => b.toNat + 256 * leNat t

/-- R5: the `n` little-endian bytes of a number. -/
def leBytes : Nat → Nat → List Byte
  | 0, _ => []
  | n + 1, x => BitVec.ofNat 8 x :: leBytes n (x / 256)

/-- Two's complement reading of the low `n` bits of a number. -/
def sxt (n x : Nat) : Int := if x % 2 ^ n < 2 ^ (n - 1) then (x % 2 ^ n : Nat) else (x % 2 ^ n : Nat) - (2 ^ n : Nat)

/-- The `n`-bit pattern of an integer. -/
def wrap (n : Nat) (x : Int) : Nat := (x % ((2 ^ n : Nat) : Int)).toNat

/-- The 32-bit pattern of an integer. -/
def wordOf (x : Int) : Word := BitVec.ofInt 32 x

/-- The 32-bit words of a little-endian value, `n` of them. -/
def splitWords : Nat → Nat → List Word
  | 0, _ => []
  | n + 1, x => BitVec.ofNat 32 x :: splitWords n (x / 2 ^ 32)

/-- The value of a list of words, lowest first. -/
def joinWords : List Word → Nat
  | [] => 0
  | w :: t => w.toNat + 2 ^ 32 * joinWords t

/-- The list of a function's values on 0 to n - 1. -/
def tabulate {α : Type} (n : Nat) (f : Nat → α) : List α := (List.range n).map f

/-- R163: lanes of a plane. -/
def lanes : Nat := 1024

/-- R165: a predicate over the lanes of a plane. -/
def laneMask (f : Nat → Bool) : BitVec 1024 := BitVec.ofFnLE (fun i : Fin 1024 => f i.val)

/-- R163: a lane of a plane; a plane that nothing wrote is an empty list and reads 0. -/
def lane (p : List Word) (i : Nat) : Word := p.getD i 0

/-- Groups a list of bytes into 32-bit words. -/
def wordsOf : List Byte → List Word
  | b0 :: b1 :: b2 :: b3 :: t => (b3 ++ b2 ++ b1 ++ b0) :: wordsOf t
  | _ => []

/-- R5: the bytes of a list of words. -/
def bytesOf : List Word → List Byte
  | [] => []
  | w :: t => leBytes 4 w.toNat ++ bytesOf t

end Sys2Proof.Machine
end

