-- ==== Sys2Proof/Machine/State.lean ====
section
/-! DEFINITION. The state of the machine: everything the spec gives it, as plain data, and the state after reset. -/

namespace Sys2Proof.Machine

/-- Why the machine stops with a fault. Every fault class of R422 is recorded in the state and the machine goes on, so no
instruction of this model stops here. -/
inductive Fault where
  /-- Raised by nothing: kept so that the outcome has a name for a machine that cannot go on. Safe. -/
  | stuck
  deriving DecidableEq, Repr

/-- Why a step is refused. -/
inductive Refusal where
  /-- Raised by an arm of `exec` whose instruction has no meaning yet. Safe: nothing is claimed of it. -/
  | notModelled (mnemonic : String)
  deriving DecidableEq, Repr

/-- A fault as the device records it (R422, R427): class, address, kind and code. -/
structure Trap where
  cls : Nat
  addr : Nat := 0
  kind : Nat := 0
  code : Nat := 0
  /-- the register of a `sysc`; its argument stands in `addr` -/
  reg : Nat := 0
  deriving DecidableEq, Repr

/-- What a stalled word asks of the Tailrace: spills until at most so many bytes stay (R273, R276), or the refill of the top entry
(R275). -/
inductive Demand where
  | spill (lim : Nat)
  | refill
  deriving DecidableEq, Repr

/-- How the last instruction of a bundle ended: it took effect, it would stall (R189), or stall until the Tailrace has done what it
asks, it freezes for the Governor (R191, no granules) or while granules are spilled or restored (R130), it waits while the schedule counter advances (R339), or it raises a
fault at issue (R147). -/
inductive Mark where
  | ok
  | stall
  | tail (d : Demand)
  | freeze (gs : List Nat)
  | tick
  | trap (t : Trap)
  deriving DecidableEq, Repr

/-- R189: does the core stall? -/
def Mark.stalls : Mark → Bool
  | .stall => true
  | .tail _ => true
  | _ => false

/-- Does the bundle not issue now, with no schedule cycle passing? -/
def Mark.holds : Mark → Bool
  | .stall => true
  | .tail _ => true
  | .freeze _ => true
  | _ => false

/-- R130, R191: is the core frozen? -/
def Mark.frozen : Mark → Bool
  | .freeze _ => true
  | _ => false

/-- R491: the number of what holds a core in a cycle that ends so (`Core.cause`). -/
def Mark.cause : Mark → Nat
  | .stall => 1
  | .tail _ => 2
  | .freeze _ => 3
  | .tick => 4
  | _ => 0

/-- The granules at which the touch of a frozen bundle waits. -/
def Mark.granules : Mark → List Nat
  | .freeze gs => gs
  | _ => []

/-! ### Cores -/

/-- A tensor register (R287): the checked entry with its selected version and codebook, and the view. -/
structure TReg where
  loaded : Bool
  words : List DWord
  ver : Nat
  codebook : List Byte
  row0 : Nat
  col0 : Nat
  i2 : Nat
  i3 : Nat
  wr : Nat
  wc : Nat
  rs : Word
  cs : Word
  eg : Bool
  busy : Bool
  deriving DecidableEq, Repr

/-- R287: an empty tensor register. -/
def TReg.reset : TReg :=
  { loaded := false, words := [], ver := 0, codebook := [], row0 := 0, col0 := 0, i2 := 0, i3 := 0, wr := 0, wc := 0,
    rs := 0, cs := 0, eg := false, busy := false }

/-- What an exposed-latency result changes when it lands (R185, R435). -/
inductive Landing where
  /-- a scalar register -/
  | reg (r : Nat) (v : Word)
  /-- a bypass latch 0-4 (R159) -/
  | latch (k : Nat) (v : Word)
  /-- the enabled lanes of a plane -/
  | plane (p : Nat) (m : BitVec 1024) (v : List Word)
  /-- the enabled bits of a mask or flag plane -/
  | pred (q : Nat) (m v : BitVec 1024)
  /-- flags ORed into the flag planes 8-12 (R232) -/
  | flags (q : Nat) (v : BitVec 1024)
  /-- a system register, by number (R205) -/
  | sysreg (n : Nat) (v : DWord)
  /-- bytes of the core's slice, from an offset (R221) -/
  | slice (a : Nat) (v : List Byte)
  /-- the enabled lanes of a plane image in the slice, each lane with its own offset (R235, R237) -/
  | lanes (v : List (Nat × Word))
  /-- a core store's write to a bank of a handle, which counts for `hpub` (R339) -/
  | bank (h a : Nat) (v : List Byte)
  /-- a crossbar slot: enables, destinations and collision (R256) -/
  | xslot (k : Nat) (en : BitVec 1024) (dst : List Nat) (coll : Bool)
  /-- a tensor register as `tset` leaves it (R289) -/
  | treg (n : Nat) (t : TReg)
  /-- bits of one lane of a plane: those that `keep` holds stay (R241) -/
  | part (p l : Nat) (keep v : Word)
  /-- the part of a Tailrace entry that lands with the word's destination (R266) -/
  | tail (base : Nat) (v : List Byte)
  deriving DecidableEq, Repr

/-- An exposed-latency result in flight: issued at `at`, landing at schedule cycle `due`. -/
structure InFlight where
  at_ : Nat
  due : Nat
  what : Landing
  deriving DecidableEq, Repr

/-- A hardware loop set (R216). -/
structure LoopSet where
  start : Nat
  fin : Nat
  cnt : Word
  deriving DecidableEq, Repr

/-- A handle descriptor (R133) with the model's counts of fillers in flight, of fillers in flight of the
bank that a swap would show, of engine reads, and of pending Flume releases (R111, R136). -/
structure Handle where
  defd : Bool
  state : Nat
  gen : Bool
  shs : Nat
  vis : Bool
  vtag : Nat
  stag : Nat
  rdr : Nat
  dbl : Bool
  size : Nat
  base : Nat
  fillers : Nat
  engineReads : Nat
  releases : Nat
  mretBusy : Nat
  deriving DecidableEq, Repr

/-- R132, R133: an undefined handle. -/
def Handle.reset : Handle :=
  { defd := false, state := 0, gen := false, shs := 0, vis := false, vtag := 0, stag := 0, rdr := 0, dbl := false,
    size := 0, base := 0, fillers := 0, engineReads := 0, releases := 0, mretBusy := 0 }

/-- What a hidden-latency access does when it is performed (R188, R224, R329, R330). -/
inductive AccessOp where
  /-- a scalar load into the registers from `reg` -/
  | load
  /-- a scalar store of the bytes in `data` -/
  | store
  /-- a plane load: lane numbers with their addresses -/
  | planeLoad
  /-- a plane store: lanes with their addresses, data in `data` -/
  | planeStore
  /-- an immediate atomic, with its operation and whether it returns (R328) -/
  | atom (op : Nat) (ret : Bool)
  /-- compare and swap: expected value in `data`, new value in `data2` -/
  | cas
  /-- a tensor register load (R288) -/
  | tload
  /-- an atomic that has been performed and whose old value, in `data`, has still to land -/
  | returned
  deriving DecidableEq, Repr

/-- An access in the G or the M queue of a core (R40, R432), issued at schedule cycle `at_`. `before` holds the bytes that a store of
the load's own bundle has overwritten in the core's slice (R171). -/
structure Access where
  order : Nat
  at_ : Nat
  before : List (Nat × Byte)
  op : AccessOp
  m : Bool
  addr : Nat
  size : Nat
  reg : Nat
  width : Nat
  scope : Nat
  data : List Byte
  data2 : List Byte
  lanes : List (Nat × Nat)
  bundle : Nat
  faulted : Bool
  /-- it was issued again by a resolution (R434) -/
  replay : Bool
  deriving DecidableEq, Repr

/-- A line of the store queue (R224, R350): an aligned 64-byte block of a space and scope. -/
structure SqLine where
  m : Bool
  scope : Nat
  block : Nat
  mask : BitVec 64
  data : List Byte
  deriving DecidableEq, Repr

/-- A pattern slot of the crossbar (R255). -/
structure XSlot where
  en : BitVec 1024
  dst : List Nat
  coll : Bool
  deriving DecidableEq, Repr

/-- R255: a slot at launch start. -/
def XSlot.reset : XSlot := { en := 0, dst := [], coll := false }

/-- What a core is doing. -/
inductive Mode where
  /-- no continuation -/
  | idle
  /-- issuing -/
  | running
  /-- waiting at a suspension point; `kind` 0 end, 1 yield, 2 yielding await (R372) -/
  | suspending (kind : Nat) (h : Nat) (gen : Bool)
  /-- stopped by a fault, its ending not yet done (R425) -/
  | faulted
  /-- parking, or waiting for a park frame or for the fault queue (R426, R429, R435) -/
  | parking
  /-- waiting in place for the resolution of an entry without a frame (R428) -/
  | waiting (seq : Nat)
  /-- halted by the debugger, `trap` or `halt` (R436, R445) -/
  | halted
  deriving DecidableEq, Repr

/-- A barrier word on which the core waits (R323-R326, R333). -/
structure Barrier where
  /-- 0 phase, 1 bar, 2 ostep -/
  kind : Nat
  scope : Nat
  flag : Bool
  d : Nat
  /-- the word as it was fetched (R431) -/
  word : Word
  deriving DecidableEq, Repr

/-- What a chain or a command copies from its core at issue (R90, R284). -/
structure Snapshot where
  tregs : Map TReg
  rngkey : DWord
  rngctr : Word
  widx : Nat
  lid : Nat
  fctl : Word
  fpos : Nat
  deriving DecidableEq, Repr

/-- The head of a chain: the record pointer and the snapshot (R90). -/
structure Chain where
  ptr : DWord
  snap : Snapshot
  /-- the schedule cycle of its `flow` (R91) -/
  issued : Nat
  deriving DecidableEq, Repr

/-- One write that an engine has still to perform: in M or G, address and bytes. -/
structure EngineWrite where
  m : Bool
  addr : Nat
  data : List Byte
  /-- 0 whole bytes, 1 the low half of the byte, 2 the high half -/
  nib : Nat := 0
  deriving DecidableEq, Repr

/-- A transfer record a channel has fetched (R94, R110). -/
structure FlumeRec where
  ptr : DWord
  words : List DWord
  snap : Snapshot
  issued : Nat
  /-- claims made: the handles it reads, the one it writes, and whether the bank written is the shadow -/
  src : List Nat
  dst : Option Nat
  shadow : Bool
  /-- its start made the handle whose release is pending draining, and no `hrel` has acted on it since (R111) -/
  drained : Bool
  /-- the handle of which its release is pending (R111) -/
  pend : Option Nat
  started : Bool
  /-- its bytes have moved, and its completion waits for its release (R111) -/
  closing : Bool
  /-- the granules it has pinned (R129) -/
  pins : List Nat
  /-- what its streaming has still to write -/
  writes : List EngineWrite
  crc : Nat
  last : Bool
  deriving DecidableEq, Repr

/-- A Flume channel (R89, R117). `next` is the record to fetch. -/
structure Channel where
  state : Nat
  active : Option Chain
  shadow : Option Chain
  next : Option DWord
  recs : List FlumeRec
  done : Word
  stat : Nat
  parkedSeq : Nat
  /-- the fault for which it is parked, while its entry has still to be written -/
  trap : Option Trap
  deriving DecidableEq, Repr

/-- R117: a channel at launch start. -/
def Channel.reset : Channel :=
  { state := 0, active := none, shadow := none, next := none, recs := [], done := 0, stat := 0, parkedSeq := 0, trap := none }

/-- The matrix commands (R282). -/
inductive MOp where
  | mma (pf : Nat) (clr ret ta tb gather : Bool)
  | mret (h fmt rm : Nat) (pub clr sat : Bool)
  | mld (h fmt : Nat)
  | mclr
  deriving DecidableEq, Repr

/-- A command with its snapshot and, after the latch fill, its operands (R283, R284). -/
structure Cmd where
  op : MOp
  acc : Nat
  a : TReg
  b : TReg
  ix : List Word
  off : Nat
  snap : Snapshot
  /-- handles whose reader count the command holds, and the filler bank of an `mret` -/
  readers : List Nat
  bank : Nat
  /-- the schedule cycle of its issue, and its core's position in the flight -/
  issued : Nat
  latched : Bool
  waves : Nat
  /-- the operands: the codes of A by row and of B by column, and the scales of their blocks along K -/
  opA : List (List Nat)
  opB : List (List Nat)
  scA : List (List Nat)
  scB : List (List Nat)
  deriving DecidableEq, Repr

/-- The Millstone of a core (R282-R316). -/
structure Mill where
  active : Option Cmd
  shadow : Option Cmd
  depth : Nat
  chainBytes : Nat
  /-- the running sums of the open chain, which the tile receives when it retires (R312) -/
  sums : Option (List Word)
  /-- the completed commands of the open chain, oldest first, with their operands in the latch (R316) -/
  chain : List Cmd
  /-- in a replay, the commands to run again after the active one (R316) -/
  again : List Cmd
  /-- the waves of the last command of `again`, else of the active one, at which the replay has caught up (R316) -/
  replay : Option Nat
  held : Bool
  /-- a save or a hold is asked of a busy Millstone, which samples it when a wave completes (R315) -/
  asked : Bool
  group : Nat
  /-- since when the next wave has been ready, and its weight (R191) -/
  waveReady : Option (Nat × Nat)
  deriving DecidableEq, Repr

/-- R285, R286: an idle Millstone. -/
def Mill.reset : Mill :=
  { active := none, shadow := none, depth := 0, chainBytes := 0, sums := none, chain := [], again := [], replay := none,
    held := false, asked := false, group := 0, waveReady := none }

/-- A Tailrace entry that counts in R (R275): 0 resident, 1 being spilled, 2 being refilled, 3 being refilled from a header
that R263 rejects or cannot be read. -/
structure TailEnt where
  base : Nat
  size : Nat
  st : Nat
  deriving DecidableEq, Repr

/-- The Tailrace of a core (R259-R263). `ents` lists the entries in the ring, newest first; `flight` holds spills in
flight of entries already popped: offset, address and bytes; `count` is the number of entries on the stack. -/
structure Tail where
  rsp : Nat
  count : Nat
  rsbase : Word
  low : Nat
  high : Nat
  ring : Map Byte
  ents : List TailEnt
  flight : List (Nat × Nat × List Byte)
  deriving DecidableEq, Repr

/-- R260: the Tailrace at launch start. -/
def Tail.reset : Tail := { rsp := 0, count := 0, rsbase := 0, low := 512, high := 1536, ring := [], ents := [], flight := [] }

/-- A logical core (R13) with all its state. -/
structure Core where
  mode : Mode
  /-- the launch it runs, and the pool entry of its continuation -/
  job : Option Nat
  entry : Nat
  pc : Nat
  sregs : Map Word
  latches : Map Word
  planes : Map (List Word)
  preds : Map (BitVec 1024)
  tiles : Map (List Word)
  loops : Map LoopSet
  depth : Nat
  sched : Nat
  units : Map Nat
  inflight : List InFlight
  /-- the schedule cycles of local stores in flight in contexts parked from this core (R91) -/
  away : List Nat
  gq : List Access
  mq : List Access
  issueNo : Nat
  bundleNo : Nat
  scb : DWord
  /-- the entries captured by the last late fault (R432) -/
  board : List Access
  sq : List SqLine
  handles : Map Handle
  flume : Map Channel
  mill : Mill
  tail : Tail
  xslots : Map XSlot
  tregs : Map TReg
  lid : Nat
  widx : Nat
  fpos : Nat
  flen : Nat
  mbtag : Word
  ostep : Word
  rngkey : DWord
  rngctr : Word
  fctl : Word
  tok : Word
  freeze : DWord
  cycle : DWord
  phaseCount : Nat
  oseq : Word
  votes : Nat
  barrier : Option Barrier
  /-- the Governor's clock: the cycles of the core since reset (R191) -/
  wall : Nat
  /-- charges of the Governor's window: cycle and weight (R191) -/
  charges : List (Nat × Nat)
  /-- since when the next bundle has been ready, and its weight (R191) -/
  readyAt : Option (Nat × Nat)
  /-- the core issued nothing in its last cycle and its schedule counter held (R189, R190) -/
  stalled : Bool
  /-- why the core issued nothing in its last cycle: 0 it issued, 1 a stall of R189, 2 the Tailrace, 3 a freeze, 4 a wait in which the
  schedule counter advances (R491; the numbers are the model's) -/
  cause : Nat
  /-- the fault met, and its fault-queue entry (R425, R428) -/
  trap : Option Trap
  /-- what the continuation returns to after a park (R435) -/
  after : Mode
  /-- the lead of its flight, and the bundle addresses the lead has issued, newest first (R376) -/
  lead : Nat
  trail : List Nat
  /-- beside each address of `trail`, the loop sets and D as the lead's bundle left them (R215) -/
  loopTrail : List (Map LoopSet × Nat)
  deriving DecidableEq, Repr

/-- R373, R378: a core with nothing in it. -/
def Core.reset : Core :=
  { mode := .idle, job := none, entry := 0, pc := 0, sregs := [], latches := [], planes := [], preds := [], tiles := [],
    loops := [], depth := 0, sched := 0, units := [], inflight := [], away := [], gq := [], mq := [], issueNo := 0, bundleNo := 0,
    scb := 0, board := [], sq := [], handles := [], flume := [], mill := Mill.reset, tail := Tail.reset, xslots := [],
    tregs := [], lid := 0, widx := 0, fpos := 0, flen := 1, mbtag := 0, ostep := 0, rngkey := 0, rngctr := 0, fctl := 0,
    tok := 0, freeze := 0, cycle := 0, phaseCount := 0, oseq := 0, votes := 0, barrier := none, wall := 0, charges := [],
    readyAt := none, stalled := false, cause := 0, trap := none, after := .running, lead := 0, trail := [], loopTrail := [] }

/-! ### Memory -/

/-- A 64-byte line of device memory that has been written (R48, R52): the keys under which it was last encrypted, its bytes written
under them, and what the other bytes read as when it came under them (log 6). -/
structure LineTag where
  mat : Config.KeyMat
  mask : BitVec 64
  rest : List Byte
  deriving DecidableEq, Repr

/-- R50: a key slot: 0 empty, 1 loaded, 2 zeroising; its keys, and where they come from (log 6). -/
structure KeySlot where
  state : Nat
  k1 : BitVec 256
  k2 : BitVec 256
  mat : Config.KeyMat
  deriving DecidableEq, Repr

/-- R53: an empty slot. -/
def KeySlot.reset : KeySlot := { state := 0, k1 := 0, k2 := 0, mat := .empty }

/-- R126: the owner tag of a granule. -/
structure Granule where
  gid : Nat
  pin : Nat
  deriving DecidableEq, Repr

/-- A cached translation (R43): virtual device, base VA, page size, and the leaf's entry. -/
structure TlbEntry where
  vd : Nat
  va : Nat
  size : Nat
  leaf : Nat
  leafPa : Nat
  deriving DecidableEq, Repr

/-- A held ordered update (R330): virtual device and launch, address, operand, issuer key, scope and place. -/
structure OUpdate where
  vd : Nat
  launch : Nat
  m : Bool
  addr : Nat
  wide : Bool
  op : Nat
  operand : Nat
  core : Nat
  lane : Nat
  seq : Nat
  scope : Nat
  /-- 0 on its way, 1 held, 2 + i in entry i of the overflow log -/
  place : Nat
  deriving DecidableEq, Repr

/-! ### Launches -/

/-- Where a launch stands (R364-R390). -/
inductive LState where
  /-- read and checked, waiting for its queue and its node -/
  | waiting
  /-- running on its clusters -/
  | running
  /-- ended by a fault, its ending not complete (R425) -/
  | ending
  /-- saved by a gang switch; it runs on when the gang resumes (R414) -/
  | saved
  /-- discarded by a gang switch; it runs again from its start (R414) -/
  | discarded
  /-- its completion record has been written -/
  | complete
  deriving DecidableEq, Repr

/-- A launch: its record's 32 words and everything the Sluice keeps of it (R361-R391). -/
structure Launch where
  vd : Nat
  queue : Nat
  index : Nat
  va : Nat
  words : List DWord
  state : LState
  status : Nat
  ready : Option Nat
  failedPred : Bool
  clusters : List Nat
  /-- the code image in the active bank of each of its clusters (R378) -/
  code : Map (Map Word)
  kwin : Map Byte
  /-- work items: 2 ended, 3 + c started on core c -/
  items : Map Nat
  /-- pool entries in use, with the work item they hold -/
  pool : Map Nat
  /-- suspended continuations: pool entry, the core that suspended it, waiting for a handle or not -/
  suspended : List (Nat × Nat × Bool)
  wavePhases : List (List Nat)
  /-- the device node that it has armed, until the node is satisfied (R384) -/
  armed : Option Nat
  votes : Nat
  fault : Option (Nat × Trap)
  faultSeq : Nat
  /-- the cores stopped by its fault, in order, with the contexts that their "ended" entries describe, until those are written (R425) -/
  ended : List (Nat × Core)
  start : Nat
  recorded : Bool
  seqNo : Nat
  deriving DecidableEq, Repr

/-- A code image in an instruction bank (R387, R388), for a launch, or for a hint whose record names `node` (R389). -/
structure Bank where
  vd : Nat
  va : Nat
  len : Nat
  words : Map Word
  launch : Option Nat
  node : Nat
  deriving DecidableEq, Repr

/-- A cluster: its launch and its two instruction banks (R386, R387). -/
structure Cluster where
  launch : Option Nat
  active : Option Bank
  standby : Option Bank
  deriving DecidableEq, Repr

/-- A cluster at reset. -/
def Cluster.reset : Cluster := { launch := none, active := none, standby := none }

/-- A graph node (R383). -/
structure Node where
  cnt : Nat
  ec : Nat
  fb : Bool
  armed : Bool
  launch : Nat
  deriving DecidableEq, Repr

/-- A node when its run is granted. -/
def Node.reset : Node := { cnt := 0, ec := 0, fb := false, armed := false, launch := 0 }

/-- The device's own copy of an unresolved fault-queue entry (R427, R428): what it holds, who waits, and, once resolved, the
settling mask and the returned value. A parked continuation's context is held here (log 11). -/
structure FqEntry where
  seq : Nat
  frame : Nat
  core : Nat
  kind : Nat
  trap : Trap
  /-- the cores whose contexts were parked, with those contexts, lead first -/
  parked : List (Nat × Core)
  launch : Nat
  channel : Nat
  comm : Nat
  dreg : Nat
  resolved : Option (Nat × Word)
  deriving DecidableEq, Repr

/-! ### The Windlass -/

/-- An operation in a communicator's queue (R342), posted at schedule cycle `issued` of its core. `held` is the unresolved fault-queue
entry that holds it, or 0. -/
structure WOp where
  index : Nat
  core : Nat
  launch : Nat
  issued : Nat
  bar : Bool
  ptr : DWord
  words : List DWord
  started : Bool
  head : Option OpHead
  source : List Byte
  sent : Nat
  held : Nat
  deriving DecidableEq, Repr

/-- What a peer has sent of one operation: rank, operation number, head and bytes. -/
structure WPart where
  rank : Nat
  index : Nat
  head : OpHead
  data : List Byte
  deriving DecidableEq, Repr

/-- A communicator of a virtual device (R341, R346, R416). `used` holds, by port, the flits sent that the receiver has not returned a
credit for; `buffered` holds the flits received that wait for their operation, as port, operation and flits; `past` the completed
operations of launches that have not ended, as operation, core and launch (R342); `done` the completed operations of those launches
(R346); `owed` the empty packets still to leave, each by a port of its list: barrier chunks and failures not yet told (R471, log 65). -/
structure Comm where
  rank : Nat
  size : Nat
  prio : Nat
  quota : Nat
  mask : Nat
  failed : Bool
  posted : Nat
  queue : List WOp
  parts : List WPart
  used : Map Nat
  buffered : List (Nat × Nat × Nat)
  past : List (Nat × Nat × Nat)
  done : Map Nat
  owed : List (List Nat × Packet)
  deriving DecidableEq, Repr

/-- No communicator. -/
def Comm.reset : Comm :=
  { rank := 0, size := 0, prio := 0, quota := 0, mask := 0, failed := false, posted := 0, queue := [], parts := [],
    used := [], buffered := [], past := [], done := [], owed := [] }

/-! ### Virtual devices, partitions, gangs -/

/-- A virtual device's registers: translation, control, debug and kick page (R45-R47, R55, R78, R331, R380, R400, R426, R445, R448). -/
structure VDev where
  part : Nat
  gid : Nat
  joined : Bool
  saveArea : Option (Nat × Nat)
  kickPage : Nat
  root : BitVec 28
  trEn : Bool
  lastPg : BitVec 52
  invPage : BitVec 52
  invDone : Word
  bwref : Bool
  ovf : Bool
  pendingInv : List (Nat × Nat)
  bwRate : BitVec 20
  bwBurst : BitVec 16
  /-- ACC of the limiters that are not full: channel c, and 512 + port for the Quija buckets (R56, R402) -/
  accs : Map Nat
  /-- lines and flits charged and not yet admitted at a limiter, oldest first -/
  requests : Map (List Nat)
  tidBase : BitVec 57
  tidCount : BitVec 16
  olBase : BitVec 52
  olCount : BitVec 20
  fqBase : BitVec 52
  fqLost : Bool
  fqDres : Bool
  fqIe : Bool
  fqEn : Bool
  fqLog : BitVec 4
  fqHead : Word
  fqTail : Word
  fqRval : Word
  pfBase : BitVec 44
  pfCount : BitVec 16
  fqSeq : Nat
  fq : List FqEntry
  frames : List Nat
  gscope : Bool
  qRate : BitVec 20
  qBurst : BitVec 16
  sseq : Word
  weight : BitVec 8
  quant : BitVec 20
  qRaised : Bool
  stopped : Bool
  stopping : Bool
  run : Bool
  tstop : Bool
  dbgEn : Bool
  dbgSteps : Word
  dbgStall : Bool
  halted : Bool
  /-- a step of the debugger has been taken, in which the engines may act (R446) -/
  stepping : Bool
  /-- the core whose Millstone runs its active command for the debugger (R446) -/
  dbgMill : Option Nat
  /-- the context that the fault frame holds, as the model keeps it (log 11) -/
  dump : Option Core
  snCtl : BitVec 5
  snTag : BitVec 17
  snSrc : BitVec 3
  latched : Bool
  dbellHead : Map Word
  dbellTail : Map Word
  qcfgBase : Map (BitVec 52)
  qcfgLog : Map (BitVec 4)
  qcfgEn : Map Bool
  pend : BitVec 64
  hint : Option Nat
  ie : Bool
  win : BitVec 16
  window : Bool
  /-- an interrupt of the fault queue waits for the end of a window (R426) -/
  windowFq : Bool
  cseq : DWord
  cerr : Bool
  qovf : Bool
  /-- the status of the last launch completed on each queue (R385) -/
  queueStatus : Map Nat
  comms : Map Comm
  deriving DecidableEq, Repr

/-- A virtual device with every register at its reset value. -/
def VDev.reset : VDev :=
  { part := 0, gid := 0, joined := false, saveArea := none, kickPage := 0, root := 0, trEn := false, lastPg := 0,
    invPage := 0, invDone := 0, bwref := false, ovf := false, pendingInv := [], bwRate := 0, bwBurst := 64, accs := [],
    requests := [], tidBase := 0, tidCount := 0, olBase := 0, olCount := 0, fqBase := 0, fqLost := false, fqDres := false,
    fqIe := false, fqEn := false, fqLog := 0, fqHead := 0, fqTail := 0, fqRval := 0, pfBase := 0, pfCount := 0, fqSeq := 0,
    fq := [], frames := [], gscope := false, qRate := 0, qBurst := 64, sseq := 0, weight := 1, quant := 1000,
    qRaised := false, stopped := false, stopping := false, run := false, tstop := false, dbgEn := false, dbgSteps := 0,
    dbgStall := false, halted := false, stepping := false, dbgMill := none, dump := none, snCtl := 0, snTag := 0, snSrc := 0, latched := false, dbellHead := [],
    dbellTail := [], qcfgBase := [], qcfgLog := [], qcfgEn := [], pend := 0, hint := none, ie := false, win := 0,
    window := false, windowFq := false, cseq := 0, cerr := false, qovf := false, queueStatus := [], comms := [] }

/-- SSTAT of one slot row (R418). -/
structure SStat where
  rdev : Nat
  refuse : Nat
  miss : Nat
  switch : Nat
  deriving DecidableEq, Repr

/-- SSTAT at PCREATE. -/
def SStat.reset : SStat := { rdev := 0, refuse := 0, miss := 0, switch := 0 }

/-- A partition: what it holds and its slot column (R394-R399, R406-R409). -/
structure Part where
  clusters : List Nat
  granules : List Nat
  keys : List Nat
  ports : List Nat
  routes : List Nat
  comms : List Nat
  nodes : List (Nat × Nat)
  sump : Nat
  kickPages : List Nat
  hbmBw : Nat
  quijaBw : Nat
  cells : Map (List Nat)
  durs : Map Nat
  rows : Nat
  row : Nat
  rowOn : Bool
  /-- the cell of the running row, and the backfill list as the row's walks read it (R406, R417) -/
  rowCell : List Nat
  rowFill : Map Nat
  epoch : Nat
  bfill : Map Nat
  backfilled : List Nat
  starting : List Nat
  /-- this device sends the SLOT messages of the partition (R406) -/
  master : Bool
  sstat : Map SStat
  cur : Map Nat
  /-- the launch chosen by the round robin, which waits for its clusters (R409) -/
  granted : Option Nat
  deriving DecidableEq, Repr

/-- An empty partition (PCREATE). -/
def Part.reset : Part :=
  { clusters := [], granules := [], keys := [], ports := [], routes := [], comms := [], nodes := [], sump := 0,
    kickPages := [], hbmBw := 0, quijaBw := 0, cells := [], durs := [], rows := 1, row := 0, rowOn := false, rowCell := [], rowFill := [], epoch := 0,
    bfill := [], backfilled := [], starting := [], master := false, sstat := [], cur := [], granted := none }

/-- One line's old bytes in an undo log (R441): M by physical address, or G. -/
structure UndoLine where
  m : Bool
  line : Nat
  key : Nat
  data : List Byte
  deriving DecidableEq, Repr

/-- A rollback checkpoint (R441, R442): what a save holds. -/
structure Checkpoint where
  cores : List (Nat × Core)
  launches : List (Nat × Launch)
  nextLaunch : Nat
  pend : BitVec 64
  queueStatus : Map Nat
  nodes : List (Nat × Node)
  held : List OUpdate
  fq : List FqEntry
  frames : List Nat
  comms : Map Comm
  sump : List Packet
  sent : Map DWord
  received : Map DWord
  ostep : Word
  mirrored : Bool
  deriving DecidableEq, Repr

/-- The member's states of the gang vote (R411). -/
inductive VoteState where
  | run | halting | halted | capturing | committing | out | resuming
  deriving DecidableEq, Repr

/-- This device's member of a gang (R403-R415, R441), with the coordinator's part where its rank is 0. -/
structure Gang where
  part : Nat
  vd : Nat
  rank : Nat
  members : List Nat
  savePa : Nat
  key : Nat
  sumpSize : Nat
  pdl : Nat
  tdrain : Nat
  retired : Bool
  vote : VoteState
  epoch : Word
  sump : List Packet
  /-- the Sump ring's head and tail, in bytes since the gang was formed, and the arrivals captured (R404, R413) -/
  sumpHead : Nat
  sumpTail : Nat
  arrivalNo : DWord
  sent : Map DWord
  received : Map DWord
  ostep : Word
  missed : Nat
  /-- contexts saved at the last switch (R404, log 11) -/
  saved : List (Nat × Core)
  /-- the gang's held ordered updates while it is switched out (R358) -/
  heldOut : List OUpdate
  /-- the clusters that settle by a save at COMMIT, the launches of which a cluster is discarded, and the clusters still to settle
  (R414) -/
  saving : List Nat
  rerun : List Nat
  unsettled : List Nat
  /-- coordinator: reports of this round, members done, start of the vote, CAPTURE sent; a switch and a checkpoint that are due; and
  does the vote make a checkpoint (R441) -/
  reports : List (Nat × List DWord × List DWord)
  doneBy : List Nat
  voteStart : Nat
  voting : Bool
  captureSent : Bool
  trigger : Bool
  ckptDue : Bool
  resumeAtOnce : Bool
  undo : List UndoLine
  ckpt : Option Checkpoint
  /-- the mirror has had its first copy; and the lines of its M space, with their keys, that the host or a completion record has written
  since (R443) -/
  mirroring : Bool
  /-- the peer and the place of the mirror that has had its first copy, as the header's word gives them (R443) -/
  mirrorAt : Nat
  hostLines : List (Nat × Nat)
  rollbacks : Nat
  /-- it has rolled back for an error of its own, and the coordinator's ROLLBACK is still to come (R442) -/
  rolled : Bool
  /-- the members treated as failed (R443) -/
  lost : List Nat
  /-- control-lane traffic of barriers and votes, by device: arrivals, releases, `ostep` flags; and results -/
  arrivals : List (Nat × GangWord)
  releases : List (Nat × GangWord)
  flags : List (Nat × GangFlag)
  results : List GangFlag
  deriving DecidableEq, Repr

/-- A Quija port (R486). -/
structure QPort where
  pmd : Bool
  en : Bool
  replay : Nat
  drop : Nat
  up : Bool
  retraining : Bool
  served : Nat
  /-- the system class: packets waiting, chunk after chunk, flits without credit, and did it send the last chunk (R483, R484) -/
  sysWait : List (List Packet)
  sysUsed : Nat
  sysLast : Bool
  /-- credits to return by this port, which ride in the flits that leave next (R482) -/
  creditsDue : List Credit
  deriving DecidableEq, Repr

/-- A port at reset. -/
def QPort.reset : QPort :=
  { pmd := false, en := false, replay := 0, drop := 0, up := false, retraining := false, served := 0,
    sysWait := [], sysUsed := 0, sysLast := false, creditsDue := [] }

/-- R410, R484, R494: a control-lane message but SLOT: the device that sends it, those it goes to, and its contents. `lid` and `kind` say to
which launch and word one of types 0x20 to 0x23 belongs, which the flit does not hold (log 64). -/
structure Control where
  src : Nat
  dst : List Nat
  gang : Nat
  type : Nat
  arg : Nat
  epoch : Word
  sums : List DWord
  lid : Nat
  kind : Nat
  deriving DecidableEq, Repr

/-- What leaves the device: responses, with the credits that their later flits return, credits and interrupts on Seust; packets, credits
and control messages on Quija. -/
inductive Output where
  | ack (func tag status : Nat) (data : List Byte) (credits : Nat)
  | seustCredit (func flits : Nat)
  | int (vd kind : Nat) (seq : DWord)
  | packet (port : Nat) (p : Packet)
  | credit (port : Nat) (c : Credit)
  | control (m : Control)
  | slot (src : Nat) (dst : List Nat) (part row epoch : Nat) (backfill : List Nat)
  deriving DecidableEq, Repr

/-- What moves next: an event of the device, a core's cycle, time passing, or how cached translations are used (log 2). -/
inductive Agent where
  | event (i : Instr)
  | core (c : Nat)
  /-- one core cycle of a core that the debugger holds (R446) -/
  | debugCore (c : Nat)
  | elapse (ns : Nat)
  /-- the board brings up the rails, asserts PWROK and releases RST_N (R487, R489) -/
  | power
  | tlb (use : Bool)
  deriving DecidableEq, Repr

/-- The bundle being issued: its address, length and words' context. The model's own field, which the step fills before each
word: the scope of the prefix (R153), the extension of a `limm` (R152), the scalar pipe of the word (R151), the number of
drawing words before it (R234), the words of the bundle, the transfer of its control word, and the core as it was before the bundle
(R169, R189). -/
structure Bundle where
  start : Nat
  len : Nat
  scope : Nat
  ext : Option (BitVec 23)
  pipe : Nat
  draws : Nat
  words : List Instr
  next : Option Nat
  before : Option Core
  deriving DecidableEq, Repr

/-- No bundle. -/
def Bundle.reset : Bundle :=
  { start := 0, len := 1, scope := 0, ext := none, pipe := 0, draws := 0, words := [], next := none, before := none }

/-- The bits that a 1 written to them clears (R7), each in its register. -/
inductive W1c where
  | kerr | govRaised | holds
  | bwref (vd : Nat) | ovf (vd : Nat) | fqLost (vd : Nat) | qRaised (vd : Nat) | cerr (vd : Nat) | qovf (vd : Nat) | latched (vd : Nat)
  deriving DecidableEq, Repr

/-- R420: the VDSTOP that waits for the vote of its gang: the virtual device, PARG1, does it clear D, and the pages of its report. -/
structure StopWait where
  vd : Nat
  pa : Nat
  clear : Bool
  pages : Nat
  deriving DecidableEq, Repr

/-- The whole device. -/
structure State where
  -- the model's own
  /-- what moves next, first in line first (log 2) -/
  agenda : List Agent
  /-- the core whose word `exec` runs, and which `step` serves when the agenda is empty -/
  turn : Nat
  /-- how the last instruction went -/
  mark : Mark
  bun : Bundle
  /-- what has left the device, newest first -/
  out : List Output
  /-- nanoseconds since reset -/
  now : Nat
  /-- draws made from the entropy source -/
  draws : Nat
  /-- does an access use a cached translation where the tables have changed since (R43, log 9)? -/
  useTlb : Bool
  /-- the bits that the device has set in the present cycle, which lasts until a core cycle or time passes (R478) -/
  fresh : List W1c
  /-- how often device memory has lost its power, and with it its contents (R487, R488) -/
  colds : Nat
  -- device block, pins
  devnum : BitVec 11
  qen : Bool
  bootStep : Nat
  /-- the next step of bring-up is step 2, after a device reset (R480); the model's own -/
  warm : Bool
  bootFail : Bool
  ready : Bool
  holds : Bool
  hold : Bool
  throt : Bool
  tj : BitVec 16
  thermtrip : Bool
  rst : Bool
  pwrok : Bool
  powered : Bool
  govEn : Bool
  govRaised : Bool
  govLimit : BitVec 20
  errcnt : Map DWord
  ksel : BitVec 12
  kerr : Bool
  kdata : Map DWord
  slots : Map KeySlot
  ports : Map QPort
  seustUp : Bool
  seustRetraining : Bool
  ints : List Output
  /-- responses that have not left, oldest first: their TAGs are outstanding; and, by function, the flits consumed whose credits have not
  been returned (R477) -/
  acks : List Output
  seustOwed : Map Nat
  /-- by gang, where the mirror lies that another device has copied here (R443) -/
  mirrors : Map Nat
  snap : Map (List DWord)
  -- memory
  pmem : List Host.Cell
  lines : Map LineTag
  gmem : List Host.Cell
  granules : Map Granule
  /-- touches that wait for a spill or a restore: granule and the gang that touches it (R127); the model's own -/
  touches : Map Nat
  tlb : List TlbEntry
  held : List OUpdate
  -- partitions and tenants
  parts : Map Part
  vds : Map VDev
  gangs : Map Gang
  parg : Map DWord
  pcmdPart : Nat
  pseq : Word
  pbusy : Bool
  pcode : Nat
  pwait : Option StopWait
  -- scheduler and cores
  launches : Map Launch
  nextLaunch : Nat
  nodes : Map Node
  clusters : Map Cluster
  cores : Map Core
  deriving DecidableEq, Repr

/-- R8, R480, R490: the device when PWROK is asserted and RST_N released, with bring-up still to run. -/
def State.reset : State :=
  { agenda := [], turn := 0, mark := .ok, bun := Bundle.reset, out := [], now := 0, draws := 0, useTlb := false, fresh := [], colds := 0,
    devnum := 0, qen := false, bootStep := 0, warm := false, bootFail := false, ready := false, holds := false, hold := false,
    throt := false, tj := 0, thermtrip := false, rst := false, pwrok := true, powered := true, govEn := true,
    govRaised := false, govLimit := 4400, errcnt := [], ksel := 0, kerr := false, kdata := [], slots := [], ports := [],
    seustUp := false, seustRetraining := false, ints := [], acks := [], seustOwed := [], mirrors := [], snap := [], pmem := [], lines := [], gmem := [],
    granules := [], touches := [], tlb := [], held := [], parts := [], vds := [], gangs := [], parg := [], pcmdPart := 0,
    pseq := 0, pbusy := false, pcode := 0, pwait := none, launches := [], nextLaunch := 0, nodes := [], clusters := [],
    cores := [] }

/-! ### Fields of the whole that the rest reads and writes -/

/-- A core's state. -/
def State.core (s : State) (c : Nat) : Core := Map.get Core.reset s.cores c

/-- Replaces a core's state. -/
def State.setCore (s : State) (c : Nat) (k : Core) : State := { s with cores := Map.put s.cores c k }

/-- The core whose turn it is. -/
def State.cur (s : State) : Core := s.core s.turn

/-- R169, R189: the core whose turn it is, as it was before the bundle being issued. -/
def State.prior (s : State) : Core := s.bun.before.getD s.cur

/-- R478: the device sets a bit that the host clears. -/
def State.w1cSet (s : State) (w : W1c) : State := { s with fresh := w :: s.fresh }

/-- Replaces the state of the core whose turn it is. -/
def State.setCur (s : State) (k : Core) : State := s.setCore s.turn k

/-- A virtual device's registers. -/
def State.vd (s : State) (v : Nat) : VDev := Map.get VDev.reset s.vds v

/-- Replaces a virtual device's registers. -/
def State.setVd (s : State) (v : Nat) (x : VDev) : State := { s with vds := Map.put s.vds v x }

end Sys2Proof.Machine
end

