-- ==== Sys2Proof/Machine/Aes.lean ====
section
/-! DEFINITION. AES-XTS-256 of one line of device memory (R48). The cipher itself stands in FIPS 197 and the mode in IEEE Std 1619,
which the spec names and does not repeat: the tables and steps below are PRESUMED from those standards (log 6). -/

namespace Sys2Proof.Machine

/-- The substitution of AES and its inverse: 256 bytes, byte `32 r + i` being byte `i` of row `r`. -/
def aesSboxRows : List Nat :=
  [0xc072a49cafa2d4adf04759fa7dc982ca76abd7fe2b670130c56f6bf27b777c63,
    0x75b227ebe28012079a059618c323c7041531d871f1e5a534ccf73f362693fdb7,
    0xcf584c4a39becb6a5bb1fc20ed00d153842fe329b3d63b52a05a6e1b1a2c8309,
    0xd2f3ff1021dab6bcf5389d928f40a351a89f3c507f02f94585334d43fbaaefd0,
    0xdb0b5ede14b8ee4688902a22dc4f816073195d643d7ea7c41744975fec130ccd,
    0x08ae7a65eaf4566ca94ed58d6d37c8e779e4959162acd3c25c2406490a3a32e0,
    0x9e1dc186b95735610ef6034866b53e708a8bbd4b1f74dde8c6b4a61c2e2578ba,
    0x16bb54b00f2d99416842e6bf0d89a18cdf2855cee9871e9b948ed9691198f8e1]
def aesInvRows : List Nat :=
  [0xcbe9dec444438e3487ff2f9b8239e37cfbd7f3819ea340bf38a53630d56a0952,
    0x25d18b6d49a25b76b224d92866a12e084ec3fa420b954cee3d23c2a632947b54,
    0x849d8da75746155edab9edfd5048706c92b6655dcc5ca4d41698688664f6f872,
    0x6b8a130103bdafc1020f3fca8f1e2cd00645b3b80558e4f70ad3bc8c00abd890,
    0x6edf751ce837f9e28535ade72274ac9673e6b4f0cecff297eadc674f4111913a,
    0xf45acd78fec0db9a2079d2c64b3e56fc1bbe18aa0e62b76f89c5291d711af147,
    0xef9cc9939f7ae52d0d4ab519a97f51605fec8027591012b131c7078833a8dd1f,
    0x7d0c2155631469e126d677ba7e042b17619953833cbbebc8b0f52aae4d3be0a0]

/-- A byte of such a table. -/
def aesRow (t : List Nat) (x : Nat) : Nat := t.getD (x / 32) 0 / 2 ^ (8 * (x % 32)) % 256

/-- The substitution of a byte. -/
def aesSub (inv : Bool) (x : Nat) : Nat := aesRow (if inv then aesInvRows else aesSboxRows) x

/-- Doubling in the field of 256 elements. -/
def aesDouble (x : Nat) : Nat := if x < 128 then 2 * x else (2 * x) ^^^ 0x11b

/-- The product with a factor of `n` bits. -/
def aesMul : Nat → Nat → Nat → Nat
  | 0, _, _ => 0
  | n + 1, c, x => (if c % 2 = 1 then x else 0) ^^^ aesMul n (c / 2) (aesDouble x)

/-- Two blocks or words, byte by byte. -/
def aesXor (a b : List Nat) : List Nat := (a.zip b).map fun e => e.1 ^^^ e.2

/-- The words of the key schedule, newest first, as `n` more join them; `i` counts those there are. -/
def aesExpand : Nat → Nat → List (List Nat) → List (List Nat)
  | 0, _, ws => ws
  | n + 1, i, ws =>
    let t := ws.headD []
    let t' :=
      if i % 8 = 0 then aesXor ((t.drop 1 ++ t.take 1).map (aesSub false)) [(aesDouble^[i / 8 - 1]) 1, 0, 0, 0]
      else if i % 8 = 4 then t.map (aesSub false)
      else t
    aesExpand n (i + 1) (aesXor (ws.getD 7 []) t' :: ws)

/-- The fifteen round keys of a key, each a block. The key's first byte is its lowest. -/
def aesKeys (k : BitVec 256) : List (List Nat) :=
  let bytes := (leBytes 32 k.toNat).map BitVec.toNat
  let ws := (aesExpand 52 8 (tabulate 8 fun i => (bytes.drop (4 * i)).take 4).reverse).reverse
  tabulate 15 fun i => ((ws.drop (4 * i)).take 4).flatten

/-- The rows of a block, rotated. -/
def aesShift (inv : Bool) (b : List Nat) : List Nat := tabulate 16 fun i => b.getD ((i + (if inv then 12 else 4) * (i % 4)) % 16) 0

/-- The columns of a block, multiplied. -/
def aesMix (inv : Bool) (b : List Nat) : List Nat :=
  tabulate 16 fun i => (List.range 4).foldl
    (fun x j => x ^^^ aesMul 4 ((if inv then [14, 11, 13, 9] else [2, 3, 1, 1]).getD ((j + 4 - i % 4) % 4) 0) (b.getD (i / 4 * 4 + j) 0)) 0

/-- The rounds of an encryption after the first key. -/
def aesRounds : List (List Nat) → List Nat → List Nat
  | [], b => b
  | [k], b => aesXor (aesShift false (b.map (aesSub false))) k
  | k :: ks, b => aesRounds ks (aesXor (aesMix false (aesShift false (b.map (aesSub false)))) k)

/-- The rounds of a decryption, with the keys from the last one back, after the last key. -/
def aesUnrounds : List (List Nat) → List Nat → List Nat
  | [], b => b
  | [k], b => aesXor ((aesShift true b).map (aesSub true)) k
  | k :: ks, b => aesUnrounds ks (aesMix true (aesXor ((aesShift true b).map (aesSub true)) k))

/-- A block encrypted, or decrypted, under round keys. -/
def aesBlock (inv : Bool) (ks : List (List Nat)) (b : List Nat) : List Nat :=
  if inv then aesUnrounds ks.reverse.tail (aesXor b (ks.reverse.headD [])) else aesRounds ks.tail (aesXor b (ks.headD []))

/-- The blocks of a data unit from the tweak of its first on. -/
def xtsBlocks (inv : Bool) (ks : List (List Nat)) : Nat → Nat → List Nat → List Nat
  | 0, _, _ => []
  | n + 1, t, b =>
    let tw := (leBytes 16 t).map BitVec.toNat
    aesXor (aesBlock inv ks (aesXor (b.take 16) tw)) tw
      ++ xtsBlocks inv ks n ((2 * t) % 2 ^ 128 ^^^ (if t < 2 ^ 127 then 0 else 0x87)) (b.drop 16)

/-- R48: a line encrypted, or decrypted: its four blocks under the data key, with the line's number encrypted under the tweak key. -/
def xtsLine (inv : Bool) (k1 k2 : BitVec 256) (line : Nat) (b : List Byte) : List Byte :=
  let tw := aesBlock false (aesKeys k2) ((leBytes 16 line).map BitVec.toNat)
  (xtsBlocks inv (aesKeys k1) 4 (leNat (tw.map (BitVec.ofNat 8))) (b.map BitVec.toNat)).map (BitVec.ofNat 8)

/-- R50, R54: the data key and the tweak key of a slot. -/
def keyPair : Config.KeyMat → BitVec 256 × BitVec 256
  | .empty => (0, 0)
  | .drawn n => (Config.entropy n, Config.entropy (n + 1))
  | .loaded k1 k2 => (k1, k2)

end Sys2Proof.Machine
end

