-- ==== Sys2Proof/Machine/Mem.lean ====
section
/-! DEFINITION. Memory: the slices and the G space, device memory under its keys, translation, and the owner tags of granules. -/

namespace Sys2Proof.Machine

/-! ### Who acts -/

/-- The virtual device of a launch. -/
def State.launchVd (s : State) (l : Nat) : Nat :=
  match s.launches.lookup l with
  | some x => x.vd
  | none => 0

/-- The virtual device for which a core runs. -/
def State.coreVd (s : State) (c : Nat) : Nat :=
  match (s.core c).job with
  | some l => s.launchVd l
  | none => 0

/-- The gang of a core's launch. -/
def State.coreGid (s : State) (c : Nat) : Nat := (s.vd (s.coreVd c)).gid

/-- The partition of a virtual device. -/
def State.vdPart (s : State) (v : Nat) : Part := Map.get Part.reset s.parts (s.vd v).part

/-! ### Canonical memory -/

/-- The canonical form of a memory in which an unlisted byte reads 0. -/
def Memory.wf (m : List Host.Cell) : Bool := Map.wf 0 m

/-! ### The G space and the slices -/

/-- R122: the G address of an offset in a core's slice. -/
def gAddr (c off : Nat) : Nat := c * Config.sliceBytes + off

/-- R347: bytes of the G space, which are the bytes of the slices. -/
def State.gRead (s : State) (a n : Nat) : List Byte := Map.getList 0 s.gmem a n

/-- R347: writes bytes of the G space. -/
def State.gWrite (s : State) (a : Nat) (bs : List Byte) : State := { s with gmem := Map.setList 0 s.gmem a bs }

/-- The lines of 64 bytes that `n` bytes from `a` touch. -/
def linesOf (a n : Nat) : List Nat := if n = 0 then [] else (List.range ((a + n - 1) / 64 + 1 - a / 64)).map (a / 64 + ·)

/-- The granules that `n` bytes of G from `a` touch. -/
def granulesAt (a n : Nat) : List Nat :=
  if n = 0 then [] else tabulate ((a + n - 1) / Config.granuleBytes + 1 - a / Config.granuleBytes) fun i => a / Config.granuleBytes + i

/-- Bytes of a core's slice. -/
def State.lRead (s : State) (c off n : Nat) : List Byte := s.gRead (gAddr c off) n

/-! ### Device memory under keys -/

/-- The line of a physical address, where it has been written. -/
def State.lineTag (s : State) (pa : Nat) : Option LineTag := s.lines.lookup (pa / 64)

/-- A key slot. -/
def State.slot (s : State) (k : Nat) : KeySlot := Map.get KeySlot.reset s.slots k

/-- R48: the keys that a key id names now. -/
def State.cipher (s : State) (key : Nat) : Config.KeyMat := (s.slot key).mat

/-- R48: a byte of a line as it reads under the keys that the line is under. -/
def State.ownByte (s : State) (t : LineTag) (pa : Nat) : Byte :=
  if t.mask.getLsbD (pa % 64) then Map.get 0 s.pmem pa else t.rest.getD (pa % 64) 0

/-- R48, R52: the ciphertext of a line; that of one never written is a free value (log 5). -/
def State.ciphertext (s : State) (line : Nat) : List Byte :=
  match s.lines.lookup line with
  | some t => xtsLine false (keyPair t.mat).1 (keyPair t.mat).2 line (tabulate 64 fun i => s.ownByte t (64 * line + i))
  | none => tabulate 64 fun i => Config.coldByte s.colds (64 * line + i)

/-- R52: a line that is not under these keys, decrypted with them. -/
def State.decrypted (s : State) (key line : Nat) : List Byte :=
  xtsLine true (keyPair (s.cipher key)).1 (keyPair (s.cipher key)).2 line (s.ciphertext line)

/-- R48, R52: a byte of device memory read under a key. A line is decrypted from its ciphertext unless it was encrypted under the same
keys, where that gives it back. -/
def State.paByte (s : State) (key pa : Nat) : Byte :=
  match s.lineTag pa with
  | some t => if t.mat = s.cipher key then s.ownByte t pa else (s.decrypted key (pa / 64)).getD (pa % 64) 0
  | none => (s.decrypted key (pa / 64)).getD (pa % 64) 0

/-- R48: bytes of device memory read under a key. -/
def State.paRead (s : State) (key pa n : Nat) : List Byte := tabulate n fun i => s.paByte key (pa + i)

/-- R48: the tag of a line that comes under a key with one byte written. -/
def State.tagNew (s : State) (key pa : Nat) : LineTag :=
  { mat := s.cipher key, mask := 1#64 <<< (pa % 64), rest := s.decrypted key (pa / 64) }

/-- R48: the tag of a line after one of its bytes is written under a key: the rest of the line is merged. -/
def State.tagAfter (s : State) (key pa : Nat) : LineTag :=
  match s.lineTag pa with
  | some t => if t.mat = s.cipher key then { t with mask := t.mask ||| (1#64 <<< (pa % 64)) } else s.tagNew key pa
  | none => s.tagNew key pa

/-- R48: writes a byte of device memory under a key. -/
def State.paSet (s : State) (key pa : Nat) (b : Byte) : State :=
  { s with pmem := Map.set 0 s.pmem pa b, lines := Map.put s.lines (pa / 64) (s.tagAfter key pa) }

/-- R48: writes bytes of device memory under a key. -/
def State.paWrite (s : State) (key pa : Nat) : List Byte → State
  | [] => s
  | b :: bs => (s.paSet key pa b).paWrite key (pa + 1) bs

/-- R29: is the 1 GiB granule of a physical address the partition's? -/
def ownsPa (p : Part) (pa : Nat) : Bool := p.granules.contains (pa / 2 ^ 30)

/-- R37: does the partition own every granule of a range? -/
def ownsRange (p : Part) (pa n : Nat) : Bool :=
  (List.range ((pa + n - 1) / 2 ^ 30 + 1 - pa / 2 ^ 30)).all fun i => p.granules.contains (pa / 2 ^ 30 + i)

/-- R48: writes zeros to `n` whole lines of device memory under a key. -/
def State.paZero (s : State) (key line n : Nat) : State :=
  let t : LineTag := { mat := s.cipher key, mask := BitVec.allOnes 64, rest := [] }
  { s with
    pmem := s.pmem.filter fun e => e.1 < 64 * line || 64 * (line + n) ≤ e.1
    lines := (s.lines.filter fun e => e.1 < line) ++ (tabulate n fun i => (line + i, t)) ++ s.lines.filter fun e => line + n ≤ e.1 }

/-- R49, R50, R394: the class of the fault that an access of the device's own for partition `p` meets, under the key of a save area:
protection (6) where the partition does not hold the place, key (7) where the key names no loaded slot of it. -/
def State.saveFault (s : State) (p key pa n : Nat) : Option Nat :=
  let x := Map.get Part.reset s.parts p
  if !ownsRange x pa n then some 6
  else if key != 0 && !((s.slot key).state = 1 && x.keys.contains key) then some 7
  else none

/-- R49, R50, R394: a write of the device's own for partition `p` under the key of a save area. One that faults writes nothing; who
makes it raises the fault, where it names a launch (log 70). -/
def State.saveWrite (s : State) (p key pa : Nat) (bs : List Byte) : State :=
  if (s.saveFault p key pa bs.length).isNone then s.paWrite key pa bs else s

/-- R49, R50, R394: zeros of the device's own, `n` bytes from `pa`, both multiples of 64, as `saveWrite` writes. -/
def State.saveZero (s : State) (p key pa n : Nat) : State :=
  if (s.saveFault p key pa n).isNone then s.paZero key (pa / 64) (n / 64) else s

/-- A little-endian 8-byte word of device memory. -/
def State.paWord (s : State) (key pa : Nat) : Nat := leNat (s.paRead key pa 8)

/-- R49, R50: bytes of a gang's save area, or the class of the fault that reading them meets. -/
def State.saveRead (s : State) (g : Gang) (off n : Nat) : Except Nat (List Byte) :=
  match s.saveFault g.part g.key (g.savePa + off) n with
  | some c => .error c
  | none => .ok (s.paRead g.key (g.savePa + off) n)

/-- R441: a field of the save area's header; one that cannot be read gives 0, as does the header of a save area never set up. -/
def State.header (s : State) (g : Gang) (off : Nat) : Nat :=
  match s.saveRead g off 8 with
  | .ok b => leNat b
  | .error _ => 0

/-- R441: LOGPA and the bytes of the undo log. -/
def State.undoBase (s : State) (g : Gang) : Nat := s.header g 0x100 / 2 ^ 20 * 2 ^ 20
def State.undoSize (s : State) (g : Gang) : Nat := s.header g 0x100 % 2 ^ 20 * 2 ^ 20

/-- R441: bytes of an entry of the undo log: a word with the line's address and whether it is one of G, padding, and the old bytes. The
spec gives no form: DESIGN CHOICE, unsafe (log 66). -/
def undoBytes : Nat := 128

/-- R441: an entry joins the undo log, in the state and, where it fits, in memory under the save area's key. -/
def State.undoEntry (s : State) (gid : Nat) (g : Gang) (u : UndoLine) : State :=
  let off := undoBytes * g.undo.length
  let b := leBytes 8 (64 * u.line + b2n !u.m) ++ List.replicate 56 0 ++ u.data
  let s := { s with gangs := Map.put s.gangs gid { g with undo := u :: g.undo } }
  if off + undoBytes ≤ s.undoSize g then s.saveWrite g.part g.key (s.undoBase g + off) b else s

/-- R441: the old bytes of a line of the G space, kept for a rollback the first time the gang writes the line. -/
def State.undoG (s : State) (gid line : Nat) : State :=
  match s.gangs.lookup gid with
  | some g =>
    if g.ckpt.isSome && !(g.undo.any fun u => !u.m && u.line = line) then
      s.undoEntry gid g { m := false, line := line, key := 0, data := s.gRead (64 * line) 64 }
    else s
  | none => s

/-- Keeps the old bytes of several lines. -/
def State.undoGs (s : State) (gid : Nat) : List Nat → State
  | [] => s
  | l :: ls => (s.undoG gid l).undoGs gid ls

/-- A write of the G space by a gang: logged for rollback, then performed. -/
def State.gStore (s : State) (gid a : Nat) (bs : List Byte) : State := (s.undoGs gid (linesOf a bs.length)).gWrite a bs

/-- R441: the old bytes of a line of device memory, kept the first time the gang writes it. -/
def State.undoM (s : State) (gid key line : Nat) : State :=
  match s.gangs.lookup gid with
  | some g =>
    if g.ckpt.isSome && !(g.undo.any fun u => u.m && u.line = line) then
      s.undoEntry gid g { m := true, line := line, key := key, data := s.paRead key (64 * line) 64 }
    else s
  | none => s

/-- Keeps the old bytes of several lines. -/
def State.undoMs (s : State) (gid key : Nat) : List Nat → State
  | [] => s
  | l :: ls => (s.undoM gid key l).undoMs gid key ls

/-- A write of device memory by a gang: logged for rollback, then performed. -/
def State.paStore (s : State) (gid key pa : Nat) (bs : List Byte) : State :=
  (s.undoMs gid key (linesOf pa bs.length)).paWrite key pa bs

/-! ### Translation -/

/-- What an access is, for the checks of R33 and R34. -/
inductive MKind where
  | read | write | fetch | hostRead | hostWrite | preload | record
  deriving DecidableEq, Repr

/-- Is the access a write, which sets D? A completion record is written as `record`. -/
def MKind.writes (k : MKind) : Bool := k = .write || k = .hostWrite || k = .record

/-- R34: a host access ignores W and X. -/
def MKind.host (k : MKind) : Bool := k = .hostRead || k = .hostWrite

/-- Fault classes of R422. -/
def trapOf (cls addr : Nat) : Trap := { cls := cls, addr := addr }

/-- R35: the shift of the index at a level. -/
def levelShift (l : Nat) : Nat := 12 + 9 * l

/-- R35: the index at a level; L5 has 7 bits. -/
def levelIndex (l va : Nat) : Nat := va / 2 ^ levelShift l % (if l = 5 then 128 else 512)

/-- R35, R36: bytes of the page of a leaf at a level. -/
def leafSize (l : Nat) (run : Bool) : Nat :=
  if run then (if l = 0 then 2 ^ 16 else 2 ^ 35) else 2 ^ levelShift l

/-- R36: entries of a run at a level. -/
def runLength (l : Nat) : Nat := if l = 0 then 16 else 32

/-- R37: a valid entry that breaks a "must" of the layout. -/
def entryMalformed (l e : Nat) : Bool :=
  let leaf := bit e 1
  fld e 51 40 != 0 || fld e 11 7 != 0
  || (leaf && 3 ≤ l) || (!leaf && l = 0)
  || (!leaf && (fld e 63 52 != 0 || bit e 6))
  || (leaf && bit e 6 && l = 1)
  || (leaf && (fld e 39 12 * 4096) % leafSize l (bit e 6) != 0)

/-- R36: an entry without A and D, as the replicas of a run are compared. -/
def withoutAD (e : Nat) : Nat := e - b2n (bit e 4) * 16 - b2n (bit e 5) * 32

/-- A leaf found by a walk: its physical address, its value and its page size. -/
structure Leaf where
  pa : Nat
  e : Nat
  size : Nat
  deriving DecidableEq, Repr

/-- R36, R37: the checks of a leaf at a level. -/
def State.leafCheck (s : State) (p : Part) (va l tbl e : Nat) : Except Trap Leaf :=
  let idx := levelIndex l va
  let run := bit e 6
  let first := idx / runLength l * runLength l
  let same := (List.range (runLength l)).all fun i => withoutAD (s.paWord 0 (tbl + (first + i) * 8)) = withoutAD e
  let size := leafSize l run
  if run && !same then .error (trapOf 6 va)
  else if !ownsRange p (fld e 39 12 * 4096) size then .error (trapOf 6 va)
  else .ok { pa := tbl + idx * 8, e := e, size := size }

/-- R35-R38: the walk from a level's table; each entry is read under key 0. All levels are read at one instant, so that a walk which
meets a new entry at one level and an old one at another (R41) does not arise. DESIGN CHOICE, unsafe (log 60). -/
def State.walkFrom (s : State) (p : Part) (va : Nat) : Nat → Nat → Except Trap Leaf
  | l, tbl =>
    let pa := tbl + levelIndex l va * 8
    if !ownsPa p pa then .error (trapOf 6 va)
    else
      let e := s.paWord 0 pa
      if !bit e 0 then .error (trapOf 5 va)
      else if entryMalformed l e then .error (trapOf 6 va)
      else if bit e 1 then s.leafCheck p va l tbl e
      else
        match l with
        | 0 => .error (trapOf 6 va)
        | l' + 1 => s.walkFrom p va l' (fld e 39 12 * 4096)

/-- R35: the walk of a virtual device's tables. -/
def State.walk (s : State) (v va : Nat) : Except Trap Leaf :=
  s.walkFrom (s.vdPart v) va 5 ((s.vd v).root.toNat * 4096)

/-- R394, R419: a cached translation whose page and whose leaf's own word the partition holds; one that rests on a granule revoked since
is of no use, and the access walks again and meets the protection fault. -/
def State.cached (s : State) (v va : Nat) : Option Leaf :=
  match s.tlb.find? (fun t => t.vd = v && t.va ≤ va && va < t.va + t.size) with
  | some t =>
    if ownsPa (s.vdPart v) t.leafPa && ownsRange (s.vdPart v) (fld t.leaf 39 12 * 4096) t.size then some { pa := t.leafPa, e := t.leaf, size := t.size } else none
  | none => none

/-- R43: the leaf an access uses: a cached one where the model's choice says so, else a fresh walk (log 9). -/
def State.leafFor (s : State) (v va : Nat) : Except Trap Leaf :=
  match s.cached v va with
  | some lf => if s.useTlb then .ok lf else s.walk v va
  | none => s.walk v va

/-- R36, R42: the physical address of the leaf's word that an access to `va` indexes: in a run, its own replica's. -/
def Leaf.word (lf : Leaf) (va : Nat) : Nat :=
  if bit lf.e 6 then
    let n := if lf.size = 2 ^ 16 then 16 else 32
    lf.pa / (8 * n) * (8 * n) + va % lf.size / (lf.size / n) * 8
  else lf.pa

/-- R42: sets A, and D for a write, in the leaf's word, and caches the translation (R43). -/
def State.noteLeaf (s : State) (v va : Nat) (lf : Leaf) (k : MKind) : State :=
  if k = .preload then s
  else
    let w := s.paWord 0 (lf.word va)
    let w' := w ||| 16 ||| (if k.writes then 32 else 0)
    let s := if w' = w then s else s.paWrite 0 (lf.word va) (leBytes 8 w')
    let base := va / lf.size * lf.size
    let t : TlbEntry := { vd := v, va := base, size := lf.size, leaf := lf.e, leafPa := lf.pa }
    { s with tlb := t :: s.tlb.filter fun t => !(t.vd = v && t.va = base) }

/-- R54: may an access be admitted at its channel under a key id: does it name a loaded slot of the virtual device's partition? -/
def State.keyOk (s : State) (v key : Nat) : Bool := (s.slot key).state = 1 && (s.vdPart v).keys.contains key

/-- R33, orders 3 to 5: translation, protection and key of one access that lies in one page. -/
def State.translate (s : State) (v va : Nat) (k : MKind) : Except Trap (Nat × Nat × Leaf) :=
  match s.leafFor v va with
  | .error t => .error t
  | .ok lf =>
    if (k = .write || k = .record) && !bit lf.e 2 then .error (trapOf 6 va)
    else if k = .fetch && !bit lf.e 3 then .error (trapOf 6 va)
    else
      let key := fld lf.e 63 52
      if !s.keyOk v key then .error (trapOf 7 va)
      else .ok (fld lf.e 39 12 * 4096 + va % lf.size, key, lf)

/-- R30, R31: alignment, then the window. -/
def State.mWindow (s : State) (v va size unit : Nat) : Option Trap :=
  if va % unit != 0 then some (trapOf 4 va)
  else if ((s.vd v).lastPg.toNat + 1) * 4096 < va + size then some (trapOf 3 va)
  else none

/-- R29: the channel of a physical address. -/
def channelOf (pa : Nat) : Nat := fld pa 16 8 ^^^ fld pa 25 17 ^^^ fld pa 34 26 ^^^ fld pa 39 35

/-- Charges a limiter of a virtual device with one request. -/
def VDev.charge (x : VDev) (b n : Nat) : VDev := { x with requests := Map.put x.requests b (Map.get [] x.requests b ++ [n]) }

/-- R29, R56: the lines of a request, gathered by the aligned 256-byte blocks that lie in one channel: channel and lines. -/
def blocksOf (ls : List Nat) : List (Nat × Nat) :=
  (ls.foldl (fun (m : Map Nat) l => Map.modify 0 m (l / 4) (· + 1)) []).map fun e => (channelOf (256 * e.1), e.2)

/-- R56: charges what a request touches at each channel, as one request there. -/
def VDev.chargeBlocks (x : VDev) : List (Nat × Nat) → VDev
  | [] => x
  | (b, n) :: bs => (x.charge b n).chargeBlocks bs

/-- R56: the lines of an access are charged at their channels, while the limiters act. -/
def State.chargeMem (s : State) (v pa n : Nat) : State :=
  if (s.vd v).bwRate = 0 then s else s.setVd v ((s.vd v).chargeBlocks (blocksOf (linesOf pa n)))

/-- R33: one naturally aligned access of M that is a read: its bytes and the state with A set. -/
def State.mLoad (s : State) (v va n : Nat) (k : MKind) : Except Trap (List Byte × State) :=
  match s.translate v va k with
  | .error t => .error t
  | .ok (pa, key, lf) => .ok (s.paRead key pa n, (s.noteLeaf v va lf k).chargeMem v pa n)

/-- R441, R442: a line of an undo log keeps a byte written by the host or in a completion record as it was written. -/
def UndoLine.patch (pa : Nat) (b : Byte) (u : UndoLine) : UndoLine :=
  if u.m && u.line = pa / 64 then { u with data := u.data.set (pa % 64) b } else u

/-- R441, R442: a rollback leaves these bytes as they are now written. -/
def State.patchUndo (s : State) (pa : Nat) : List Byte → State
  | [] => s
  | b :: bs =>
    let gs := s.gangs.map fun (g, x) => (g, { x with undo := x.undo.map (UndoLine.patch pa b) })
    { s with gangs := gs }.patchUndo (pa + 1) bs

/-- R443: lines that the host or a completion record writes, for the next copy of a mirrored gang. -/
def State.noteHost (s : State) (gid key : Nat) (ls : List Nat) : State :=
  match s.gangs.lookup gid with
  | some g =>
    if g.mirroring then
      { s with gangs := Map.put s.gangs gid { g with
          hostLines := g.hostLines ++ (ls.map fun l => (key, l)).filter fun e => !g.hostLines.contains e } }
    else s
  | none => s

/-- R441: a write of M: logged for rollback where it is one of the gang's own. -/
def State.paPut (s : State) (v key pa : Nat) (bs : List Byte) (k : MKind) : State :=
  if k = .write then s.paStore (s.vd v).gid key pa bs
  else ((s.paWrite key pa bs).patchUndo pa bs).noteHost (s.vd v).gid key (linesOf pa bs.length)

/-- R33, R42: one naturally aligned write of M, by the gang of the virtual device. -/
def State.mStore (s : State) (v va : Nat) (bs : List Byte) (k : MKind) : Except Trap State :=
  match s.translate v va k with
  | .error t => .error t
  | .ok (pa, key, lf) =>
    .ok (((s.noteLeaf v va lf k).chargeMem v pa bs.length).paPut v key pa bs k)

/-- R43, R46: the leaf under which an access that has passed its checks completes: the cached one, which stays until an
invalidation covers it, else a fresh walk. -/
def State.heldLeaf (s : State) (v va : Nat) : Except Trap Leaf :=
  match s.cached v va with
  | some lf => .ok lf
  | none => s.walk v va

/-- Bytes of M, in one page, as a read that has passed its checks performs it. -/
def State.mPeek (s : State) (v va n : Nat) : List Byte :=
  match s.heldLeaf v va with
  | .ok lf => s.paRead (fld lf.e 63 52) (fld lf.e 39 12 * 4096 + va % lf.size) n
  | .error _ => []

/-- R54, R419: the key fault of a write of M that passed its checks earlier and is admitted now, or the protection fault where its
granule has been revoked. -/
def State.pokeFault (s : State) (v va : Nat) : Option Trap :=
  match s.heldLeaf v va with
  | .ok lf => if s.keyOk v (fld lf.e 63 52) then none else some (trapOf 7 va)
  | .error t => if t.cls = 6 then some t else none

/-- A write of M, in one page, that has passed its checks. Under a key that is no longer loaded nothing is written (R54); who
performs it raises the fault. -/
def State.mPoke (s : State) (v va : Nat) (bs : List Byte) : State :=
  match s.heldLeaf v va with
  | .ok lf =>
    let pa := fld lf.e 39 12 * 4096 + va % lf.size
    if s.keyOk v (fld lf.e 63 52) then s.paPut v (fld lf.e 63 52) pa bs .write else s
  | .error _ => s

/-- R42: a page that is about to be written by a write that passed its checks earlier does not lack A and D, though software may have
rewritten its entry since. -/
def State.noteHeld (s : State) (v va : Nat) : State :=
  match s.heldLeaf v va with
  | .ok lf =>
    let w := s.paWord 0 (lf.word va)
    if (bit w 4 && bit w 5) || !s.keyOk v (fld lf.e 63 52) then s else s.noteLeaf v va lf .write
  | .error _ => s

/-- The physical lines of lines of M whose translation stands. -/
def State.physLines (s : State) (v : Nat) (ls : List Nat) : List Nat :=
  ls.filterMap fun l => match s.heldLeaf v (64 * l) with
    | .ok lf => some ((fld lf.e 39 12 * 4096 + 64 * l % lf.size) / 64)
    | .error _ => none

/-- R56: lines of M, by virtual address, of an access that has passed its checks are charged: what it touches at a channel is one
request there. -/
def State.chargeLines (s : State) (v : Nat) (ls : List Nat) : State :=
  if (s.vd v).bwRate = 0 then s else s.setVd v ((s.vd v).chargeBlocks (blocksOf (s.physLines v ls)))

/-- The 4 KiB pages of an extent, in address order. -/
def extentPages (va n : Nat) : List Nat :=
  if n = 0 then [] else (List.range ((va + n - 1) / 4096 + 1 - va / 4096)).map fun i => if i = 0 then va else (va / 4096 + i) * 4096

/-- R32: the checks of a whole extent, before any byte of it moves: the fault of the first failing page. -/
def State.extent (s : State) (v va n : Nat) (k : MKind) : Option Trap :=
  if n = 0 then none
  else if ((s.vd v).lastPg.toNat + 1) * 4096 < va + n then some (trapOf 3 va)
  else (extentPages va n).findSome? fun p =>
    match s.translate v p k with
    | .error t => some t
    | .ok _ => none

/-- The part of an extent that lies in the page of `va`: how many of `n` bytes. -/
def pagePart (va n : Nat) : Nat := min n (4096 - va % 4096)

/-- R32: reads an extent that passed its checks, page by page; `fuel` bounds the pages. -/
def State.mReadAll (s : State) (v : Nat) (k : MKind) : Nat → Nat → Nat → Except Trap (List Byte × State)
  | _, _, 0 => .ok ([], s)
  | 0, _, _ => .ok ([], s)
  | fuel + 1, va, n + 1 =>
    match s.mLoad v va (pagePart va (n + 1)) k with
    | .error t => .error t
    | .ok (bs, s') =>
      match s'.mReadAll v k fuel (va + bs.length) (n + 1 - pagePart va (n + 1)) with
      | .error t => .error t
      | .ok (rest, s'') => .ok (bs ++ rest, s'')

/-- R32: reads an extent of M. -/
def State.mReadExtent (s : State) (v va n : Nat) (k : MKind) : Except Trap (List Byte × State) :=
  match s.extent v va n k with
  | some t => .error t
  | none => s.mReadAll v k (n / 4096 + 2) va n

/-- Writes an extent page by page. -/
def State.mWriteAll (s : State) (v : Nat) (k : MKind) : Nat → Nat → List Byte → Except Trap State
  | _, _, [] => .ok s
  | 0, _, _ => .ok s
  | fuel + 1, va, bs =>
    match s.mStore v va (bs.take (pagePart va bs.length)) k with
    | .error t => .error t
    | .ok s' => s'.mWriteAll v k fuel (va + pagePart va bs.length) (bs.drop (pagePart va bs.length))

/-- R32: writes an extent of M, or none of it. -/
def State.mWriteExtent (s : State) (v va : Nat) (bs : List Byte) (k : MKind) : Except Trap State :=
  match s.extent v va bs.length k with
  | some t => .error t
  | none => s.mWriteAll v k (bs.length / 4096 + 2) va bs

/-! ### Granules -/

/-- R126: a free granule. -/
def Granule.reset : Granule := { gid := 0, pin := 0 }

/-- The tag of the granule of a G address. -/
def State.granule (s : State) (g : Nat) : Granule := Map.get Granule.reset s.granules g

/-- R127: the byte and bit of a (core, granule) in a gang's spill map, 32 bits a core (log 13). `g` is core × 32 + granule. -/
def spillByte (save g : Nat) : Nat := save + 0x1000 + g / 8

/-- R127: a gang's spill map bit. One that cannot be read counts as set, so that the touch waits for the restore, which raises the
fault. A retired gang has no spill map (R405). -/
def State.spillBit (s : State) (gid g : Nat) : Bool :=
  match s.gangs.lookup gid with
  | some x =>
    if x.retired then false
    else match s.saveRead x (spillByte 0 g) 1 with
      | .ok b => (b.headD 0).getLsbD (g % 8)
      | .error _ => true
  | none => false

/-- R127: sets or clears a spill map bit. -/
def State.setSpillBit (s : State) (gid g : Nat) (b : Bool) : State :=
  match s.gangs.lookup gid with
  | some x =>
    let o := s.paByte x.key (spillByte x.savePa g)
    if x.retired then s
    else s.saveWrite x.part x.key (spillByte x.savePa g) [if b then o ||| (1#8 <<< (g % 8)) else o &&& ~~~(1#8 <<< (g % 8))]
  | none => s

/-- R127: may the gang's access to the granule proceed now? A free granule with no copy of the gang's spilled is taken at
once; otherwise a spill or a restore comes first. -/
def State.granuleOk (s : State) (gid g : Nat) : Bool :=
  (s.granule g).gid = gid || ((s.granule g).gid = 0 && !s.spillBit gid g)

/-- R127: the granule after the gang's access: tagged with the gang. -/
def State.takeGranule (s : State) (gid g : Nat) : State :=
  if (s.granule g).gid = gid then s
  else { s with granules := Map.put s.granules g { s.granule g with gid := gid } }

/-- R127: takes granules for a gang. -/
def State.takeAll (s : State) (gid : Nat) : List Nat → State
  | [] => s
  | g :: gs => (s.takeGranule gid g).takeAll gid gs

/-- R127: a gang's touch of granules that their tags do not settle waits for a spill or a restore of each. -/
def State.want (s : State) (gid : Nat) : List Nat → State
  | [] => s
  | g :: gs => (if s.granuleOk gid g then s else { s with touches := Map.put s.touches g gid }).want gid gs

/-- R127: may all these granules be taken? -/
def State.granulesOk (s : State) (gid : Nat) (gs : List Nat) : Bool := gs.all fun g => s.granuleOk gid g

/-- R127: a touch of granules by a gang: taken where each may be, and then `f`; else the touch waits. -/
def State.touching (s : State) (gid : Nat) (gs : List Nat) (f : State → State) : State :=
  if s.granulesOk gid gs then f (s.takeAll gid gs) else s.want gid gs

/-- R129: raises the PIN of granules. -/
def State.pin (s : State) : List Nat → State
  | [] => s
  | g :: gs => { s with granules := Map.modify Granule.reset s.granules g fun t => { t with pin := t.pin + 1 } }.pin gs

/-- R129: lowers the PIN of granules. -/
def State.unpin (s : State) : List Nat → State
  | [] => s
  | g :: gs => { s with granules := Map.modify Granule.reset s.granules g fun t => { t with pin := t.pin - 1 } }.unpin gs

/-- R404: the spill slot of a granule in a gang's save area: after the header area and the contexts of the NC cores of the
partition's clusters. -/
def State.spillSlot (s : State) (x : Gang) (g : Nat) : Nat :=
  let cl := (Map.get Part.reset s.parts x.part).clusters
  let nc := 16 * cl.length
  let pos := (cl.filter (· < g / 512)).length * 16 + g / 32 % 16
  x.savePa + 0x1000000 + nc * 0x100000 + pos * 0x200000 + g % 32 * 0x10000

end Sys2Proof.Machine
end

