-- ==== Sys2Proof/Machine/Operands.lean ====
section
/-! DEFINITION. What each instruction word names and uses: the registers it reads and writes (R169, R189), its slot class (R149),
its unit with the interval (R184, R229), its weight (R192) and whether a `limm` may stand before it (R152). -/

namespace Sys2Proof.Machine

/-- A register in the sense of R169: scalar, plane, predicate (mask or flag plane), tile, tensor register, system register; and the ring of
the Tailrace, which has a busy bit (R188). -/
inductive Res where
  | s (n : Nat)
  | p (n : Nat)
  | q (n : Nat)
  | a (n : Nat)
  | t (n : Nat)
  | sr (n : Nat)
  | ring
  deriving DecidableEq, Repr

/-- The scalar registers of an operand; s0 and the bypass names are none (R169). -/
def regs (w : Width) (r : Fin 64) : List Res :=
  if r.val = 0 ∨ 56 ≤ r.val then [] else (List.range w.regs).map fun i => .s (r.val + i)

/-- `n` planes from `d`. -/
def planesN (n : Nat) (d : Fin 16) : List Res := (List.range n).map fun i => .p (d.val + i)

/-- The planes of an operand of plane width pw (R163). -/
def planes (pw : Fin 4) (d : Fin 16) : List Res := planesN (pwPlanes pw) d

/-- A predication mask; m0 is constant. -/
def msk (m : Fin 8) : List Res := if m.val = 0 then [] else [.q m.val]

/-- A predicate operand; m0 is constant. -/
def pq (q : Fin 16) : List Res := if q.val = 0 then [] else [.q q.val]

/-- The address registers of an atomic (R329). -/
def addrRegsOf (sp : Bool) (a : Fin 64) : List Res := if sp then regs .d a else regs .s a

/-- The registers a word names as sources (R169). -/
def sources : Instr → List Res
  | .add _ a b w => regs w a ++ regs w b
  | .sub _ a b w => regs w a ++ regs w b
  | .and _ a b w => regs w a ++ regs w b
  | .or _ a b w => regs w a ++ regs w b
  | .xor _ a b w => regs w a ++ regs w b
  | .andn _ a b w => regs w a ++ regs w b
  | .orn _ a b w => regs w a ++ regs w b
  | .min _ a b w => regs w a ++ regs w b
  | .max _ a b w => regs w a ++ regs w b
  | .minn _ a b w => regs w a ++ regs w b
  | .maxn _ a b w => regs w a ++ regs w b
  | .mul _ a b w => regs w a ++ regs w b
  | .div _ a b w => regs w a ++ regs w b
  | .divn _ a b w => regs w a ++ regs w b
  | .rem _ a b w => regs w a ++ regs w b
  | .remn _ a b w => regs w a ++ regs w b
  | .shl _ a b w => regs w a ++ regs .s b
  | .shr _ a b w => regs w a ++ regs .s b
  | .sar _ a b w => regs w a ++ regs .s b
  | .rotl _ a b w => regs w a ++ regs .s b
  | .ceq _ a b w => regs w a ++ regs w b
  | .clt _ a b w => regs w a ++ regs w b
  | .cltn _ a b w => regs w a ++ regs w b
  | .cmov d a b w => regs w a ++ regs .s b ++ regs w d
  | .mulh _ a b => regs .s a ++ regs .s b
  | .mulhn _ a b => regs .s a ++ regs .s b
  | .fmin _ a b => regs .s a ++ regs .s b
  | .fmax _ a b => regs .s a ++ regs .s b
  | .clz _ a w => regs w a
  | .popc _ a w => regs w a
  | .brev _ a w => regs w a
  | .bext _ a b w _ => regs w a ++ regs .s b
  | .bins d a b w => regs w a ++ regs .s b ++ regs w d
  | .addi _ a _ => regs .s a
  | .andi _ a _ => regs .s a
  | .ori _ a _ => regs .s a
  | .xori _ a _ => regs .s a
  | .shli _ a _ => regs .s a
  | .shri _ a _ => regs .s a
  | .sari _ a _ => regs .s a
  | .ceqi _ a _ => regs .s a
  | .clti _ a _ => regs .s a
  | .cltni _ a _ => regs .s a
  | .movi _ _ => []
  | .lui _ _ => []
  | .madd d a b w => regs w a ++ regs w b ++ regs w d
  | .lea _ a b w _ _ => regs w a ++ regs .s b
  | .mov _ a w => regs w a
  | .ext _ a _ _ => regs .s a
  | .fadd _ a b _ => regs .s a ++ regs .s b
  | .fsub _ a b _ => regs .s a ++ regs .s b
  | .fmul _ a b _ => regs .s a ++ regs .s b
  | .fcmp _ a b _ => regs .s a ++ regs .s b
  | .ffma d a b _ => regs .s a ++ regs .s b ++ regs .s d
  | .fcvt _ a _ _ => regs .s a
  | .br c _ => regs .s c
  | .brv c _ => regs .s c
  | .jmp _ => []
  | .call _ => []
  | .ret a => regs .d a
  | .jx a => regs .d a
  | .jxl d a => regs .d a
  | .loop c _ _ => regs .s c
  | .ldl _ a b _ _ => regs .s a ++ regs .s b
  | .ldg _ a b _ _ => regs .s a ++ regs .s b
  | .ldk _ a b _ _ => regs .s a ++ regs .s b
  | .ldm _ a b _ => regs .s a ++ regs .s b
  | .stl d a b w _ => regs .s a ++ regs .s b ++ regs w d
  | .stg d a b w _ => regs .s a ++ regs .s b ++ regs w d
  | .stm d a b w => regs .s a ++ regs .s b ++ regs w d
  | .ldh _ _ _ => []
  | .sth _ r _ => regs .s r
  | .pld _ _ r m => regs .s r ++ msk m
  | .pldg _ _ r m => regs .s r ++ msk m
  | .pst d _ r m => regs .s r ++ msk m ++ [.p d.val]
  | .pstg d _ r m => regs .s r ++ msk m ++ [.p d.val]
  | .pldh _ _ _ => []
  | .psth _ pl _ => [.p pl.val]
  | .pgather _ a m _ => [.p a.val] ++ msk m
  | .pscatter d a m _ => [.p a.val, .p d.val] ++ msk m
  | .padd _ a b m pw _ _ => planes pw a ++ planes pw b ++ msk m
  | .psub _ a b m pw _ _ => planes pw a ++ planes pw b ++ msk m
  | .pmul _ a b m pw _ _ => planes pw a ++ planes pw b ++ msk m
  | .pmin _ a b m pw _ _ => planes pw a ++ planes pw b ++ msk m
  | .pmax _ a b m pw _ _ => planes pw a ++ planes pw b ++ msk m
  | .pabsd _ a b m pw _ _ => planes pw a ++ planes pw b ++ msk m
  | .pshl _ a b m pw _ _ => planes pw a ++ planes pw b ++ msk m
  | .pshr _ a b m pw _ _ => planes pw a ++ planes pw b ++ msk m
  | .psar _ a b m pw _ _ => planes pw a ++ planes pw b ++ msk m
  | .pdiv _ a b m pw _ _ => planes pw a ++ planes pw b ++ msk m
  | .pfma d a b m pw _ _ => planes pw a ++ planes pw b ++ planes pw d ++ msk m
  | .pfms d a b m pw _ _ => planes pw a ++ planes pw b ++ planes pw d ++ msk m
  | .pclamp d a b m pw _ _ => planes pw a ++ planes pw b ++ planes pw d ++ msk m
  | .pdot2 d a b m pw _ _ => planes pw a ++ planes pw b ++ planes pw d ++ msk m
  | .pabs _ a m pw _ _ => planes pw a ++ msk m
  | .pneg _ a m pw _ _ => planes pw a ++ msk m
  | .pround _ a m pw _ _ => planes pw a ++ msk m
  | .psumRow _ a m pw _ _ => planes pw a ++ msk m
  | .psumCol _ a m pw _ _ => planes pw a ++ msk m
  | .predRow _ a m pw _ _ => planes pw a ++ msk m
  | .predCol _ a m pw _ _ => planes pw a ++ msk m
  | .pspf _ a m pw _ _ => planes pw a ++ msk m
  | .ptrig _ a m pw _ _ => planes pw a ++ msk m
  | .pcmp _ a b m _ _ => [.p a.val, .p b.val] ++ msk m
  | .psel _ a b m pw => planes pw a ++ pq b ++ msk m
  | .pcvt _ a _ m pw _ _ => planes pw a ++ msk m
  | .pand _ a b m pw => planes pw a ++ planes pw b ++ msk m
  | .por _ a b m pw => planes pw a ++ planes pw b ++ msk m
  | .pxor _ a b m pw => planes pw a ++ planes pw b ++ msk m
  | .pnot _ a m pw => planes pw a ++ msk m
  | .pmov _ a m pw => planes pw a ++ msk m
  | .pbcs _ r m _ _ => regs .s r ++ msk m
  | .pins d r m _ _ => regs .d r ++ msk m
  | .pext a r _ _ => [.p a.val, .s (r.val + 1)]
  | .piota _ m _ _ _ => msk m
  | .pmand _ a b m => pq a ++ pq b ++ msk m
  | .pmor _ a b m => pq a ++ pq b ++ msk m
  | .pmxor _ a b m => pq a ++ pq b ++ msk m
  | .pmnot _ a m => pq a ++ msk m
  | .pvote _ a m _ => pq a ++ msk m
  | .pflag _ m _ => msk m
  | .prng _ m _ _ => msk m
  | .pscale _ a r m _ _ => [.p a.val] ++ regs .s r ++ msk m
  | .pmuls _ a r m _ _ => [.p a.val] ++ regs .s r ++ msk m
  | .pfmas d a r m _ _ => [.p a.val, .p d.val] ++ regs .s r ++ msk m
  | .paddi _ a _ m _ _ => [.p a.val] ++ msk m
  | .protRow _ a _ m pw => planes pw a ++ msk m
  | .protCol _ a _ m pw => planes pw a ++ msk m
  | .pbcRow _ a _ m pw => planes pw a ++ msk m
  | .pbcCol _ a _ m pw => planes pw a ++ msk m
  | .pxbar d a _ m => [.p a.val, .p d.val] ++ msk m
  | .pxset _ a m => [.p a.val] ++ msk m
  | .pxtr _ a m => [.p a.val] ++ msk m
  | .rvadd _ a b m _ => [.p a.val, .p b.val] ++ msk m
  | .rvmul _ a b m _ => [.p a.val, .p b.val] ++ msk m
  | .unadd _ a b _ => [.p a.val, .p b.val]
  | .unmul _ a b _ => [.p a.val, .p b.val]
  | .rvnarrow d a _ m _ => [.p a.val, .p d.val] ++ msk m
  | .rvcvt d a _ m _ => [.p a.val, .p d.val] ++ msk m
  | .unnarrow _ a _ _ => [.p a.val]
  | .uncvt _ a _ _ => [.p a.val]
  | .rvscale _ a r m _ => [.p a.val] ++ regs .s r ++ msk m
  | .unscale _ a _ => [.p a.val]
  | .unlrelu _ a _ => [.p a.val]
  | .rvlrelu _ a _ m _ => [.p a.val] ++ msk m
  | .rvmark r _ => regs .s r
  | .unmark r _ => regs .s r
  | .rvspill r _ => regs .s r
  | .rvinfo _ _ => []
  | .tload _ a _ => regs .s a
  | .tset d a imm => (if imm.toNat ≤ 3 then regs .d a else regs .s a)
  | .mma _ a b _ _ _ _ _ => [.t a.val, .t b.val]
  | .mmag _ a b _ ix _ _ _ => [.t a.val, .t b.val, .p ix.val]
  | .mret _ r acc _ _ _ _ _ => regs .s r ++ [.a acc.val]
  | .mclr _ => []
  | .mld _ r _ _ _ => regs .s r
  | .mwait acc => [.a acc.val]
  | .flow a _ => regs .d a
  | .fpoll _ _ => []
  | .hdef _ r _ => regs .d r
  | .wpost a b => regs .s a ++ regs .d b
  | .wpoll _ a => regs .s a
  | .wcomm _ a _ => regs .s a
  | .wbar a => regs .s a
  | .atom d a _ w sp _ => regs w d ++ addrRegsOf sp a
  | .cas d a b w sp => regs w d ++ regs w b ++ addrRegsOf sp a
  | .oatom d a _ w sp => regs w d ++ addrRegsOf sp a
  | .oatomP d a _ => [.p d.val, .p a.val]
  | .ostep _ a => regs .s a
  | .mbtag a => regs .s a
  | .resume d a b => regs .s d ++ regs .s a ++ regs .s b
  | .mfsr _ imm => [.sr imm.toNat]
  | .mtsr d imm => if sysregBits imm.toNat = 64 then regs .d d else regs .s d
  | .sysc d _ => regs .s d
  | _ => []

/-- The registers a word names as destinations (R169). -/
def dests : Instr → List Res
  | .add d _ _ w => regs w d
  | .sub d _ _ w => regs w d
  | .and d _ _ w => regs w d
  | .or d _ _ w => regs w d
  | .xor d _ _ w => regs w d
  | .andn d _ _ w => regs w d
  | .orn d _ _ w => regs w d
  | .min d _ _ w => regs w d
  | .max d _ _ w => regs w d
  | .minn d _ _ w => regs w d
  | .maxn d _ _ w => regs w d
  | .mul d _ _ w => regs w d
  | .div d _ _ w => regs w d
  | .divn d _ _ w => regs w d
  | .rem d _ _ w => regs w d
  | .remn d _ _ w => regs w d
  | .shl d _ _ w => regs w d
  | .shr d _ _ w => regs w d
  | .sar d _ _ w => regs w d
  | .rotl d _ _ w => regs w d
  | .ceq d _ _ _ => regs .s d
  | .clt d _ _ _ => regs .s d
  | .cltn d _ _ _ => regs .s d
  | .cmov d _ _ w => regs w d
  | .mulh d _ _ => regs .s d
  | .mulhn d _ _ => regs .s d
  | .fmin d _ _ => regs .s d
  | .fmax d _ _ => regs .s d
  | .clz d _ w => regs w d
  | .popc d _ w => regs w d
  | .brev d _ w => regs w d
  | .bext d _ _ w _ => regs w d
  | .bins d _ _ w => regs w d
  | .addi d _ _ => regs .s d
  | .andi d _ _ => regs .s d
  | .ori d _ _ => regs .s d
  | .xori d _ _ => regs .s d
  | .shli d _ _ => regs .s d
  | .shri d _ _ => regs .s d
  | .sari d _ _ => regs .s d
  | .ceqi d _ _ => regs .s d
  | .clti d _ _ => regs .s d
  | .cltni d _ _ => regs .s d
  | .movi d _ => regs .s d
  | .lui d _ => regs .s d
  | .madd d _ _ w => regs w d
  | .lea d _ _ w _ _ => regs w d
  | .mov d _ w => regs w d
  | .ext d _ w _ => regs w d
  | .fadd d _ _ _ => regs .s d
  | .fsub d _ _ _ => regs .s d
  | .fmul d _ _ _ => regs .s d
  | .fcmp d _ _ _ => regs .s d
  | .ffma d _ _ _ => regs .s d
  | .fcvt d _ _ _ => regs .s d
  | .br _ _ => []
  | .brv _ _ => []
  | .jmp _ => []
  | .call _ => [.s 54, .s 55]
  | .ret _ => []
  | .jx _ => []
  | .jxl d _ => regs .d d
  | .loop _ _ _ => []
  | .ldl d _ _ w _ => regs w d
  | .ldg d _ _ w _ => regs w d
  | .ldk d _ _ w _ => regs w d
  | .ldm d _ _ w => regs w d
  | .stl _ _ _ _ _ => []
  | .stg _ _ _ _ _ => []
  | .stm _ _ _ _ => []
  | .ldh _ r _ => regs .s r
  | .sth _ _ _ => []
  | .pld d _ _ _ => [.p d.val]
  | .pldg d _ _ _ => [.p d.val]
  | .pst _ _ _ _ => []
  | .pstg _ _ _ _ => []
  | .pldh _ pl _ => [.p pl.val]
  | .psth _ _ _ => []
  | .pgather d _ _ _ => [.p d.val]
  | .pscatter _ _ _ _ => []
  | .padd d _ _ _ pw _ _ => planes pw d
  | .psub d _ _ _ pw _ _ => planes pw d
  | .pmul d _ _ _ pw _ _ => planes pw d
  | .pmin d _ _ _ pw _ _ => planes pw d
  | .pmax d _ _ _ pw _ _ => planes pw d
  | .pabsd d _ _ _ pw _ _ => planes pw d
  | .pshl d _ _ _ pw _ _ => planes pw d
  | .pshr d _ _ _ pw _ _ => planes pw d
  | .psar d _ _ _ pw _ _ => planes pw d
  | .pdiv d _ _ _ pw _ _ => planes pw d
  | .pfma d _ _ _ pw _ _ => planes pw d
  | .pfms d _ _ _ pw _ _ => planes pw d
  | .pclamp d _ _ _ pw _ _ => planes pw d
  | .pdot2 d _ _ _ pw _ _ => planes pw d
  | .pabs d _ _ pw _ _ => planes pw d
  | .pneg d _ _ pw _ _ => planes pw d
  | .pround d _ _ pw _ _ => planes pw d
  | .psumRow d _ _ pw _ _ => planes pw d
  | .psumCol d _ _ pw _ _ => planes pw d
  | .predRow d _ _ pw _ _ => planes pw d
  | .predCol d _ _ pw _ _ => planes pw d
  | .pspf d _ _ pw _ _ => planes pw d
  | .ptrig d _ _ pw _ _ => planes pw d
  | .pcmp d _ _ _ _ _ => [.q d.val]
  | .psel d _ _ _ pw => planes pw d
  | .pcvt d _ b _ pw ty _ => planesN (cvtPlanes b pw ty) d
  | .pand d _ _ _ pw => planes pw d
  | .por d _ _ _ pw => planes pw d
  | .pxor d _ _ _ pw => planes pw d
  | .pnot d _ _ pw => planes pw d
  | .pmov d _ _ pw => planes pw d
  | .pbcs d _ _ _ _ => [.p d.val]
  | .pins d _ _ _ _ => [.p d.val]
  | .pext _ r _ _ => regs .s r
  | .piota d _ pw _ _ => planes pw d
  | .pmand d _ _ _ => pq d
  | .pmor d _ _ _ => pq d
  | .pmxor d _ _ _ => pq d
  | .pmnot d _ _ => pq d
  | .pvote d _ _ sub => if sub.val ≤ 2 then pq d else if d.val = 0 then [] else [.s d.val]
  | .pflag d _ sub => if sub.val = 2 then [.q 8, .q 9, .q 10, .q 11, .q 12] else pq d
  | .prng d _ pw _ => planes pw d
  | .pscale d _ _ _ _ _ => [.p d.val]
  | .pmuls d _ _ _ _ _ => [.p d.val]
  | .pfmas d _ _ _ _ _ => [.p d.val]
  | .paddi d _ _ _ _ _ => [.p d.val]
  | .protRow d _ _ _ pw => planes pw d
  | .protCol d _ _ _ pw => planes pw d
  | .pbcRow d _ _ _ pw => planes pw d
  | .pbcCol d _ _ _ pw => planes pw d
  | .pxbar d _ _ _ => [.p d.val]
  | .pxset _ _ _ => []
  | .pxtr d _ _ => [.p d.val]
  | .rvadd d _ _ _ _ => [.p d.val]
  | .rvmul d _ _ _ _ => [.p d.val]
  | .unadd d _ _ _ => [.p d.val]
  | .unmul d _ _ _ => [.p d.val]
  | .rvnarrow d _ _ _ _ => [.p d.val]
  | .rvcvt d _ _ _ _ => [.p d.val]
  | .unnarrow d _ _ _ => [.p d.val]
  | .uncvt d _ _ _ => [.p d.val]
  | .rvscale d _ _ _ _ => [.p d.val]
  | .unscale d _ _ => [.p d.val]
  | .unlrelu d _ _ => [.p d.val]
  | .rvlrelu d _ _ _ _ => [.p d.val]
  | .rvmark _ _ => []
  | .unmark _ _ => []
  | .rvspill _ _ => []
  | .rvinfo r _ => regs .s r
  | .tload d _ _ => [.t d.val]
  | .tset d _ _ => [.t d.val]
  | .mma acc a _ _ _ _ _ _ => [.a acc.val]
  | .mmag acc a _ _ _ _ _ _ => [.a acc.val]
  | .mret _ _ acc _ _ clr _ _ => if clr then [.a acc.val] else []
  | .mclr acc => [.a acc.val]
  | .mld _ _ acc _ _ => [.a acc.val]
  | .mwait _ => []
  | .flow _ _ => []
  | .fpoll d _ => regs .d d
  | .hdef _ _ _ => []
  | .wpost _ _ => []
  | .wpoll d _ => regs .d d
  | .wcomm d _ _ => regs .s d
  | .wbar _ => []
  | .atom d _ _ w _ rt => if rt then regs w d else []
  | .cas d _ _ w _ => regs w d
  | .oatom _ _ _ _ _ => []
  | .oatomP _ _ _ => []
  | .ostep d _ => regs .s d ++ [.sr 0x11]
  | .mbtag _ => [.sr 0x10]
  | .resume _ _ _ => []
  | .mfsr d imm => if sysregBits imm.toNat = 64 then regs .d d else regs .s d
  | .mtsr _ imm => [.sr imm.toNat]
  | .sysc d _ => regs .s d
  | _ => []

/-- The slot classes of R149; `rv` is PL, reversible; `other` is a word without class, or an event. -/
inductive Slot where
  | si | ct | sf | ld | st | pl | rv | xb | mx | en | sy | sc | other
  deriving DecidableEq, Repr

/-- R149: the class of each word. -/
def slot : Instr → Slot
  | .add _ _ _ _ => .si
  | .sub _ _ _ _ => .si
  | .and _ _ _ _ => .si
  | .or _ _ _ _ => .si
  | .xor _ _ _ _ => .si
  | .andn _ _ _ _ => .si
  | .orn _ _ _ _ => .si
  | .shl _ _ _ _ => .si
  | .shr _ _ _ _ => .si
  | .sar _ _ _ _ => .si
  | .rotl _ _ _ _ => .si
  | .min _ _ _ _ => .si
  | .max _ _ _ _ => .si
  | .minn _ _ _ _ => .si
  | .maxn _ _ _ _ => .si
  | .ceq _ _ _ _ => .si
  | .clt _ _ _ _ => .si
  | .cltn _ _ _ _ => .si
  | .cmov _ _ _ _ => .si
  | .mul _ _ _ _ => .si
  | .mulh _ _ _ => .si
  | .mulhn _ _ _ => .si
  | .div _ _ _ _ => .si
  | .divn _ _ _ _ => .si
  | .rem _ _ _ _ => .si
  | .remn _ _ _ _ => .si
  | .clz _ _ _ => .si
  | .popc _ _ _ => .si
  | .brev _ _ _ => .si
  | .bext _ _ _ _ _ => .si
  | .bins _ _ _ _ => .si
  | .addi _ _ _ => .si
  | .andi _ _ _ => .si
  | .ori _ _ _ => .si
  | .xori _ _ _ => .si
  | .shli _ _ _ => .si
  | .shri _ _ _ => .si
  | .sari _ _ _ => .si
  | .ceqi _ _ _ => .si
  | .clti _ _ _ => .si
  | .cltni _ _ _ => .si
  | .movi _ _ => .si
  | .lui _ _ => .si
  | .madd _ _ _ _ => .si
  | .lea _ _ _ _ _ _ => .si
  | .mov _ _ _ => .si
  | .ext _ _ _ _ => .si
  | .mfsr _ _ => .si
  | .mtsr _ _ => .si
  | .br _ _ => .ct
  | .jmp _ => .ct
  | .call _ => .ct
  | .ret _ => .ct
  | .jx _ => .ct
  | .jxl _ _ => .ct
  | .loop _ _ _ => .ct
  | .loopi _ _ _ => .ct
  | .brv _ _ => .ct
  | .trap _ => .ct
  | .sysc _ _ => .ct
  | .resume _ _ _ => .ct
  | .yieldItem => .ct
  | .endItem => .ct
  | .halt => .ct
  | .fadd _ _ _ _ => .sf
  | .fsub _ _ _ _ => .sf
  | .fmul _ _ _ _ => .sf
  | .ffma _ _ _ _ => .sf
  | .fmin _ _ _ => .sf
  | .fmax _ _ _ => .sf
  | .fcmp _ _ _ _ => .sf
  | .fcvt _ _ _ _ => .sf
  | .ldl _ _ _ _ _ => .ld
  | .ldg _ _ _ _ _ => .ld
  | .ldm _ _ _ _ => .ld
  | .ldk _ _ _ _ _ => .ld
  | .ldh _ _ _ => .ld
  | .pld _ _ _ _ => .ld
  | .pldg _ _ _ _ => .ld
  | .pldh _ _ _ => .ld
  | .pgather _ _ _ _ => .ld
  | .stl _ _ _ _ _ => .st
  | .stg _ _ _ _ _ => .st
  | .stm _ _ _ _ => .st
  | .sth _ _ _ => .st
  | .pst _ _ _ _ => .st
  | .pstg _ _ _ _ => .st
  | .psth _ _ _ => .st
  | .pscatter _ _ _ _ => .st
  | .scope _ => .sc
  | .padd _ _ _ _ _ _ _ => .pl
  | .psub _ _ _ _ _ _ _ => .pl
  | .pfma _ _ _ _ _ _ _ => .pl
  | .pfms _ _ _ _ _ _ _ => .pl
  | .pmul _ _ _ _ _ _ _ => .pl
  | .pmin _ _ _ _ _ _ _ => .pl
  | .pmax _ _ _ _ _ _ _ => .pl
  | .pabs _ _ _ _ _ _ => .pl
  | .pneg _ _ _ _ _ _ => .pl
  | .pcmp _ _ _ _ _ _ => .pl
  | .psel _ _ _ _ _ => .pl
  | .pcvt _ _ _ _ _ _ _ => .pl
  | .pand _ _ _ _ _ => .pl
  | .por _ _ _ _ _ => .pl
  | .pxor _ _ _ _ _ => .pl
  | .pnot _ _ _ _ => .pl
  | .pshl _ _ _ _ _ _ _ => .pl
  | .pshr _ _ _ _ _ _ _ => .pl
  | .psar _ _ _ _ _ _ _ => .pl
  | .pmov _ _ _ _ => .pl
  | .pbcs _ _ _ _ _ => .pl
  | .pins _ _ _ _ _ => .pl
  | .pext _ _ _ _ => .pl
  | .piota _ _ _ _ _ => .pl
  | .pmand _ _ _ _ => .pl
  | .pmor _ _ _ _ => .pl
  | .pmxor _ _ _ _ => .pl
  | .pmnot _ _ _ => .pl
  | .pvote _ _ _ _ => .pl
  | .pflag _ _ _ => .pl
  | .prng _ _ _ _ => .pl
  | .pscale _ _ _ _ _ _ => .pl
  | .pdot2 _ _ _ _ _ _ _ => .pl
  | .pmuls _ _ _ _ _ _ => .pl
  | .pfmas _ _ _ _ _ _ => .pl
  | .pclamp _ _ _ _ _ _ _ => .pl
  | .pround _ _ _ _ _ _ => .pl
  | .paddi _ _ _ _ _ _ => .pl
  | .pabsd _ _ _ _ _ _ _ => .pl
  | .protRow _ _ _ _ _ => .pl
  | .protCol _ _ _ _ _ => .pl
  | .pbcRow _ _ _ _ _ => .pl
  | .pbcCol _ _ _ _ _ => .pl
  | .psumRow _ _ _ _ _ _ => .pl
  | .psumCol _ _ _ _ _ _ => .pl
  | .predRow _ _ _ _ _ _ => .pl
  | .predCol _ _ _ _ _ _ => .pl
  | .pspf _ _ _ _ _ _ => .pl
  | .pdiv _ _ _ _ _ _ _ => .pl
  | .ptrig _ _ _ _ _ _ => .pl
  | .rvadd _ _ _ _ _ => .rv
  | .unadd _ _ _ _ => .rv
  | .rvmul _ _ _ _ _ => .rv
  | .unmul _ _ _ _ => .rv
  | .rvnarrow _ _ _ _ _ => .rv
  | .unnarrow _ _ _ _ => .rv
  | .rvscale _ _ _ _ _ => .rv
  | .unscale _ _ _ => .rv
  | .rvlrelu _ _ _ _ _ => .rv
  | .unlrelu _ _ _ => .rv
  | .rvcvt _ _ _ _ _ => .rv
  | .uncvt _ _ _ _ => .rv
  | .rvmark _ _ => .rv
  | .unmark _ _ => .rv
  | .rvspill _ _ => .rv
  | .rvinfo _ _ => .rv
  | .pxbar _ _ _ _ => .xb
  | .pxset _ _ _ => .xb
  | .pxtr _ _ _ => .xb
  | .tload _ _ _ => .mx
  | .tset _ _ _ => .mx
  | .mma _ _ _ _ _ _ _ _ => .mx
  | .mmag _ _ _ _ _ _ _ _ => .mx
  | .mret _ _ _ _ _ _ _ _ => .mx
  | .mclr _ => .mx
  | .mld _ _ _ _ _ => .mx
  | .mwait _ => .mx
  | .mwaitAll => .mx
  | .mprof _ => .mx
  | .flow _ _ => .en
  | .fpoll _ _ => .en
  | .fhalt _ => .en
  | .hdef _ _ _ => .en
  | .hset _ _ _ => .en
  | .await _ _ _ => .en
  | .hrel _ => .en
  | .hpub _ => .en
  | .wpost _ _ => .en
  | .wpoll _ _ => .en
  | .wcomm _ _ _ => .en
  | .wbar _ => .en
  | .phase _ => .sy
  | .fence => .sy
  | .atom _ _ _ _ _ _ => .sy
  | .cas _ _ _ _ _ => .sy
  | .oatom _ _ _ _ _ => .sy
  | .oatomP _ _ _ => .sy
  | .bar _ => .sy
  | .ostep _ _ => .sy
  | .mbtag _ => .sy
  | .snap _ => .sy
  | _ => .other

/-- The units that a word can find occupied (R184, R186). -/
inductive UnitKind where
  | divider | pipe | special | xbar | planeMem
  deriving DecidableEq, Repr

/-- R229: a plane pipe, for 4 cc a plane. -/
def pipe (pw : Fin 4) : Option (UnitKind × Nat) := some (.pipe, 4 * pwPlanes pw)

/-- R184, R229: the unit a word takes and for how long. -/
def unitOf : Instr → Option (UnitKind × Nat)
  | .div _ _ _ _ => some (.divider, 18)
  | .divn _ _ _ _ => some (.divider, 18)
  | .rem _ _ _ _ => some (.divider, 18)
  | .remn _ _ _ _ => some (.divider, 18)
  | .padd _ _ _ _ pw _ _ => pipe pw
  | .psub _ _ _ _ pw _ _ => pipe pw
  | .pmul _ _ _ _ pw _ _ => pipe pw
  | .pfma _ _ _ _ pw _ _ => pipe pw
  | .pfms _ _ _ _ pw _ _ => pipe pw
  | .pmin _ _ _ _ pw _ _ => pipe pw
  | .pmax _ _ _ _ pw _ _ => pipe pw
  | .pshl _ _ _ _ pw _ _ => pipe pw
  | .pshr _ _ _ _ pw _ _ => pipe pw
  | .psar _ _ _ _ pw _ _ => pipe pw
  | .pdot2 _ _ _ _ pw _ _ => pipe pw
  | .pclamp _ _ _ _ pw _ _ => pipe pw
  | .pabsd _ _ _ _ pw _ _ => pipe pw
  | .pabs _ _ _ pw _ _ => pipe pw
  | .pneg _ _ _ pw _ _ => pipe pw
  | .pround _ _ _ pw _ _ => pipe pw
  | .psumRow _ _ _ pw _ _ => pipe pw
  | .psumCol _ _ _ pw _ _ => pipe pw
  | .predRow _ _ _ pw _ _ => pipe pw
  | .predCol _ _ _ pw _ _ => pipe pw
  | .pcvt _ _ b _ pw ty _ => some (.pipe, 4 * max (pwPlanes pw) (cvtPlanes b pw ty))
  | .pcmp _ _ _ _ _ _ => some (.pipe, 4)
  | .psel _ _ _ _ pw => pipe pw
  | .pand _ _ _ _ pw => pipe pw
  | .por _ _ _ _ pw => pipe pw
  | .pxor _ _ _ _ pw => pipe pw
  | .pnot _ _ _ pw => pipe pw
  | .pmov _ _ _ pw => pipe pw
  | .pbcs _ _ _ _ _ => some (.pipe, 4)
  | .pins _ _ _ _ _ => some (.pipe, 4)
  | .pext _ _ _ _ => some (.pipe, 4)
  | .piota _ _ pw _ _ => pipe pw
  | .pmand _ _ _ _ => some (.pipe, 4)
  | .pmor _ _ _ _ => some (.pipe, 4)
  | .pmxor _ _ _ _ => some (.pipe, 4)
  | .pmnot _ _ _ => some (.pipe, 4)
  | .pvote _ _ _ _ => some (.pipe, 4)
  | .pflag _ _ _ => some (.pipe, 4)
  | .prng _ _ pw _ => pipe pw
  | .pscale _ _ _ _ _ _ => some (.pipe, 4)
  | .pmuls _ _ _ _ _ _ => some (.pipe, 4)
  | .pfmas _ _ _ _ _ _ => some (.pipe, 4)
  | .paddi _ _ _ _ _ _ => some (.pipe, 4)
  | .protRow _ _ _ _ pw => pipe pw
  | .protCol _ _ _ _ pw => pipe pw
  | .pbcRow _ _ _ _ pw => pipe pw
  | .pbcCol _ _ _ _ pw => pipe pw
  | .pspf _ _ _ pw _ _ => some (.special, 8 * pwPlanes pw)
  | .ptrig _ _ _ pw _ _ => some (.special, 8 * pwPlanes pw)
  | .pdiv _ _ _ _ pw _ _ => some (.special, 8 * pwPlanes pw)
  | .pxbar _ _ _ _ => some (.xbar, 4)
  | .pxset _ _ _ => some (.xbar, 4)
  | .pxtr _ _ _ => some (.xbar, 4)
  | .rvadd _ _ _ _ _ => some (.pipe, 4)
  | .unadd _ _ _ _ => some (.pipe, 4)
  | .rvmul _ _ _ _ _ => some (.pipe, 4)
  | .unmul _ _ _ _ => some (.pipe, 4)
  | .rvnarrow _ _ _ _ _ => some (.pipe, 4)
  | .unnarrow _ _ _ _ => some (.pipe, 4)
  | .rvscale _ _ _ _ _ => some (.pipe, 4)
  | .unscale _ _ _ => some (.pipe, 4)
  | .rvlrelu _ _ _ _ _ => some (.pipe, 4)
  | .unlrelu _ _ _ => some (.pipe, 4)
  | .rvcvt _ _ _ _ _ => some (.pipe, 4)
  | .uncvt _ _ _ _ => some (.pipe, 4)
  | .rvmark _ _ => some (.pipe, 4)
  | .unmark _ _ => some (.pipe, 4)
  | .rvspill _ _ => some (.pipe, 4)
  | .rvinfo _ _ => some (.pipe, 4)
  | .pld _ _ _ _ => some (.planeMem, 4)
  | .pst _ _ _ _ => some (.planeMem, 4)
  | .pldg _ _ _ _ => some (.planeMem, 4)
  | .pstg _ _ _ _ => some (.planeMem, 4)
  | .pldh _ _ _ => some (.planeMem, 4)
  | .psth _ _ _ => some (.planeMem, 4)
  | .pgather _ _ _ _ => some (.planeMem, 4)
  | .pscatter _ _ _ _ => some (.planeMem, 4)
  | _ => none

/-- The numbers of the instances of a unit, lowest first. -/
def unitIds : UnitKind → List Nat
  | .divider => [0]
  | .pipe => [1, 2]
  | .special => [3]
  | .xbar => [4]
  | .planeMem => [5]

/-- R192: the weight of a PL word by its kind, FMA or special function, else ALU, axis and memory. -/
def planeWeight : Instr → Nat
  | .pfma _ _ _ _ _ _ _ => 16
  | .pfms _ _ _ _ _ _ _ => 16
  | .pmul _ _ _ _ _ _ _ => 16
  | .pdot2 _ _ _ _ _ _ _ => 16
  | .pmuls _ _ _ _ _ _ => 16
  | .pfmas _ _ _ _ _ _ => 16
  | .pspf _ _ _ _ _ _ => 10
  | .pdiv _ _ _ _ _ _ _ => 10
  | .ptrig _ _ _ _ _ _ => 10
  | _ => 12

/-- R192: the weight of a word in governor units. A plane load or store, which R192's table could also name as plane memory, weighs as a
load or a store, its class by R149: with 12 in its place a bundle could pass the 53 units of R194. DEDUCED, unsafe (log 62). -/
def weight (i : Instr) : Nat :=
  match slot i with
  | .si | .ct => 2
  | .sf | .ld | .st => 3
  | .pl => planeWeight i
  | .rv => 14
  | .xb => 8
  | .mx | .en | .sy => 1
  | .sc | .other => 0

/-- R150: the limit of a class in one bundle; SI and CT are counted together as well. -/
def slotLimit : Slot → Nat
  | .si | .pl => 2
  | .other => 8
  | _ => 1

/-- R152: the words that accept a `limm`, with the condition on its 23 bits. -/
def limmOk (l : BitVec 23) : Instr → Bool
  | .addi _ _ _ => l.toNat / 2 ^ 21 = 0
  | .andi _ _ _ => l.toNat / 2 ^ 21 = 0
  | .ori _ _ _ => l.toNat / 2 ^ 21 = 0
  | .xori _ _ _ => l.toNat / 2 ^ 21 = 0
  | .ceqi _ _ _ => l.toNat / 2 ^ 21 = 0
  | .clti _ _ _ => l.toNat / 2 ^ 21 = 0
  | .cltni _ _ _ => l.toNat / 2 ^ 21 = 0
  | .tload _ _ _ => l.toNat / 2 ^ 21 = 0
  | .ldh _ _ _ => l.toNat / 2 ^ 21 = 0
  | .sth _ _ _ => l.toNat / 2 ^ 21 = 0
  | .pldh _ _ _ => l.toNat / 2 ^ 21 = 0
  | .psth _ _ _ => l.toNat / 2 ^ 21 = 0
  | .shli _ _ _ => l.toNat = 0
  | .shri _ _ _ => l.toNat = 0
  | .sari _ _ _ => l.toNat = 0
  | .tset _ _ _ => l.toNat = 0
  | .movi _ _ => l.toNat / 2 ^ 15 = 0
  | .br _ _ => true
  | .brv _ _ => true
  | .jmp _ => true
  | .call _ => true
  | _ => false

/-- R234: does the word draw random bits: `prng`, or a rounding under RS? `frm` is sr.fctl.FRM. -/
def drawsBits (frm : Nat) : Instr → Bool
  | .prng _ _ _ _ => true
  | .padd _ _ _ _ _ ty sub => ty.val ≤ 2 && sub.val = 4
  | .psub _ _ _ _ _ ty sub => ty.val ≤ 2 && sub.val = 4
  | .pmul _ _ _ _ _ ty sub => ty.val ≤ 2 && sub.val = 4
  | .pfma _ _ _ _ _ ty sub => ty.val ≤ 2 && sub.val = 4
  | .pfms _ _ _ _ _ ty sub => ty.val ≤ 2 && sub.val = 4
  | .pabsd _ _ _ _ _ ty sub => ty.val ≤ 2 && sub.val = 4
  | .pmuls _ _ _ _ ty sub => ty.val ≤ 2 && sub.val = 4
  | .pfmas _ _ _ _ ty sub => ty.val ≤ 2 && sub.val = 4
  | .psumRow _ _ _ _ ty sub => ty.val ≤ 2 && sub.val = 4
  | .psumCol _ _ _ _ ty sub => ty.val ≤ 2 && sub.val = 4
  | .pscale _ _ _ _ _ sub => sub.val = 4
  | .pdot2 _ _ _ _ _ ty sub => ty.val ≤ 2 && sub.val = 4
  | .pdiv _ _ _ _ _ _ sub => sub.val = 4
  | .pcvt _ _ _ _ _ ty sub =>
    if hasVariant ty.val then sub.val / 2 = 2 || (sub.val / 2 = 3 && frm = 4)
    else sub.val = 4 || (sub.val = 5 && frm = 4)
  | _ => false

end Sys2Proof.Machine
end

