-- ==== Sys2Proof/Machine/Record.lean ====
section
/-! DEFINITION. The fields of launch records (R361-R363, R377). -/

namespace Sys2Proof.Machine

/-- Word `i` (offset 8 i) of a launch record. -/
def Launch.w (x : Launch) (i : Nat) : Nat := (x.words.getD i 0).toNat

/-- R361: the fields of the launch record. -/
def Launch.rdepth (x : Launch) : Nat := max 1 (fld (x.w 0) 55 48)
def Launch.pri (x : Launch) : Nat := fld (x.w 0) 47 45
def Launch.rst (x : Launch) : Bool := bit (x.w 0) 44
def Launch.runf (x : Launch) : Bool := bit (x.w 0) 43
def Launch.det (x : Launch) : Bool := bit (x.w 0) 42
def Launch.skew (x : Launch) : Nat := fld (x.w 0) 41 40 + 1
def Launch.flenF (x : Launch) : Nat := fld (x.w 0) 39 36
def Launch.nlev (x : Launch) : Nat := fld (x.w 0) 34 32 + 1
def Launch.lidF (x : Launch) : Nat := fld (x.w 0) 31 0
def Launch.codeVa (x : Launch) : Nat := x.w 1
def Launch.entryPc (x : Launch) : Nat := fld (x.w 2) 63 32
def Launch.codeLen (x : Launch) : Nat := fld (x.w 2) 31 0
def Launch.kbase (x : Launch) : Nat := x.w 3
def Launch.clustersF (x : Launch) : Nat := fld (x.w 4) 47 32
def Launch.klen (x : Launch) : Nat := fld (x.w 4) 31 0
def Launch.rsDepthF (x : Launch) : Nat := fld (x.w 5) 63 32
def Launch.tilesF (x : Launch) : Nat := fld (x.w 5) 19 16
def Launch.planesF (x : Launch) : Nat := fld (x.w 5) 12 8
def Launch.granF (x : Launch) : Nat := fld (x.w 5) 5 0
def Launch.cpool (x : Launch) : Nat := x.w 6
def Launch.pred (x : Launch) : Nat := fld (x.w 7) 63 48
def Launch.node (x : Launch) : Nat := fld (x.w 7) 47 32
def Launch.cpoolN (x : Launch) : Nat := fld (x.w 7) 31 0
def Launch.crec (x : Launch) : Nat := x.w 8
def Launch.succs (x : Launch) : List Nat := tabulate 8 fun j => x.w (9 + j / 4) / 2 ^ (16 * (j % 4)) % 2 ^ 16
def Launch.prologue (x : Launch) : Nat := x.w 11
def Launch.pstride (x : Launch) : Nat := x.w 12
def Launch.hd (x : Launch) (i : Nat) : Nat := x.w (13 + i)
def Launch.lev (x : Launch) (i : Nat) : Nat := x.w (17 + i)
def Launch.sc (x : Launch) (i : Nat) : Nat := x.w (25 + (i - 1) / 2) / 2 ^ (32 * ((i - 1) % 2)) % 2 ^ 32

/-- Has the launch started and not completed? -/
def Launch.live (x : Launch) : Bool :=
  match x.state with
  | .running | .ending | .saved | .discarded => true
  | _ => false

/-- R361: fields of which 0 is read as a larger value. -/
def Launch.rsDepth (x : Launch) : Nat := if x.rsDepthF = 0 then 131072 else x.rsDepthF
def Launch.tiles (x : Launch) : Nat := if x.tilesF = 0 then 8 else x.tilesF
def Launch.planes (x : Launch) : Nat := if x.planesF = 0 then 16 else x.planesF
def Launch.gran (x : Launch) : Nat := if x.granF = 0 then 32 else x.granF

/-- R362: the fields of a level word. -/
def Launch.ext (x : Launch) (i : Nat) : Nat := fld (x.lev i) 63 32
def Launch.dom (x : Launch) (i : Nat) : Nat := fld (x.lev i) 10 8
def Launch.levScope (x : Launch) (i : Nat) : Nat := fld (x.lev i) 6 4

/-- A launch with nothing in its record. -/
def Launch.reset : Launch :=
  { vd := 0, queue := 0, index := 0, va := 0, words := [], state := .waiting, status := 0, ready := none,
    failedPred := false, clusters := [], code := [], kwin := [], items := [], pool := [], suspended := [],
    wavePhases := [], armed := none, votes := 0, fault := none, faultSeq := 0, ended := [], start := 0, recorded := false, seqNo := 0 }

/-- A launch of the device. -/
def State.launch (s : State) (l : Nat) : Launch := Map.get Launch.reset s.launches l

/-- Replaces a launch. -/
def State.setLaunch (s : State) (l : Nat) (x : Launch) : State := { s with launches := Map.put s.launches l x }

/-- The launch a core runs. -/
def State.job (s : State) (c : Nat) : Launch := s.launch ((s.core c).job.getD 0)

/-- R377: a handle as HDi or `hdef` defines it. -/
def Handle.define (base size : Nat) (dbl : Bool) : Handle :=
  { Handle.reset with defd := true, dbl := dbl, size := size, base := base }

/-- R133: bytes of a bank of a handle. -/
def Handle.bankSize (h : Handle) : Nat := (h.size + 1) * 256

/-- R133, R135: the slice offset of the visible bank. -/
def Handle.visible (h : Handle) : Nat := h.base * 256 + (if h.vis then h.bankSize else 0)

/-- R135: the slice offset of the bank that a filler writes: the shadow bank of a double-banked handle. -/
def Handle.fillBank (h : Handle) : Nat :=
  h.base * 256 + (if h.dbl && !h.vis then h.bankSize else 0)

/-- R134: the region lies inside the slice. -/
def Handle.regionOk (h : Handle) : Bool := h.base * 256 + h.bankSize * (1 + b2n h.dbl) ≤ Config.sliceBytes

/-! ### Fetch -/

/-- R145: the word at an address of the code image, as core `c` finds it in the active bank of its cluster. -/
def Launch.codeWord (x : Launch) (c a : Nat) : Option Word :=
  if a < x.codeLen then some (Map.get 0 (Map.get [] x.code (c / 16)) a) else none

/-- R144: the chain of at most `n` words from `a`; none where a ninth word would be needed or the image ends. -/
def Launch.chain (x : Launch) (c : Nat) : Nat → Nat → Option (List Word)
  | 0, _ => none
  | n + 1, a =>
    match x.codeWord c a with
    | none => none
    | some w => if chainBit w then (x.chain c n (a + 1)).map (w :: ·) else some [w]

/-- R144: the words of a chain of at most `n` words from `a`, as far as the image holds them. -/
def Launch.chainPart (x : Launch) (c : Nat) : Nat → Nat → List Word
  | 0, _ => []
  | n + 1, a =>
    match x.codeWord c a with
    | none => []
    | some w => w :: if chainBit w then x.chainPart c n (a + 1) else []

/-- R144: FetchBundle, on core `c`. -/
def Launch.fetchBundle (x : Launch) (c pc : Nat) : Option (List Word) := x.chain c 8 pc

end Sys2Proof.Machine
end

