-- ==== Sys2Proof/Machine/Ops.lean ====
section
/-! DEFINITION. The named operations of a core: reading registers, results in flight and their landing, what a word does at
issue, and taking a fault. -/

namespace Sys2Proof.Machine

/-- Why a word of a bundle does not take effect: the core stalls (R189), or stalls and asks something of the Tailrace, freezes while granules are moved (R130), waits while the schedule counter
advances (R339), or a fault is raised at issue (R147). -/
inductive Stop where
  | stall
  | tail (d : Demand)
  | freeze (gs : List Nat)
  | tick
  | trap (t : Trap)
  deriving DecidableEq, Repr

/-- What a word does: a state, or the reason it does not take effect. -/
abbrev Eff := Except Stop State

/-- A fault at issue of a class, with the address concerned. -/
def trapped {α : Type} (cls : Nat) (addr : Nat := 0) : Except Stop α := .error (.trap { cls := cls, addr := addr })

/-- A fault at issue where a rule of encoding fails (R147). -/
def ienc {α : Type} : Except Stop α := trapped 1

/-- A fault at issue where a rule of the schedule fails (R187). -/
def isch {α : Type} : Except Stop α := trapped 2

/-- Stalls the core. -/
def stalled {α : Type} : Except Stop α := .error .stall

/-- Goes on only when the condition holds; otherwise stops so. -/
def require {α : Type} (c : Bool) (e : Except Stop α) (f : Except Stop α) : Except Stop α := if c then f else e

/-! ### Registers -/

/-- R158: a scalar source: s0 reads 0, 56-60 read the bypass latches. -/
def Core.rd (k : Core) (r : Nat) : Word :=
  if r = 0 then 0 else if r < 56 then Map.get 0 k.sregs r else Map.get 0 k.latches (r - 56)

/-- R160: the value of a source of width `w`, its low word in the first register. -/
def Core.rdW (k : Core) (w : Width) (r : Nat) : Nat := joinWords ((List.range w.regs).map fun i => k.rd (r + i))

/-- R165: a predicate: m0 reads all ones. -/
def Core.pred (k : Core) (q : Nat) : BitVec 1024 := if q = 0 then BitVec.allOnes 1024 else Map.get 0 k.preds q

/-- R163: a plane register. -/
def Core.plane (k : Core) (p : Nat) : List Word := Map.get [] k.planes p

/-- R297: a tile; element e = 128 i + j. -/
def Core.tile (k : Core) (a : Nat) : List Word := Map.get [] k.tiles a

/-- R133: a handle. -/
def Core.handle (k : Core) (h : Nat) : Handle := Map.get Handle.reset k.handles h

/-- Replaces a handle. -/
def Core.setHandle (k : Core) (h : Nat) (x : Handle) : Core := { k with handles := Map.put k.handles h x }

/-- R89: a Flume channel. -/
def Core.channel (k : Core) (n : Nat) : Channel := Map.get Channel.reset k.flume n

/-- Replaces a channel. -/
def Core.setChannel (k : Core) (n : Nat) (x : Channel) : Core := { k with flume := Map.put k.flume n x }

/-- R287: a tensor register. -/
def Core.treg (k : Core) (t : Nat) : TReg := Map.get TReg.reset k.tregs t

/-- R255: a crossbar slot. -/
def Core.xslot (k : Core) (n : Nat) : XSlot := Map.get XSlot.reset k.xslots n

/-! ### Busy bits -/

/-- R188: does a pending access write this register? -/
def Access.holds (x : Access) : Res → Bool
  | .s n => match x.op with
    | .load => x.reg ≤ n && n < x.reg + x.width
    | .atom _ ret => ret && x.reg ≤ n && n < x.reg + x.width
    | .cas => x.reg ≤ n && n < x.reg + x.width
    | .returned => x.reg ≤ n && n < x.reg + x.width
    | _ => false
  | .p n => x.op = .planeLoad && x.reg = n
  | .t n => x.op = .tload && x.reg = n
  | _ => false

/-- R310: the tile a command sets busy; `mret` reads its tile and sets no bit. -/
def Cmd.busyTile (c : Cmd) : Option Nat :=
  match c.op with
  | .mret _ _ _ _ _ _ => none
  | _ => some c.acc

/-- R188, R275, R285, R310: is the register's busy bit set? That of the ring is, while an entry is being refilled. -/
def Core.busy (k : Core) : Res → Bool
  | .a n => (k.mill.active.any fun c => c.busyTile = some n) || (k.mill.shadow.any fun c => c.busyTile = some n)
  | .sr n => n = 0x40 && (k.mill.active.isSome || k.mill.shadow.isSome)
  | .ring => k.tail.ents.any fun e => 2 ≤ e.st
  | r => k.gq.any (·.holds r) || k.mq.any (·.holds r)

/-- R189: the registers on whose busy bits a word waits, and for a reversible word the ring of the Tailrace. The accumulator of `mma` and `mmag` is left to them (R310). -/
def waitsOn : Instr → List Res
  | .mma _ a b _ _ _ _ _ => [.t a.val, .t b.val]
  | .mmag _ a b _ ix _ _ _ => [.t a.val, .t b.val, .p ix.val]
  | i => sources i ++ dests i ++ if slot i = .rv then [.ring] else []

/-! ### Results in flight -/

/-- The register a landing writes (R185); latches, flags and memory have none. -/
def Landing.dest : Landing → Option Res
  | .reg r _ => some (.s r)
  | .plane p _ _ => some (.p p)
  | .part p _ _ _ => some (.p p)
  | .pred q _ _ => some (.q q)
  | .sysreg n _ => some (.sr n)
  | _ => none

/-- R170: are these flags, which are ORed after an explicit write of the same cycle? -/
def Landing.isFlags : Landing → Bool
  | .flags _ _ => true
  | _ => false

/-- R185: would the result land in the same cycle as one of an earlier bundle, in one register? -/
def Core.collides (k : Core) (due : Nat) (l : Landing) : Bool :=
  l.dest.isSome && k.inflight.any fun f => f.due = due && f.at_ != k.sched && f.what.dest = l.dest

/-- R184, R185: a result of latency `lat`; a collision raises ISCH. -/
def State.landAt (s : State) (lat : Nat) (l : Landing) : Eff :=
  let k := s.cur
  if k.collides (k.sched + lat) l then isch
  else .ok (s.setCur { k with inflight := k.inflight ++ [{ at_ := k.sched, due := k.sched + lat, what := l }] })

/-- Several results of one word, in order. -/
def State.landAll (s : State) (lat : Nat) : List Landing → Eff
  | [] => .ok s
  | l :: ls =>
    match s.landAt lat l with
    | .ok s' => s'.landAll lat ls
    | .error e => .error e

/-- R158, R160: the landings of a result in the registers from `d`; a write of s0 is discarded. -/
def regLandings (d : Nat) (ws : List Word) : List Landing :=
  if d = 0 then [] else (ws.zipIdx).map fun (w, i) => .reg (d + i) w

/-- R159, R196: the result of a scalar word of width `w`: its registers and the latch `k`. -/
def State.putScalar (s : State) (lat : Nat) (w : Width) (d : Nat) (v : Nat) (latch : Option Nat) : Eff :=
  s.landAll lat (regLandings d (splitWords w.regs v) ++
    (match latch with | some k => [.latch k (BitVec.ofNat 32 v)] | none => []))

/-- R163, R228: the enabled lanes of a new plane value over the old one. -/
def mergePlane (m : BitVec 1024) (new old : List Word) : List Word :=
  tabulate lanes fun i => if m.getLsbD i then lane new i else lane old i

/-- R260: sr.rslim's effective HIGH and LOW for a written value. -/
def rslimHigh (v : Nat) : Nat := min 2048 (max 192 (fld v 15 0))
def rslimLow (v : Nat) : Nat := min (fld v 31 16) (rslimHigh v - 128)

/-- R205, R260: the effect of a system register's write when it lands. -/
def Core.setSysreg (k : Core) (n : Nat) (v : DWord) : Core :=
  match n with
  | 0x10 => { k with mbtag := v.truncate 32 }
  | 0x11 => { k with ostep := v.truncate 32 }
  | 0x20 => { k with rngkey := v }
  | 0x21 => { k with rngctr := v.truncate 32 }
  | 0x22 => { k with fctl := v.truncate 32 &&& 15 }
  | 0x31 => { k with tail := { k.tail with rsbase := v.truncate 32 } }
  | 0x32 => { k with tail := { k.tail with high := rslimHigh v.toNat, low := rslimLow v.toNat } }
  | _ => k

/-- R259: writes bytes of the Tailrace ring from a logical offset. -/
def ringWrite (r : Map Byte) (off : Nat) : List Byte → Map Byte
  | [] => r
  | b :: bs => ringWrite (Map.set 0 r (off % 131072) b) (off + 1) bs

/-- Writes lanes of 4 bytes into a core's slice, in order. -/
def State.laneStore (s : State) (c gid : Nat) : List (Nat × Word) → State
  | [] => s
  | (a, w) :: t => (s.gStore gid (gAddr c a) (leBytes 4 w.toNat)).laneStore c gid t

/-- Does the landing store to the core's slice? -/
def Landing.isStore : Landing → Bool
  | .slice _ _ => true
  | .lanes _ => true
  | .bank _ _ _ => true
  | _ => false

/-- R185: what a landing changes. -/
def State.land (s : State) (c : Nat) (l : Landing) : State :=
  let k := s.core c
  match l with
  | .reg r v => s.setCore c { k with sregs := Map.put k.sregs r v }
  | .latch n v => s.setCore c { k with latches := Map.put k.latches n v }
  | .plane p m v => s.setCore c { k with planes := Map.put k.planes p (mergePlane m v (k.plane p)) }
  | .pred q m v => s.setCore c { k with preds := Map.put k.preds q ((v &&& m) ||| (k.pred q &&& ~~~m)) }
  | .flags q v => s.setCore c { k with preds := Map.put k.preds q (k.pred q ||| v) }
  | .sysreg n v => s.setCore c (k.setSysreg n v)
  | .slice a v => s.gStore (s.coreGid c) (gAddr c a) v
  | .lanes v => s.laneStore c (s.coreGid c) v
  | .bank _ a v => s.laneStore c (s.coreGid c) ((wordsOf v).zipIdx.map fun (w, i) => (a + 4 * i, w))
  | .xslot n en dst coll => s.setCore c { k with xslots := Map.put k.xslots n { en := en, dst := dst, coll := coll } }
  | .treg n t => s.setCore c { k with tregs := Map.put k.tregs n t }
  | .part p l keep v =>
    let old := k.plane p
    s.setCore c { k with planes := Map.put k.planes p (tabulate lanes fun i => if i = l then (lane old i &&& keep) ||| v else lane old i) }
  | .tail base v => s.setCore c { k with tail := { k.tail with ring := ringWrite k.tail.ring base v } }

/-- The bytes of the slice of core `c` that a landing writes, by their address in G. -/
def Landing.stores (l : Landing) (c : Nat) : List Nat :=
  match l with
  | .slice a v => tabulate v.length fun i => gAddr c a + i
  | .lanes v => v.flatMap fun e => tabulate 4 fun i => gAddr c e.1 + i
  | .bank _ a v => tabulate v.length fun i => gAddr c a + i
  | _ => []

/-- Is the access a load of G that reads the byte at address `a`? -/
def Access.loads (x : Access) (a : Nat) : Bool :=
  match x.op with
  | .load => !x.m && x.addr ≤ a && a < x.addr + x.size
  | .planeLoad => x.lanes.any fun e => e.2 ≤ a && a < e.2 + 4
  | _ => false

/-- R171: the bytes of the core's slice that a load of the store's own bundle will still read, kept as they were before the bundle. -/
def Access.keep (x : Access) (s : State) (as : List Nat) : Access :=
  { x with before := x.before ++
      ((as.filter fun a => x.loads a && !x.before.any fun e => e.1 = a).map fun a => (a, (s.gRead a 1).headD 0)) }

/-- R171: before a store lands, the pending loads of its bundle keep what it overwrites. -/
def State.keepOld (s : State) (c : Nat) (f : InFlight) : State :=
  let k := s.core c
  if f.what.isStore && k.gq.any (fun x => x.at_ = f.at_) then
    let as := f.what.stores c
    s.setCore c { k with gq := k.gq.map fun x => if x.at_ = f.at_ then x.keep s as else x }
  else s

/-- Lands a list of results in order. -/
def State.landList (s : State) (c : Nat) : List InFlight → State
  | [] => s
  | f :: t => ((s.keepOld c f).land c f.what).landList c t

/-- R185: the results of a core that are due at or before its schedule cycle, in issue order; flags go last, since
a flag plane written explicitly in the same cycle keeps the OR (R170, R232). -/
def Core.due (k : Core) : List InFlight :=
  let d := k.inflight.filter fun f => f.due ≤ k.sched
  (d.filter fun f => !f.what.isFlags) ++ d.filter fun f => f.what.isFlags

/-- R185: lands every due result of a core. -/
def State.landDue (s : State) (c : Nat) : State :=
  let k := s.core c
  (s.setCore c { k with inflight := k.inflight.filter fun f => k.sched < f.due }).landList c k.due

/-- R91, R292: has every local store of a bundle issued before schedule cycle `n` landed, those in parked contexts among them? -/
def Core.storesLanded (k : Core) (n : Nat) : Bool := (k.inflight.all fun f => n ≤ f.at_ || !f.what.isStore) && k.away.all (n ≤ ·)

/-- The schedule cycles of the local stores in flight. -/
def Core.stores (k : Core) : List Nat := (k.inflight.filter fun f => f.what.isStore).map (·.at_)

/-- R91: local stores of a parked context are no longer away from the core. -/
def Core.regain (k : Core) (as : List Nat) : Core := { k with away := as.foldl List.erase k.away }

/-- R183: one schedule cycle of a core passes: the counter advances and what is due lands. -/
def State.schedStep (s : State) (c : Nat) : State :=
  let k := s.core c
  (s.setCore c { k with sched := k.sched + 1 }).landDue c

/-- R372, R425: schedule cycles pass until nothing is in flight; `fuel` bounds the longest latency. -/
def State.drainFlight (s : State) (c : Nat) : Nat → State
  | 0 => s
  | n + 1 => if (s.core c).inflight.isEmpty then s else (s.schedStep c).drainFlight c n

/-! ### Units -/

/-- R186: takes the lowest-numbered free instance of a unit for `n` schedule cycles. -/
def Core.takeUnit (k : Core) (u : UnitKind) (n : Nat) : Option Core :=
  match (unitIds u).find? (fun i => Map.get 0 k.units i ≤ k.sched) with
  | some i => some { k with units := Map.put k.units i (k.sched + n) }
  | none => none

/-- R186: the unit of a word, or ISCH. -/
def State.claimUnit (s : State) (i : Instr) : Eff :=
  match unitOf i with
  | none => .ok s
  | some (u, n) =>
    match s.cur.takeUnit u n with
    | some k => .ok (s.setCur k)
    | none => isch

/-! ### The halted state -/

/-- R445: DBGSTAT.HALTED: the launch is halted by the debugger, or a core of it by `trap` or `halt` (R436). -/
def State.debugHalted (s : State) (v : Nat) : Bool :=
  (s.vd v).halted || s.cores.any fun e => e.2.mode = .halted && (match e.2.job with | some l => s.launchVd l = v | none => false)

/-- R436, R445: core `c` enters the halted state. STEPS counts anew where nothing of its virtual device was halted. -/
def State.haltCore (s : State) (c : Nat) : State :=
  let v := s.coreVd c
  let s := if s.debugHalted v then s else s.setVd v { s.vd v with dbgSteps := 0, dbgStall := false }
  s.setCore c { s.core c with mode := .halted }

/-! ### Snapshot trigger -/

/-- R491: what a core latches: PC, schedule counter, sr.freeze, sr.tok, its stall cause, and the scoreboard's VALID. -/
def Core.latched (k : Core) : List DWord :=
  [k.pc, k.sched, k.freeze.toNat, k.tok.toNat, k.cause, k.scb.toNat % 2 ^ 16].map (BitVec.ofNat 64)

/-- R117, R491: what a channel latches: its status word, and the record it is at. -/
def Channel.latched (x : Channel) : List DWord :=
  [BitVec.ofNat 64 (x.done.toNat * 2 ^ 32 + x.state * 2 ^ 29 + b2n x.shadow.isSome * 2 ^ 28 + x.stat * 2 ^ 24),
   match x.recs.head? with | some r => r.ptr | none => x.next.getD 0]

/-- R282: a number for the code and the fields of a matrix command. -/
def MOp.code : MOp → Nat
  | .mma pf clr ret ta tb ga => pf * 256 + b2n clr * 2 ^ 16 + b2n ret * 2 ^ 17 + b2n ta * 2 ^ 18 + b2n tb * 2 ^ 19 + b2n ga * 2 ^ 20
  | .mret h fmt rm pub clr sat => 1 + h * 256 + fmt * 2 ^ 16 + rm * 2 ^ 24 + b2n pub * 2 ^ 32 + b2n clr * 2 ^ 33 + b2n sat * 2 ^ 34
  | .mld h fmt => 2 + h * 256 + fmt * 2 ^ 16
  | .mclr => 3

/-- A tensor register in words: its entry and its view. -/
def TReg.latched (t : TReg) : List DWord :=
  t.words ++ [t.ver, t.row0, t.col0, t.i2, t.i3, t.wr, t.wc, t.rs.toNat, t.cs.toNat, b2n t.loaded + 2 * b2n t.eg].map (BitVec.ofNat 64)

/-- A command set in words: the command, its operands' registers, its index plane and its snapshot. -/
def Cmd.words (x : Cmd) : List DWord :=
  ([x.op.code, x.acc, x.off, x.snap.rngctr.toNat, x.snap.widx, x.snap.lid, x.snap.fctl.toNat, x.snap.fpos].map (BitVec.ofNat 64))
    ++ x.snap.rngkey :: x.a.latched ++ x.b.latched ++ x.ix.map (·.zeroExtend 64)

/-- R491: what a Millstone latches: its command sets, the depth of the open chain, and the waves of the active command. -/
def Mill.latched (m : Mill) : List DWord :=
  BitVec.ofNat 64 m.depth :: BitVec.ofNat 64 (match m.active with | some a => a.waves | none => 0)
    :: BitVec.ofNat 64 (b2n m.active.isSome + 2 * b2n m.shadow.isSome)
    :: (match m.active with | some a => a.words | none => []) ++ match m.shadow with | some a => a.words | none => []

/-- R346, R491: what the Windlass latches of a communicator: what its status word is made of, and the chunks sent of its first
operation. -/
def Comm.latched (m : Comm) : List DWord :=
  (m.done.flatMap fun e => [BitVec.ofNat 64 e.1, BitVec.ofNat 64 e.2])
    ++ [BitVec.ofNat 64 (m.queue.length * 2 + b2n m.failed), BitVec.ofNat 64 (match m.queue with | o :: _ => o.sent | [] => 0)]

/-- R370: the pool entries of a launch by their state: ready, running, suspended and free. A parked continuation is running. -/
def Launch.contStates (x : Launch) : List Nat :=
  let ready := (x.suspended.filter (!·.2.2)).length
  [ready, x.pool.length - x.suspended.length, x.suspended.length - ready, x.cpoolN - x.pool.length]

/-- R491: what the Sluice latches for a virtual device: ready launches per priority, PEND, and the continuations of its launches by state. -/
def State.sluiceLatched (s : State) (v : Nat) : List DWord :=
  let mine := (s.launches.filter fun e => e.2.vd = v).map (·.2)
  let ready (p : Nat) := (mine.filter fun x => x.state = .waiting && x.ready.isSome && x.pri = p).length
  let conts (i : Nat) := ((mine.filter (·.live)).map fun x => x.contStates.getD i 0).sum
  BitVec.ofNat 64 (s.vd v).pend.toNat :: (tabulate 8 ready ++ tabulate 4 conts).map (BitVec.ofNat 64)

/-- R56, R402: what a bucket holds when it is full: that of a channel, or 512 + port of a port. -/
def VDev.fullBucket (x : VDev) (b : Nat) : Nat := (if b < 512 then x.bwBurst else x.qBurst).toNat * 64 * 16384

/-- R491: what the limiters latch: ACC of each of the 512 channel buckets and of the buckets of the 36 ports. -/
def VDev.bucketsLatched (x : VDev) : List DWord := tabulate 548 fun b => BitVec.ofNat 64 (Map.get (x.fullBucket b) x.accs b)

/-- R491: what the atomic units latch: how many updates are held, and logged, of each line. -/
def State.atomicLatched (s : State) (v : Nat) : List DWord :=
  (s.held.filter fun u => u.vd = v && u.place != 0).map fun u =>
    BitVec.ofNat 64 (u.addr / 64 * 4 + b2n u.m * 2 + b2n (2 ≤ u.place))

/-- R491: the place in the snapshot of a block: by kind, in the order tabled, then by its number, then by the virtual device that it
serves: 0 cores, 1 channels, 2 Millstones, 3 the Windlass, 4 the Sluice, 5 the limiters, 6 the atomic units. -/
def blockKey (kind n v : Nat) : Nat := kind * 2 ^ 32 + n * 256 + v

/-- R448, R491: the blocks that serve a virtual device, with what each latches. -/
def State.blocks (s : State) (v : Nat) : List (Nat × List DWord) :=
  let x := s.vd v
  let mine := s.cores.filter fun (_, k) => match k.job with | some l => s.launchVd l = v | none => false
  let chan (k : Core) (n : Nat) : Channel := Map.get Channel.reset k.flume n
  mine.map (fun (c, k) => (blockKey 0 c v, k.latched))
    ++ mine.flatMap (fun (c, k) => [(blockKey 1 (2 * c) v, (chan k 0).latched), (blockKey 1 (2 * c + 1) v, (chan k 1).latched)])
    ++ mine.map (fun (c, k) => (blockKey 2 c v, k.mill.latched))
    ++ [(blockKey 3 0 v, x.comms.flatMap fun e => BitVec.ofNat 64 e.1 :: e.2.latched), (blockKey 4 0 v, s.sluiceLatched v),
        (blockKey 5 0 v, x.bucketsLatched), (blockKey 6 0 v, s.atomicLatched v)]

/-- A port of the device. -/
def State.port (s : State) (p : Nat) : QPort := Map.get QPort.reset s.ports p

/-- Replaces a port. -/
def State.setPort (s : State) (p : Nat) (x : QPort) : State := { s with ports := Map.put s.ports p x }

/-- R480, R486: does a port carry packets? -/
def State.portUp (s : State) (p : Nat) : Bool := s.qen && (s.port p).en && (s.port p).up

/-- R485: has a partition a port that carries packets? -/
def State.routed (s : State) (p : Nat) : Bool := (Map.get Part.reset s.parts p).ports.any s.portUp

/-- R484, R485, R494: a control-lane message leaves this device for others, where there are any and its gang's partition has a port for it:
a member without one is silent. -/
def State.sendLane (s : State) (dst : List Nat) (m : Control) : State :=
  let up := match s.gangs.lookup m.gang with | some g => s.routed g.part | none => false
  if dst.isEmpty || !up then s else { s with out := .control { m with src := s.devnum.toNat, dst := dst } :: s.out }

/-- R484: a message of a gang, of one flit. -/
def Control.flit (gid type arg : Nat) (epoch : Word) : Control :=
  { src := 0, dst := [], gang := gid, type := type, arg := arg, epoch := epoch, sums := [], lid := 0, kind := 0 }

/-- R494: the other members of a gang. -/
def State.othersOf (s : State) (g : Gang) : List Nat := g.members.filter (· != s.devnum.toNat)

/-- R448: the trigger's message to the other members of a gang. -/
def State.sendTrigger (s : State) (gid : Nat) : State :=
  match s.gangs.lookup gid with
  | some g => s.sendLane (s.othersOf g) (.flit gid 0x30 0 g.epoch)
  | none => s

/-- R448, R491: latches the snapshot registers of the blocks that serve a virtual device; those latched for another stay. Where a value
stands within its block's entry is a free value (log 19). -/
def State.fireSnapshot (s : State) (v : Nat) (tag src : Nat) : State :=
  let x := s.vd v
  if x.latched then s
  else
    let snap := (s.blocks v).foldl (fun m e => Map.put m e.1 e.2) (s.snap.filter fun e => e.1 % 256 != v)
    let s := (s.setVd v { x with latched := true, snTag := BitVec.ofNat 17 tag, snSrc := BitVec.ofNat 3 src }).w1cSet (.latched v)
    let s := { s with snap := snap }
    if x.snCtl.getLsbD 4 && src != 4 then s.sendTrigger x.gid else s

/-- R448: a fault of a virtual device fires the trigger where SNCTL.FAULT allows it. -/
def State.faultSeen (s : State) (v cls : Nat) : State := if (s.vd v).snCtl.getLsbD 2 then s.fireSnapshot v cls 3 else s

/-! ### Taking a fault -/

/-- R425, step 1: a fault that is not recoverable, on core `c`. The core issues no further bundle, its exposed writes in flight
land, the launch is ending, and the first fault of the launch names the core that the completion record will carry. The rest of
the ending is the work of the events FAULT_ENTRY_WRITE and LAUNCH_FAULT_END. In a flight that core is its lead, as in the entry. -/
def State.takeFault (s : State) (c : Nat) (t : Trap) : State :=
  match (s.core c).job with
  | none => s
  | some l =>
    let s := s.drainFlight c 64
    let k := s.core c
    let s := s.setCore c { k with mode := .faulted, trap := some t, barrier := none }
    let x := s.launch l
    let s := s.setLaunch l { x with state := .ending, fault := (match x.fault with | some f => some f | none => some (c - k.fpos, t)) }
    s.faultSeen x.vd t.cls

/-- R424, R435: core `c` begins to park its continuation for a recoverable fault or a `sysc`: it issues nothing until the
entry is written and its context saved. -/
def State.beginPark (s : State) (c : Nat) (t : Trap) : State :=
  let k := s.core c
  let s := s.setCore c { k with mode := .parking, trap := some t, after := if k.mode = .parking then k.after else k.mode }
  if t.cls = 0 then s else s.faultSeen (s.coreVd c) t.cls

/-- R424: a fault of a bundle or an access of core `c`: translation not present parks, every other class ends the launch. -/
def State.raise (s : State) (c : Nat) (t : Trap) : State := if t.cls = 5 then s.beginPark c t else s.takeFault c t

/-- R435: what is in flight in a saved context, with the same remaining delays under a core's own schedule counter, which does not
go back. The cycles of issue stay: what waits for earlier stores (R91) compares them. -/
def Core.rebase (k : Core) (sched : Nat) : Core :=
  let n := sched - k.sched
  { k with
    sched := k.sched + n, inflight := k.inflight.map fun f => { f with due := f.due + n },
    units := k.units.map fun (u, m) => (u, m + n) }

/-- R91: results in flight that arrive from another core count as issued at its schedule cycle. -/
def Core.arrive (k : Core) (moved : Bool) : Core :=
  if moved then { k with inflight := k.inflight.map fun f => { f with at_ := k.sched } } else k

/-- R428, R434: the return from a park: the context is running again on core `c`, the exposed writes in flight land at the same
relative bundle, and each pending access is replayed where its bit of MASK is 1 and cancelled where it is 0. Held stores, handles
and Flume channels stay with the core (R429, R357), and so do the spills in flight of entries popped there before (R275). `frm` is the core that it was parked from. -/
def State.unpark (s : State) (c frm lead : Nat) (saved : Core) (mask : Nat) : State :=
  let s := s.setCore frm ((s.core frm).regain saved.stores)
  let k := s.core c
  let saved := (saved.rebase k.sched).arrive (frm != c)
  let order := (saved.board.zipIdx).filter fun (_, i) => mask.testBit i
  let replay := order.map fun (x, _) => { x with faulted := false, replay := true }
  s.setCore c { saved with
    away := k.away,
    mode := saved.after, handles := k.handles, flume := k.flume, sq := k.sq, oseq := k.oseq, phaseCount := k.phaseCount,
    gq := replay.filter (!·.m), mq := replay.filter (·.m), board := [], trap := none, lead := lead,
    freeze := k.freeze, cycle := k.cycle, wall := k.wall, charges := k.charges,
    tail := { saved.tail with flight := saved.tail.flight ++ k.tail.flight } }

/-! ### A word at issue -/

/-- R363: a plane at or above PLANES, or a tile at or above TILES, raises IENC. -/
def resourceOk (x : Launch) (i : Instr) : Bool :=
  (sources i ++ dests i).all fun r =>
    match r with
    | .p n => n < x.planes
    | .a n => n < x.tiles
    | _ => true

/-- R152: a `limm` before the word is one that the word accepts. -/
def extOk (i : Instr) : Option (BitVec 23) → Bool
  | none => true
  | some l => limmOk l i

/-- R147, R186, R189: the checks that every word passes before its own definition: the busy bits as they are before the bundle, the
operands, the launch's resources, the `limm`, and the unit. -/
def State.gate (s : State) (i : Instr) : Eff :=
  let k := s.prior
  if k.mode != .running then stalled
  else if (waitsOn i).any k.busy then stalled
  else if !legal i || !resourceOk (s.job s.turn) i || !extOk i s.bun.ext then ienc
  else s.claimUnit i

/-- The outcome of a word that ran to `r`, from the state before it: an effect, a stall that leaves the state alone, or the
fault that is taken. -/
def State.close (s : State) : Eff → State
  | .ok t => { t with mark := .ok }
  | .error .stall => { s with mark := .stall }
  | .error (.tail d) => { s with mark := .tail d }
  | .error (.freeze gs) => { s with mark := .freeze gs }
  | .error .tick => { s with mark := .tick }
  | .error (.trap t) => { s.raise s.turn t with mark := .trap t }

/-- Does the word stall? -/
def isStall : Eff → Bool
  | .error .stall => true
  | .error (.tail _) => true
  | _ => false

/-- R147, R275, R276: what a word that the gate turns away comes to, with what its meaning gives beside it: one that would stall stalls
first, and asks the Tailrace for what it waits for. -/
def behindGate (e : Stop) (r : Eff) : Eff :=
  match e, r with
  | .stall, _ => stalled
  | _, .error (.tail d) => .error (.tail d)
  | _, _ => if isStall r then stalled else .error e

/-- R147: what a word comes to with the meaning `f`: one that fails a check of the gate, but would stall, stalls first. -/
def State.attempt (s : State) (i : Instr) (f : State → Eff) : Eff :=
  match s.gate i with
  | .ok t => f t
  | .error e => behindGate e (f s)

/-- One instruction word `i` on the core whose turn it is, with the meaning `f`. -/
def State.word (s : State) (i : Instr) (f : State → Eff) : Host.Outcome State Fault Refusal := .next (s.close (s.attempt i f))

/-- An event of the device: it always leaves a state; an event that is not enabled leaves it unchanged. -/
def State.move (s : State) (f : State → State) : Host.Outcome State Fault Refusal := .next { f s with mark := .ok }

/-! ### Effective immediates -/

/-- R152: the effective imm32 of an I or H word. -/
def State.imm32 (s : State) (imm : BitVec 11) : Word :=
  match s.bun.ext with
  | none => imm.signExtend 32
  | some l => BitVec.ofNat 32 (l.toNat % 2 ^ 21 * 2 ^ 11 + imm.toNat)

/-- R152, R203: the effective imm32 of `movi`. -/
def State.imm17 (s : State) (imm : BitVec 17) : Word :=
  match s.bun.ext with
  | none => imm.signExtend 32
  | some l => BitVec.ofNat 32 (l.toNat % 2 ^ 15 * 2 ^ 17 + imm.toNat)

/-- R152, R155: the target of a branch offset of `n` bits, in words from the bundle's start, modulo 2⁴⁸. -/
def State.target (s : State) (n off : Nat) : Nat :=
  let o : Int := match s.bun.ext with
    | none => sxt n off
    | some l => sxt (n + 23) (l.toNat * 2 ^ n + off)
  wrap 48 ((s.bun.start : Int) + o)

end Sys2Proof.Machine
end

