-- ==== Sys2Proof/Machine/Control.lean ====
section
/-! DEFINITION. Control words and hardware loops (R210-R218). -/

namespace Sys2Proof.Machine

/-- R215, R376: a member of a flight that is not its lead issues what the lead issued; it takes no transfer of its own. -/
def State.follows (s : State) : Bool := s.cur.fpos != 0

/-- R210: the bundle continues at a target, where the transfer is taken. -/
def State.goto (s : State) (taken : Bool) (t : Nat) : State :=
  if taken && !s.follows then { s with bun := { s.bun with next := some t } } else s

/-- R212: the address of the bundle that follows. -/
def State.returnAddr (s : State) : Nat := wrap 48 ((s.bun.start + s.bun.len : Nat) : Int)

/-- R159, R212: the link write: the return address in a pair, its low word in the latch of the word's pipe. -/
def State.link (s : State) (d : Nat) : Eff := s.putScalar 1 .d d s.returnAddr (some s.bun.pipe)

/-- R213: the 64-bit value of an address pair. -/
def Core.pair (k : Core) (a : Fin 64) : Nat := k.rdW .d a

/-- R217: LoopIssue with count `n`. The loop state of a member of a flight other than the lead follows the lead's
as its bundle ends (R215, `State.leadLoops`). -/
def State.loopIssue (s : State) (n : Nat) (fin v : Nat) : Eff :=
  let k := s.cur
  let b := s.bun.start + s.bun.len
  let e := s.bun.start + fin
  if s.follows then .ok s
  else if k.depth < v || e < b then ienc
  else if n = 0 then
    match (s.job s.turn).fetchBundle s.turn e with
    | none => ienc
    | some ws => .ok ((s.setCur { k with depth := v }).goto true (e + ws.length))
  else
    .ok ((s.setCur { k with depth := v + 1, loops := Map.put k.loops v (LoopSet.mk b e (BitVec.ofNat 32 n)) }).goto true b)

/-- R211: taken when c is not 0. -/
def execBr (c : Fin 64) (off : BitVec 17) (s : State) : Host.Outcome State Fault Refusal :=
  s.word (.br c off) fun s => .ok (s.goto (s.cur.rd c != 0) (s.target 17 off.toNat))

/-- R211: taken when c is 0. -/
def execBrv (c : Fin 64) (off : BitVec 17) (s : State) : Host.Outcome State Fault Refusal :=
  s.word (.brv c off) fun s => .ok (s.goto (s.cur.rd c = 0) (s.target 17 off.toNat))

/-- R212: always taken. -/
def execJmp (off : BitVec 23) (s : State) : Host.Outcome State Fault Refusal :=
  s.word (.jmp off) fun s => .ok (s.goto true (s.target 23 off.toNat))

/-- R212: always taken, and writes the return address into s54 and s55. -/
def execCall (off : BitVec 23) (s : State) : Host.Outcome State Fault Refusal :=
  s.word (.call off) fun s => (s.goto true (s.target 23 off.toNat)).link 54

/-- R213: jumps to the value of the pair. -/
def execRet (a : Fin 64) (s : State) : Host.Outcome State Fault Refusal :=
  s.word (.ret a) fun s => .ok (s.goto true (s.cur.pair a))

/-- R213: jumps to the value of the pair. -/
def execJx (a : Fin 64) (s : State) : Host.Outcome State Fault Refusal :=
  s.word (.jx a) fun s => .ok (s.goto true (s.cur.pair a))

/-- R213: as `jx`, and writes the return address into the pair d. -/
def execJxl (d : Fin 64) (a : Fin 64) (s : State) : Host.Outcome State Fault Refusal :=
  s.word (.jxl d a) fun s => (s.goto true (s.cur.pair a)).link d

/-- R217: a loop whose count is c's natural value. -/
def execLoop (c : Fin 64) (fin : Fin 2048) (lvl : Fin 4) (s : State) : Host.Outcome State Fault Refusal :=
  s.word (.loop c fin lvl) fun s => s.loopIssue (s.cur.rd c).toNat fin lvl

/-- R217: a loop with an immediate count. -/
def execLoopi (n : Fin 1024) (fin : Fin 2048) (lvl : Fin 4) (s : State) : Host.Outcome State Fault Refusal :=
  s.word (.loopi n fin lvl) fun s => s.loopIssue n fin lvl

end Sys2Proof.Machine
end

