-- ==== Sys2Proof/Machine/Float.lean ====
section
/-! DEFINITION. Number formats (R59-R61), conversion and rounding (R62-R67), the Philox generator (R68), and exact
arithmetic on values before their one rounding (R230). -/

namespace Sys2Proof.Machine

/-! ### Formats -/

/-- R59: the element formats; integers by sign and width. -/
inductive Fmt where
  | f32 | bf16 | f16 | e4m3 | e5m2 | e2m1
  | int (sgn : Bool) (bits : Nat)
  deriving DecidableEq, Repr

/-- R59: mantissa bits of a float format. -/
def Fmt.mbits : Fmt → Nat
  | .f32 => 23 | .bf16 => 7 | .f16 => 10 | .e4m3 => 3 | .e5m2 => 2 | .e2m1 => 1 | .int _ _ => 0

/-- R59: exponent bits of a float format. -/
def Fmt.ebits : Fmt → Nat
  | .f32 => 8 | .bf16 => 8 | .f16 => 5 | .e4m3 => 4 | .e5m2 => 5 | .e2m1 => 2 | .int _ _ => 0

/-- R59: exponent bias. -/
def Fmt.bias : Fmt → Nat
  | .f32 => 127 | .bf16 => 127 | .f16 => 15 | .e4m3 => 7 | .e5m2 => 15 | .e2m1 => 1 | .int _ _ => 0

/-- R59: bits of an element. -/
def Fmt.bits : Fmt → Nat
  | .int _ n => n
  | f => 1 + f.ebits + f.mbits

/-- R59: the code of the largest finite magnitude. -/
def Fmt.maxCode : Fmt → Nat
  | .f32 => 0x7F7FFFFF | .bf16 => 0x7F7F | .f16 => 0x7BFF | .e4m3 => 0x7E | .e5m2 => 0x7B | .e2m1 => 7 | .int _ _ => 0

/-- R60: the canonical NaN; E2M1 and the integers have none. -/
def Fmt.nan : Fmt → Nat
  | .f32 => 0x7FC00000 | .bf16 => 0x7FC0 | .f16 => 0x7E00 | .e4m3 => 0x7F | .e5m2 => 0x7E | .e2m1 => 0 | .int _ _ => 0

/-- R59: has the format infinities? -/
def Fmt.hasInf : Fmt → Bool
  | .f32 => true | .bf16 => true | .f16 => true | .e5m2 => true | _ => false

/-- R63: IsNarrow. -/
def Fmt.narrow : Fmt → Bool
  | .e4m3 => true | .e5m2 => true | .e2m1 => true | _ => false

def Fmt.isInt : Fmt → Bool
  | .int _ _ => true | _ => false

/-- R59: the exponent of the smallest subnormal. -/
def Fmt.emin (f : Fmt) : Int := 1 - (f.bias : Int) - (f.mbits : Int)

/-- The sign bit set or clear. -/
def Fmt.signed (f : Fmt) (neg : Bool) (code : Nat) : Nat := if neg then 2 ^ (f.bits - 1) + code else code

/-! ### Values -/

/-- An exact value: NaN, infinity, or a finite magnitude `m × 2^e`. Where `st` is set the magnitude lies strictly between
`m × 2^e` and `(m + 1) × 2^e`, and `e` is small enough that no rounding needs to know more. -/
inductive Num where
  | nan (sig : Bool)
  | inf (neg : Bool)
  | fin (neg : Bool) (m : Nat) (e : Int) (st : Bool)
  deriving DecidableEq, Repr

def Num.isNan : Num → Bool
  | .nan _ => true | _ => false

def Num.isSig : Num → Bool
  | .nan s => s | _ => false

def Num.isInf : Num → Bool
  | .inf _ => true | _ => false

def Num.neg : Num → Bool
  | .nan _ => false | .inf n => n | .fin n _ _ _ => n

def Num.isZero : Num → Bool
  | .fin _ m _ st => m = 0 && !st | _ => false

/-- Zero with a sign. -/
def Num.zero (neg : Bool) : Num := .fin neg 0 0 false

/-- An integer as a value. -/
def Num.ofInt (x : Int) : Num := .fin (x < 0) x.natAbs 0 false

/-- The value with its sign changed. -/
def Num.negate : Num → Num
  | .nan s => .nan s
  | .inf n => .inf !n
  | .fin n m e st => .fin (!n) m e st

/-- The value without its sign. -/
def Num.abs : Num → Num
  | .nan s => .nan s
  | .inf _ => .inf false
  | .fin _ m e st => .fin false m e st

/-- R69: the value times a power of two. -/
def Num.scale (k : Int) : Num → Num
  | .fin n m e st => .fin n m (e + k) st
  | x => x

/-- R59, R60: the value of an element's bits. FP8 NaNs are quiet. -/
def Fmt.decode (f : Fmt) (x : Nat) : Num :=
  match f with
  | .int s n => Num.ofInt (if s then sxt n x else ((x % 2 ^ n : Nat) : Int))
  | _ =>
    let neg := bit x (f.bits - 1)
    let ex := x / 2 ^ f.mbits % 2 ^ f.ebits
    let m := x % 2 ^ f.mbits
    if f = .e4m3 && x % 128 = 127 then .nan false
    else if f.hasInf && ex = 2 ^ f.ebits - 1 then
      (if m = 0 then .inf neg else .nan (f != .e5m2 && !bit m (f.mbits - 1)))
    else if ex = 0 then .fin neg m f.emin false
    else .fin neg (m + 2 ^ f.mbits) (f.emin + ((ex : Int) - 1)) false

/-! ### Rounding -/

/-- Flags as bits: 1 fnv, 2 fdz, 4 fof, 8 fuf, 16 fnx. -/
abbrev Flags := Nat

/-- R62, R63, R67: is a magnitude that lies between grid point `t` and the next one moved away from zero? The part above the
grid point is `rem / 2^sh`, with a sticky part below. -/
def roundsUp (rm : Nat) (neg : Bool) (t rem sh : Nat) (st : Bool) (rb : Nat) : Bool :=
  let inexact := rem != 0 || st
  match rm with
  | 1 => false
  | 2 => inexact && !neg
  | 3 => inexact && neg
  | 4 => 2 ^ 32 ≤ (if 32 ≤ sh then rem / 2 ^ (sh - 32) else rem * 2 ^ (32 - sh)) + rb
  | _ => 2 ^ sh < 2 * rem || (2 * rem = 2 ^ sh && (st || t % 2 = 1))

/-- R63: RoundToGrid on the grid of exponent `q`: the rounded multiple of 2^q, and whether it differs from the value. -/
def roundAt (q : Int) (rm : Nat) (neg : Bool) (m : Nat) (e : Int) (st : Bool) (rb : Nat) : Nat × Bool :=
  if q ≤ e then (m * 2 ^ (e - q).toNat, st)
  else
    let sh := (q - e).toNat
    let t := m / 2 ^ sh
    let rem := m % 2 ^ sh
    (if roundsUp rm neg t rem sh st rb then t + 1 else t, rem != 0 || st)

/-- R63: the exponent of the grid at a magnitude: the format's precision, or the subnormal spacing below. -/
def Fmt.gridExp (f : Fmt) (m : Nat) (e : Int) : Int := max (e + (Nat.log2 m : Int) - (f.mbits : Int)) f.emin

/-- R64: the result of an overflow. -/
def Fmt.overflow (f : Fmt) (rm : Nat) (sat neg : Bool) : Nat :=
  let infinite := match rm with
    | 1 => false
    | 2 => !neg
    | 3 => neg
    | _ => true
  if f = .e2m1 then f.signed neg f.maxCode
  else if f.narrow && sat then f.signed neg f.maxCode
  else if infinite then (if f = .e4m3 then f.nan else f.signed neg (f.maxCode + 1))
  else f.signed neg f.maxCode

/-- R66: the range of an integer format. -/
def intMin (s : Bool) (n : Nat) : Int := if s then -((2 ^ (n - 1) : Nat) : Int) else 0
def intMax (s : Bool) (n : Nat) : Int := if s then ((2 ^ (n - 1) : Nat) : Int) - 1 else ((2 ^ n : Nat) : Int) - 1

/-- An integer clamped to a format's range. -/
def clampInt (s : Bool) (n : Nat) (x : Int) : Int := max (intMin s n) (min (intMax s n) x)

/-- R66: ToInteger. -/
def toInteger (s : Bool) (n : Nat) (rm rb : Nat) : Num → Nat × Flags
  | .nan _ => (0, 1)
  | .inf neg => (wrap n (if neg then intMin s n else intMax s n), 1)
  | .fin neg m e st =>
    -- a magnitude of 2^64 or more is out of every range, whatever its size
    let r := if 64 < e + (Nat.log2 m : Int) && m != 0 then (2 ^ 64, true) else roundAt 0 rm neg m e st rb
    let v : Int := if neg then -(r.1 : Int) else r.1
    if v < intMin s n || intMax s n < v then (wrap n (clampInt s n v), 1)
    else (wrap n v, if r.2 then 16 else 0)

/-- R63: Convert. -/
def convert (x : Num) (f : Fmt) (rm : Nat) (sat : Bool) (rb : Nat) : Nat × Flags :=
  match f with
  | .int s n => toInteger s n rm rb x
  | _ =>
    match x with
    | .nan sig => if f = .e2m1 then (0, 1) else (f.nan, if sig then 1 else 0)
    | .inf neg =>
      if f.hasInf && !(sat && f.narrow) then (f.signed neg (f.maxCode + 1), 0)
      else if f = .e4m3 && !sat then (f.nan, 1)
      else (f.signed neg f.maxCode, 1)
    | .fin neg m e st =>
      if m = 0 && !st then (f.signed neg 0, 0)
      else if 300 < e + (Nat.log2 m : Int) then (f.overflow rm sat neg, 4 + 16)
      else
        let q := f.gridExp m e
        let r := roundAt q rm neg m e st rb
        let code := (q - f.emin).toNat * 2 ^ f.mbits + r.1
        if f.maxCode < code then (f.overflow rm sat neg, 4 + 16)
        else (f.signed neg code, (if r.2 then 16 else 0) + (if r.2 && code < 2 ^ f.mbits then 8 else 0))

/-! ### Exact arithmetic -/

/-- The numerator of a finite value over 2^q, where q is at most its exponent. -/
def Num.over (q : Int) : Num → Int
  | .fin neg m e _ => (if neg then -1 else 1) * ((m * 2 ^ (e - q).toNat : Nat) : Int)
  | _ => 0

/-- The exponent of a finite value. -/
def Num.exp : Num → Int
  | .fin _ _ e _ => e
  | _ => 0

/-- The smallest exponent of a list of values. -/
def minExp : List Num → Int
  | [] => 0
  | [x] => x.exp
  | x :: xs => min x.exp (minExp xs)

/-- R230, R252: the exact sum of values of which none is NaN, none where it is Invalid. A zero sum of terms of one
sign keeps it; any other zero sum is +0, or -0 under RD. -/
def sumExact (rm : Nat) (xs : List Num) : Option Num :=
  if xs.any (fun x => x.isInf && x.neg) && xs.any (fun x => x.isInf && !x.neg) then none
  else match xs.find? Num.isInf with
    | some x => some x
    | none =>
      let q := minExp xs
      let t := (xs.map (Num.over q)).sum
      if t = 0 then
        some (.zero (if xs.isEmpty then false else if xs.all Num.neg then true else if xs.all (!·.neg) then false else rm = 3))
      else some (.fin (t < 0) t.natAbs q false)

/-- R230: the exact product, none for infinity times zero. -/
def mulExact (a b : Num) : Option Num :=
  match a, b with
  | .inf s, y => if y.isZero then none else some (.inf (s != y.neg))
  | x, .inf s => if x.isZero then none else some (.inf (x.neg != s))
  | .fin s m e _, .fin s' m' e' _ => some (.fin (s != s') (m * m') (e + e') false)
  | _, _ => none

/-- R254: the quotient, with enough bits for every rounding of R62; the flags are those the table names. -/
def divExact (a b : Num) : Option Num × Flags :=
  let s := a.neg != b.neg
  match a, b with
  | .inf _, .inf _ => (none, 0)
  | .inf _, _ => (some (.inf s), 0)
  | _, .inf _ => (some (.zero s), 0)
  | .fin _ m e _, .fin _ m' e' _ =>
    if m' = 0 then (if m = 0 then (none, 0) else (some (.inf s), 2))
    else
      let k := 70 + Nat.log2 m'
      (some (.fin s (m * 2 ^ k / m') (e - e' - (k : Int)) (m * 2 ^ k % m' != 0)), 0)
  | _, _ => (none, 0)

/-- R230: FloatOp over the operands and the exact result, none where it is Invalid. -/
def floatOp (ops : List Num) (x : Option Num) (f : Fmt) (rm rb : Nat) : Nat × Flags :=
  if ops.any Num.isNan then (f.nan, if ops.any Num.isSig then 1 else 0)
  else match x with
    | none => (f.nan, 1)
    | some v => convert v f rm false rb

/-- The exact sum of products and terms, none where a product or the sum is Invalid. -/
def sumOf (rm : Nat) (xs : List (Option Num)) : Option Num :=
  if xs.all Option.isSome then sumExact rm (xs.filterMap id) else none

/-! ### Comparison -/

/-- Is a value that is not NaN below another? −0 lies below +0 where `zeros` is set (R208, R238), else they are equal. -/
def Num.lt (zeros : Bool) (a b : Num) : Bool :=
  match a, b with
  | .inf s, .inf s' => s && !s'
  | .inf s, _ => s
  | _, .inf s' => !s'
  | x, y =>
    let q := min x.exp y.exp
    x.over q < y.over q || (zeros && x.over q = y.over q && x.neg && !y.neg)

/-- R208: equality of values that are not NaN; −0 equals +0. -/
def Num.same (a b : Num) : Bool := !a.lt false b && !b.lt false a

/-! ### Philox -/

/-- R68: one round of Philox4x32. -/
def philoxRound (k0 k1 : Nat) (c : Nat × Nat × Nat × Nat) : Nat × Nat × Nat × Nat :=
  let p := 0xD2511F53 * c.1
  let q := 0xCD9E8D57 * c.2.2.1
  (q / 2 ^ 32 ^^^ c.2.1 ^^^ k0, q % 2 ^ 32, p / 2 ^ 32 ^^^ c.2.2.2 ^^^ k1, p % 2 ^ 32)

/-- R68: `n` rounds with the key schedule. -/
def philoxRounds : Nat → Nat → Nat → Nat × Nat × Nat × Nat → Nat × Nat × Nat × Nat
  | 0, _, _, c => c
  | n + 1, k0, k1, c => philoxRounds n ((k0 + 0x9E3779B9) % 2 ^ 32) ((k1 + 0xBB67AE85) % 2 ^ 32) (philoxRound k0 k1 c)

/-- R68: PhiloxWords, word `j` of the draw. -/
def philox (key : DWord) (c0 c1 c2 c3 j : Nat) : Nat :=
  let r := philoxRounds 10 (key.toNat % 2 ^ 32) (key.toNat / 2 ^ 32) (c0 % 2 ^ 32, c1 % 2 ^ 32, c2 % 2 ^ 32, c3 % 2 ^ 32)
  match j with
  | 0 => r.1
  | 1 => r.2.1
  | 2 => r.2.2.1
  | _ => r.2.2.2

end Sys2Proof.Machine
end

