-- ==== Sys2Proof/Machine/PlaneArith.lean ====
section
/-! DEFINITION. Plane words: elements, results and flags (R228-R232), and element-wise arithmetic (R238-R241). -/

namespace Sys2Proof.Machine

/-! ### Elements -/

/-- R164: bits of an element of a type. -/
def elemBits (ty : Nat) : Nat := 32 / elems ty

/-- R164: the format of a type with its element variant. -/
def fmtOf (ty var : Nat) : Fmt :=
  match ty with
  | 0 => .f32
  | 1 => .bf16
  | 2 => .f16
  | 3 => if var = 0 then .e4m3 else .e5m2
  | 4 => .int true 32
  | 5 => .int false 32
  | 6 => .int (var = 0) 16
  | _ => .int (var = 0) 8

/-- R164: element `k` of a lane. -/
def elemOf (ty k : Nat) (w : Word) : Nat := w.toNat / 2 ^ (elemBits ty * k) % 2 ^ elemBits ty

/-- R164: the lane whose elements are given. -/
def packLane (ty : Nat) (f : Nat → Nat) : Word :=
  BitVec.ofNat 32 (((List.range (elems ty)).map fun k => f k % 2 ^ elemBits ty * 2 ^ (elemBits ty * k)).sum)

/-- R232: the OR of flags. -/
def orFlags (fs : List Flags) : Flags := fs.foldl (· ||| ·) 0

/-- A lane computed element by element, with the OR of its flags. -/
def laneOf (ty : Nat) (f : Nat → Nat × Flags) : Word × Flags :=
  let r := (List.range (elems ty)).map f
  (packLane ty fun k => (r.getD k (0, 0)).1, orFlags (r.map (·.2)))

/-! ### Results of a plane word -/

/-- R229: the cycle, after issue, in which a group of `n` planes lands. -/
def groupLat (lat interval n : Nat) : Nat := lat + interval * (n - 1)

/-- R232: the flag landings of lanes' flags under a mask. -/
def flagLandings (m : BitVec 1024) (fl : List (List Flags)) : List Landing :=
  (List.range 5).map fun b => .flags (8 + b) (laneMask fun i => m.getLsbD i && fl.any fun p => (p.getD i 0).testBit b)

/-- R228, R229, R232: the result of a plane word: `n` planes from `d`, whose lanes `f` gives by plane and lane, written
under the mask, with the flags they raise. -/
def State.planeOut (s : State) (lat interval n : Nat) (d : Fin 16) (mask : Fin 8) (f : Nat → Nat → Word × Flags) : Eff :=
  let m := s.cur.pred mask
  let r := tabulate n fun j => tabulate lanes (f j)
  s.landAll (groupLat lat interval n)
    ((r.zipIdx.map fun (p, j) => Landing.plane (d + j) m (p.map (·.1))) ++ flagLandings m (r.map fun p => p.map (·.2)))

/-- A plane result that raises no flag. -/
def State.planeQuiet (s : State) (lat n : Nat) (d : Fin 16) (mask : Fin 8) (f : Nat → Nat → Word) : Eff :=
  s.landAll (groupLat lat 4 n)
    (tabulate n fun j => Landing.plane (d + j) (s.cur.pred mask) (tabulate lanes (f j)))

/-- R234, R68: the random word for element `k` of a lane of plane `j` of the group. -/
def State.rbits (s : State) (rm j i k : Nat) : Nat :=
  if rm = 4 then
    philox s.cur.rngkey (j * 1024 + i) s.cur.widx s.cur.lid (s.cur.rngctr.toNat + s.bun.draws) k
  else 0

/-- Lane `i` of plane `j` of a group. -/
def Core.at_ (k : Core) (p : Fin 16) (j i : Nat) : Word := lane (k.plane (p + j)) i

/-! ### Arithmetic -/

/-- R231: is the word saturating? -/
def satOf (ty sub : Nat) : Bool := if ty ≤ 5 then bit sub 0 else bit sub 1

/-- An integer element read by its type. -/
def intElem (ty sub x : Nat) : Int :=
  match fmtOf ty (sub % 2) with
  | .int s n => if s then sxt n x else ((x % 2 ^ n : Nat) : Int)
  | _ => 0

/-- R231: an exact integer result, wrapped or saturated. -/
def intOut (ty sub : Nat) (x : Int) : Nat :=
  match fmtOf ty (sub % 2) with
  | .int s n => wrap n (if satOf ty sub then clampInt s n x else x)
  | _ => 0

/-- R230, R231: one element of an arithmetic word: `ff` gives the exact value of the float operation and `fi` that of the
integer one, on the operands. -/
def elemArith (ty sub rb : Nat) (ff : List Num → Option Num) (fi : List Int → Int) (xs : List Nat) : Nat × Flags :=
  if ty ≤ 2 then
    let ns := xs.map (fmtOf ty 0).decode
    floatOp ns (ff ns) (fmtOf ty 0) sub rb
  else (intOut ty sub (fi (xs.map (intElem ty sub))), 0)

/-- R238-R240: an arithmetic word whose operands in lane `i` of plane `j` are the lanes `src` gives. -/
def State.planeArith (s : State) (lat : Nat) (d : Fin 16) (mask : Fin 8) (pw : Fin 4) (ty sub : Fin 8)
    (src : Nat → Nat → List Word) (ff : List Num → Option Num) (fi : List Int → Int) : Eff :=
  s.planeOut lat 4 (pwPlanes pw) d mask fun j i =>
    laneOf ty fun k => elemArith ty sub (s.rbits sub j i k) ff fi ((src j i).map (elemOf ty k))

/-- The exact sum of the first two operands. -/
def addN (rm : Nat) : List Num → Option Num
  | [a, b] => sumExact rm [a, b]
  | _ => none

def subN (rm : Nat) : List Num → Option Num
  | [a, b] => sumExact rm [a, b.negate]
  | _ => none

def mulN : List Num → Option Num
  | [a, b] => mulExact a b
  | _ => none

/-- R239: a × b + d, and a × b − d. -/
def fmaN (rm : Nat) : List Num → Option Num
  | [a, b, d] => sumOf rm [mulExact a b, some d]
  | _ => none

def fmsN (rm : Nat) : List Num → Option Num
  | [a, b, d] => sumOf rm [mulExact a b, some d.negate]
  | _ => none

def add2 : List Int → Int
  | [a, b] => a + b
  | _ => 0

def sub2 : List Int → Int
  | [a, b] => a - b
  | _ => 0

def mul2 : List Int → Int
  | [a, b] => a * b
  | _ => 0

def fma3 : List Int → Int
  | [a, b, d] => a * b + d
  | _ => 0

def fms3 : List Int → Int
  | [a, b, d] => a * b - d
  | _ => 0

/-- R238: a + b. -/
def execPadd (d : Fin 16) (a : Fin 16) (b : Fin 16) (mask : Fin 8) (pw : Fin 4) (ty : Fin 8) (sub : Fin 8) (s : State) : Host.Outcome State Fault Refusal :=
  s.word (.padd d a b mask pw ty sub) fun s =>
    s.planeArith 6 d mask pw ty sub (fun j i => [s.cur.at_ a j i, s.cur.at_ b j i]) (addN sub) add2

/-- R238: a − b. -/
def execPsub (d : Fin 16) (a : Fin 16) (b : Fin 16) (mask : Fin 8) (pw : Fin 4) (ty : Fin 8) (sub : Fin 8) (s : State) : Host.Outcome State Fault Refusal :=
  s.word (.psub d a b mask pw ty sub) fun s =>
    s.planeArith 6 d mask pw ty sub (fun j i => [s.cur.at_ a j i, s.cur.at_ b j i]) (subN sub) sub2

/-- R238: a × b. -/
def execPmul (d : Fin 16) (a : Fin 16) (b : Fin 16) (mask : Fin 8) (pw : Fin 4) (ty : Fin 8) (sub : Fin 8) (s : State) : Host.Outcome State Fault Refusal :=
  s.word (.pmul d a b mask pw ty sub) fun s =>
    s.planeArith 8 d mask pw ty sub (fun j i => [s.cur.at_ a j i, s.cur.at_ b j i]) mulN mul2

/-- R238: |a − b|: the exact difference, then its magnitude, then the rounding, so that a zero is +0 in every mode. The spec does not say
whether the zero keeps the sign that a subtraction gives it. DESIGN CHOICE, unsafe (log 63). -/
def execPabsd (d : Fin 16) (a : Fin 16) (b : Fin 16) (mask : Fin 8) (pw : Fin 4) (ty : Fin 8) (sub : Fin 8) (s : State) : Host.Outcome State Fault Refusal :=
  s.word (.pabsd d a b mask pw ty sub) fun s =>
    s.planeArith 6 d mask pw ty sub (fun j i => [s.cur.at_ a j i, s.cur.at_ b j i])
      (fun xs => (subN sub xs).map Num.abs) (fun xs => ((sub2 xs).natAbs : Int))

/-- R239: a × b + d, one rounding. -/
def execPfma (d : Fin 16) (a : Fin 16) (b : Fin 16) (mask : Fin 8) (pw : Fin 4) (ty : Fin 8) (sub : Fin 8) (s : State) : Host.Outcome State Fault Refusal :=
  s.word (.pfma d a b mask pw ty sub) fun s =>
    s.planeArith 8 d mask pw ty sub (fun j i => [s.cur.at_ a j i, s.cur.at_ b j i, s.cur.at_ d j i]) (fmaN sub) fma3

/-- R239: a × b − d, one rounding. -/
def execPfms (d : Fin 16) (a : Fin 16) (b : Fin 16) (mask : Fin 8) (pw : Fin 4) (ty : Fin 8) (sub : Fin 8) (s : State) : Host.Outcome State Fault Refusal :=
  s.word (.pfms d a b mask pw ty sub) fun s =>
    s.planeArith 8 d mask pw ty sub (fun j i => [s.cur.at_ a j i, s.cur.at_ b j i, s.cur.at_ d j i]) (fmsN sub) fms3

/-- R240: a × S. -/
def execPmuls (d : Fin 16) (a : Fin 16) (r : Fin 64) (mask : Fin 8) (ty : Fin 8) (sub : Fin 8) (s : State) : Host.Outcome State Fault Refusal :=
  s.word (.pmuls d a r mask ty sub) fun s =>
    s.planeArith 8 d mask 0 ty sub (fun j i => [s.cur.at_ a j i, packLane ty fun _ => (s.cur.rd r).toNat]) mulN mul2

/-- R240: a × S + d, one rounding. -/
def execPfmas (d : Fin 16) (a : Fin 16) (r : Fin 64) (mask : Fin 8) (ty : Fin 8) (sub : Fin 8) (s : State) : Host.Outcome State Fault Refusal :=
  s.word (.pfmas d a r mask ty sub) fun s =>
    s.planeArith 8 d mask 0 ty sub
      (fun j i => [s.cur.at_ a j i, packLane ty fun _ => (s.cur.rd r).toNat, s.cur.at_ d j i]) (fmaN sub) fma3

/-- R240: a + imm6, where the scalar field is the immediate. -/
def execPaddi (d : Fin 16) (a : Fin 16) (r : Fin 64) (mask : Fin 8) (ty : Fin 8) (sub : Fin 8) (s : State) : Host.Outcome State Fault Refusal :=
  s.word (.paddi d a r mask ty sub) fun s =>
    s.planeArith 6 d mask 0 ty sub (fun j i => [s.cur.at_ a j i]) (fun _ => none)
      (fun xs => xs.headD 0 + sxt 6 r.val)

/-- R240: a × 2^s. A scale beyond ±1,024 takes every value of these formats past its range, as 1,024 does. -/
def execPscale (d : Fin 16) (a : Fin 16) (r : Fin 64) (mask : Fin 8) (ty : Fin 8) (sub : Fin 8) (s : State) : Host.Outcome State Fault Refusal :=
  s.word (.pscale d a r mask ty sub) fun s =>
    let e := max (-1024) (min 1024 (s.cur.rd r).toInt)
    s.planeArith 6 d mask 0 ty sub (fun j i => [s.cur.at_ a j i]) (fun xs => xs.head?.map (Num.scale e)) (fun _ => 0)

/-! ### Choice and sign -/

/-- R238: one element of `pmin` or `pmax`. -/
def elemPick (greater : Bool) (ty sub x y : Nat) : Nat × Flags :=
  if ty ≤ 2 then
    let f := fmtOf ty 0
    (pickElem f (f.decode x) (f.decode y) x y, if (f.decode x).isSig || (f.decode y).isSig then 1 else 0)
  else if decide (intElem ty sub x < intElem ty sub y) = greater then (y, 0) else (x, 0)
where
  /-- The lesser or greater of two float elements; −0 orders below +0. -/
  pickElem (f : Fmt) (a b : Num) (x y : Nat) : Nat :=
    if a.isNan || b.isNan then f.nan
    else if greater then (if a.lt true b then y else x)
    else (if b.lt true a then y else x)

/-- R238: one element of `pclamp`: Min(Max(d, a), b), with every operand's NaN. -/
def elemClamp (ty sub d a b : Nat) : Nat × Flags :=
  let r := elemPick true ty sub d a
  let q := elemPick false ty sub r.1 b
  (q.1, r.2 ||| q.2)

/-- R238: one element of `pabs` or `pneg`. -/
def elemSign (neg : Bool) (ty sub x : Nat) : Nat × Flags :=
  if ty ≤ 2 then
    let f := fmtOf ty 0
    let v := f.decode x
    if v.isNan then (f.nan, if v.isSig then 1 else 0)
    else ((if neg then x ^^^ 2 ^ (f.bits - 1) else x % 2 ^ (f.bits - 1)), 0)
  else
    let v := intElem ty sub x
    (intOut ty sub (if neg then -v else (v.natAbs : Int)), 0)

/-- R238: one element of `pround`. -/
def elemRound (ty rm x : Nat) : Nat × Flags :=
  let f := fmtOf ty 0
  match f.decode x with
  | .nan s => (f.nan, if s then 1 else 0)
  | .inf _ => (x, 0)
  | .fin neg m e st =>
    let r := roundAt 0 rm neg m e st 0
    if 0 ≤ e || m = 0 then (x, 0)
    else ((convert (.fin neg r.1 0 false) f 0 false 0).1, if r.2 then 16 else 0)

/-- A word that works element by element on up to three operands. -/
def State.planeElem (s : State) (d : Fin 16) (mask : Fin 8) (pw : Fin 4) (ty : Fin 8) (f : Nat → Nat → Nat → Nat × Flags) : Eff :=
  s.planeOut 6 4 (pwPlanes pw) d mask fun j i => laneOf ty fun k => f j i k

/-- R238: the lesser value. -/
def execPmin (d : Fin 16) (a : Fin 16) (b : Fin 16) (mask : Fin 8) (pw : Fin 4) (ty : Fin 8) (sub : Fin 8) (s : State) : Host.Outcome State Fault Refusal :=
  s.word (.pmin d a b mask pw ty sub) fun s => s.planeElem d mask pw ty fun j i k =>
    elemPick false ty sub (elemOf ty k (s.cur.at_ a j i)) (elemOf ty k (s.cur.at_ b j i))

/-- R238: the greater value. -/
def execPmax (d : Fin 16) (a : Fin 16) (b : Fin 16) (mask : Fin 8) (pw : Fin 4) (ty : Fin 8) (sub : Fin 8) (s : State) : Host.Outcome State Fault Refusal :=
  s.word (.pmax d a b mask pw ty sub) fun s => s.planeElem d mask pw ty fun j i k =>
    elemPick true ty sub (elemOf ty k (s.cur.at_ a j i)) (elemOf ty k (s.cur.at_ b j i))

/-- R238: Min(Max(d, a), b). -/
def execPclamp (d : Fin 16) (a : Fin 16) (b : Fin 16) (mask : Fin 8) (pw : Fin 4) (ty : Fin 8) (sub : Fin 8) (s : State) : Host.Outcome State Fault Refusal :=
  s.word (.pclamp d a b mask pw ty sub) fun s => s.planeElem d mask pw ty fun j i k =>
    elemClamp ty sub (elemOf ty k (s.cur.at_ d j i)) (elemOf ty k (s.cur.at_ a j i)) (elemOf ty k (s.cur.at_ b j i))

/-- R238: |a|. -/
def execPabs (d : Fin 16) (a : Fin 16) (mask : Fin 8) (pw : Fin 4) (ty : Fin 8) (sub : Fin 8) (s : State) : Host.Outcome State Fault Refusal :=
  s.word (.pabs d a mask pw ty sub) fun s => s.planeElem d mask pw ty fun j i k => elemSign false ty sub (elemOf ty k (s.cur.at_ a j i))

/-- R238: −a. -/
def execPneg (d : Fin 16) (a : Fin 16) (mask : Fin 8) (pw : Fin 4) (ty : Fin 8) (sub : Fin 8) (s : State) : Host.Outcome State Fault Refusal :=
  s.word (.pneg d a mask pw ty sub) fun s => s.planeElem d mask pw ty fun j i k => elemSign true ty sub (elemOf ty k (s.cur.at_ a j i))

/-- R238: rounding to an integral value. -/
def execPround (d : Fin 16) (a : Fin 16) (mask : Fin 8) (pw : Fin 4) (ty : Fin 8) (sub : Fin 8) (s : State) : Host.Outcome State Fault Refusal :=
  s.word (.pround d a mask pw ty sub) fun s => s.planeElem d mask pw ty fun j i k => elemRound ty sub (elemOf ty k (s.cur.at_ a j i))

/-- R239: one lane of `pdot2`. -/
def laneDot2 (ty sub rb : Nat) (d a b : Word) : Word × Flags :=
  if ty = 6 then
    let p (k : Nat) : Int := intElem 6 sub (elemOf 6 k a) * intElem 6 sub (elemOf 6 k b)
    (BitVec.ofInt 32 (d.toInt + p 0 + p 1), 0)
  else
    let f := fmtOf ty 0
    let x (k : Nat) : Num := f.decode (elemOf ty k a)
    let y (k : Nat) : Num := f.decode (elemOf ty k b)
    let c := Fmt.f32.decode d.toNat
    let r := floatOp [c, x 0, y 0, x 1, y 1] (sumOf sub [some c, mulExact (x 0) (y 0), mulExact (x 1) (y 1)]) .f32 sub rb
    (BitVec.ofNat 32 r.1, r.2)

/-- R239: d + a₀ × b₀ + a₁ × b₁ in each 32-bit lane, one rounding. -/
def execPdot2 (d : Fin 16) (a : Fin 16) (b : Fin 16) (mask : Fin 8) (pw : Fin 4) (ty : Fin 8) (sub : Fin 8) (s : State) : Host.Outcome State Fault Refusal :=
  s.word (.pdot2 d a b mask pw ty sub) fun s => s.planeOut 8 4 (pwPlanes pw) d mask fun j i =>
    laneDot2 ty sub (s.rbits (if ty.val = 6 then 0 else sub) j i 0) (s.cur.at_ d j i) (s.cur.at_ a j i) (s.cur.at_ b j i)

/-- R240: S in every element. -/
def execPbcs (d : Fin 16) (r : Fin 64) (mask : Fin 8) (ty : Fin 8) (sub : Fin 8) (s : State) : Host.Outcome State Fault Refusal :=
  s.word (.pbcs d r mask ty sub) fun s => s.planeQuiet 6 1 d mask fun _ _ =>
    packLane ty fun _ => (s.cur.rd r).toNat

/-- R241: the element index in the pair's second register, modulo the elements of a plane. -/
def Core.elemIndex (k : Core) (r : Fin 64) (ty : Nat) : Nat := (k.rd (r + 1)).toNat % (1024 * elems ty)

/-- R241: the bits of a lane outside element `k` of type `ty`. -/
def outsideElem (ty k : Nat) : Word := packLane ty fun j => if j = k then 0 else 2 ^ 32 - 1

/-- R241: writes one element of d, where the mask enables its lane. -/
def execPins (d : Fin 16) (r : Fin 64) (mask : Fin 8) (ty : Fin 8) (sub : Fin 8) (s : State) : Host.Outcome State Fault Refusal :=
  s.word (.pins d r mask ty sub) fun s =>
    let e := s.cur.elemIndex r ty
    s.landAt 6 (if (s.cur.pred mask).getLsbD (e / elems ty) then
        .part d (e / elems ty) (outsideElem ty (e % elems ty)) (packLane ty fun k => if k = e % elems ty then (s.cur.rd r).toNat else 0)
      else .part d (e / elems ty) (BitVec.allOnes 32) 0)

/-- R241: reads one element of a into the pair's first register. -/
def execPext (a : Fin 16) (r : Fin 64) (ty : Fin 8) (sub : Fin 8) (s : State) : Host.Outcome State Fault Refusal :=
  s.word (.pext a r ty sub) fun s =>
    let e := s.cur.elemIndex r ty
    let x := elemOf ty (e % elems ty) (s.cur.at_ a 0 (e / elems ty))
    s.landAll 6 (regLandings r [BitVec.ofInt 32 (if 6 ≤ ty.val then intElem ty sub x else (x : Int))])

end Sys2Proof.Machine
end

