-- ==== Sys2Proof/Machine/Crossbar.lean ====
section
/-! DEFINITION. The lane crossbar (R255-R258). -/

namespace Sys2Proof.Machine

/-- R256: do two enabled lanes share a destination? `seen` is the destinations so far. -/
def collides (en : BitVec 1024) : Nat → List Nat → BitVec 1024 → Bool
  | _, [], _ => false
  | i, x :: xs, seen =>
    if en.getLsbD i then (if seen.getLsbD x then true else collides en (i + 1) xs (seen ||| (1#1024 <<< x)))
    else collides en (i + 1) xs seen

/-- R256: loads a pattern slot from a plane: bit 31 enables, bits 9 to 0 name the destination. -/
def execPxset (d : Fin 16) (a : Fin 16) (mask : Fin 8) (s : State) : Host.Outcome State Fault Refusal :=
  s.word (.pxset d a mask) fun s =>
    let en := laneMask fun i => (s.cur.pred mask).getLsbD i && (s.cur.at_ a 0 i).getLsbD 31
    let dst := tabulate lanes fun i => (s.cur.at_ a 0 i).toNat % 1024
    s.landAt 6 (.xslot d en dst (collides en 0 dst 0))

/-- R257: the source lane that the slot routes to a lane. -/
def XSlot.source (x : XSlot) (i : Nat) : Option Nat :=
  (List.range lanes).find? fun l => x.en.getLsbD l && x.dst.getD l 0 = i

/-- R257: d[DST(L)] := a[L] for every enabled lane L; a slot with its collision bit set raises ISCH. An enabled lane to which no source is
routed keeps what d held at issue, also where another result lands in d before this one; the spec does not say which. DESIGN CHOICE,
unsafe (log 84). -/
def execPxbar (d : Fin 16) (a : Fin 16) (b : Fin 16) (mask : Fin 8) (s : State) : Host.Outcome State Fault Refusal :=
  s.word (.pxbar d a b mask) fun s =>
    let x := s.cur.xslot b
    if x.coll then isch
    else s.landAt 6 (.plane d (s.cur.pred mask) (tabulate lanes fun i =>
      match x.source i with
      | some l => s.cur.at_ a 0 l
      | none => s.cur.at_ d 0 i))

/-- R258: transposes each of the four 16 × 16 blocks. -/
def execPxtr (d : Fin 16) (a : Fin 16) (mask : Fin 8) (s : State) : Host.Outcome State Fault Refusal :=
  s.word (.pxtr d a mask) fun s => s.planeQuiet 6 1 d mask fun _ i =>
    s.cur.at_ a 0 ((i % 64 % 16) * 64 + i % 64 / 16 * 16 + i / 64)

end Sys2Proof.Machine
end

