-- ==== Sys2Proof/Machine/Handles.lean ====
section
/-! DEFINITION. The state machine of the Cistern table (R136). -/

namespace Sys2Proof.Machine

/-- R136: a filler starts with a swizzle tag; none while it must wait. -/
def Handle.fill (x : Handle) (tag : Nat) : Option Handle :=
  if x.dbl then
    (if x.shs = 2 then none else some { x with shs := 1, stag := tag, fillers := x.fillers + 1 })
  else if x.state = 2 || x.state = 3 then none
  else some { x with state := 1, vtag := tag, fillers := x.fillers + 1 }

/-- A filler is done. -/
def Handle.filled (x : Handle) : Handle := { x with fillers := x.fillers - 1 }

/-- R136: a publish, none where it is a violation. -/
def Handle.publish (x : Handle) : Option Handle :=
  if x.dbl then (if x.shs = 1 then some { x with shs := 2 } else none)
  else if x.state = 0 || x.state = 1 then some { x with state := 2, gen := !x.gen }
  else none

/-- R136: may the swap happen now? -/
def Handle.canSwap (x : Handle) : Bool := x.dbl && x.shs = 2 && x.rdr = 0 && x.fillers = 0

/-- R136: the swap. -/
def Handle.swap (x : Handle) : Handle := { x with vis := !x.vis, state := 2, gen := !x.gen, vtag := x.stag, shs := 0 }

/-- R136: a draining handle with no reader and no release pending becomes empty. -/
def Handle.settle (x : Handle) : Handle :=
  if x.state = 3 && x.rdr = 0 && x.releases = 0 then { x with state := 0 } else x

/-- R136: an engine reader begins and ends. -/
def Handle.claim (x : Handle) : Handle := { x with rdr := x.rdr + 1, engineReads := x.engineReads + 1 }
def Handle.unclaim (x : Handle) : Handle := { x with rdr := x.rdr - 1, engineReads := x.engineReads - 1 }.settle

/-- R136, R226: a core reader's count ends. -/
def Handle.readDone (x : Handle) : Handle := { x with rdr := x.rdr - 1 }.settle

/-- R136: `hrel`, none where it is a violation. -/
def Handle.release (x : Handle) : Option Handle :=
  if x.state = 2 || x.state = 3 then some (if x.rdr = 0 then { x with state := 0 } else { x with state := 3 }) else none

/-- R136: `hset`, none where it is a violation. -/
def Handle.set (x : Handle) (tag : Nat) (gen : Bool) : Option Handle :=
  if x.state = 0 && x.shs = 0 && x.rdr = 0 then some { x with gen := gen, vtag := tag } else none

/-- R136: may `hdef` define the handle now? -/
def Handle.idle (x : Handle) : Bool := !x.defd || (x.rdr = 0 && x.fillers = 0 && x.engineReads = 0)

/-- R133: the descriptor as a 64-bit value. -/
def Handle.descriptor (x : Handle) : Nat :=
  b2n x.defd * 2 ^ 63 + x.state * 2 ^ 61 + b2n x.gen * 2 ^ 60 + x.shs * 2 ^ 58 + b2n x.vis * 2 ^ 57 + x.vtag * 2 ^ 55
    + x.stag * 2 ^ 53 + x.rdr * 2 ^ 45 + b2n x.dbl * 2 ^ 40 + x.size * 2 ^ 21 + x.base * 2 ^ 8

/-- Changes a handle of a core. -/
def State.updHandle (s : State) (c h : Nat) (f : Handle → Handle) : State :=
  s.setCore c ((s.core c).setHandle h (f ((s.core c).handle h)))

/-- The handle of which a word is a core reader. -/
def readHandle : Instr → Option Nat
  | .ldh h _ _ => some h.val
  | .pldh h _ _ => some h.val
  | _ => none

/-- R136, R226, R236: the slice reads of a bundle's core readers are done. -/
def Core.readsDone (k : Core) (is : List Instr) : Core :=
  (is.filterMap readHandle).foldl (fun k h => k.setHandle h (k.handle h).readDone) k

/-- Returns readers of handles. -/
def State.unclaimAll (s : State) (c : Nat) : List Nat → State
  | [] => s
  | h :: hs => (s.updHandle c h Handle.unclaim).unclaimAll c hs

end Sys2Proof.Machine
end

