-- ==== Sys2Proof/Machine/ScalarMem.lean ====
section
/-! DEFINITION. Spaces, handles, the store queue and the scoreboard, and the scalar loads and stores (R219-R227). -/

namespace Sys2Proof.Machine

/-! ### The local slice -/

/-- R220, R363: the checks of an access of `n` bytes to the own slice, aligned to `unit`. -/
def State.lCheck (s : State) (a n unit : Nat) : Option Trap :=
  if a % unit != 0 then some (trapOf 4 a)
  else if min Config.sliceBytes ((s.job s.turn).gran * Config.granuleBytes) < a + n then some (trapOf 3 a)
  else none

/-- R127, R130: takes the granules of `n` bytes of the own slice, at most two, for the gang, or freezes while one is
spilled or restored. -/
def State.touch (s : State) (c a n : Nat) : Eff :=
  let g := gAddr c a / Config.granuleBytes
  let g' := (gAddr c a + n - 1) / Config.granuleBytes
  let gid := s.coreGid c
  if s.granuleOk gid g && s.granuleOk gid g' then .ok ((s.takeGranule gid g).takeGranule gid g') else .error (.freeze [g, g'])

/-- An exposed access to the own slice: its checks, then its granule; `f` goes on from there. -/
def State.local (s : State) (a n unit : Nat) (f : State → Eff) : Eff :=
  match s.lCheck a n unit with
  | some t => .error (.trap t)
  | none => match s.touch s.turn a n with
    | .ok s' => f s'
    | .error e => .error e

/-! ### Handles -/

/-- R136: a reader may issue: ready or draining, the expected generation, no swap pending, and room in the count. -/
def Handle.readable (x : Handle) (gen : Bool) : Bool :=
  (x.state = 2 || x.state = 3) && x.gen = gen && x.shs != 2 && x.rdr < 255

/-- R136: the change by a core store, none where it is a violation. -/
def Handle.stored (x : Handle) : Option Handle :=
  if x.state = 0 then some { x with state := 1 } else if x.state = 3 then none else some x

/-- R135: the slice offset of `n` bytes at a signed offset in the visible bank, none outside it. -/
def Handle.at_ (x : Handle) (off : Int) (n : Nat) : Option Nat :=
  if 0 ≤ off && off + n ≤ x.bankSize then some (x.visible + off.toNat) else none

/-- R226, R236: a core reader of a handle: the violation, the stall, the window, then the slice access at the offset. It counts in RDR from
its issue until its slice read in the same cycle: the words after it in its bundle find it counted, and `Core.readsDone` ends the count
before the swaps of the cycle (log 47). -/
def State.handleRead (s : State) (h : Fin 64) (gen : Bool) (off : Int) (n : Nat) (f : Nat → State → Eff) : Eff :=
  let x := s.cur.handle h
  if (s.prior.handle h).mretBusy != 0 then stalled
  else if !x.defd then trapped 16 h
  else if !x.readable gen then stalled
  else match x.at_ off n with
    | none => trapped 3
    | some a => s.local a n 1 fun s => f a (s.setCur (s.cur.setHandle h { x with rdr := x.rdr + 1 }))

/-- R226, R236: a core store to a handle. Of the draining violation and the window fault, whose order the spec does not give, the
violation comes first. DESIGN CHOICE, unsafe (log 61). -/
def State.handleWrite (s : State) (h : Fin 64) (off : Int) (n : Nat) (f : Nat → State → Eff) : Eff :=
  let x := s.cur.handle h
  if (s.prior.handle h).mretBusy != 0 then stalled
  else if !x.defd then trapped 16 h
  else match x.stored with
    | none => trapped 16 h
    | some x' => match x.at_ off n with
      | none => trapped 3
      | some a => s.local a n 1 fun s => f a (s.setCur (s.cur.setHandle h x'))

/-! ### The store queue -/

/-- The bytes of a store to one 64-byte block, as (address mod 64, byte). -/
def SqLine.put (l : SqLine) (off : Nat) : List Byte → SqLine
  | [] => l
  | b :: bs => SqLine.put { l with mask := l.mask ||| (1#64 <<< off), data := l.data.set off b } (off + 1) bs

/-- R350: the bytes that a younger store of the same space takes from an older line. -/
def SqLine.drop (l : SqLine) (off n : Nat) : SqLine :=
  { l with mask := l.mask &&& ~~~(BitVec.ofNat 64 ((2 ^ n - 1) * 2 ^ off)) }

/-- R224, R350: a store of bytes inside one block enters the queue. -/
def sqStore (q : List SqLine) (m : Bool) (scope addr : Nat) (bs : List Byte) : List SqLine :=
  let blk := addr / 64
  let same (l : SqLine) : Bool := l.m = m && l.block = blk
  let old := (q.find? fun l => same l && l.scope = scope).getD
    { m := m, scope := scope, block := blk, mask := 0, data := List.replicate 64 0 }
  let rest := (q.filter fun l => !(same l && l.scope = scope)).map fun l => if same l then l.drop (addr % 64) bs.length else l
  (rest.filter fun l => l.mask != 0) ++ [old.put (addr % 64) bs]

/-- R237: a store of lanes, 4 bytes each. -/
def sqLanes (q : List SqLine) (m : Bool) (scope : Nat) : List (Nat × Nat) → List Byte → List SqLine
  | (_, a) :: ls, bs => sqLanes (sqStore q m scope a (bs.take 4)) m scope ls (bs.drop 4)
  | [], _ => q

/-- R224: the blocks of a store for which the queue holds no line of its space and scope. -/
def Access.newLines (x : Access) (q : List SqLine) : List Nat :=
  let as : List Nat := match x.op with
    | .store => [x.addr]
    | .planeStore => x.lanes.map (·.2)
    | _ => []
  ((as.map (· / 64)).eraseDups).filter fun b => !q.any fun l => l.m = x.m && l.scope = x.scope && l.block = b

/-- R224: does the store need a line that the queue has no room for? -/
def Access.overflows (x : Access) (q : List SqLine) : Bool :=
  !(x.newLines q).isEmpty && 512 < q.length + (x.newLines q).length

/-- A checked store enters the queue. -/
def Access.enter (x : Access) (q : List SqLine) : List SqLine :=
  match x.op with
  | .store => sqStore q x.m x.scope x.addr x.data
  | .planeStore => sqLanes q x.m x.scope x.lanes x.data
  | _ => q

/-- R224: the queue as it will be when the stores on their way have entered. The check of a younger store is made against it: what the
older ones will occupy counts as held, and what they will free (R350) as free. DESIGN CHOICE, unsafe (log 69). -/
def Core.sqAhead (k : Core) : List SqLine :=
  (k.gq ++ k.mq).foldl (fun q x => x.enter q) k.sq

/-- R225: the youngest queued byte of a space at an address. -/
def sqByte (q : List SqLine) (m : Bool) (a : Nat) : Option Byte :=
  (q.find? fun l => l.m = m && l.block = a / 64 && l.mask.getLsbD (a % 64)).map fun l => l.data.getD (a % 64) 0

/-- R225: bytes read from memory with the core's queued stores over them. -/
def forward (q : List SqLine) (m : Bool) (a : Nat) : List Byte → List Byte
  | [] => []
  | b :: bs => (sqByte q m a).getD b :: forward q m (a + 1) bs

/-! ### The scoreboard -/

/-- R224, R432: an access enters its queue, with a scoreboard entry; a seventeenth stalls, and a store for which the store queue has no
line faults. -/
def State.push (s : State) (x : Access) : Eff :=
  let k := s.cur
  if 16 ≤ k.gq.length + k.mq.length then stalled
  else
    let x := { x with order := k.issueNo, at_ := k.sched, bundle := k.bundleNo, scope := s.bun.scope }
    let k := { k with issueNo := k.issueNo + 1 }
    if x.op = .store || x.op = .planeStore then
      if x.overflows k.sqAhead then trapped 14 x.addr
      else .ok (s.setCur (if x.m then { k with mq := k.mq ++ [x] } else { k with gq := k.gq ++ [x] }))
    else .ok (s.setCur (if x.m then { k with mq := k.mq ++ [x] } else { k with gq := k.gq ++ [x] }))

/-- An access of the G or M space with nothing in it. -/
def Access.base (op : AccessOp) (m : Bool) (addr size : Nat) : Access :=
  { order := 0, at_ := 0, before := [], op := op, m := m, addr := addr, size := size, reg := 0, width := 0, scope := 0, data := [], data2 := [],
    lanes := [], bundle := 0, faulted := false, replay := false }

/-- R122: the checks of a G access at issue. -/
def gCheck (a n unit : Nat) : Option Trap :=
  if a % unit != 0 then some (trapOf 4 a) else if Config.gSpaceEnd < a + n then some (trapOf 3 a) else none

/-- R122: does the slice of a G address belong to the virtual device's partition? -/
def State.ownsG (s : State) (v a : Nat) : Bool := (s.vdPart v).clusters.contains (a / Config.sliceBytes / 16)

/-- R220, R227: a G or M access at issue: alignment and window, then its queue. -/
def State.remote (s : State) (x : Access) : Eff :=
  match (if x.m then s.mWindow (s.coreVd s.turn) x.addr x.size x.size else gCheck x.addr x.size x.size) with
  | some t => .error (.trap t)
  | none => s.push x

/-! ### The words -/

/-- R219: base plus scaled index, on natural readings. -/
def Core.addr (k : Core) (a b : Fin 64) (sh : Fin 4) : Nat := (k.rd a).toNat + (k.rd b).toNat * 2 ^ sh.val

/-- R219: the 64-bit address b : a of the M space. -/
def Core.addrM (k : Core) (a b : Fin 64) : Nat := (k.rd a).toNat + (k.rd b).toNat * 2 ^ 32

/-- R219: bytes of an access of width w. -/
def bytesW (w : Width) : Nat := 4 * w.regs

/-- R219, R221: a local load of `n` registers: reads the slice now, lands 3 cycles later in its registers and bl. -/
def State.localLoad (s : State) (w : Width) (d a : Nat) : Eff :=
  s.putScalar 3 w d (leNat (s.lRead s.turn a (bytesW w))) (some 3)

/-- R219: L load. -/
def execLdl (d : Fin 64) (a : Fin 64) (b : Fin 64) (w : Width) (sh : Fin 4) (s : State) : Host.Outcome State Fault Refusal :=
  s.word (.ldl d a b w sh) fun s => s.local (s.cur.addr a b sh) (bytesW w) (bytesW w) fun t => t.localLoad w d (t.cur.addr a b sh)

/-- R219, R221: L store, written 2 cycles later. -/
def execStl (d : Fin 64) (a : Fin 64) (b : Fin 64) (w : Width) (sh : Fin 4) (s : State) : Host.Outcome State Fault Refusal :=
  s.word (.stl d a b w sh) fun s => s.local (s.cur.addr a b sh) (bytesW w) (bytesW w) fun t =>
    t.landAt 2 (.slice (t.cur.addr a b sh) (leBytes (bytesW w) (t.cur.rdW w d)))

/-- R219, R223: G load. -/
def execLdg (d : Fin 64) (a : Fin 64) (b : Fin 64) (w : Width) (sh : Fin 4) (s : State) : Host.Outcome State Fault Refusal :=
  s.word (.ldg d a b w sh) fun s => s.remote { Access.base .load false (s.cur.addr a b sh) (bytesW w) with reg := d, width := w.regs }

/-- R219, R223: G store. -/
def execStg (d : Fin 64) (a : Fin 64) (b : Fin 64) (w : Width) (sh : Fin 4) (s : State) : Host.Outcome State Fault Refusal :=
  s.word (.stg d a b w sh) fun s => s.remote { Access.base .store false (s.cur.addr a b sh) (bytesW w) with
      reg := d, width := w.regs, data := leBytes (bytesW w) (s.cur.rdW w d) }

/-- R219, R223: M load. -/
def execLdm (d : Fin 64) (a : Fin 64) (b : Fin 64) (w : Width) (s : State) : Host.Outcome State Fault Refusal :=
  s.word (.ldm d a b w) fun s => s.remote { Access.base .load true (s.cur.addrM a b) (bytesW w) with reg := d, width := w.regs }

/-- R219, R223: M store. -/
def execStm (d : Fin 64) (a : Fin 64) (b : Fin 64) (w : Width) (s : State) : Host.Outcome State Fault Refusal :=
  s.word (.stm d a b w) fun s => s.remote { Access.base .store true (s.cur.addrM a b) (bytesW w) with
      reg := d, width := w.regs, data := leBytes (bytesW w) (s.cur.rdW w d) }

/-- R220, R222: load from the launch's constant window. -/
def execLdk (d : Fin 64) (a : Fin 64) (b : Fin 64) (w : Width) (sh : Fin 4) (s : State) : Host.Outcome State Fault Refusal :=
  s.word (.ldk d a b w sh) fun s =>
    let addr := s.cur.addr a b sh
    if addr % bytesW w != 0 then trapped 4 addr
    else if 65536 < addr + bytesW w then trapped 3 addr
    else s.putScalar 3 w d (leNat (Map.getList 0 (s.job s.turn).kwin addr (bytesW w))) (some 4)

/-- R226: the offset of the effective immediate, its low two bits cleared. -/
def handleOffset (imm : Word) : Int := (imm &&& ~~~3#32).toInt

/-- R226: handle-relative load of 4 bytes. -/
def execLdh (h : Fin 64) (r : Fin 64) (imm : BitVec 11) (s : State) : Host.Outcome State Fault Refusal :=
  s.word (.ldh h r imm) fun s => s.handleRead h (imm.getLsbD 0) (handleOffset (s.imm32 imm)) 4 fun a t => t.localLoad .s r a

/-- R226: handle-relative store of 4 bytes. -/
def execSth (h : Fin 64) (r : Fin 64) (imm : BitVec 11) (s : State) : Host.Outcome State Fault Refusal :=
  s.word (.sth h r imm) fun s => s.handleWrite h (handleOffset (s.imm32 imm)) 4 fun a t =>
    t.landAt 2 (.bank h a (leBytes 4 (t.cur.rd r).toNat))

end Sys2Proof.Machine
end

