-- ==== Sys2Proof/Machine/Tensor.lean ====
section
/-! DEFINITION. Tensor identifier entries and tensor registers: their fields, the check of an entry, element and scale addresses,
and what an element reads as (R69-R88, R287, R290). -/

namespace Sys2Proof.Machine

/-! ### Fields -/

/-- Word `i` of the entry. -/
def TReg.w (t : TReg) (i : Nat) : Nat := (t.words.getD i 0).toNat

/-- R79: the fields of an entry. -/
def TReg.fmt (t : TReg) : Nat := fld (t.w 0) 7 0
def TReg.rank (t : TReg) : Nat := fld (t.w 0) 29 28 + 1
def TReg.bs (t : TReg) : Bool := bit (t.w 0) 32
def TReg.space (t : TReg) : Nat := fld (t.w 0) 37 36
def TReg.swz (t : TReg) : Nat := fld (t.w 0) 43 40
def TReg.verk (t : TReg) : Nat := fld (t.w 0) 47 44
def TReg.ext (t : TReg) (d : Nat) : Nat := if d % 2 = 0 then fld (t.w (1 + d / 2)) 31 0 else fld (t.w (1 + d / 2)) 63 32
def TReg.str (t : TReg) (d : Nat) : Nat := t.w (2 + d)
def TReg.scbase (t : TReg) : Nat := t.w 6
def TReg.cbbase (t : TReg) : Nat := t.w 7
def TReg.baseW (t : TReg) (v : Nat) : Nat := t.w (8 + v)

/-- R88: the number of versions an entry's regions hold. -/
def TReg.versions (t : TReg) : Nat := max t.verk 1

/-- R81: the handle that the base of the selected version names. -/
def TReg.handle (t : TReg) : Nat := fld (t.baseW t.ver) 37 32

/-- R81: the base of the selected version inside its space. -/
def TReg.base (t : TReg) : Nat := if t.space = 3 then fld (t.baseW t.ver) 20 0 else t.baseW t.ver

/-- R80: the element format; LC2 weights decode to E4M3 codes. -/
def tensorFmt (f : Nat) : Fmt :=
  match f with
  | 0 => .f32
  | 1 => .bf16
  | 2 => .f16
  | 4 => .e5m2
  | 5 => .e2m1
  | 6 => .int true 8
  | 7 => .int false 8
  | 8 => .int true 16
  | 9 => .int false 16
  | 10 => .int true 32
  | 11 => .int false 32
  | _ => .e4m3

/-- R80: bytes of a container. -/
def containerBytes (f : Nat) : Nat :=
  match f with
  | 0 => 4 | 10 => 4 | 11 => 4
  | 1 => 2 | 2 => 2 | 8 => 2 | 9 => 2 | 12 => 2
  | _ => 1

/-- R70: bytes of one version's scale region. -/
def TReg.scaleBytes (t : TReg) : Nat :=
  (t.ext 2 * t.ext 3) * ((t.ext 1 + 1023) / 1024) * ((t.ext 0 + 1023) / 1024) * 1024

/-! ### The check of an entry -/

/-- R81: the bits of a region word that must be 0. -/
def regionBits (space x : Nat) (isBase : Bool) : Bool :=
  match space with
  | 0 => true
  | 1 => x < 2 ^ 32
  | 2 => x < 2 ^ 21
  | _ => if isBase then fld x 31 21 = 0 && fld x 63 38 = 0 else x < 2 ^ 21

/-- R71: the end of the window of a space; a handle's bank is compared at each use. -/
def State.spaceEnd (s : State) (v space : Nat) : Nat :=
  match space with
  | 0 => ((s.vd v).lastPg.toNat + 1) * 4096
  | 1 => Config.gSpaceEnd
  | 2 => Config.sliceBytes
  | _ => 2 ^ 64

/-- R79, R82: extents and strides by rank. -/
def TReg.shapeOk (t : TReg) : Bool :=
  (List.range 4).all (fun d =>
    (if d < t.rank then 1 ≤ t.ext d else t.ext d = 1)
    && (d = 0 || (t.str (d) % 16 = 0 && (d < t.rank || t.str d = 0))))
  && (t.fmt != 5 || t.ext 0 % 2 = 0) && (t.fmt != 12 || t.ext 0 % 8 = 0)

/-- R79-R84, R71: does an entry pass every check of a load? -/
def State.entryOk (s : State) (v : Nat) (t : TReg) : Bool :=
  let w := t.w 0
  let lc := t.fmt = 12
  fld w 63 48 = 0 && fld w 39 38 = 0 && fld w 35 33 = 0 && fld w 31 30 = 0 && fld w 27 8 = 0
  && t.verk ≤ 8 && t.swz ≤ 3 && t.fmt ≤ 12
  && (if t.fmt = 12 then t.bs else if 3 ≤ t.fmt && t.fmt ≤ 5 then true else !t.bs)
  && t.shapeOk
  && (t.space != 0 || t.swz = 0)
  && (List.range 8).all (fun k =>
    if k < t.versions then
      t.baseW k % 16 = 0 && (t.swz = 0 || t.baseW k % 1024 = 0) && regionBits t.space (t.baseW k) true
    else t.baseW k = 0)
  && regionBits t.space t.scbase false && regionBits t.space t.cbbase false
  && (if t.bs then t.scbase % 1024 = 0 && (t.space = 3 || t.scbase + t.versions * t.scaleBytes ≤ s.spaceEnd v t.space) else t.scbase = 0)
  && (if lc then t.cbbase % 4096 = 0 && (t.space = 3 || t.cbbase + t.versions * 4096 ≤ s.spaceEnd v t.space) else t.cbbase = 0)

/-- R81: the handle that the base of a version names. -/
def TReg.handleAt (t : TReg) (v : Nat) : Nat := fld (t.baseW v) 37 32

/-- R71, R86: do the scale and codebook regions of a version of a handle-relative register lie inside a bank of the handle? -/
def TReg.bankOk (t : TReg) (v : Nat) (h : Handle) : Bool :=
  (!t.bs || t.scbase + (v + 1) * t.scaleBytes ≤ h.bankSize)
  && (t.fmt != 12 || t.cbbase + (v + 1) * 4096 ≤ h.bankSize)

/-- R71, R81, R86: the region checks of a handle-relative register at a use, each version's against the handle that its base names. Where several
versions fail, the lowest one's fault is raised, which the spec does not say: DESIGN CHOICE, unsafe (log 82). -/
def TReg.regionFault (t : TReg) (hs : Map Handle) : Option Trap :=
  if !t.bs && t.fmt != 12 then none
  else (List.range t.versions).findSome? fun v =>
    let h := Map.get Handle.reset hs (t.handleAt v)
    if !h.defd then some (trapOf 16 (t.handleAt v)) else if t.bankOk v h then none else some (trapOf 8 0)

/-! ### Elements -/

/-- R84: the swizzle of an offset. -/
def swizzle (swz o : Nat) : Nat :=
  match swz with
  | 1 => o ^^^ (o / 2 ^ 7 % 2 * 2 ^ 4)
  | 2 => o ^^^ (o / 2 ^ 7 % 4 * 2 ^ 4)
  | 3 => o ^^^ (o / 2 ^ 7 % 8 * 2 ^ 4)
  | _ => o

/-- R83: the byte column of element j. -/
def columnOffset (f j : Nat) : Nat :=
  if f = 5 then j / 2 else if f = 12 then 2 * (j / 8) else containerBytes f * j

/-- R72: is the element inside the tensor? -/
def TReg.inside (t : TReg) (i3 i2 i j : Int) : Bool :=
  0 ≤ i3 && i3 < t.ext 3 && 0 ≤ i2 && i2 < t.ext 2 && 0 ≤ i && i < t.ext 1 && 0 ≤ j && j < t.ext 0

/-- R83: the address of an element inside the tensor, in its space. -/
def TReg.addr (t : TReg) (i3 i2 i j : Int) : Nat :=
  t.base + swizzle t.swz (i3.toNat * t.str 3 + i2.toNat * t.str 2 + i.toNat * t.str 1 + columnOffset t.fmt j.toNat)

/-- R76: weight `j` of an index: an E4M3 code with its sign. -/
def lc2Weight (cb : List Byte) (q j : Nat) : Nat :=
  let n := q % 2 * 256 + q / 256
  let s := if j = 7 then (bit q 1 != (bit q 2 != (bit q 3 != (bit q 4 != (bit q 5 != (bit q 6 != bit q 7)))))) else bit q (j + 1)
  b2n s * 128 + ((cb.getD (8 * n + j) 0).toNat % 128)

/-- R61, R72, R77: the code of an element; outside the tensor it is 0. `mem` reads bytes of the tensor's space. -/
def TReg.code (t : TReg) (mem : Nat → Nat → List Byte) (i3 i2 i j : Int) : Nat :=
  if !t.inside i3 i2 i j then 0
  else
    let x := leNat (mem (t.addr i3 i2 i j) (containerBytes t.fmt))
    if t.fmt = 5 then x / 16 ^ (j.toNat % 2) % 16
    else if t.fmt = 12 then lc2Weight t.codebook x (j.toNat % 8)
    else x

/-- R70: the address of the scale of an element's block, in the tensor's space. -/
def TReg.scaleAddr (t : TReg) (i3 i2 i j : Int) : Nat :=
  let b := (i / 32).toNat
  let c := (j / 32).toNat
  let tc := (t.ext 0 + 1023) / 1024
  let tr := (t.ext 1 + 1023) / 1024
  let tile := (i3.toNat * t.ext 2 + i2.toNat) * tr * tc + b / 32 * tc + c / 32
  t.scbase + t.ver * t.scaleBytes + tile * 1024 + b % 32 * 32 + (c % 32 ^^^ b % 32)

/-- R70, R72: the scale of an element's block; 127 without block scaling and for a block outside the tensor. -/
def TReg.scale (t : TReg) (mem : Nat → Nat → List Byte) (i3 i2 i j : Int) : Nat :=
  if !t.bs || !t.inside i3 i2 (i / 32 * 32) (j / 32 * 32) then 127 else leNat (mem (t.scaleAddr i3 i2 i j) 1)

/-- R69: the value of an element with its block's scale. An element outside the tensor in a block partly inside whose stored scale is
0xFF takes R69's NaN and not R72's zero. DEDUCED, unsafe (log 57). -/
def scaledValue (f : Fmt) (code scale : Nat) : Num :=
  if scale = 255 then .nan false else (f.decode code).scale ((scale : Int) - 127)

/-- R135, R363: the end of what a core reaches of a tensor's space. -/
def State.reachEnd (s : State) (c : Nat) (t : TReg) : Nat :=
  match t.space with
  | 2 => min Config.sliceBytes ((s.job c).gran * Config.granuleBytes)
  | 3 => (Map.get Handle.reset (s.core c).handles t.handle).bankSize
  | x => s.spaceEnd (s.coreVd c) x

/-- Bytes of a core's tensor in L, G or a handle's visible bank. -/
def State.tensorMem (s : State) (c : Nat) (t : TReg) (a n : Nat) : List Byte :=
  match t.space with
  | 1 => s.gRead a n
  | 3 => s.lRead c ((Map.get Handle.reset (s.core c).handles t.handle).visible + a) n
  | _ => s.lRead c a n

end Sys2Proof.Machine
end

