-- ==== Sys2Proof/Machine/Flume.lean ====
section
/-! DEFINITION. Transfer records: their fields, their check, and what their stages make of the source (R92-R108, R493). -/

namespace Sys2Proof.Machine

/-! ### Fields -/

/-- R92: the fields of a location word. -/
def locSpace (w : Nat) : Nat := fld w 3 2
def locHandle (w : Nat) : Nat := fld w 37 32
def locAddr (w : Nat) : Nat := if locSpace w = 3 then fld w 20 4 * 16 else w / 16 * 16

/-- R92: the bits that the space of a location word forbids are 0. -/
def locShape (w : Nat) : Bool :=
  match locSpace w with
  | 0 => true
  | 1 => w < 2 ^ 32
  | 2 => w < 2 ^ 21
  | _ => fld w 31 21 = 0 && fld w 63 38 = 0

/-- R92: a well-formed pointer to a record: a location word of 128-byte alignment, not handle-relative. -/
def recordPtrOk (w : Nat) : Bool := fld w 1 0 = 0 && locSpace w != 3 && locShape w && locAddr w % 128 = 0

/-- Word `i` of a record. -/
def FlumeRec.w (x : FlumeRec) (i : Nat) : Nat := (x.words.getD i 0).toNat

/-- R94: the fields of CTRL. -/
def FlumeRec.own (x : FlumeRec) : Bool := bit (x.w 0) 63
def FlumeRec.isLast (x : FlumeRec) : Bool := bit (x.w 0) 62
def FlumeRec.wait (x : FlumeRec) : Bool := bit (x.w 0) 61
def FlumeRec.raw (x : FlumeRec) : Bool := bit (x.w 0) 60
def FlumeRec.scope (x : FlumeRec) : Nat := fld (x.w 0) 59 57
def FlumeRec.phe (x : FlumeRec) : Bool := bit (x.w 0) 56
def FlumeRec.ph (x : FlumeRec) : Nat := fld (x.w 0) 55 50
def FlumeRec.rhe (x : FlumeRec) : Bool := bit (x.w 0) 49
def FlumeRec.rh (x : FlumeRec) : Nat := fld (x.w 0) 48 43

/-- R97: the fields of the stage microword. -/
def FlumeRec.ckm (x : FlumeRec) : Nat := fld (x.w 2) 55 54
def FlumeRec.swe (x : FlumeRec) : Bool := bit (x.w 2) 53
def FlumeRec.swc (x : FlumeRec) : Nat := fld (x.w 2) 52 51
def FlumeRec.pke (x : FlumeRec) : Bool := bit (x.w 2) 50
def FlumeRec.tre (x : FlumeRec) : Bool := bit (x.w 2) 49
def FlumeRec.bsm (x : FlumeRec) : Nat := fld (x.w 2) 48 47
def FlumeRec.cve (x : FlumeRec) : Bool := bit (x.w 2) 46
def FlumeRec.cvs (x : FlumeRec) : Bool := bit (x.w 2) 45
def FlumeRec.cvr (x : FlumeRec) : Nat := fld (x.w 2) 44 42
def FlumeRec.gae (x : FlumeRec) : Bool := bit (x.w 2) 41
def FlumeRec.zfe (x : FlumeRec) : Bool := bit (x.w 2) 40
def FlumeRec.rngc (x : FlumeRec) : Nat := fld (x.w 2) 31 0

/-- R95: the fields of tensor mode. -/
def FlumeRec.dt (x : FlumeRec) : Nat := fld (x.w 3) 7 4
def FlumeRec.st (x : FlumeRec) : Nat := fld (x.w 3) 3 0
def FlumeRec.hi (x : FlumeRec) (i : Nat) : Nat := fld (x.w i) 63 32
def FlumeRec.lo (x : FlumeRec) (i : Nat) : Nat := fld (x.w i) 31 0
def FlumeRec.wr (x : FlumeRec) : Nat := x.hi 8
def FlumeRec.wc (x : FlumeRec) : Nat := x.lo 8

/-- R90: the snapshot's source and destination registers. -/
def FlumeRec.s (x : FlumeRec) : TReg := Map.get TReg.reset x.snap.tregs x.st
def FlumeRec.d (x : FlumeRec) : TReg := Map.get TReg.reset x.snap.tregs x.dt

/-- R95: rows and columns of the destination window. -/
def FlumeRec.dr (x : FlumeRec) : Nat := if x.tre then x.wc else x.wr
def FlumeRec.dc (x : FlumeRec) : Nat := if x.tre then x.wr else x.wc

/-- R96: CTRL with OWN and STAT. -/
def ctrlWord (w : Nat) (own : Bool) (stat : Nat) : Nat :=
  w % 2 ^ 39 + stat * 2 ^ 39 + fld w 62 43 * 2 ^ 43 + b2n own * 2 ^ 63

/-! ### CheckRecord -/

/-- R94, R95, R97: a reserved field or code is non-zero; the low bits of every location word the mode names are reserved (R92), of
NEXT unless LAST has it ignored. Whether the space of a word that no stage uses forbids its upper bits is not looked at (log 57). -/
def FlumeRec.malformed (x : FlumeRec) : Bool :=
  fld (x.w 0) 42 0 != 0 || 4 < x.scope || (!x.isLast && fld (x.w 1) 1 0 != 0)
  || fld (x.w 2) 63 56 != 0 || fld (x.w 2) 39 32 != 0 || x.ckm = 3 || x.bsm = 3 || 4 < x.cvr
  || x.w 13 != 0 || x.w 14 != 0 || x.w 15 != 0
  || (if x.raw then
        fld (x.w 5) 63 32 != 0 || [6, 7, 8, 9, 10, 11].any (fun i => x.w i != 0)
        || fld (x.w 3) 1 0 != 0 || fld (x.w 4) 1 0 != 0
      else fld (x.w 3) 63 8 != 0 || fld (x.w 9) 1 0 != 0 || fld (x.w 10) 1 0 != 0)

/-- R96, R99: an empty register that the record names. -/
def FlumeRec.namesEmpty (x : FlumeRec) : Bool := !x.raw && (!x.d.loaded || (!x.zfe && !x.s.loaded))

/-- R80: is the format E4M3, E5M2 or E2M1? -/
def scalable (f : Nat) : Bool := f = 3 || f = 4 || f = 5

/-- R98, R493: the stages exclude each other. -/
def FlumeRec.stageClash (x : FlumeRec) : Bool :=
  if x.raw then x.gae || x.bsm != 0 || x.cve || x.cvs || x.cvr != 0 || x.tre || x.pke || x.rngc != 0 || (!x.swe && x.swc != 0)
  else
    (x.zfe && (x.gae || x.bsm != 0 || x.cve || x.tre || x.pke))
    || (x.gae && (x.s.fmt = 12 || x.d.fmt = 12))
    || (x.cve && (x.bsm != 0 || x.pke)) || (x.bsm != 0 && x.pke)
    || (if x.d.swz = 0 then x.swe else !(x.swe && x.swc = x.d.swz))

/-- R98: the formats of source and destination do not fit the stages. -/
def FlumeRec.formatClash (x : FlumeRec) : Bool :=
  let s := x.s
  let d := x.d
  if x.zfe then d.fmt = 12
  else if x.cve then d.bs || d.fmt = 12
  else if x.bsm = 1 then !(scalable s.fmt && !s.bs && s.rank ≤ 2 && d.fmt = s.fmt && d.bs)
  else if x.bsm = 2 then !(s.fmt != 12 && scalable d.fmt && d.bs)
  else if x.pke then !([0, 1, 2, 3, 4].contains s.fmt && d.fmt = 12)
  else !(s.fmt = d.fmt && s.bs = d.bs)

/-- R98: the window rule of block-scaled tensors, of which the LC2 tensors are some (R80). "Both origins" is read as those of the source's
and of the destination's window, row and column each, where either end is block-scaled. DEDUCED, unsafe (log 73). -/
def FlumeRec.windowOk (x : FlumeRec) : Bool :=
  let blocks := x.d.bs || (!x.zfe && x.s.bs)
  !blocks || (x.wr % 32 = 0 && x.wc % 32 = 0 && x.hi 6 % 32 = 0 && x.lo 6 % 32 = 0
    && (x.zfe || (x.hi 4 % 32 = 0 && x.lo 4 % 32 = 0)))

/-- R92, R96, R98: an illegal shape. -/
def FlumeRec.badShape (x : FlumeRec) : Bool :=
  if x.raw then
    x.lo 5 % 16 != 0 || (!x.zfe && !locShape (x.w 3)) || !locShape (x.w 4) || (x.swe && locAddr (x.w 4) % 1024 != 0)
  else
    x.wr = 0 || x.wc = 0 || x.formatClash || !x.windowOk
    || (x.gae && !locShape (x.w 9)) || (x.bsm = 1 && !locShape (x.w 10))

/-- R96, R99: CheckRecord for a virtual device with gang scope allowed or not, and the scope of the launch's first level. -/
def FlumeRec.check (x : FlumeRec) (gscope : Bool) (lev0 : Nat) : Nat :=
  if x.malformed then 1
  else if x.namesEmpty then 6
  else if x.stageClash then 2
  else if x.badShape then 3
  else if (x.scope = 4 && !gscope) || lev0 < x.scope then 7
  else 0

/-! ### Accesses -/

/-- An access of an engine: space, handle, bank of a filler, address and bytes. -/
structure EAcc where
  sp : Nat
  h : Nat
  fill : Bool
  addr : Nat
  n : Nat
  deriving DecidableEq, Repr

/-- R92: an access through a location word, `off` bytes on. -/
def locAcc (w off n : Nat) (fill : Bool) : EAcc := { sp := locSpace w, h := locHandle w, fill := fill, addr := locAddr w + off, n := n }

/-- An access through a tensor register. -/
def TReg.acc (t : TReg) (fill : Bool) (addr n : Nat) : EAcc := { sp := t.space, h := t.handle, fill := fill, addr := addr, n := n }

/-- R363: the end of what a core's engines reach of its slice. -/
def State.sliceEnd (s : State) (c : Nat) : Nat := min Config.sliceBytes ((s.job c).gran * Config.granuleBytes)

/-- R122, R135, R363: the G address of an access outside M, or its fault. -/
def State.engineAddr (s : State) (c : Nat) (a : EAcc) : Except Trap Nat :=
  let h := (s.core c).handle a.h
  let bank := if a.fill then h.fillBank else h.visible
  match a.sp with
  | 1 =>
    if Config.gSpaceEnd < a.addr + a.n then .error (trapOf 3 a.addr)
    else if s.ownsG (s.coreVd c) a.addr then .ok a.addr else .error (trapOf 6 a.addr)
  | 2 => if s.sliceEnd c < a.addr + a.n then .error (trapOf 3 a.addr) else .ok (gAddr c a.addr)
  | _ =>
    if !h.defd then .error (trapOf 16 a.h)
    else if h.bankSize < a.addr + a.n || s.sliceEnd c < bank + a.addr + a.n then .error (trapOf 3 a.addr)
    else .ok (gAddr c (bank + a.addr))

/-- The pages of accesses to M, each with the first address named in it, in address order. -/
def pagesOf (as : List EAcc) : Map Nat :=
  (as.filter (·.sp = 0)).foldl (fun m a =>
    let p := a.addr / 4096
    if Map.has m p then m else Map.put m p a.addr) []

/-- R33, R46: the checks of accesses whose window in M was checked before. -/
def State.lateCheck (s : State) (c : Nat) (k : MKind) (as : List EAcc) : Option Trap :=
  (as.findSome? fun a => if a.sp = 0 then none else match s.engineAddr c a with | .error t => some t | .ok _ => none).orElse fun _ =>
  (pagesOf as).findSome? fun (_, a) => match s.translate (s.coreVd c) a k with | .error t => some t | .ok _ => none

/-- R32: the checks of every byte of an extent. -/
def State.engineCheck (s : State) (c : Nat) (k : MKind) (as : List EAcc) : Option Trap :=
  (as.findSome? fun a => if a.sp = 0 then none else match s.engineAddr c a with | .error t => some t | .ok _ => none).orElse fun _ =>
  (as.findSome? fun a =>
    if a.sp = 0 && ((s.vd (s.coreVd c)).lastPg.toNat + 1) * 4096 < a.addr + a.n then some (trapOf 3 a.addr) else none).orElse
    fun _ => s.lateCheck c k as

/-- The fault of an access to a page, where a map of pages lists it. -/
def State.pageFault (s : State) (v : Nat) (k : MKind) (m : Map Nat) (p : Nat) : Option Trap :=
  (m.lookup p).bind fun a => match s.translate v a k with | .error t => some t | .ok _ => none

/-- R32, R110: the first fault of an extent that is read and written: outside M in its own order, then M's window, then its pages in
address order, for reading before writing. -/
def State.extentCheck (s : State) (c : Nat) (rd wr : List EAcc) : Option Trap :=
  let v := s.coreVd c
  let far := (rd ++ wr).filter (·.sp != 0)
  let near := (rd ++ wr).filter (·.sp = 0)
  (s.engineCheck c .read far).orElse fun _ =>
  (near.findSome? fun a => if ((s.vd v).lastPg.toNat + 1) * 4096 < a.addr + a.n then some (trapOf 3 a.addr) else none).orElse fun _ =>
  (pagesOf near).findSome? fun (p, _) => (s.pageFault v .read (pagesOf rd) p).orElse fun _ => s.pageFault v .write (pagesOf wr) p

/-- R42: A, and D for writes, of the pages of an extent. -/
def State.engineNote (s : State) (v : Nat) (k : MKind) : Map Nat → State
  | [] => s
  | (_, a) :: t =>
    match s.translate v a k with
    | .ok (_, _, lf) => (s.noteLeaf v a lf k).engineNote v k t
    | .error _ => s.engineNote v k t

/-- R56: the 64-byte lines of M that accesses touch, each once. -/
def mLines (as : List EAcc) : List Nat :=
  ((as.filter (·.sp = 0)).foldl (fun (m : Map Nat) a => (linesOf a.addr a.n).foldl (fun m l => Map.put m l 1) m) []).map (·.1)

/-- R127: the granules of an extent. -/
def State.engineGranules (s : State) (c : Nat) (as : List EAcc) : List Nat :=
  (as.foldl (fun (m : Map Nat) a =>
    if a.sp = 0 then m
    else match s.engineAddr c a with
      | .ok g => (granulesAt g a.n).foldl (fun m i => Map.put m i 1) m
      | .error _ => m) []).map (·.1)

/-- Bytes that an engine of core `c` reads, after its checks. -/
def State.engineRead (s : State) (c : Nat) (a : EAcc) : List Byte :=
  if a.sp = 0 then s.mPeek (s.coreVd c) a.addr a.n
  else match s.engineAddr c a with
    | .ok g => s.gRead g a.n
    | .error _ => []

/-- A write of an engine of core `c`. -/
def State.engineWrite (s : State) (c : Nat) (a : EAcc) (bs : List Byte) (nib : Nat) : List EngineWrite :=
  if a.sp = 0 then [{ m := true, addr := a.addr, data := bs, nib := nib }]
  else match s.engineAddr c a with
    | .ok g => [{ m := false, addr := g, data := bs, nib := nib }]
    | .error _ => []

/-- A byte of which half is written. -/
def halfByte (nib : Nat) (old new : Byte) : Byte :=
  if nib = 1 then (old &&& 0xF0) ||| (new &&& 0x0F) else if nib = 2 then (old &&& 0x0F) ||| (new <<< 4) else new

/-- R42: performs writes of an engine that runs for virtual device `v`. -/
def State.storeEach (s : State) (v : Nat) : List EngineWrite → State
  | [] => s
  | e :: es =>
    let old := if e.nib = 0 then [] else if e.m then s.mPeek v e.addr 1 else s.gRead e.addr 1
    let data := if e.nib = 0 then e.data else [halfByte e.nib (old.headD 0) (e.data.headD 0)]
    (if e.m then (s.noteHeld v e.addr).mPoke v e.addr data else s.gStore (s.vd v).gid e.addr data).storeEach v es

/-- Where an engine's write goes. -/
def EngineWrite.acc (e : EngineWrite) : EAcc := { sp := if e.m then 0 else 1, h := 0, fill := false, addr := e.addr, n := e.data.length }

/-- R56: performs writes of an engine, each line of M that they touch charged once. -/
def State.engineStore (s : State) (v : Nat) (ws : List EngineWrite) : State := (s.chargeLines v (mLines (ws.map (·.acc)))).storeEach v ws

/-- R54: the key fault that writes of an engine meet as they are admitted. -/
def State.storeFault (s : State) (v : Nat) (ws : List EngineWrite) : Option Trap :=
  ws.findSome? fun e => if e.m then s.pokeFault v e.addr else none

/-! ### The source -/

/-- R102: the source row of a window row. -/
def FlumeRec.srcRow (x : FlumeRec) (list : List Nat) (r : Nat) : Int :=
  if x.gae then ((list.getD r 0 : Nat) : Int) else ((x.hi 4 + r : Nat) : Int)

/-- R95: the source column of a window column. -/
def FlumeRec.srcCol (x : FlumeRec) (c : Nat) : Int := ((x.lo 4 + c : Nat) : Int)

/-- R100: is a window element inside the source tensor? -/
def FlumeRec.srcIn (x : FlumeRec) (list : List Nat) (r c : Nat) : Bool :=
  x.s.inside (x.hi 5) (x.lo 5) (x.srcRow list r) (x.srcCol c)

/-- R100: the code of a source window element. -/
def FlumeRec.codeAt (x : FlumeRec) (mem : Nat → Nat → List Byte) (list : List Nat) (r c : Nat) : Nat :=
  x.s.code mem (x.hi 5) (x.lo 5) (x.srcRow list r) (x.srcCol c)

/-- R69: the scale of a source window element. -/
def FlumeRec.scaleAt (x : FlumeRec) (mem : Nat → Nat → List Byte) (list : List Nat) (r c : Nat) : Nat :=
  x.s.scale mem (x.hi 5) (x.lo 5) (x.srcRow list r) (x.srcCol c)

/-- R100: the exact value of a source window element. An element outside the source in a block partly inside whose stored scale is
0xFF reads NaN, as R69 has every element of such a block, and not R72's zero. DEDUCED, unsafe (log 57). -/
def FlumeRec.valAt (x : FlumeRec) (mem : Nat → Nat → List Byte) (list : List Nat) (r c : Nat) : Num :=
  scaledValue (tensorFmt x.s.fmt) (x.codeAt mem list r c) (x.scaleAt mem list r c)

/-- R103: the random bits of a source window element. -/
def FlumeRec.bits (x : FlumeRec) (r c : Nat) : Nat :=
  if x.cvr = 4 then
    let e := r * x.wc + c
    philox x.snap.rngkey (e / 4) x.snap.widx x.snap.lid ((x.snap.rngctr.toNat + x.rngc) % 2 ^ 32) (e % 4)
  else 0

/-! ### Blocks -/

/-- A block of a window: its scale and the codes of its elements, row by row. -/
structure Block where
  scale : Nat
  codes : List (List Nat)
  deriving DecidableEq, Repr

/-- R73: ScaleFor. -/
def scaleFor (f : Fmt) (vals : List Num) : Nat :=
  let emax : Int := match f with | .e4m3 => 8 | .e5m2 => 15 | _ => 2
  let top (x : Num) : Option Int := match x with | .fin _ m e _ => if m = 0 then none else some (e + (Nat.log2 m : Int)) | _ => none
  if vals.any fun x => x.isNan || x.isInf then 255
  else match (vals.filterMap top).foldl (fun a b => match a with | none => some b | some y => some (max y b)) (none : Option Int) with
    | none => 127
    | some l => (max 0 (min 254 (l - emax + 127))).toNat

/-- R73: a block whose scale is derived from its values. -/
def deriveBlock (f : Fmt) (rm : Nat) (val : Nat → Nat → Num) (rb : Nat → Nat → Nat) : Block :=
  let vals := tabulate 32 fun r => tabulate 32 fun c => val r c
  let e := scaleFor f vals.flatten
  { scale := e,
    codes := vals.zipIdx.map fun (row, r) => row.zipIdx.map fun (v, c) =>
      if e = 255 then 0 else (convert (v.scale (127 - (e : Int))) f rm true (rb r c)).1 }

/-- R74, R104, R493: a block formed from 32 row runs, each with its scale, or none where the run takes no part. Runs gathered from
stored blocks of one scale are copied bit for bit (R493); those of an OCP source are converted whatever their scales (R74). Where all the
runs of a gathered block have the scale 0xFF, two sentences of R493 disagree: the block's elements are zero bytes here, as R74 has it, and
not copies. DESIGN CHOICE, unsafe (log 83). -/
def runBlock (f : Fmt) (gathered : Bool) (scales : List (Option Nat)) (code : Nat → Nat → Nat) : Block :=
  let es := scales.filterMap id
  let emax := if es.isEmpty then 127 else es.foldl max 0
  let same := gathered && es.all (· = emax)
  { scale := emax,
    codes := scales.zipIdx.map fun (e, r) => tabulate 32 fun c =>
      match e with
      | none => 0
      | some er =>
        if emax = 255 then 0
        else if same then code r c
        else (convert ((f.decode (code r c)).scale ((er : Int) - (emax : Int))) f 0 true 0).1 }

/-- R104: the 1 × 32 scale of a run, none where the run lies wholly outside the source. -/
def FlumeRec.runScale (x : FlumeRec) (scales : Nat → List Byte) (list : List Nat) (r c : Nat) : Option Nat :=
  if x.srcIn list r c then some (leNat (scales ((x.srcRow list r).toNat * x.w 11 + (x.srcCol c).toNat / 32))) else none

/-- The block of a window at block row `br` and block column `bc`, for the stages that form blocks. -/
def FlumeRec.block (x : FlumeRec) (mem : Nat → Nat → List Byte) (scales : Nat → List Byte) (list : List Nat) (br bc : Nat) : Block :=
  let f := tensorFmt x.d.fmt
  let code r c := x.codeAt mem list (32 * br + r) (32 * bc + c)
  if x.bsm = 2 then
    deriveBlock f x.cvr (fun r c => x.valAt mem list (32 * br + r) (32 * bc + c)) fun r c => x.bits (32 * br + r) (32 * bc + c)
  else if x.bsm = 1 then
    runBlock f false (tabulate 32 fun r => x.runScale scales list (32 * br + r) (32 * bc)) code
  else
    runBlock f true (tabulate 32 fun r =>
      if x.srcIn list (32 * br + r) (32 * bc) then some (x.scaleAt mem list (32 * br + r) (32 * bc)) else none) code

/-- Do the stages form blocks? -/
def FlumeRec.blocked (x : FlumeRec) : Bool := x.bsm != 0 || (x.gae && x.s.bs && !x.cve && !x.pke)

/-- The codes of the source window after zero-fill, gather, block scale and convert, row by row, and the scales of its blocks. -/
def FlumeRec.window (x : FlumeRec) (mem : Nat → Nat → List Byte) (scales : Nat → List Byte) (list : List Nat) :
    List (List Nat) × List (List Nat) :=
  if x.zfe then
    (tabulate x.wr fun _ => tabulate x.wc fun _ => 0, tabulate ((x.wr + 31) / 32) fun _ => tabulate ((x.wc + 31) / 32) fun _ => 127)
  else if x.blocked then
    let bs := tabulate (x.wr / 32) fun br => tabulate (x.wc / 32) fun bc => x.block mem scales list br bc
    (bs.flatMap fun row => tabulate 32 fun r => row.flatMap fun b => b.codes.getD r [], bs.map fun row => row.map (·.scale))
  else
    (tabulate x.wr fun r => tabulate x.wc fun c =>
      if x.cve then (convert (x.valAt mem list r c) (tensorFmt x.d.fmt) x.cvr x.cvs (x.bits r c)).1 else x.codeAt mem list r c,
     tabulate ((x.wr + 31) / 32) fun br => tabulate ((x.wc + 31) / 32) fun bc => x.scaleAt mem list (32 * br) (32 * bc))

/-! ### Codebook packing -/

/-- R106: the squared distance of eight magnitudes from a codebook entry, as a multiple of 2^(-2q); a NaN magnitude is farther
than any number. -/
def lc2Distance (q : Nat) (cb : List Byte) (a : List Num) (n : Nat) : Option Nat :=
  let at_ (x : Num) : Option Int := match x with | .fin _ m e _ => some (m * 2 ^ (e + (q : Int)).toNat : Nat) | _ => none
  (a.zipIdx.map fun (x, j) =>
    match at_ x, at_ (Fmt.e4m3.decode ((cb.getD (8 * n + j) 0).toNat % 128)) with
    | some u, some w => some ((u - w) * (u - w)).toNat
    | _, _ => none).foldl (fun acc d => match acc, d with | some t, some d => some (t + d) | _, _ => none) (some 0)

/-- R106: the entry of least distance; on a tie, the lowest. -/
def lc2Best (q : Nat) (cb : List Byte) (a : List Num) : Nat :=
  ((List.range 512).foldl (fun (best : Nat × Option Nat) n =>
    match best.2, lc2Distance q cb a n with
    | none, some d => (n, some d)
    | some b, some d => if d < b then (n, some d) else best
    | _, none => best) (0, none)).1

/-- R106: the index of eight weights of a block with scale `e`. -/
def lc2Pack (cb : List Byte) (e : Nat) (ws : List Num) : Nat :=
  if e = 255 then 0
  else
    let a := ws.map fun w => w.abs.scale (127 - (e : Int))
    let q := ((minExp (a ++ [Num.fin false 0 (-9) false])) * -1).toNat
    let n := lc2Best q cb a
    let signs := ws.map Num.neg
    let mag j := Fmt.e4m3.decode ((cb.getD (8 * n + j) 0).toNat % 128)
    let odd := (signs.filter id).length % 2 = 1
    let k := (List.range 8).foldl (fun b j => if (mag j).lt false (mag b) then j else b) 0
    let signs := if odd then signs.set k !(signs.getD k false) else signs
    n % 256 * 256 + (signs.take 7).zipIdx.foldl (fun t (s, j) => t + b2n s * 2 ^ (j + 1)) 0 + n / 256

/-! ### The destination -/

/-- R105: an element of a table in destination coordinates. -/
def FlumeRec.turned (x : FlumeRec) (t : List (List Nat)) (r c : Nat) : Nat :=
  if x.tre then (t.getD c []).getD r 0 else (t.getD r []).getD c 0

/-- R100: is a destination window element inside the destination tensor? -/
def FlumeRec.dstIn (x : FlumeRec) (r c : Nat) : Bool :=
  x.d.inside (x.hi 7) (x.lo 7) ((x.hi 6 + r : Nat) : Int) ((x.lo 6 + c : Nat) : Int)

/-- R83: the address of a destination window element. -/
def FlumeRec.dstAddr (x : FlumeRec) (r c : Nat) : Nat :=
  x.d.addr (x.hi 7) (x.lo 7) ((x.hi 6 + r : Nat) : Int) ((x.lo 6 + c : Nat) : Int)

/-- The columns of the destination at which a container starts: every column, or every eighth of LC2. -/
def FlumeRec.dstCols (x : FlumeRec) : List Nat :=
  if x.d.fmt = 12 then (List.range (x.dc / 8)).map (8 * ·) else List.range x.dc

/-- The destination elements that are written, in destination window order. -/
def FlumeRec.dstElems (x : FlumeRec) : List (Nat × Nat) :=
  (List.range x.dr).flatMap fun r => (x.dstCols.filter fun c => x.dstIn r c).map fun c => (r, c)

/-- R100: the destination blocks whose scales are written. -/
def FlumeRec.dstBlocks (x : FlumeRec) : List (Nat × Nat) :=
  if x.d.bs then
    (List.range (x.dr / 32)).flatMap fun br =>
      ((List.range (x.dc / 32)).filter fun bc => x.dstIn (32 * br) (32 * bc)).map fun bc => (br, bc)
  else []

/-- R70: the address of the scale of a destination block. -/
def FlumeRec.dstScaleAddr (x : FlumeRec) (br bc : Nat) : Nat :=
  x.d.scaleAddr (x.hi 7) (x.lo 7) ((x.hi 6 + 32 * br : Nat) : Int) ((x.lo 6 + 32 * bc : Nat) : Int)

/-- The index word that a copy stores for eight weights of an LC2 source. A copy that transposes LC2, or reads past the
source, has weights that no index of the source gives: its word is a free value (log 15). -/
def FlumeRec.lc2Copy (x : FlumeRec) (mem : Nat → Nat → List Byte) (r c : Nat) : Nat :=
  if x.tre || !x.srcIn [] r c then (Config.lc2Index x.ptr.toNat r c).toNat
  else leNat (mem (x.s.addr (x.hi 5) (x.lo 5) (x.srcRow [] r) (x.srcCol c)) 2)

/-- What streaming a record in tensor mode gives: the code of each written element or index word, and the scale of each written
block. -/
def FlumeRec.result (x : FlumeRec) (mem : Nat → Nat → List Byte) (scales : Nat → List Byte) (list : List Nat) :
    List Nat × List Nat :=
  if x.pke then
    let val r c := if x.tre then x.valAt mem list c r else x.valAt mem list r c
    let es := tabulate (x.dr / 32) fun br => tabulate (x.dc / 32) fun bc =>
      scaleFor .e4m3 ((List.range 32).flatMap fun r => tabulate 32 fun c => val (32 * br + r) (32 * bc + c))
    (x.dstElems.map fun (r, c) => lc2Pack x.d.codebook ((es.getD (r / 32) []).getD (c / 32) 127) (tabulate 8 fun j => val r (c + j)),
     x.dstBlocks.map fun (br, bc) => (es.getD br []).getD bc 127)
  else
    let w := x.window mem scales list
    (x.dstElems.map fun (r, c) => if x.d.fmt = 12 && !x.zfe then x.lc2Copy mem r c else x.turned w.1 r c,
     x.dstBlocks.map fun (br, bc) => x.turned w.2 br bc)

/-! ### Extents -/

/-- R102: the entries of the gather list. -/
def FlumeRec.listAccs (x : FlumeRec) : List EAcc :=
  if !x.raw && x.gae then tabulate x.wr fun r => locAcc (x.w 9) (4 * r) 4 false else []

/-- The source bytes that a record reads. -/
def FlumeRec.srcAccs (x : FlumeRec) (list : List Nat) : List EAcc :=
  if x.zfe then []
  else if x.raw then tabulate (x.lo 5 / 16) fun i => locAcc (x.w 3) (16 * i) 16 false
  else
    let cells := (List.range x.wr).flatMap fun r => ((List.range x.wc).filter fun c => x.srcIn list r c).map fun c => (r, c)
    (cells.map fun (r, c) =>
      x.s.acc false (x.s.addr (x.hi 5) (x.lo 5) (x.srcRow list r) (x.srcCol c)) (containerBytes x.s.fmt))
    ++ (if x.s.bs then (cells.filter fun (_, c) => c % 32 = 0).map fun (r, c) =>
          x.s.acc false (x.s.scaleAddr (x.hi 5) (x.lo 5) (x.srcRow list r) (x.srcCol c)) 1 else [])

/-- R104: the 1 × 32 scales that a record reads. -/
def FlumeRec.ocpAccs (x : FlumeRec) (list : List Nat) : List EAcc :=
  if x.raw || x.bsm != 1 then []
  else (List.range x.wr).flatMap fun r =>
    ((List.range (x.wc / 32)).filter fun b => x.srcIn list r (32 * b)).map fun b =>
      locAcc (x.w 10) ((x.srcRow list r).toNat * x.w 11 + (x.srcCol (32 * b)).toNat / 32) 1 false

/-- R86: the codebook that a handle-relative LC2 register reads at a use. -/
def TReg.cbAccs (t : TReg) : List EAcc :=
  if t.space = 3 && t.fmt = 12 && t.codebook.isEmpty then [t.acc false (t.cbbase + 4096 * t.ver) 4096] else []

/-- R86, R106: the codebooks that a record reads at its start: of an LC2 source, and of the destination of a pack. -/
def FlumeRec.cbAccs (x : FlumeRec) : List EAcc :=
  if x.raw || x.zfe then [] else x.s.cbAccs ++ (if x.pke then x.d.cbAccs else [])

/-- The destination bytes that a record writes. -/
def FlumeRec.dstAccs (x : FlumeRec) : List EAcc :=
  if x.raw then
    tabulate (x.lo 5 / 16) fun i => locAcc (x.w 4) (if x.swe then swizzle x.swc (16 * i) else 16 * i) 16 true
  else
    (x.dstElems.map fun (r, c) => x.d.acc true (x.dstAddr r c) (containerBytes x.d.fmt))
    ++ x.dstBlocks.map fun (br, bc) => x.d.acc true (x.dstScaleAddr br bc) 1

/-! ### Streaming -/

/-- R108: CRC-32C of bytes, from a running value. -/
def crcBits : Nat → Nat → Nat
  | 0, x => x
  | n + 1, x => crcBits n (if x % 2 = 1 then x / 2 ^^^ 0x82F63B78 else x / 2)

/-- R108: CRC-32C. -/
def crc32c (bs : List Byte) : Nat := bs.foldl (fun t b => crcBits 8 (t ^^^ b.toNat)) 0xFFFFFFFF ^^^ 0xFFFFFFFF

/-- R61, R108: the bytes of elements in order; FP4 elements pair into bytes, a final odd one padded with zero. -/
def elementBytes (f : Nat) (codes : List Nat) : List Byte :=
  if f = 5 then
    tabulate ((codes.length + 1) / 2) fun i => BitVec.ofNat 8 (codes.getD (2 * i) 0 + 16 * codes.getD (2 * i + 1) 0)
  else codes.flatMap fun x => leBytes (containerBytes f) x

/-- What a record's streaming writes, with its checksum. -/
def State.stream (s : State) (c : Nat) (x : FlumeRec) (list : List Nat) : List EngineWrite × Nat :=
  if x.raw then
    let data := tabulate (x.lo 5 / 16) fun i =>
      if x.zfe then List.replicate 16 (0 : Byte) else s.engineRead c (locAcc (x.w 3) (16 * i) 16 false)
    ((x.dstAccs.zip data).flatMap fun (a, d) => s.engineWrite c a d 0, crc32c data.flatten)
  else
    let r := x.result (fun a n => s.engineRead c (x.s.acc false a n))
      (fun off => s.engineRead c (locAcc (x.w 10) off 1 false)) list
    let elems := (x.dstElems.zip r.1).flatMap fun ((i, j), code) =>
      if x.d.fmt = 5 then
        s.engineWrite c (x.d.acc true (x.dstAddr i j) 1) [BitVec.ofNat 8 code] (1 + (x.lo 6 + j) % 2)
      else s.engineWrite c (x.d.acc true (x.dstAddr i j) (containerBytes x.d.fmt)) (leBytes (containerBytes x.d.fmt) code) 0
    let scales := (x.dstBlocks.zip r.2).flatMap fun ((br, bc), e) =>
      s.engineWrite c (x.d.acc true (x.dstScaleAddr br bc) 1) [BitVec.ofNat 8 e] 0
    (elems ++ scales, crc32c (elementBytes x.d.fmt r.1))

/-! ### Handles of a record -/

/-- The handle that a location word names. -/
def locNamed (w : Nat) : List Nat := if locSpace w = 3 then [locHandle w] else []

/-- Without repeats, in order of first appearance. -/
def distinct (l : List Nat) : List Nat := l.foldl (fun m h => if m.contains h then m else m ++ [h]) []

/-- R111, R136: the handles whose visible bank a record reads, through its source, its gather list and its 1 × 32 scales. A codebook that
lies in the bank of its destination's handle makes it no reader of that. DESIGN CHOICE, unsafe (log 74). -/
def FlumeRec.srcHandles (x : FlumeRec) : List Nat :=
  if x.zfe then []
  else if x.raw then locNamed (x.w 3)
  else distinct ((if x.s.space = 3 then [x.s.handle] else []) ++ (if x.gae then locNamed (x.w 9) else []) ++ (if x.bsm = 1 then locNamed (x.w 10) else []))

/-- R111: the destination handle of a record. -/
def FlumeRec.dstHandle (x : FlumeRec) : Option Nat :=
  if x.raw then (if locSpace (x.w 4) = 3 then some (locHandle (x.w 4)) else none)
  else if x.d.space = 3 then some x.d.handle else none

/-- R107: the swizzle tag that a record gives its destination handle. -/
def FlumeRec.tag (x : FlumeRec) : Nat := if x.raw then (if x.swe then x.swc else 0) else x.d.swz

/-- R111: withdraws the pending release of a record; a handle that its start made draining returns to ready. -/
def State.withdraw (s : State) (c : Nat) (x : FlumeRec) : State :=
  match x.pend with
  | none => s
  | some n => s.updHandle c n fun h =>
    let h := { h with releases := h.releases - 1 }
    if x.drained && h.state = 3 then { h with state := 2 } else h.settle

/-- R111, R337: gives up a record that will not complete: its claims are returned, except that a destination stays filling. -/
def State.abandon (s : State) (c : Nat) (x : FlumeRec) : State :=
  let s := s.withdraw c x
  let s := s.unclaimAll c x.src
  let s := match x.dst with | some h => s.updHandle c h Handle.filled | none => s
  s.unpin x.pins

/-- Gives up several records. -/
def State.abandonAll (s : State) (c : Nat) : List FlumeRec → State
  | [] => s
  | x :: xs => (s.abandon c x).abandonAll c xs

end Sys2Proof.Machine
end

