-- ==== Sys2Proof/Machine/Matrix.lean ====
section
/-! DEFINITION. The matrix words (R282-R309): commands enter the command sets with a snapshot; `tload`, `tset`, `mwait` and
`mprof` are no commands. -/

namespace Sys2Proof.Machine

/-! ### Snapshots and the command sets -/

/-- R90, R284: what a command or a chain copies from its core at issue. -/
def Core.snapshot (k : Core) : Snapshot :=
  { tregs := k.tregs, rngkey := k.rngkey, rngctr := k.rngctr, widx := k.widx, lid := k.lid, fctl := k.fctl, fpos := k.fpos }

/-- A command with nothing but its operation. -/
def Core.command (k : Core) (op : MOp) (acc : Nat) : Cmd :=
  { op := op, acc := acc, a := TReg.reset, b := TReg.reset, ix := [], off := 0, snap := k.snapshot, readers := [], bank := 0,
    issued := k.sched, latched := false, waves := 0, opA := [], opB := [], scA := [], scB := [] }

/-- R283: may a command take a place in the sets? -/
def Mill.room (m : Mill) : Bool := m.shadow.isNone

/-- R283: a command takes its place: active where the active set is empty, else shadow. -/
def Mill.enter (m : Mill) (x : Cmd) : Mill :=
  if m.active.isNone && m.shadow.isNone then { m with active := some x } else { m with shadow := some x }

/-- R283: issues a command, or stalls while both sets are full. -/
def State.issueCmd (s : State) (x : Cmd) : Eff :=
  let k := s.cur
  if k.mill.room then .ok (s.setCur { k with mill := k.mill.enter x }) else stalled

/-! ### Operands -/

/-- R291: the formats a profile accepts for A and B. -/
def profileFormats (pf fa fb : Nat) (bsA bsB : Bool) : Bool :=
  let fp8 (f : Nat) : Bool := f = 3 || f = 4
  match pf with
  | 0 => fa = 1 && fb = 1 && !bsA && !bsB
  | 5 => fa = 1 && fb = 1 && !bsA && !bsB
  | 1 => fp8 fa && fp8 fb
  | 6 => fp8 fa && fp8 fb
  | 2 => fa = 5 && fb = 5
  | 7 => fa = 5 && fb = 5
  | 3 => (fa = 6 || fa = 7) && (fb = 6 || fb = 7) && !bsA && !bsB
  | 4 => (fa = 12 && fp8 fb) || (fp8 fa && fb = 12)
  | _ => false

/-- R293: stored bytes of `n` elements of a format, FP4 counting ½ and LC2 ¼. -/
def storedBytes (f n : Nat) : Nat := if f = 5 then n / 2 else if f = 12 then n / 4 else n * containerBytes f

/-- R290: M, K and N. -/
def Cmd.mDim (x : Cmd) : Nat := x.a.wr
def Cmd.kDim (x : Cmd) : Nat := x.a.wc
def Cmd.nDim (x : Cmd) : Nat := x.b.wc

/-- R290: the stored row and column of an element of a register's view. -/
def TReg.view (t : TReg) (trans : Bool) (p r c : Nat) : Int × Int :=
  let r' : Int := r + t.row0 + p * t.rs.toInt
  let c' : Int := c + t.col0 + p * t.cs.toInt
  if trans then (c', r') else (r', c')

/-- R290, R295: the stored place of A(i, k) and of B(k, j). -/
def Cmd.placeA (x : Cmd) (i k : Nat) : Int × Int :=
  match x.op with
  | .mma _ _ _ _ _ true => (((x.ix.getD i 0).toNat : Int), k + x.a.col0 + x.snap.fpos * x.a.cs.toInt)
  | .mma _ _ _ ta _ false => x.a.view ta x.snap.fpos i k
  | _ => (0, 0)

def Cmd.placeB (x : Cmd) (k j : Nat) : Int × Int :=
  match x.op with
  | .mma _ _ _ _ tb _ => x.b.view tb x.snap.fpos k j
  | _ => (0, 0)

/-- R293: the origin of the K axis of A and of B, after the position step. -/
def Cmd.originA (x : Cmd) : Int := x.a.col0 + x.snap.fpos * x.a.cs.toInt
def Cmd.originB (x : Cmd) : Int := x.b.row0 + x.snap.fpos * x.b.rs.toInt

/-- R293: the checks of a command's operands, in no order: each raises a scale-layout fault. -/
def Cmd.layoutOk (x : Cmd) (pf : Nat) : Bool :=
  let k := x.kDim
  x.a.loaded && x.b.loaded && x.a.space != 0 && x.b.space != 0
  && profileFormats pf x.a.fmt x.b.fmt x.a.bs x.b.bs
  && 1 ≤ x.mDim && x.mDim ≤ 128 && 1 ≤ x.nDim && x.nDim ≤ 128
  && k % 32 = 0 && 32 ≤ k && k ≤ 2048
  && storedBytes x.a.fmt (x.mDim * k) + storedBytes x.b.fmt (k * x.nDim) ≤ 262144
  && (!x.a.bs || x.originA % 32 = 0) && (!x.b.bs || x.originB % 32 = 0)

/-- R293, R312: the bytes of the operands in the latch. -/
def Cmd.latchBytes (x : Cmd) : Nat :=
  storedBytes x.a.fmt (x.mDim * x.kDim) + storedBytes x.b.fmt (x.kDim * x.nDim)

/-- The addresses that the elements of a register have at places of the tensor, in its space. -/
def TReg.addrs (t : TReg) (ps : List (Int × Int)) : List Nat :=
  (ps.filter fun p => t.inside t.i3 t.i2 p.1 p.2).map fun p => t.addr t.i3 t.i2 p.1 p.2

/-- All places of A and of B that a command reads. -/
def Cmd.placesA (x : Cmd) : List (Int × Int) :=
  (List.range x.mDim).flatMap fun i => (List.range x.kDim).map fun k => x.placeA i k

def Cmd.placesB (x : Cmd) : List (Int × Int) :=
  (List.range x.nDim).flatMap fun j => (List.range x.kDim).map fun k => x.placeB k j

/-- R72, R135: does every element a command reads lie inside its space? -/
def State.elementsOk (s : State) (c : Nat) (t : TReg) (ps : List (Int × Int)) : Bool :=
  (t.addrs ps).all fun a => a + containerBytes t.fmt ≤ s.reachEnd c t

/-- R294: the handle of a handle-relative register. -/
def TReg.named (t : TReg) : List Nat := if t.loaded && t.space = 3 then [t.handle] else []

/-- R136, R294: does every handle meet the reader condition, with no `mret` on it and room in its count for each register that names it? -/
def Core.handlesReady (k : Core) (ts : List TReg) : Bool :=
  ts.all fun t => t.named.all fun h =>
    let x := k.handle h
    !x.defd || (x.readable t.eg && x.rdr + (ts.flatMap TReg.named).count h ≤ 255 && x.mretBusy = 0)

/-- R85, R86, R135: the checks of a handle-relative register at its use. -/
def Core.handleCheck (k : Core) (t : TReg) : Option Trap :=
  t.named.findSome? fun h =>
    let x := k.handle h
    if !x.defd then some (trapOf 16 h)
    else if x.vtag != t.swz then some (trapOf 9 0)
    else t.regionFault k.handles

/-- R131, R292: the state as it is once the local stores of earlier bundles, which are in flight, have landed. -/
def State.landedStores (s : State) (c : Nat) : State :=
  let k := s.core c
  s.landList c (k.inflight.filter fun f => f.at_ < k.sched && f.what.isStore)

/-- R86: a handle-relative LC2 register reads its codebook at each use: the visible bank of its handle, with what earlier bundles
stored there, unless a granule of it has still to be restored. So does a pack that fills the handle itself, whose other bank it may
be filling: which bank it reads the spec does not say. DESIGN CHOICE, unsafe (log 74). -/
def State.withCodebook (s : State) (c : Nat) (t : TReg) : TReg :=
  if t.space = 3 && t.fmt = 12 && t.codebook.isEmpty then
    let a := (Map.get Handle.reset (s.core c).handles t.handle).visible + t.cbbase + 4096 * t.ver
    if s.granulesOk (s.coreGid c) (granulesAt (gAddr c a) 4096) then { t with codebook := (s.landedStores c).lRead c a 4096 } else t
  else t

/-- R294: the claims of the handles a command reads. -/
def State.claimAll (s : State) (c : Nat) : List Nat → State
  | [] => s
  | h :: hs => (s.updHandle c h Handle.claim).claimAll c hs

/-- R310: may the command take its accumulator now? A running command on the tile holds it back unless both are products and
the new one does not clear. -/
def Core.accFree (k : Core) (acc : Nat) (clr : Bool) : Bool :=
  let free (x : Cmd) : Bool := x.busyTile != some acc || (!clr && (match x.op with | .mma _ _ _ _ _ _ => true | _ => false))
  k.mill.active.all free && k.mill.shadow.all free

/-- R293, R294, R309: issues `mma` or `mmag`. The checks of A, its swizzle and then its regions, come before those of B, and the window
check of the elements (R422) after both: the spec gives no order between the operands, nor a place to the last. DESIGN CHOICE, unsafe
(log 78). -/
def State.issueProduct (s : State) (op : MOp) (acc : Fin 8) (clr : Bool) (pf : Fin 32) (a b : Fin 16) (ix : List Word) : Eff :=
  let k := s.cur
  let x := { k.command op acc with a := k.treg a, b := k.treg b, ix := ix }
  if !k.mill.room || !k.accFree acc clr || !k.handlesReady [x.a, x.b] then stalled
  else if 8 ≤ pf.val then trapped 10
  else if !x.layoutOk pf then trapped 8
  else match (k.handleCheck x.a).orElse fun _ => k.handleCheck x.b with
    | some t => .error (.trap t)
    | none =>
      let x := { x with a := s.withCodebook s.turn x.a, b := s.withCodebook s.turn x.b }
      if !s.elementsOk s.turn x.a x.placesA || !s.elementsOk s.turn x.b x.placesB then trapped 3
      else
        let hs := x.a.named ++ x.b.named
        (s.claimAll s.turn hs).issueCmd { x with readers := hs }

/-- R296: multiplies and accumulates into a tile. -/
def execMma (acc : Fin 8) (a : Fin 16) (b : Fin 16) (pf : Fin 32) (clr : Bool) (ret : Bool) (ta : Bool) (tb : Bool) (s : State) : Host.Outcome State Fault Refusal :=
  s.word (.mma acc a b pf clr ret ta tb) fun s => s.issueProduct (.mma pf clr ret ta tb false) acc clr pf a b []

/-- R295, R296: as `mma`, with rows of A gathered by an index plane. -/
def execMmag (acc : Fin 8) (a : Fin 16) (b : Fin 16) (pf : Fin 32) (ix : Fin 16) (clr : Bool) (ret : Bool) (tb : Bool) (s : State) : Host.Outcome State Fault Refusal :=
  s.word (.mmag acc a b pf ix clr ret tb) fun s => s.issueProduct (.mma pf clr ret false tb true) acc clr pf a b
      (tabulate lanes fun i => lane (s.cur.plane ix) i)

/-- R302: bytes of an element that `mret` writes. -/
def retBytes (fmt : Nat) : Nat :=
  match fmt with
  | 0 => 4
  | 1 => 2
  | 2 => 2
  | 6 => 2
  | _ => 1

/-- R304, R305, R363: does a tile's image at offset `off` lie inside the bank and what the core reaches of the slice? -/
def State.tileFits (s : State) (h : Handle) (bank off size : Nat) : Bool :=
  off % 256 = 0 && off + 16384 * size ≤ h.bankSize
    && bank + off + 16384 * size ≤ min Config.sliceBytes ((s.job s.turn).gran * Config.granuleBytes)

/-- R302-R304, R306: writes a tile to a handle. Of an undefined handle and an offset that is no multiple of 256, the handle-state violation
is raised: the spec orders neither check before the other. DESIGN CHOICE, unsafe (log 61). -/
def execMret (h : Fin 64) (r : Fin 64) (acc : Fin 8) (fmt : Fin 8) (pub : Bool) (clr : Bool) (rm : Fin 4) (sat : Bool) (s : State) : Host.Outcome State Fault Refusal :=
  s.word (.mret h r acc fmt pub clr rm sat) fun s =>
    let k := s.cur
    let x := k.handle h
    let off := (k.rd r).toNat
    if x.mretBusy != 0 || !k.mill.room then stalled
    else if !x.defd then trapped 16 h
    else match x.fill 0 with
      | none => stalled
      | some x' =>
        if !s.tileFits x x.fillBank off (retBytes fmt) then trapped 3
        else
          (s.setCur (k.setHandle h { x' with mretBusy := 1 })).issueCmd
            { k.command (.mret h fmt rm pub clr sat) acc with off := off, bank := x.fillBank }

/-- R305: bytes of an element that `mld` reads. -/
def loadBytes (fmt : Nat) : Nat := if fmt = 0 then 4 else 2

/-- R305: loads a tile from a handle, with its checks in the order of `mret` (log 61). -/
def execMld (h : Fin 64) (r : Fin 64) (acc : Fin 8) (fmt : Fin 4) (gen : Bool) (s : State) : Host.Outcome State Fault Refusal :=
  s.word (.mld h r acc fmt gen) fun s =>
    let k := s.cur
    let x := k.handle h
    let off := (k.rd r).toNat
    if x.mretBusy != 0 || !k.mill.room then stalled
    else if !x.defd then trapped 16 h
    else if !x.readable gen then stalled
    else if !s.tileFits x x.visible off (loadBytes fmt) then trapped 3
    else
      (s.claimAll s.turn [h.val]).issueCmd
        { k.command (.mld h fmt) acc with off := off, bank := x.visible, readers := [h.val] }

/-- R307: zeroes a tile. -/
def execMclr (acc : Fin 8) (s : State) : Host.Outcome State Fault Refusal :=
  s.word (.mclr acc) fun s => s.issueCmd (s.cur.command .mclr acc)

/-- R308: waits for a tile; the wait is that of its busy bit. -/
def execMwait (acc : Fin 8) (s : State) : Host.Outcome State Fault Refusal :=
  s.word (.mwait acc) fun s => .ok s

/-- R308: waits until both command sets are empty. -/
def execMwaitAll (s : State) : Host.Outcome State Fault Refusal :=
  s.word (.mwaitAll) fun s => if s.cur.mill.active.isNone && s.cur.mill.shadow.isNone then .ok s else stalled

/-- R309: the group of a profile. -/
def profileGroup (pf : Nat) : Nat :=
  match pf with
  | 0 => 0
  | 5 => 0
  | 2 => 2
  | 7 => 2
  | 3 => 3
  | _ => 1

/-- R309: prepares the Millstone for a profile. -/
def execMprof (pf : Fin 32) (s : State) : Host.Outcome State Fault Refusal :=
  s.word (.mprof pf) fun s =>
    let k := s.cur
    if 8 ≤ pf.val then trapped 10
    else .ok (if k.mill.active.isNone && k.mill.shadow.isNone then
      s.setCur { k with mill := { k.mill with group := profileGroup pf } } else s)

/-! ### Tensor registers -/

/-- R46, R288: loads a tensor identifier entry. The access carries sr.mbtag, which selects the version (R88), and the end of the window. -/
def execTload (d : Fin 64) (a : Fin 64) (imm : BitVec 11) (s : State) : Host.Outcome State Fault Refusal :=
  s.word (.tload d a imm) fun s =>
    let i := ((s.cur.rd a) + s.imm32 imm).toNat
    let x := s.vd (s.coreVd s.turn)
    if x.tidCount.toNat ≤ i then trapped 3
    else s.push { Access.base .tload true (x.tidBase.toNat * 128 + i * 128) 128 with
      reg := d, data := leBytes 4 s.cur.mbtag.toNat, data2 := leBytes 9 ((x.lastPg.toNat + 1) * 4096) }

/-- R289: one part of a tensor register's view. -/
def TReg.tset (t : TReg) (v : Nat) (x y : Word) : TReg :=
  match v with
  | 0 => { t with row0 := x.toNat, col0 := y.toNat }
  | 1 => { t with i2 := x.toNat, i3 := y.toNat }
  | 2 => { t with wr := x.toNat, wc := y.toNat }
  | 3 => { t with rs := x, cs := y }
  | _ => { t with eg := x.getLsbD 0 }

/-- R289: writes one part of a tensor register, with latency 1. -/
def execTset (d : Fin 64) (a : Fin 64) (imm : BitVec 11) (s : State) : Host.Outcome State Fault Refusal :=
  s.word (.tset d a imm) fun s =>
    let k := s.cur
    s.landAt 1 (.treg d ((k.treg d).tset imm.toNat (k.rd a) (k.rd (a + 1))))

end Sys2Proof.Machine
end

