-- ==== Sys2Proof/Machine/System.lean ====
section
/-! DEFINITION. System registers and system words (R167, R205, R372, R436-R439), and the resolution of a fault-queue entry (R428). -/

namespace Sys2Proof.Machine

/-- R146: no effect. -/
def execNop (s : State) : Host.Outcome State Fault Refusal :=
  s.word (.nop) fun s => .ok s

/-- R152: no effect of its own; it extends the immediate of the next word. -/
def execLimm (imm : BitVec 23) (s : State) : Host.Outcome State Fault Refusal :=
  s.word (.limm imm) fun s => .ok s

/-! ### System registers -/

/-- R167: the value of a system register of core `c`. -/
def Core.sysreg (k : Core) (c n : Nat) : Nat :=
  match n with
  | 0 => c
  | 1 => k.lid
  | 2 => k.widx
  | 3 => k.fpos
  | 4 => k.flen
  | 0x10 => k.mbtag.toNat
  | 0x11 => k.ostep.toNat
  | 0x20 => k.rngkey.toNat
  | 0x21 => k.rngctr.toNat
  | 0x22 => k.fctl.toNat
  | 0x30 => k.tail.rsp
  | 0x31 => k.tail.rsbase.toNat
  | 0x32 => k.tail.low * 2 ^ 16 + k.tail.high
  | 0x40 => k.tok.toNat
  | 0x41 => k.scb.toNat
  | 0x50 => k.freeze.toNat
  | 0x51 => k.cycle.toNat
  | _ => 0

/-- R167: the width in which a system register moves. -/
def sysregWidth (n : Nat) : Width := if sysregBits n = 64 then .d else .s

/-- R205: reads a system register as it stands at issue. -/
def execMfsr (d : Fin 64) (imm : BitVec 17) (s : State) : Host.Outcome State Fault Refusal :=
  s.word (.mfsr d imm) fun s =>
    s.putScalar 1 (sysregWidth imm.toNat) d (s.cur.sysreg s.turn imm.toNat) (some s.bun.pipe)

/-- R205, R260: writes a system register with latency 1; the Tailrace base only while the stack is empty before the bundle (R169). -/
def execMtsr (d : Fin 64) (imm : BitVec 17) (s : State) : Host.Outcome State Fault Refusal :=
  s.word (.mtsr d imm) fun s =>
    if imm.toNat = 0x31 && s.prior.tail.rsp != 0 then trapped 13
    else s.landAt 1 (.sysreg imm.toNat (BitVec.ofNat 64 (s.cur.rdW (sysregWidth imm.toNat) d)))

/-! ### Suspension -/

/-- R278, R372: a suspension point; the continuation suspends once the waits of R372 are over. -/
def State.suspend (s : State) (kind h : Nat) (gen : Bool) : Eff :=
  if s.cur.tail.rsp != 0 then trapped 15
  else .ok (s.setCur { s.cur with mode := .suspending kind h gen })

/-- R372: suspends the continuation at the next bundle. -/
def execYieldItem (s : State) : Host.Outcome State Fault Refusal :=
  s.word (.yieldItem) fun s => s.suspend 1 0 false

/-- R372: ends the continuation. -/
def execEndItem (s : State) : Host.Outcome State Fault Refusal :=
  s.word (.endItem) fun s => s.suspend 0 0 false

/-! ### Traps, halts, system calls -/

/-- R436: a program trap, or the halted state before the bundle under TSTOP. -/
def State.programTrap (s : State) (code : Nat) : Eff :=
  if (s.vd (s.coreVd s.turn)).tstop then .ok (s.haltCore s.turn)
  else .error (.trap { cls := 19, code := code })

/-- R436: raises a program trap. -/
def execTrap (imm : BitVec 17) (s : State) : Host.Outcome State Fault Refusal :=
  s.word (.trap imm) fun s => s.programTrap imm.toNat

/-- R436: enters the halted state at the next bundle where a debugger is attached, else acts as `trap 0`. -/
def execHalt (s : State) : Host.Outcome State Fault Refusal :=
  s.word (.halt) fun s =>
    if !(s.vd (s.coreVd s.turn)).dbgEn then s.programTrap 0
    else if s.follows then .ok s
    else .ok (s.haltCore s.turn)

/-- R437: parks the continuation at the next bundle with a system-call entry. -/
def execSysc (d : Fin 64) (imm : BitVec 17) (s : State) : Host.Outcome State Fault Refusal :=
  s.word (.sysc d imm) fun s =>
    .ok (s.beginPark s.turn { cls := 0, addr := (s.cur.rd d).toNat, kind := 7, code := imm.toNat, reg := d })

/-- R439: fires the snapshot trigger where SNCTL.SNAP allows it. -/
def execSnap (imm : BitVec 17) (s : State) : Host.Outcome State Fault Refusal :=
  s.word (.snap imm) fun s =>
    let v := s.coreVd s.turn
    .ok (if (s.vd v).snCtl.getLsbD 0 then s.fireSnapshot v imm.toNat 1 else s)

/-! ### Resolution -/

/-- R428, R437: the contexts of an entry return to the cores from `lead`, and the register of a `sysc` takes the value. -/
def State.unparkAll (s : State) (lead c : Nat) (e : FqEntry) (mask : Nat) (val : Word) : List (Nat × Core) → State
  | [] => s
  | (frm, k) :: ks =>
    let s := s.unpark c frm lead k mask
    let k' := s.core c
    let s := if e.kind = 7 && e.dreg != 0 then s.setCore c { k' with sregs := Map.put k'.sregs e.dreg val } else s
    s.unparkAll lead (c + 1) e mask val ks

/-- R428: an entry without a frame is resolved: the waiting core, flight, channel or operation goes on in place. -/
def State.resumeInPlace (s : State) (v : Nat) (e : FqEntry) (mask : Nat) (val : Word) : State :=
  let x := s.vd v
  let s := s.setVd v { x with fq := x.fq.filter fun f => f.seq != e.seq }
  if e.kind = 4 && e.parked.isEmpty then
    let ch := (s.core e.core).channel e.channel
    if ch.parkedSeq = e.seq then s.setCore e.core ((s.core e.core).setChannel e.channel { ch with state := 1, parkedSeq := 0 }) else s
  else if e.kind = 5 && e.parked.isEmpty then
    let x := s.vd v
    let go (o : WOp) : WOp := if o.held = e.seq then { o with held := 0 } else o
    s.setVd v { x with comms := Map.modify Comm.reset x.comms e.comm fun m => { m with queue := m.queue.map go } }
  else
    match e.parked with
    | [] => s
    | (c, k) :: ks => s.unparkAll c c e mask val ((c, k) :: ks)

/-- R428, R438: a resolution of entry SEQ with a settling mask and a value. What waits in place while its gang is switched out goes
on when the gang resumes. -/
def State.resolve (s : State) (v seq mask : Nat) (val : Word) : State :=
  let x := s.vd v
  match x.fq.find? fun e => e.seq % 2 ^ 32 = seq && e.kind != 8 && e.resolved.isNone with
  | none => s
  | some e =>
    if e.frame = 0xFFFF && x.run then s.resumeInPlace v e mask val
    else s.setVd v { x with fq := x.fq.map fun f => if f.seq = e.seq then { f with resolved := some (mask, val) } else f }

/-- R438: resolves an entry of the own virtual device, where FQCTL.DRES permits it. -/
def execResume (d : Fin 64) (a : Fin 64) (b : Fin 64) (s : State) : Host.Outcome State Fault Refusal :=
  s.word (.resume d a b) fun s =>
    let v := s.coreVd s.turn
    if !(s.vd v).fqDres then trapped 6
    else .ok (s.resolve v (s.cur.rd a).toNat ((s.cur.rd b).toNat % 2 ^ 16) (s.cur.rd d))

end Sys2Proof.Machine
end

