-- ==== Sys2Proof/Machine/Engine.lean ====
section
/-! DEFINITION. The words that command the engines: Flume channels, handles and communicators (R335-R346). -/

namespace Sys2Proof.Machine

/-! ### Channels -/

/-- R90: a chain enters a channel: active at once where the channel is idle or halted, else the shadow set. -/
def Channel.enter (x : Channel) (ch : Chain) : Channel :=
  if x.state = 0 || x.state = 4 then { x with state := 1, active := some ch, next := some ch.ptr } else { x with shadow := some ch }

/-- R288: is a tensor register busy? -/
def Core.tregBusy (k : Core) : Bool := (List.range 16).any fun n => k.busy (.t n)

/-- R90, R335: latches a chain with a snapshot into the channel. -/
def execFlow (a : Fin 64) (ch : Fin 2) (s : State) : Host.Outcome State Fault Refusal :=
  s.word (.flow a ch) fun s =>
    let k := s.cur
    if (k.channel ch).shadow.isSome || s.prior.tregBusy then stalled
    else .ok (s.setCur (k.setChannel ch ((k.channel ch).enter
      { ptr := BitVec.ofNat 64 (k.rdW .d a), snap := k.snapshot, issued := k.sched })))

/-- R117: the channel status word. -/
def Channel.status (x : Channel) : Nat :=
  x.done.toNat * 2 ^ 32 + x.state * 2 ^ 29 + b2n x.shadow.isSome * 2 ^ 28 + x.stat * 2 ^ 24

/-- R336: the channel status word, as it stands. -/
def execFpoll (d : Fin 64) (ch : Fin 2) (s : State) : Host.Outcome State Fault Refusal :=
  s.word (.fpoll d ch) fun s => s.landAll 1 (regLandings d (splitWords 2 (s.cur.channel ch).status))

/-- R117, R337: the channel once its unstarted records are gone: halted, or running on until its started records end. -/
def Channel.cut (x : Channel) : Channel :=
  let recs := x.recs.filter (·.started)
  { x with state := if recs.isEmpty then 4 else 1, active := none, shadow := none, next := none, recs := recs, parkedSeq := 0 }

/-- R337: asks the channel to stop. -/
def State.haltChannel (s : State) (c n : Nat) : State :=
  let x := (s.core c).channel n
  if x.state = 5 then s
  else
    let s := s.abandonAll c (x.recs.filter fun r => !r.started)
    s.setCore c ((s.core c).setChannel n x.cut)

/-- R337: halts a channel. -/
def execFhalt (ch : Fin 2) (s : State) : Host.Outcome State Fault Refusal :=
  s.word (.fhalt ch) fun s => .ok (s.haltChannel s.turn ch)

/-! ### Handles -/

/-- R306: a word that names a handle waits while an `mret` of an earlier bundle holds it busy. -/
def State.onHandle (s : State) (h : Nat) (f : Handle → Eff) : Eff :=
  if (s.prior.handle h).mretBusy != 0 then stalled else f (s.cur.handle h)

/-- R339: the changed handle, or the violation. -/
def State.changeHandle (s : State) (h : Nat) : Option Handle → Eff
  | some x => .ok (s.setCur (s.cur.setHandle h x))
  | none => trapped 16 h

/-- R134, R338, R363: are `hdef`'s operands and its region, which starts at BASE = s[20:8], legal for the launch? -/
def State.regionFits (s : State) (base size : Nat) (x : Handle) : Bool :=
  base % 256 = 0 && size % 256 = 0 && size != 0 && size ≤ Config.sliceBytes && x.regionOk
    && x.base * 256 + x.bankSize * (1 + b2n x.dbl) ≤ min Config.sliceBytes ((s.job s.turn).gran * Config.granuleBytes)

/-- R136, R338: defines a handle. Of the window fault of the region rule and the violation of a handle in use, whose order the spec does
not give, the window fault comes first. DESIGN CHOICE, unsafe (log 61). -/
def execHdef (h : Fin 64) (r : Fin 64) (dbl : Bool) (s : State) : Host.Outcome State Fault Refusal :=
  s.word (.hdef h r dbl) fun s =>
    s.onHandle h fun x =>
      let base := (s.cur.rd r).toNat
      let size := (s.cur.rd (r + 1)).toNat
      let y := Handle.define (fld base 20 8) (size / 256 - 1) dbl
      if !s.regionFits base size y then trapped 3 base
      else s.changeHandle h (if x.idle then some y else none)

/-- R136, R339: sets generation and swizzle tag. -/
def execHset (h : Fin 64) (tag : Fin 4) (gen : Bool) (s : State) : Host.Outcome State Fault Refusal :=
  s.word (.hset h tag gen) fun s =>
    s.onHandle h fun x => s.changeHandle h (if x.defd then x.set tag gen else none)

/-- R136, R340: is the handle ready or draining in the generation named, with no swap pending? -/
def Handle.awaited (x : Handle) (gen : Bool) : Bool := (x.state = 2 || x.state = 3) && x.gen = gen && x.shs != 2

/-- R340: waits for a handle, or suspends the continuation in place of the bundle. -/
def execAwait (h : Fin 64) (y : Bool) (gen : Bool) (s : State) : Host.Outcome State Fault Refusal :=
  s.word (.await h y gen) fun s =>
    s.onHandle h fun x =>
      if !x.defd then trapped 16 h
      else if x.awaited gen then .ok s
      else if y && !s.follows then s.suspend 2 h gen
      else stalled

/-- R111: `hrel` has acted on the handle: a withdrawn release of a record leaves it draining. -/
def Channel.released (x : Channel) (h : Nat) : Channel :=
  { x with recs := x.recs.map fun r => if r.pend = some h then { r with drained := false } else r }

/-- R136, R339: releases a handle. -/
def execHrel (h : Fin 64) (s : State) : Host.Outcome State Fault Refusal :=
  s.word (.hrel h) fun s =>
    s.onHandle h fun x =>
      match (if x.defd then x.release else none) with
      | none => trapped 16 h
      | some y =>
        let k := s.cur.setHandle h y
        .ok (s.setCur ((k.setChannel 0 ((k.channel 0).released h)).setChannel 1 ((k.channel 1).released h)))

/-- R339: is a store of an earlier bundle to the handle still in flight? -/
def Core.storing (k : Core) (h : Nat) : Bool :=
  k.inflight.any fun f => f.at_ < k.sched && (match f.what with | .bank n _ _ => n = h | _ => false)

/-- R136, R339: publishes a handle once what fills it has landed. -/
def execHpub (h : Fin 64) (s : State) : Host.Outcome State Fault Refusal :=
  s.word (.hpub h) fun s =>
    s.onHandle h fun x =>
      if !x.defd then trapped 16 h
      else if (s.prior.handle h).fillers != 0 then stalled
      else if s.cur.storing h then .error .tick
      else s.changeHandle h x.publish

/-! ### Communicators -/

/-- R341: the communicator that a register names, or the protection fault. -/
def State.onComm (s : State) (a : Fin 64) (f : Nat → Comm → Eff) : Eff :=
  let n := (s.cur.rd a).toNat
  match (s.vd (s.coreVd s.turn)).comms.lookup n with
  | none => trapped 6
  | some m => f n m

/-- Replaces a communicator of a virtual device. -/
def State.setComm (s : State) (v n : Nat) (m : Comm) : State :=
  s.setVd v { s.vd v with comms := Map.put (s.vd v).comms n m }

/-- R342: an operation as it is posted. -/
def State.operation (s : State) (m : Comm) (bar : Bool) (ptr : Nat) : WOp :=
  { index := m.posted, core := s.turn, launch := s.cur.job.getD 0, issued := s.cur.sched, bar := bar, ptr := BitVec.ofNat 64 ptr, words := [],
    started := false, head := none, source := [], sent := 0, held := 0 }

/-- R342: appends an operation; a ninth waits. -/
def State.post (s : State) (n : Nat) (m : Comm) (bar : Bool) (ptr : Nat) : Eff :=
  if 8 ≤ m.queue.length then stalled
  else .ok (s.setComm (s.coreVd s.turn) n { m with posted := m.posted + 1, queue := m.queue ++ [s.operation m bar ptr] })

/-- R342: posts a collective. -/
def execWpost (a : Fin 64) (b : Fin 64) (s : State) : Host.Outcome State Fault Refusal :=
  s.word (.wpost a b) fun s => s.onComm a fun n m => s.post n m false (s.cur.rdW .d b)

/-- R346: posts a barrier. -/
def execWbar (a : Fin 64) (s : State) : Host.Outcome State Fault Refusal :=
  s.word (.wbar a) fun s => s.onComm a fun n m => s.post n m true 0

/-- R346: the status word of a communicator, for launch `l`. -/
def Comm.status (m : Comm) (l : Nat) : Nat :=
  Map.get 0 m.done l % 2 ^ 32 * 2 ^ 32
    + (if m.failed then 2 else if m.queue.isEmpty then 0 else 1) * 2 ^ 29 + m.queue.length * 2 ^ 25

/-- R346: the status word of a communicator. -/
def execWpoll (d : Fin 64) (a : Fin 64) (s : State) : Host.Outcome State Fault Refusal :=
  s.word (.wpoll d a) fun s => s.onComm a fun _ m => s.landAll 1 (regLandings d (splitWords 2 (m.status (s.cur.job.getD 0))))

/-- R346: one fact of a communicator. -/
def Comm.fact (m : Comm) (q : Nat) : Nat :=
  match q with
  | 0 => m.rank
  | 1 => m.size
  | 2 => m.prio
  | _ => m.quota

/-- R346: one fact of a communicator; every fact of none is 0. -/
def execWcomm (d : Fin 64) (a : Fin 64) (sub : Fin 8) (s : State) : Host.Outcome State Fault Refusal :=
  s.word (.wcomm d a sub) fun s =>
    let n := (s.cur.rd a).toNat
    s.landAll 1 (regLandings d [BitVec.ofNat 32 ((Map.get Comm.reset (s.vd (s.coreVd s.turn)).comms n).fact sub)])

end Sys2Proof.Machine
end

