-- ==== Sys2Proof/Machine/Governor.lean ====
section
/-! DEFINITION. The Governor: its limit, its window of charges and who goes first (R191-R194, R488), and what holds a core or its Millstone. -/

namespace Sys2Proof.Machine

/-- R194, R488: the limit in force. -/
def State.governorLimit (s : State) : Nat :=
  if s.throt then max (s.govLimit.toNat / 2) 256 else s.govLimit.toNat

/-- R191: the charges of the 63 cycles before cycle `c` of the core, and of that one. -/
def Core.charged (k : Core) (c : Nat) : Nat := ((k.charges.filter fun e => c < e.1 + 64).map (·.2)).sum

/-- R191: may a candidate of this weight start in cycle `c`? -/
def State.governorAllows (s : State) (k : Core) (c w : Nat) : Bool := !s.govEn || k.charged c + w ≤ s.governorLimit

/-- R191: a candidate of this weight is charged in cycle `c`. -/
def Core.charge (k : Core) (c w : Nat) : Core :=
  { k with charges := (c, w) :: k.charges.filter fun e => c < e.1 + 64 }

/-- R191: the weight of a wave that has been ready for longer than the bundle, and is charged before it. -/
def Core.olderWave (k : Core) : Nat :=
  match k.mill.waveReady with
  | some (r, w) => if r < (match k.readyAt with | some (b, _) => b | none => k.wall) then w else 0
  | none => 0

/-- R191: the core cycle in which a wave is a candidate: the one that has just ended, whose bundle has been charged or refused by now,
so that on a tie the bundle has gone first. -/
def Core.waveCycle (k : Core) : Nat := k.wall - 1

/-- R191: the weight of a bundle that can issue and has been ready for no shorter than the wave, and is charged before it. -/
def Core.olderBundle (k : Core) : Nat :=
  match k.readyAt with
  | some (b, w) =>
    if k.mode = .running && b ≤ (match k.mill.waveReady with | some (r, _) => r | none => k.waveCycle) then w else 0
  | none => 0

/-- R191: does the core's next bundle, of this weight, start in this cycle, after a wave that goes before it? -/
def State.bundleAllowed (s : State) (k : Core) (w : Nat) : Bool := s.governorAllows k k.wall (k.olderWave + w)

/-- R191: does a wave of this weight start in this cycle, after a bundle that goes before it? -/
def State.waveAllowed (s : State) (k : Core) (w : Nat) : Bool := s.governorAllows k k.waveCycle (k.olderBundle + w)

/-! ### Holds -/

/-- R414, R435: has the core stopped issuing because its cluster is to be saved by a gang switch? -/
def State.switching (s : State) (c : Nat) : Bool :=
  match s.gangs.lookup (s.coreGid c) with
  | some g => (s.core c).job.isSome && g.saving.contains (c / 16)
  | none => false

/-- R414, R445, R488: is the core held by the debugger, by a thermal hold, or by a gang switch? -/
def State.holdsCore (s : State) (c : Nat) : Bool := s.hold || (s.vd (s.coreVd c)).halted || s.switching c

/-- R445, R446, R488: does the Millstone hold at its handshake? The debugger lets one of them run its active command. -/
def State.holdsMill (s : State) (c : Nat) : Bool :=
  s.hold || ((s.vd (s.coreVd c)).halted && (s.vd (s.coreVd c)).dbgMill != some c)

/-- R445, R446: do the Flume channels of the core stand still for the debugger? -/
def State.holdsFlume (s : State) (c : Nat) : Bool :=
  s.hold || ((s.vd (s.coreVd c)).halted && !(s.vd (s.coreVd c)).stepping)

end Sys2Proof.Machine
end

