-- ==== Sys2Proof/Machine/Place.lean ====
section
/-! DEFINITION. Placement of work items, scope instances, and what a phase releases and closes (R322-R326, R332, R365-R368). -/

namespace Sys2Proof.Machine

/-! ### Work items -/

/-- R365: the cores of a launch on this device, in increasing number. -/
def Launch.cores (x : Launch) : List Nat := x.clusters.flatMap fun c => tabulate 16 fun i => 16 * c + i

/-- R362: the extents of the levels, outermost first. -/
def Launch.extents (x : Launch) : List Nat := tabulate x.nlev x.ext

/-- R365: the number of work items. -/
def Launch.count (x : Launch) : Nat := x.extents.foldl (· * ·) 1

/-- R366: the digits of an item in mixed radix. -/
def digits : List Nat → Nat → List Nat
  | [], _ => []
  | e :: es, w => w / es.foldl (· * ·) 1 % e :: digits es w

/-- R366: consecutive levels of one domain, merged: the domain, the extent, the index of an item and the scope of the first. -/
structure Group where
  dom : Nat
  ext : Nat
  idx : Nat
  scope : Nat
  deriving DecidableEq, Repr

/-- R366: merges levels. -/
def mergeGroups : List Group → List Group
  | [] => []
  | g :: gs =>
    match mergeGroups gs with
    | h :: hs =>
      if h.dom = g.dom then { dom := g.dom, ext := g.ext * h.ext, idx := g.idx * h.ext + h.idx, scope := g.scope } :: hs else g :: h :: hs
    | [] => [g]

/-- R366: the groups of item `w`, outermost first. -/
def Launch.groups (x : Launch) (w : Nat) : List Group :=
  mergeGroups ((digits x.extents w).zipIdx.map fun (i, l) => { dom := x.dom l, ext := x.ext l, idx := i, scope := x.levScope l })

/-- R363, R375: the length of a flight, 1 without a flight level. -/
def Launch.flightLen (x : Launch) : Nat :=
  if (List.range x.nlev).any (fun l => x.dom l = 3) then x.flenF + 1 else 1

/-- Splits cores by a key, keeping their order. -/
def splitBy (key : Nat → Nat) (u : List Nat) : List (List Nat) :=
  (u.foldl (fun m c => Map.put m (key c) (Map.get [] m (key c) ++ [c])) ([] : Map (List Nat))).map (·.2)

/-- R366, R375: the instances of a domain within a set of cores. -/
def Launch.instances (x : Launch) (dom : Nat) (u : List Nat) : List (List Nat) :=
  match dom with
  | 1 => splitBy (· / 320) u
  | 2 => splitBy (· / 16) u
  | 3 => (splitBy (fun c => c / 16 * 16 + c % 16 / x.flightLen) u).filter fun f => f.length = x.flightLen && f.headD 0 % 16 % x.flightLen = 0
  | _ => u.map fun c => [c]

/-- R366: the sets of cores on which an item with these groups may run, one for each choice of the Sluice. -/
def Launch.placeIn (x : Launch) (rank : Nat) : List Group → Bool → List Nat → List (List Nat)
  | [], _, u => [u]
  | g :: gs, flight, u =>
    if g.dom = 5 then [u]
    else if g.dom = 0 then (if g.idx = rank then x.placeIn rank gs flight u else [])
    else
      let inst := if g.dom = 4 && flight then [u] else x.instances g.dom u
      if x.det then
        (match inst[g.idx % inst.length]? with | some v => x.placeIn rank gs (flight || g.dom = 3) v | none => [])
      else inst.flatMap fun v => x.placeIn rank gs (flight || g.dom = 3) v

/-- R403: the rank of this device among the members of a virtual device's gang. -/
def State.rankOf (s : State) (v : Nat) : Nat :=
  match s.gangs.lookup (s.vd v).gid with
  | some g => g.rank
  | none => 0

/-- R366: Place. -/
def State.place (s : State) (x : Launch) (w : Nat) : List (List Nat) := x.placeIn (s.rankOf x.vd) (x.groups w) false x.cores

/-- R366, R375: may item `w` run on core `c`, or on the flight that `c` leads? -/
def State.mayRun (s : State) (x : Launch) (w c : Nat) : Bool :=
  (s.place x w).any fun u => if x.flightLen = 1 then u.contains c else u.headD 0 = c

/-- The items that this device runs and that no core has started. -/
def State.unstarted (s : State) (x : Launch) : List Nat :=
  (List.range x.count).filter fun w => !Map.has x.items w && !(s.place x w).isEmpty

/-! ### Scope instances -/

/-- R322: the launch's cores on this device in the scope instance of core `c`. -/
def Launch.scopeInst (x : Launch) (sc c : Nat) : List Nat :=
  match sc with
  | 0 => [c]
  | 1 => x.cores.filter fun d => d / 16 = c / 16
  | 2 => x.cores.filter fun d => d / 320 = c / 320
  | _ => x.cores

/-- R323: is a continuation of launch `l` suspended or parked from core `c`? -/
def State.leftOn (s : State) (l c : Nat) : Bool :=
  let x := s.launch l
  x.suspended.any (fun e => e.2.1 = c) || (s.vd x.vd).fq.any fun e => e.launch = l && e.parked.any fun p => p.1 = c

/-- R323: does an unfinished continuation of launch `l` remain on core `c`: running there, suspended or parked there, or an item
that the core may still start? -/
def State.remains (s : State) (l c : Nat) : Bool :=
  let x := s.launch l
  ((s.core c).job = some l && (s.core c).mode != .idle) || s.leftOn l c
    || (s.unstarted x).any fun w => (s.place x w).any (·.contains c)

/-- R323, R326: does core `c` count as arrived at a barrier word of this kind and scope? -/
def State.arrived (s : State) (l c : Nat) (b : Barrier) : Bool :=
  match (s.core c).barrier with
  | some d => d.kind = b.kind && d.scope = b.scope
  | none => !s.remains l c

/-- R357, R414: has a switch taken contexts of launch `l` off some of its cores? What they hold and wait for is with the gang then, so
that nothing of the launch that joins its cores completes before they are back. -/
def State.taken (s : State) (l : Nat) : Bool :=
  match s.gangs.lookup (s.vd (s.launch l).vd).gid with
  | some g => g.saved.any fun e => e.2.job = some l
  | none => false

/-- R351: has every earlier access of the core been performed, and every update that it sent arrived? -/
def State.quietCore (s : State) (c : Nat) : Bool :=
  (s.core c).gq.isEmpty && (s.core c).mq.isEmpty && s.held.all fun u => u.core != c || u.place != 0

/-! ### Releasing stores -/

/-- The bytes of a line with their addresses. -/
def SqLine.cells (l : SqLine) : List (Nat × Byte) :=
  (l.data.zipIdx.filter fun (_, i) => l.mask.getLsbD i).map fun (b, i) => (64 * l.block + i, b)

/-- R324: performs the bytes of a held store of virtual device `v`. -/
def State.performCells (s : State) (v : Nat) (m : Bool) : List (Nat × Byte) → State
  | [] => s
  | (a, b) :: t =>
    (if m then s.mPoke v a [b] else (s.takeGranule (s.vd v).gid (a / Config.granuleBytes)).gStore (s.vd v).gid a [b]).performCells v m t

/-- R42, R56, R324: performs lines of a store queue, each a request of its own. -/
def State.performLines (s : State) (v : Nat) : List SqLine → State
  | [] => s
  | l :: ls => ((if l.m then (s.noteHeld v (64 * l.block)).chargeLines v [l.block] else s).performCells v l.m l.cells).performLines v ls

/-- R54: the first key fault that the release of held stores of scope at most `sc` meets, with its core. -/
def State.releaseFault (s : State) (v sc : Nat) (cs : List Nat) : Option (Nat × Trap) :=
  cs.findSome? fun c => (s.core c).sq.findSome? fun l =>
    if l.m && l.scope ≤ sc then (s.pokeFault v (64 * l.block)).map fun t => (c, { t with kind := 1 }) else none

/-- R324: releases every held store of core `c` with a scope at most `sc`. -/
def State.release (s : State) (v sc c : Nat) : State :=
  let k := s.core c
  (s.setCore c { k with sq := k.sq.filter fun l => sc < l.scope }).performLines v (k.sq.filter fun l => l.scope ≤ sc)

/-- R353: releases the stores of several cores, core after core in the order of the list, so that of two cores' stores to one word that one
phase releases the last core's stands. Which one stands is unspecified. DESIGN CHOICE, unsafe (log 80). -/
def State.releaseAll (s : State) (v sc : Nat) : List Nat → State
  | [] => s
  | c :: cs => (s.release v sc c).releaseAll v sc cs

/-- R127: the granules of held stores of the scope. -/
def State.releaseGranules (s : State) (sc : Nat) (cs : List Nat) : List Nat :=
  cs.flatMap fun c => ((s.core c).sq.filter fun l => !l.m && l.scope ≤ sc).map (·.block / 1024)

/-- R127: the granules of lines of store queues. -/
def lineGranules (ls : List SqLine) : List Nat := (ls.filter fun l => !l.m).map (·.block / 1024)

/-! ### Closing ordered updates -/

/-- R330: the issuer key. -/
def OUpdate.key (u : OUpdate) : Nat := u.core * 2 ^ 42 + u.lane * 2 ^ 32 + u.seq

/-- Inserts an update by its issuer key. -/
def insertUpdate (u : OUpdate) : List OUpdate → List OUpdate
  | [] => [u]
  | w :: ws => if u.key ≤ w.key then u :: w :: ws else w :: insertUpdate u ws

/-- R332: updates in ascending issuer key. Of two with one key, as where a narrower phase between them has started SEQ again, the one that
left its core first comes first; the spec has no rule for them. DESIGN CHOICE, unsafe (log 86). -/
def sortUpdates : List OUpdate → List OUpdate
  | [] => []
  | u :: us => insertUpdate u (sortUpdates us)

end Sys2Proof.Machine
end

