-- ==== Sys2Proof/Machine/PlaneMem.lean ====
section
/-! DEFINITION. Plane memory (R235-R237). -/

namespace Sys2Proof.Machine

/-- The enabled lanes of a mask, in lane order. -/
def enabledLanes (m : BitVec 1024) : List Nat := (List.range lanes).filter fun i => m.getLsbD i

/-- R163: the lanes of a plane image from an address, with the lanes of a mask. -/
def imageLanes (m : BitVec 1024) (a : Nat) : List (Nat × Nat) := (enabledLanes m).map fun i => (i, a + 4 * i)

/-- The words of a plane at lanes, as stored: each lane's address and its word. -/
def laneWrites (v : List Word) (ls : List (Nat × Nat)) : List (Nat × Word) := ls.map fun (i, a) => (a, lane v i)

/-- The bytes of a plane's lanes. -/
def laneBytes (v : List Word) (ls : List (Nat × Nat)) : List Byte := ls.flatMap fun (i, _) => leBytes 4 (lane v i).toNat

/-- R235: the address of a plane image. -/
def Core.planeAddr (k : Core) (r : Fin 64) (n : Fin 16) : Nat := (k.rd r).toNat + n.val * 4096

/-- A word of the own slice. -/
def State.lWord (s : State) (c a : Nat) : Word := BitVec.ofNat 32 (leNat (s.lRead c a 4))

/-- R235: reads the plane image at a slice offset now; it lands 8 cycles later. -/
def State.planeLoad (s : State) (d a : Nat) (m : BitVec 1024) : Eff :=
  s.landAt 8 (.plane d m (tabulate lanes fun i => if m.getLsbD i then s.lWord s.turn (a + 4 * i) else 0))

/-- R235: the enabled lanes of a plane, written to the slice 8 cycles later. -/
def State.planeStore (s : State) (d a : Nat) (m : BitVec 1024) : Eff :=
  s.landAt 8 (.lanes (laneWrites (s.cur.plane d) (imageLanes m a)))

/-- R235: L plane load. -/
def execPld (d : Fin 16) (k : Fin 16) (r : Fin 64) (mask : Fin 8) (s : State) : Host.Outcome State Fault Refusal :=
  s.word (.pld d k r mask) fun s => s.local (s.cur.planeAddr r k) 4096 4096 fun t =>
    t.planeLoad d (t.cur.planeAddr r k) (t.cur.pred mask)

/-- R235: L plane store. -/
def execPst (d : Fin 16) (k : Fin 16) (r : Fin 64) (mask : Fin 8) (s : State) : Host.Outcome State Fault Refusal :=
  s.word (.pst d k r mask) fun s => s.local (s.cur.planeAddr r k) 4096 4096 fun t =>
    t.planeStore d (t.cur.planeAddr r k) (t.cur.pred mask)

/-- R235: G plane load. -/
def execPldg (d : Fin 16) (k : Fin 16) (r : Fin 64) (mask : Fin 8) (s : State) : Host.Outcome State Fault Refusal :=
  s.word (.pldg d k r mask) fun s =>
    let a := s.cur.planeAddr r k % 2 ^ 32
    s.remote { Access.base .planeLoad false a 4096 with reg := d, lanes := imageLanes (s.cur.pred mask) a }

/-- R235: G plane store. -/
def execPstg (d : Fin 16) (k : Fin 16) (r : Fin 64) (mask : Fin 8) (s : State) : Host.Outcome State Fault Refusal :=
  s.word (.pstg d k r mask) fun s =>
    let a := s.cur.planeAddr r k % 2 ^ 32
    let ls := imageLanes (s.cur.pred mask) a
    s.remote { Access.base .planeStore false a 4096 with reg := d, lanes := ls, data := laneBytes (s.cur.plane d) ls }

/-- R236: the offset of the plane count in the effective immediate. -/
def planeOffset (imm : Word) : Int := imm.toInt / 2 * 4096

/-- R236: plane load through a handle. -/
def execPldh (h : Fin 64) (pl : Fin 16) (imm : BitVec 11) (s : State) : Host.Outcome State Fault Refusal :=
  s.word (.pldh h pl imm) fun s => s.handleRead h (imm.getLsbD 0) (planeOffset (s.imm32 imm)) 4096 fun a t =>
    t.planeLoad pl a (BitVec.allOnes 1024)

/-- R236: plane store through a handle. -/
def execPsth (h : Fin 64) (pl : Fin 16) (imm : BitVec 11) (s : State) : Host.Outcome State Fault Refusal :=
  s.word (.psth h pl imm) fun s => s.handleWrite h (planeOffset (s.imm32 imm)) 4096 fun a t =>
    t.landAt 8 (.bank h a (laneBytes (t.cur.plane pl) (imageLanes (BitVec.allOnes 1024) a)))

/-- R237: the enabled lanes with the addresses that a plane holds. -/
def Core.gatherLanes (k : Core) (a : Fin 16) (mask : Fin 8) : List (Nat × Nat) :=
  (enabledLanes (k.pred mask)).map fun i => (i, (lane (k.plane a) i).toNat)

/-- R122, R237: the first failing lane's fault, every check of its space made for each lane before the next one's. -/
def State.gatherCheck (s : State) (ls : List (Nat × Nat)) (g : Bool) : Option Trap :=
  ls.findSome? fun (_, a) =>
    if g then (gCheck a 4 4).orElse fun _ => if s.ownsG (s.coreVd s.turn) a then none else some (trapOf 6 a) else s.lCheck a 4 4

/-- R130: the granules of all lanes of the own slice. -/
def State.touchLanes (s : State) : List (Nat × Nat) → Eff
  | [] => .ok s
  | (_, a) :: ls => match s.touch s.turn a 4 with
    | .ok s' => s'.touchLanes ls
    | .error e => .error e

/-- R237: gathers a lane from each enabled lane's own address. -/
def execPgather (d : Fin 16) (a : Fin 16) (mask : Fin 8) (g : Bool) (s : State) : Host.Outcome State Fault Refusal :=
  s.word (.pgather d a mask g) fun s =>
    let ls := s.cur.gatherLanes a mask
    match s.gatherCheck ls g with
    | some t => .error (.trap t)
    | none =>
      if g then s.push { Access.base .planeLoad false ((ls.headD (0, 0)).2) 4 with reg := d, lanes := ls }
      else match s.touchLanes ls with
        | .error e => .error e
        | .ok t => t.landAt 8 (.plane d (t.cur.pred mask)
            (tabulate lanes fun i => if (t.cur.pred mask).getLsbD i then t.lWord t.turn (lane (t.cur.plane a) i).toNat else 0))

/-- R237: scatters each enabled lane to its own address; of lanes with one address the highest stands. -/
def execPscatter (d : Fin 16) (a : Fin 16) (mask : Fin 8) (g : Bool) (s : State) : Host.Outcome State Fault Refusal :=
  s.word (.pscatter d a mask g) fun s =>
    let ls := s.cur.gatherLanes a mask
    match s.gatherCheck ls g with
    | some t => .error (.trap t)
    | none =>
      if g then s.push { Access.base .planeStore false ((ls.headD (0, 0)).2) 4 with
        reg := d, lanes := ls, data := laneBytes (s.cur.plane d) ls }
      else match s.touchLanes ls with
        | .error e => .error e
        | .ok t => t.landAt 8 (.lanes (laneWrites (t.cur.plane d) ls))

end Sys2Proof.Machine
end

