-- ==== Sys2Proof/Machine/ScalarFloat.lean ====
section
/-! DEFINITION. The scalar-float words (R206-R209). -/

namespace Sys2Proof.Machine

/-- A scalar register read as FP32. -/
def Core.rdF (k : Core) (r : Nat) : Num := Fmt.f32.decode (k.rd r).toNat

/-- R206: a scalar-float word: its result lands after 4 cycles in `d` and enters bsf. -/
def State.scalarFloat (s : State) (d : Fin 64) (v : Core → Nat) : Eff := s.putScalar 4 .s d.val (v s.cur) (some 2)

/-- R206, R207: a rounded arithmetic result; the flags are discarded. -/
def fround (ops : List Num) (x : Option Num) (rm : Nat) : Nat := (floatOp ops x .f32 rm 0).1

/-- R208: the lesser or the greater of two values, canonical NaN if either is one. −0 orders below +0. -/
def pickNum (greater : Bool) (f : Fmt) (a b : Num) (x y : Nat) : Nat :=
  if a.isNan || b.isNan then f.nan
  else if greater then (if a.lt true b then y else x)
  else (if b.lt true a then y else x)

/-- R208: the predicates of `fcmp`. -/
def fcmpN (sub : Nat) (a b : Num) : Bool :=
  if a.isNan || b.isNan then sub = 3
  else match sub with
    | 0 => a.same b
    | 1 => a.lt false b
    | 2 => !b.lt false a
    | _ => false

/-- R209: `fcvt` by its kind. -/
def fcvtN (kind rm : Nat) (x : Word) : Nat :=
  match kind with
  | 0 => (convert (Fmt.f32.decode x.toNat) (.int true 32) rm false 0).1
  | 1 => (convert (Fmt.f32.decode x.toNat) (.int false 32) rm false 0).1
  | 2 => (convert (.ofInt x.toInt) .f32 rm false 0).1
  | 3 => (convert (.ofInt x.toNat) .f32 rm false 0).1
  | 4 => (convert (Fmt.f32.decode x.toNat) .bf16 rm false 0).1
  | 5 => (convert (Fmt.bf16.decode (x.toNat % 2 ^ 16)) .f32 0 false 0).1
  | 6 => (convert (Fmt.f32.decode x.toNat) .f16 rm false 0).1
  | _ => (convert (Fmt.f16.decode (x.toNat % 2 ^ 16)) .f32 0 false 0).1

/-- R207: d := Round(a + b). -/
def execFadd (d a b : Fin 64) (sub : Fin 8) (s : State) : Host.Outcome State Fault Refusal :=
  s.word (.fadd d a b sub) fun s => s.scalarFloat d fun k =>
    fround [k.rdF a, k.rdF b] (sumExact sub [k.rdF a, k.rdF b]) sub

/-- R207: d := Round(a − b). -/
def execFsub (d a b : Fin 64) (sub : Fin 8) (s : State) : Host.Outcome State Fault Refusal :=
  s.word (.fsub d a b sub) fun s => s.scalarFloat d fun k =>
    fround [k.rdF a, k.rdF b] (sumExact sub [k.rdF a, (k.rdF b).negate]) sub

/-- R207: d := Round(a × b). -/
def execFmul (d a b : Fin 64) (sub : Fin 8) (s : State) : Host.Outcome State Fault Refusal :=
  s.word (.fmul d a b sub) fun s => s.scalarFloat d fun k =>
    fround [k.rdF a, k.rdF b] (mulExact (k.rdF a) (k.rdF b)) sub

/-- R207: d := Round(a × b + d), one rounding. -/
def execFfma (d a b : Fin 64) (sub : Fin 8) (s : State) : Host.Outcome State Fault Refusal :=
  s.word (.ffma d a b sub) fun s => s.scalarFloat d fun k =>
    fround [k.rdF a, k.rdF b, k.rdF d] (sumOf sub [mulExact (k.rdF a) (k.rdF b), some (k.rdF d)]) sub

/-- R207, R208: the lesser value. -/
def execFmin (d a b : Fin 64) (s : State) : Host.Outcome State Fault Refusal :=
  s.word (.fmin d a b) fun s => s.scalarFloat d fun k =>
    pickNum false .f32 (k.rdF a) (k.rdF b) (k.rd a).toNat (k.rd b).toNat

/-- R207, R208: the greater value. -/
def execFmax (d a b : Fin 64) (s : State) : Host.Outcome State Fault Refusal :=
  s.word (.fmax d a b) fun s => s.scalarFloat d fun k =>
    pickNum true .f32 (k.rdF a) (k.rdF b) (k.rd a).toNat (k.rd b).toNat

/-- R208: d := 1 if the predicate holds, else 0. -/
def execFcmp (d a b : Fin 64) (sub : Fin 8) (s : State) : Host.Outcome State Fault Refusal :=
  s.word (.fcmp d a b sub) fun s => s.scalarFloat d fun k => b2n (fcmpN sub (k.rdF a) (k.rdF b))

/-- R209: conversion by the kind in b. -/
def execFcvt (d a b : Fin 64) (sub : Fin 8) (s : State) : Host.Outcome State Fault Refusal :=
  s.word (.fcvt d a b sub) fun s => s.scalarFloat d fun k => fcvtN b sub (k.rd a)

end Sys2Proof.Machine
end

