-- ==== Sys2Proof/Machine/Sync.lean ====
section
/-! DEFINITION. Scope, phases, barriers, fences, atomics, the step vote and the micro-batch tag (R321-R334). -/

namespace Sys2Proof.Machine

/-- R321, R369: the checks of a scope that a word names, then the word: gang scope needs VDPOL.GSCOPE, and no scope is wider than
that of the launch's first level. -/
def State.inScope (s : State) (sc : Nat) (f : Eff) : Eff :=
  if sc = 4 && !(s.vd (s.coreVd s.turn)).gscope then trapped 6
  else if (s.job s.turn).levScope 0 < sc then trapped 15
  else f

/-- R143, R431: the word of an instruction of the bundle as it was fetched, with its C bit. -/
def State.fetched (s : State) (i : Instr) : Word :=
  let last := s.bun.words.isEmpty || s.bun.words.getLast? = some i
  ((encode i).getD 0) ||| (if last then 0 else 0x80000000)

/-- R323: the core arrives at a barrier word and stalls there until the barrier completes. -/
def State.arrive (s : State) (i : Instr) (kind scope : Nat) (flag : Bool) (d : Nat) : State :=
  s.setCur { s.cur with barrier := some { kind := kind, scope := scope, flag := flag, d := d, word := s.fetched i } }

/-- R153, R321: the scope prefix; its scope is the bundle's. -/
def execScope (sc : Fin 8) (s : State) : Host.Outcome State Fault Refusal :=
  s.word (.scope sc) fun s => s.inScope sc (.ok s)

/-- R323, R324: arrives at a phase. -/
def execPhase (sc : Fin 8) (s : State) : Host.Outcome State Fault Refusal :=
  s.word (.phase sc) fun s => s.inScope sc (.ok (s.arrive (.phase sc) 0 sc false 0))

/-- R323, R325: arrives at a barrier. -/
def execBar (sc : Fin 8) (s : State) : Host.Outcome State Fault Refusal :=
  s.word (.bar sc) fun s => s.inScope sc (.ok (s.arrive (.bar sc) 1 sc false 0))

/-- R333: votes with a skip flag; R321 does not apply. -/
def execOstep (d : Fin 64) (a : Fin 64) (s : State) : Host.Outcome State Fault Refusal :=
  s.word (.ostep d a) fun s => .ok (s.arrive (.ostep d a) 2 4 (s.cur.rd a != 0) d)

/-- R334: writes sr.mbtag with latency 1. -/
def execMbtag (a : Fin 64) (s : State) : Host.Outcome State Fault Refusal :=
  s.word (.mbtag a) fun s => s.landAt 1 (.sysreg 0x10 ((s.cur.rd a).zeroExtend 64))

/-- R327: does a `fence` wait for the access? Stores are not waited for. -/
def Access.fenced (x : Access) : Bool :=
  match x.op with
  | .load => true
  | .planeLoad => true
  | .atom _ _ => true
  | .cas => true
  | _ => false

/-- R327: waits until every load and atomic of the core's earlier bundles has been performed. -/
def execFence (s : State) : Host.Outcome State Fault Refusal :=
  s.word (.fence) fun s => if s.prior.gq.any Access.fenced || s.prior.mq.any Access.fenced then stalled else .ok s

/-! ### Atomics -/

/-- R298: IEEE 754 addition of FP32 patterns under RNE. -/
def addRne (x y : Nat) : Nat :=
  fround [Fmt.f32.decode x, Fmt.f32.decode y] (sumExact 0 [Fmt.f32.decode x, Fmt.f32.decode y]) 0

/-- R328: the new value at an address of `n` bits, from the old value and the operand. -/
def atomNew (op n old v : Nat) : Nat :=
  match op with
  | 0 => (old + v) % 2 ^ n
  | 1 => old &&& v
  | 2 => old ||| v
  | 3 => old ^^^ v
  | 4 => if sxt n v < sxt n old then v else old
  | 5 => if sxt n old < sxt n v then v else old
  | 6 => min old v
  | 7 => max old v
  | 8 => v
  | 9 => addRne old v
  | 10 => pickNum false .f32 (Fmt.f32.decode old) (Fmt.f32.decode v) old v
  | _ => pickNum true .f32 (Fmt.f32.decode old) (Fmt.f32.decode v) old v

/-- R329: the address of an atomic, in G or in M. -/
def Core.atomAddr (k : Core) (a : Fin 64) (sp : Bool) : Nat := if sp then k.rdW .d a else (k.rd a).toNat

/-- R329: sends an immediate atomic to its queue. -/
def execAtom (d : Fin 64) (a : Fin 64) (b : Fin 64) (w : Width) (sp : Bool) (rt : Bool) (s : State) : Host.Outcome State Fault Refusal :=
  s.word (.atom d a b w sp rt) fun s =>
    s.remote { Access.base (.atom b rt) sp (s.cur.atomAddr a sp) (bytesW w) with
      reg := d, width := w.regs, data := leBytes (bytesW w) (s.cur.rdW w d) }

/-- R329: sends a compare and swap to its queue. -/
def execCas (d : Fin 64) (a : Fin 64) (b : Fin 64) (w : Width) (sp : Bool) (s : State) : Host.Outcome State Fault Refusal :=
  s.word (.cas d a b w sp) fun s =>
    s.remote { Access.base .cas sp (s.cur.atomAddr a sp) (bytesW w) with
      reg := d, width := w.regs, data := leBytes (bytesW w) (s.cur.rdW w d), data2 := leBytes (bytesW w) (s.cur.rdW w b) }

/-- R330: the fault of an ordered update's address of `n` bytes, if it fails a check of its space. -/
def State.updateFault (s : State) (m : Bool) (a n : Nat) : Option Trap :=
  let v := s.coreVd s.turn
  if m then
    (s.mWindow v a n n).orElse fun _ => match s.translate v a .write with
      | .error t => some { t with kind := 2 }
      | .ok _ => none
  else (gCheck a n n).orElse fun _ => if s.ownsG v a then none else some { cls := 6, addr := a, kind := 2 }

/-- R330: an ordered update of lane `l`, as it leaves the core. -/
def State.orderedUpdate (s : State) (m wide : Bool) (op a v l : Nat) : OUpdate :=
  { vd := s.coreVd s.turn, launch := s.cur.job.getD 0, m := m, addr := a, wide := wide, op := op, operand := v,
    core := s.turn, lane := l, seq := s.cur.oseq.toNat, scope := s.bun.scope, place := 0 }

/-- R330: sends ordered updates, in lane order, when every one passes its checks. -/
def State.sendUpdates (s : State) (n : Nat) (us : List OUpdate) : Eff :=
  match us.findSome? fun u => s.updateFault u.m u.addr n with
  | some t => .error (.trap t)
  | none => .ok { s.setCur { s.cur with oseq := s.cur.oseq + 1 } with held := s.held ++ us }

/-- R330: one ordered update. -/
def execOatom (d : Fin 64) (a : Fin 64) (b : Fin 64) (w : Width) (sp : Bool) (s : State) : Host.Outcome State Fault Refusal :=
  s.word (.oatom d a b w sp) fun s =>
    s.sendUpdates (bytesW w) [s.orderedUpdate sp (w = .d) b (s.cur.atomAddr a sp) (s.cur.rdW w d) 0]

/-- R330: one ordered update for each lane of plane a that does not hold all ones. -/
def execOatomP (d : Fin 16) (a : Fin 16) (b : Fin 64) (s : State) : Host.Outcome State Fault Refusal :=
  s.word (.oatomP d a b) fun s =>
    let addrs := s.cur.plane a
    let vals := s.cur.plane d
    s.sendUpdates 4 (((List.range lanes).filter fun l => lane addrs l != 0xFFFFFFFF).map fun l =>
      s.orderedUpdate false false b (lane addrs l).toNat (lane vals l).toNat l)

end Sys2Proof.Machine
end

