-- ==== Sys2Proof/Machine/EvCore.lean ====
section
/-! DEFINITION. Events of a core's queues: landings, walks, atomics, tensor loads, late faults and ordered updates (R35-R43, R185,
R188-R191, R223-R227, R288, R329-R331, R432). -/

namespace Sys2Proof.Machine

/-! ### The heads of the queues -/

/-- R40: the oldest access of a queue. -/
def Core.head (k : Core) (m : Bool) : Option Access := if m then k.mq.head? else k.gq.head?

/-- Removes the oldest access of a queue. -/
def Core.pop (k : Core) (m : Bool) : Core := if m then { k with mq := k.mq.tail } else { k with gq := k.gq.tail }

/-- Changes the oldest access of a queue. -/
def Core.setHead (k : Core) (m : Bool) (x : Access) : Core :=
  if m then { k with mq := x :: k.mq.tail } else { k with gq := x :: k.gq.tail }

/-- R427: the access kind. -/
def Access.kind (x : Access) : Nat :=
  match x.op with
  | .load => 0
  | .planeLoad => 0
  | .returned => 0
  | .store => 1
  | .planeStore => 1
  | .atom _ _ => 2
  | .cas => 2
  | .tload => 6

/-- R33: what the access is for the checks of translation. -/
def Access.mkind (x : Access) : MKind := if x.kind = 0 || x.kind = 6 then .read else .write

/-- The addresses that an access of G touches: each lane's of a gather or a scatter, or the access's own. -/
def Access.places (x : Access) : List Nat :=
  match x.op with
  | .planeLoad => if x.size = 4096 then [x.addr] else x.lanes.map (·.2)
  | .planeStore => if x.size = 4096 then [x.addr] else x.lanes.map (·.2)
  | _ => [x.addr]

/-- R122: the protection check of an access of G. -/
def State.gFault (s : State) (v : Nat) (x : Access) : Option Trap :=
  x.places.findSome? fun a => if s.ownsG v a then none else some { cls := 6, addr := a, kind := x.kind }

/-- R127: the granules that an access of G touches as it is performed; a store touches its granule when a phase releases it. -/
def Access.granules (x : Access) : List Nat :=
  if x.m || x.op = .returned || x.op = .store || x.op = .planeStore then [] else x.places.map (· / Config.granuleBytes)

/-! ### Tensor loads -/

/-- R86-R88: the register that a load of the entry in `bytes` gives, before its codebook. -/
def loadedReg (bytes : List Byte) (mbtag : Nat) : TReg :=
  let ws := tabulate 16 fun i => BitVec.ofNat 64 (leNat ((bytes.drop (8 * i)).take 8))
  let t : TReg := { TReg.reset with loaded := true, words := ws, wr := 128, wc := 128 }
  { t with ver := if t.verk = 0 then 0 else mbtag % t.verk }

/-- R86: the address of the codebook of the selected version, where the load reads one. -/
def TReg.codebookAt (t : TReg) : Option Nat :=
  if t.fmt = 12 && t.space != 3 then some (t.cbbase + 4096 * t.ver) else none

/-- R30, R288: does a tensor load read beyond the window, as it stood at its issue? Then nothing of it is done before its fault. -/
def Access.outside (x : Access) : Bool := x.op = .tload && leNat x.data2 < x.addr + 128

/-- R46, R86, R288, R363: a tensor load: the register and the state with A set in what it read, or its fault. The window is that of its
issue. The sixteen words of the entry are
read at one instant, so that an entry of old and new words (R87) does not arise. DESIGN CHOICE, unsafe (log 60). -/
def State.tensorLoad (s : State) (c : Nat) (x : Access) : Except Trap (TReg × State) :=
  let v := s.coreVd c
  if x.outside then .error (trapOf 3 x.addr)
  else
    match s.mLoad v x.addr 128 .read with
    | .error t => .error t
    | .ok (b, s1) =>
      let t := loadedReg b (leNat x.data)
      if !s.entryOk v t then .error (trapOf 8 x.addr)
      else match t.codebookAt with
        | none => .ok (t, s1)
        | some a =>
          if t.space = 0 then
            match s1.mLoad v a 4096 .read with
            | .error e => .error e
            | .ok (cb, s2) => .ok ({ t with codebook := cb }, s2)
          else if t.space = 1 && !s1.ownsG v a then .error (trapOf 6 a)
          else if s1.reachEnd c t < a + 4096 then .error (trapOf 3 a)
          else .ok ({ t with codebook := s1.tensorMem c t a 4096 }, s1)

/-- R86, R127: the granule of the codebook that a load of the register reads from L or G. -/
def TReg.codebookGranules (t : TReg) (c : Nat) : List Nat :=
  match t.codebookAt with
  | some a => if t.space = 0 then [] else [(if t.space = 1 then a else gAddr c a) / Config.granuleBytes]
  | none => []

/-- R224: is a store older than the access still on its way, so that it may yet free a line of the store queue? -/
def Core.storesAhead (k : Core) (x : Access) : Bool :=
  (k.gq ++ k.mq).any fun y => y.order < x.order && (y.op = .store || y.op = .planeStore)

/-- R224, R432, R434: the fault that the oldest access of a queue meets, if any. A store that finds the store queue full, as where an older
one that would have freed a line has been cancelled, waits for the older ones on their way and then raises its fault (log 69). -/
def State.headFault (s : State) (c : Nat) (x : Access) : Option Trap :=
  let v := s.coreVd c
  if x.op = .returned then none
  else if x.overflows (s.core c).sq then (if (s.core c).storesAhead x then none else some { cls := 14, addr := x.addr, kind := 1 })
  else if x.op = .tload then
    (match s.tensorLoad c x with | .error t => some { t with kind := 6 } | .ok _ => none)
  else if x.m then
    (match s.translate v x.addr x.mkind with | .error t => some { t with kind := x.kind } | .ok _ => none)
  else s.gFault v x

/-! ### Landing -/

/-- R190: the exposed writes, issued before a hidden result, to the registers that it writes, land ahead of it. -/
def State.landOver (s : State) (c : Nat) (p : Res → Bool) : State :=
  let k := s.core c
  let mine (f : InFlight) : Bool := f.what.dest.any p
  (s.setCore c { k with inflight := k.inflight.filter (!mine ·) }).landList c (k.inflight.filter mine)

/-- The registers that a hidden result writes. -/
def Access.writes (x : Access) : Res → Bool
  | .s i => (x.op = .load || x.op = .returned) && x.reg ≤ i && i < x.reg + x.width
  | .p i => x.op = .planeLoad && x.reg = i
  | _ => false

/-- R190: does a hidden result wait for an exposed write to its registers, which its core's schedule counter will bring? Where the counter
stands still, the write lands just before the result (log 25). -/
def State.landsLater (s : State) (c : Nat) (x : Access) : Bool :=
  let k := s.core c
  let counts := match k.mode with
    | .running => true
    | .suspending _ _ _ => true
    | _ => false
  counts && !k.stalled && !s.switching c && k.inflight.any fun f => f.what.dest.any x.writes

/-- R188: hidden results land in the registers from `d`. -/
def State.landHidden (s : State) (c d n : Nat) (v : Nat) : State :=
  let s := s.landOver c fun r => match r with | .s i => d ≤ i && i < d + n | _ => false
  s.landList c ((regLandings d (splitWords n v)).map fun l => { at_ := 0, due := 0, what := l })

/-- R225: bytes of memory under the core's queued stores. -/
def State.seen (s : State) (c : Nat) (m : Bool) (a : Nat) (b : List Byte) : List Byte := forward (s.core c).sq m a b

/-- R171: bytes of G with those that a store of the load's own bundle has overwritten as they were before it. -/
def Access.asBefore (x : Access) (a : Nat) (b : List Byte) : List Byte :=
  if x.before.isEmpty then b else b.zipIdx.map fun (v, i) => (x.before.lookup (a + i)).getD v

/-- R225, R237: the plane that a plane load gives: its lanes read, every other lane as it stands. -/
def State.lanesRead (s : State) (c : Nat) (old : List Word) (x : Access) : List Word :=
  x.lanes.foldl (fun p e => p.set e.1 (BitVec.ofNat 32 (leNat (s.seen c false e.2 (x.asBefore e.2 (s.gRead e.2 4))))))
    (tabulate lanes fun i => lane old i)

/-- R188, R223: performs the access at the head of a queue whose checks it passes, and lands what it returns. -/
def State.performHead (s : State) (c : Nat) (m : Bool) (x : Access) : State :=
  let v := s.coreVd c
  let done (s : State) : State := s.setCore c ((s.core c).pop m)
  match x.op with
  | .load =>
    if x.m then
      match s.mLoad v x.addr x.size .read with
      | .ok (b, s') => done (s'.landHidden c x.reg x.width (leNat (s'.seen c true x.addr b)))
      | .error _ => s
    else done (s.landHidden c x.reg x.width (leNat (s.seen c false x.addr (x.asBefore x.addr (s.gRead x.addr x.size)))))
  | .planeLoad =>
    let s := s.landOver c fun r => r = .p x.reg
    let k := s.core c
    done (s.setCore c { k with planes := Map.put k.planes x.reg (s.lanesRead c (k.plane x.reg) x) })
  | .returned => done (s.landHidden c x.reg x.width (leNat x.data))
  | .store => let k := s.core c; done (s.setCore c { k with sq := x.enter k.sq })
  | .planeStore => let k := s.core c; done (s.setCore c { k with sq := x.enter k.sq })
  | _ => s

/-- Is the access one that a landing completes? -/
def Access.lands (x : Access) : Bool :=
  match x.op with
  | .load => true
  | .planeLoad => true
  | .returned => true
  | .store => !x.m
  | .planeStore => !x.m
  | _ => false

/-- Does the head of a queue pass its checks, and is there room for it in the store queue? -/
def State.headPasses (s : State) (c : Nat) (x : Access) : Bool :=
  !x.faulted && !x.overflows (s.core c).sq && (s.headFault c x).isNone

/-! ### The events -/

/-- R185: what is due lands. -/
def execExposedResultLand (c : Nat) (s : State) : Host.Outcome State Fault Refusal :=
  s.move fun s => s.landDue c

/-- R188, R190, R223: the oldest access of a queue returns, lands and clears its busy bit; a store that is checked enters the store
queue. -/
def execHiddenResultLand (c : Nat) (q : Queue) (s : State) : Host.Outcome State Fault Refusal :=
  s.move fun s =>
    let m := q = .m
    match (s.core c).head m with
    | some x => if x.lands && s.headPasses c x && !s.landsLater c x then s.touching (s.coreGid c) x.granules (·.performHead c m x) else s
    | none => s

/-- R183, R191: the core's next cycle, in which the Governor charges its bundle or freezes it, comes next. -/
def execGovernorTick (c : Nat) (s : State) : Host.Outcome State Fault Refusal :=
  s.move fun s => { s with agenda := .core c :: s.agenda }

/-- R35-R43: the walk for the oldest access of the M queue: A, and D for a write, are set and the translation is cached; a store
that passes its checks then enters the store queue (R432). An access outside its window touches no entry (R30). -/
def execTableWalk (c : Nat) (s : State) : Host.Outcome State Fault Refusal :=
  s.move fun s =>
    match (s.core c).mq.head? with
    | none => s
    | some x =>
      if x.faulted || x.op = .returned || x.overflows (s.core c).sq || x.outside then s
      else match s.translate (s.coreVd c) x.addr x.mkind with
        | .error _ => s
        | .ok (_, _, lf) =>
          let s := s.noteLeaf (s.coreVd c) x.addr lf x.mkind
          if x.op = .store then s.performHead c true x else s

/-- R329: the new value of an immediate atomic. -/
def Access.atomValue (x : Access) (old : Nat) : Nat :=
  match x.op with
  | .atom op _ => atomNew op (8 * x.size) old (leNat x.data)
  | .cas => if old = leNat x.data then leNat x.data2 else old
  | _ => old

/-- R329: does the atomic write registers? -/
def Access.returns (x : Access) : Bool :=
  match x.op with
  | .atom _ ret => ret
  | .cas => true
  | _ => false

/-- R329: after an atomic, its old value is on its way back, or nothing of it is left. -/
def State.atomDone (s : State) (c : Nat) (m : Bool) (x : Access) (old : Nat) : State :=
  let k := s.core c
  s.setCore c (if x.returns then k.setHead m { x with op := .returned, data := leBytes x.size old } else k.pop m)

/-- R56, R329: performs an immediate atomic as one operation, charged once. -/
def State.performAtomic (s : State) (c : Nat) (m : Bool) (x : Access) : State :=
  let v := s.coreVd c
  if x.m then
    match s.translate v x.addr .write with
    | .error _ => s
    | .ok (pa, key, lf) =>
      let old := leNat (s.paRead key pa x.size)
      (((s.noteLeaf v x.addr lf .write).chargeMem v pa x.size).paPut v key pa (leBytes x.size (x.atomValue old)) .write).atomDone c m x old
  else
    let old := leNat (s.gRead x.addr x.size)
    (s.gStore (s.vd v).gid x.addr (leBytes x.size (x.atomValue old))).atomDone c m x old

/-- Is the access an immediate atomic? -/
def Access.isAtomic (x : Access) : Bool := x.kind = 2

/-- R329: the atomic unit performs the oldest access of a queue. -/
def execAtomicPerform (c : Nat) (q : Queue) (s : State) : Host.Outcome State Fault Refusal :=
  s.move fun s =>
    let m := q = .m
    match (s.core c).head m with
    | some x => if x.isAtomic && s.headPasses c x then s.touching (s.coreGid c) x.granules (·.performAtomic c m x) else s
    | none => s

/-- R86, R288: a tensor register takes its entry, with a codebook in L or G once its granule is there. -/
def execTloadComplete (c : Nat) (s : State) : Host.Outcome State Fault Refusal :=
  s.move fun s =>
    match (s.core c).mq.head? with
    | none => s
    | some x =>
      if x.op != .tload || x.faulted then s
      else match s.tensorLoad c x with
        | .error _ => s
        | .ok (t, s') =>
          if !s.granulesOk (s.coreGid c) (t.codebookGranules c) then s.want (s.coreGid c) (t.codebookGranules c)
          else
            let s' := s'.takeAll (s.coreGid c) (t.codebookGranules c)
            let k := (s'.core c).pop true
            s'.setCore c { k with tregs := Map.put k.tregs x.reg t }

/-- R423: the fault of the oldest access among the two heads. -/
def State.oldestFault (s : State) (c : Nat) : Option (Access × Trap) :=
  let k := s.core c
  let one (m : Bool) : List (Access × Trap) :=
    match k.head m with
    | some x => if x.faulted then [] else (match s.headFault c x with | some t => [(x, t)] | none => [])
    | none => []
  match one false, one true with
  | [a], [b] => if a.1.order < b.1.order then some a else some b
  | [a], _ => some a
  | _, b => b.head?

/-- R432: an access faults: it and the younger accesses of its queue stay pending, and the core stops issuing. A core that is
already parking or ending keeps its fault, but for a fault that ends the launch of a core that parks. -/
def execLateFault (c : Nat) (s : State) : Host.Outcome State Fault Refusal :=
  s.move fun s =>
    match s.oldestFault c with
    | none => s
    | some (x, t) =>
      let k := s.core c
      let s := s.setCore c (k.setHead x.m { x with faulted := true })
      match k.mode with
      | .idle => s
      | .faulted => s
      | .parking => if t.cls = 5 then s else s.takeFault c t
      | .waiting _ => if t.cls = 5 then s else s.takeFault c t
      | _ => s.raise c t

/-! ### Ordered updates -/

/-- R331: the line of memory that an update addresses. -/
def State.lineOf (s : State) (u : OUpdate) : Bool × Nat :=
  if u.m then
    match s.heldLeaf u.vd u.addr with
    | .ok lf => (true, (fld lf.e 39 12 * 4096 + u.addr % lf.size) / 64)
    | .error _ => (true, 2 ^ 64 + u.addr / 64)
  else (false, u.addr / 64)

/-- R331: the 32 bytes of a log entry. -/
def OUpdate.bytes (u : OUpdate) : List Byte :=
  leBytes 8 u.addr ++ leBytes 8 u.operand ++ leBytes 8 u.key ++ leBytes 8 (b2n u.m * 2 ^ 9 + b2n u.wide * 2 ^ 8 + u.op)

/-- R49: the key id under which a virtual device's save area, Sump, frames and log are kept. -/
def State.saveKey (s : State) (v : Nat) : Nat :=
  match s.gangs.lookup (s.vd v).gid with
  | some g => g.key
  | none => 0

/-- R49, R50, R56, R331: writes an entry of the overflow log, charged to the limiters, or fails. -/
def State.logWrite (s : State) (u : OUpdate) (i : Nat) : Option State :=
  let v := u.vd
  let va := (s.vd v).olBase.toNat * 4096 + 32 * i
  match s.mWindow v va 32 32 with
  | some _ => none
  | none =>
    match s.translate v va .write with
    | .error _ => none
    | .ok (pa, _, lf) =>
      let key := s.saveKey v
      if key != 0 && (s.slot key).state != 1 then none
      else some (((s.noteLeaf v va lf .write).chargeMem v pa 32).paStore (s.vd v).gid key pa u.bytes)

/-- Replaces the first update that is on its way from core `c`. -/
def placeUpdate (c p : Nat) : List OUpdate → List OUpdate
  | [] => []
  | u :: us => if u.core = c && u.place = 0 then { u with place := p } :: us else u :: placeUpdate c p us

/-- R331: the lowest entry of a virtual device's log that holds nothing. Which free entry an update takes the spec does not say. DESIGN
CHOICE, unsafe (log 79). -/
def State.freeLog (s : State) (v : Nat) : Option Nat :=
  (List.range (s.vd v).olCount.toNat).find? fun i => !(s.held.any fun u => u.vd = v && u.place = i + 2)

/-- R331: an update reaches its unit: held, or logged where its line holds 16, or the overflow-log fault. -/
def execOatomArrive (c : Nat) (s : State) : Host.Outcome State Fault Refusal :=
  s.move fun s =>
    match s.held.find? fun u => u.core = c && u.place = 0 with
    | none => s
    | some u =>
      if (s.held.filter fun w => w.place = 1 && s.lineOf w = s.lineOf u).length < 16 then
        { s with held := placeUpdate c 1 s.held }
      else match s.freeLog u.vd with
        | none => s.takeFault c { cls := 18, addr := u.addr, kind := 2 }
        | some i =>
          match s.logWrite u i with
          | none => s.takeFault c { cls := 18, addr := u.addr, kind := 2 }
          | some t => { t with held := placeUpdate c (i + 2) t.held }

/-! ### Closing -/

/-- R42, R332: applies one update: in M, A and D are set with the write. -/
def State.applyUpdate (s : State) (u : OUpdate) : State :=
  let n := if u.wide then 8 else 4
  let gid := (s.vd u.vd).gid
  if u.m then
    match s.heldLeaf u.vd u.addr with
    | .ok lf =>
      ((s.noteLeaf u.vd u.addr lf .write).chargeLines u.vd [u.addr / 64]).mPoke u.vd u.addr
        (leBytes n (atomNew u.op (8 * n) (leNat (s.mPeek u.vd u.addr n)) u.operand))
    | .error _ => s
  else
    let s := s.takeGranule gid (u.addr / Config.granuleBytes)
    s.gStore gid u.addr (leBytes n (atomNew u.op (8 * n) (leNat (s.gRead u.addr n)) u.operand))

/-- Applies updates in order. -/
def State.applyUpdates (s : State) : List OUpdate → State
  | [] => s
  | u :: us => (s.applyUpdate u).applyUpdates us

/-- R332: is the update one that a phase of scope `sc` over cores `cs` closes? -/
def OUpdate.closes (u : OUpdate) (v sc : Nat) (cs : List Nat) : Bool :=
  u.vd = v && u.scope ≤ sc && cs.contains u.core && u.place != 0

/-- R127: the granules of the updates being closed. -/
def State.closeGranules (s : State) (v sc : Nat) (cs : List Nat) : List Nat :=
  (s.held.filter fun u => !u.m && u.closes v sc cs).map (·.addr / Config.granuleBytes)

/-- R54: the first key fault that the close of updates meets, with the core that issued it. -/
def State.updatesFault (s : State) (v sc : Nat) (cs : List Nat) : Option (Nat × Trap) :=
  s.held.findSome? fun u =>
    if u.m && u.closes v sc cs then (s.pokeFault v u.addr).map fun t => (u.core, { t with kind := 2 }) else none

/-- R332: closes the ordered updates of scope at most `sc` from the cores. -/
def State.closeUpdates (s : State) (v sc : Nat) (cs : List Nat) : State :=
  let us := s.held.filter fun u => u.closes v sc cs
  { s with held := s.held.filter fun u => !u.closes v sc cs }.applyUpdates (sortUpdates us)

/-- R54, R127: what comes before the release and the close of a phase over the cores, if anything does: a key fault of what is to be
performed, or the wait for its granules. -/
def State.settleFirst (s : State) (v sc : Nat) (cs : List Nat) : Option State :=
  let gs := s.releaseGranules sc cs ++ s.closeGranules v sc cs
  match (s.releaseFault v sc cs).orElse fun _ => s.updatesFault v sc cs with
  | some (c, t) => some (s.takeFault c t)
  | none => if s.granulesOk (s.vd v).gid gs then none else some (s.want (s.vd v).gid gs)

/-- R324: the release and the close of a phase over the cores. -/
def State.settle (s : State) (v sc : Nat) (cs : List Nat) : State := (s.releaseAll v sc cs).closeUpdates v sc cs

end Sys2Proof.Machine
end

