-- ==== Sys2Proof/Machine/Tailrace.lean ====
section
/-! DEFINITION. The Tailrace: entries, pushes and pops, spill and refill marking (R259-R266, R275, R276). -/

namespace Sys2Proof.Machine

/-- R259: bytes of the ring. -/
def ringSize : Nat := 131072

/-- R259: R, the bytes of the entries that count as resident, and S, the bytes spilled. -/
def Tail.resident (t : Tail) : Nat := (t.ents.map (·.size)).sum
def Tail.spilled (t : Tail) : Nat := t.rsp - t.resident

/-- R259: SPB. -/
def Tail.spb (t : Tail) : Nat := t.rsbase.toNat * 65536

/-- R260: MID, in bytes. -/
def Tail.midBytes (t : Tail) : Nat := (t.high + t.low) / 2 * 64

/-- R259: bytes of the ring from a logical offset. -/
def Tail.read (t : Tail) (off n : Nat) : List Byte := tabulate n fun i => Map.get 0 t.ring ((off + i) % ringSize)

/-- R263: a header. -/
structure Header where
  op : Nat
  tag : Nat
  ty : Nat
  var : Nat
  param : Nat
  shift : Nat
  nesc : Nat
  size : Nat
  arg : Nat
  index : Nat
  deriving DecidableEq, Repr

/-- R263: word 0 of a header. -/
def Header.word0 (h : Header) : Nat :=
  h.op * 2 ^ 56 + h.tag * 2 ^ 53 + h.ty * 2 ^ 50 + h.var * 2 ^ 49 + h.param * 2 ^ 47 + h.shift * 2 ^ 43 + h.nesc * 2 ^ 32
    + h.size * 2 ^ 16

/-- R263: the 64 bytes of a header. -/
def Header.bytes (h : Header) : List Byte :=
  leBytes 8 h.word0 ++ leBytes 8 h.arg ++ leBytes 8 h.index ++ List.replicate 40 0

/-- R263: the header in 64 bytes. -/
def Header.ofBytes (b : List Byte) : Header :=
  let w := leNat (b.take 8)
  { op := fld w 63 56, tag := fld w 55 53, ty := fld w 52 50, var := fld w 49 49, param := fld w 48 47, shift := fld w 46 43,
    nesc := fld w 42 32, size := fld w 31 16, arg := leNat ((b.drop 8).take 4), index := leNat ((b.drop 16).take 4) }

/-- R263: does a refill accept the header, with `s` bytes spilled? -/
def Header.sizeOk (h : Header) (s : Nat) : Bool := 1 ≤ h.size && h.size ≤ 133 && h.size ≤ s / 64

/-! ### Marking -/

/-- R275: marks entries for spill, oldest first, until the resident bytes that will remain are at most `lim`. The list
is oldest first; `left` is the bytes of the entries not yet marked. -/
def markSpill (lim : Nat) : Nat → List TailEnt → List TailEnt
  | _, [] => []
  | left, e :: es =>
    if e.st = 0 then
      (if lim < left then { e with st := 1 } :: markSpill lim (left - e.size) es else e :: es)
    else e :: markSpill lim left es

/-- The bytes of the entries that no spill takes. -/
def Tail.staying (t : Tail) : Nat := ((t.ents.filter fun e => e.st != 1).map (·.size)).sum

/-- R273, R275: marks the oldest resident entries for spill down to `lim` bytes; the top one only where `top` allows it. -/
def Tail.spillTo (t : Tail) (lim : Nat) (top : Bool) : Tail :=
  match t.ents with
  | [] => t
  | e :: es =>
    if top then { t with ents := (markSpill lim t.staying (e :: es).reverse).reverse }
    else { t with ents := e :: (markSpill lim t.staying es.reverse).reverse }

/-- R275: spilling after a push. -/
def Tail.afterPush (t : Tail) : Tail := if 64 * t.high < t.resident then t.spillTo t.midBytes false else t

/-- R263: the entry whose spilled bytes end at offset `sp`, as its header in memory reads: to be refilled, or rejected. -/
def State.refillHeader (s : State) (c : Nat) (t : Tail) (sp : Nat) : TailEnt :=
  match s.mReadExtent (s.coreVd c) (t.spb + sp - 64) 64 .read with
  | .error _ => { base := sp - 64, size := 64, st := 3 }
  | .ok (b, _) =>
    let h := Header.ofBytes b
    if h.sizeOk sp then { base := sp - 64 * h.size, size := 64 * h.size, st := 2 } else { base := sp - 64, size := 64, st := 3 }

/-- R263, R275: the newest spilled entry, marked for refill. -/
def State.refillEntry (s : State) (c : Nat) (t : Tail) : TailEnt := s.refillHeader c t t.spilled

/-- R275: marks the newest spilled entries for refill until R reaches `want` or nothing is spilled. With a HIGH near its greatest value the
last entry marked can take R past the 131,072 bytes of the ring; the spec says nothing of that, and the model marks it and overwrites the
ring round its end. DESIGN CHOICE, unsafe (log 77). -/
def State.markRefill (s : State) (c want : Nat) : Nat → Tail → Tail
  | 0, t => t
  | n + 1, t =>
    if want ≤ t.resident || t.spilled = 0 then t
    else s.markRefill c want n { t with ents := t.ents ++ [s.refillEntry c t] }

/-- R275: refilling after a pop. -/
def State.afterPop (s : State) (c : Nat) (t : Tail) : Tail :=
  if t.resident < 64 * t.low && 0 < t.spilled then s.markRefill c t.midBytes 2048 t else t

/-- R273, R275, R276: the Tailrace does what a stalled bundle asks of it: spills of its oldest entries, or the refill of its top entry. -/
def State.demandTail (s : State) (c : Nat) (d : Demand) : State :=
  let k := s.core c
  s.setCore c { k with tail := match d with
    | .spill lim => k.tail.spillTo lim true
    | .refill => if k.tail.ents.isEmpty && 0 < k.tail.rsp then s.markRefill c 1 1 k.tail else k.tail }

/-! ### Push and pop -/

/-- Spills that have not landed. -/
def Tail.spilling (t : Tail) : Bool := !t.flight.isEmpty || t.ents.any fun e => e.st = 1

/-- R276: would a push of `z` bytes overwrite ring space of a popped entry whose spill is in flight? -/
def Tail.overlaps (t : Tail) (z : Nat) : Bool := t.flight.any fun e => e.1 < t.rsp + z

/-- R261, R266, R276: pushes an entry: takes its space and writes its header now; what is below the header lands after `lat` cycles.
Where the ring has no room for it, its oldest entries have to spill first. -/
def State.pushEntry (s : State) (lat : Nat) (h : Header) (body : List Byte) : Eff :=
  let k := s.cur
  let t := k.tail
  let z := body.length + 64
  let h := { h with size := z / 64, index := t.count }
  if (s.job s.turn).rsDepth < t.rsp + z then trapped 13
  else if ringSize < t.resident + z then .error (.tail (.spill (ringSize - z)))
  else if t.overlaps z then stalled
  else
    let t' : Tail := { t with
      rsp := t.rsp + z, count := t.count + 1, ring := ringWrite t.ring (t.rsp + z - 64) h.bytes,
      ents := { base := t.rsp, size := z, st := 0 } :: t.ents }
    let s := s.setCur { k with tail := t'.afterPush }
    if body.isEmpty then .ok s else s.landAt lat (.tail t.rsp body)

/-- R266: has the entry with this base not landed yet? -/
def Core.entryFlying (k : Core) (base : Nat) : Bool :=
  k.inflight.any fun f => match f.what with
    | .tail b _ => b = base
    | _ => false

/-- R274: the number of entries from the header of the top entry, where it is in the ring; else one less than before. -/
def Tail.recount (t : Tail) : Nat :=
  if t.rsp = 0 then 0
  else match t.ents with
    | e :: _ => if e.st < 2 then (Header.ofBytes (t.read (t.rsp - 64) 64)).index + 1 else t.count
    | [] => t.count

/-- R265, R275: the Tailrace without its top entry, of `n` bytes; a spill of it in flight still lands. -/
def Tail.drop (t : Tail) (n : Nat) : Tail :=
  let u : Tail := { t with
    rsp := t.rsp - n, count := t.count - 1, ents := t.ents.tail,
    flight := match t.ents with
      | e :: _ => if e.st = 1 then t.flight ++ [(e.base, t.spb + e.base, t.read e.base e.size)] else t.flight
      | [] => t.flight }
  { u with count := u.recount }

/-- R265, R266: pops the top entry, whose header must be as the undo word or `unmark` names it; answers the header, the entry's bytes and
the state. An undo word of an entry that has not landed raises ISCH, before any other check (R423). -/
def State.popEntry (s : State) (op tag ty var param : Nat) (arg : Option Nat) : Except Stop (Header × List Byte × State) :=
  let k := s.cur
  let t := k.tail
  if t.rsp = 0 then trapped 12
  else match t.ents with
    | [] => .error (.tail .refill)
    | e :: _ =>
      if 2 ≤ e.st then stalled
      else if arg.isNone && k.entryFlying e.base then isch
      else
        let h := Header.ofBytes (t.read (t.rsp - 64) 64)
        if h.op != op || h.tag != tag || h.ty != ty || h.var != var || h.param != param then trapped 11
        else if arg.any (fun x => x != h.arg) then trapped 11
        else
          let n := 64 * h.size
          .ok (h, t.read (t.rsp - n) n, s.setCur { k with tail := s.afterPop s.turn (t.drop n) })

/-! ### Entries of forward words -/

/-- R262: a list of bytes padded with zeros to a multiple of 64. -/
def pad64 (b : List Byte) : List Byte := b ++ List.replicate ((64 - b.length % 64) % 64) 0

/-- R262: a bitmap of the lanes. -/
def bitmap (m : BitVec 1024) : List Byte := leBytes 128 m.toNat

/-- What a forward word makes of one lane: result, flags, escaped or not, remainder. -/
structure Fwd where
  y : Word
  flags : Flags
  esc : Bool
  rem : Nat
  deriving DecidableEq, Repr

/-- R262, R268: the fixed part: `w` bytes a lane; the bytes of a lane that stores none are free values (log 14). -/
def fixedPart (n w : Nat) (keep : Nat → Bool) (r : List Fwd) : List Byte :=
  r.zipIdx.flatMap fun (x, i) => if keep i then leBytes w x.rem else tabulate w fun b => Config.entryByte n (w * i + b)

/-- R264, R266: a forward word: results and flags land after `lat` cycles, and with them the entry. `body` is the fixed part;
the escaped lanes' words come from plane a. -/
def State.forward (s : State) (lat : Nat) (d a : Fin 16) (mask : Fin 8) (h : Header) (r : List Fwd) (body : List Byte) : Eff :=
  let m := s.cur.pred mask
  let esc := laneMask fun i => m.getLsbD i && (r.map (·.esc)).getD i false
  let escs := enabledLanes esc
  let list := pad64 (escs.flatMap fun i => leBytes 4 (s.cur.at_ a 0 i).toNat)
  match s.pushEntry lat { h with nesc := escs.length } (body ++ list ++ bitmap m ++ bitmap esc) with
  | .error e => .error e
  | .ok s' => s'.landAll lat (.plane d m (r.map (·.y)) :: flagLandings m [r.map (·.flags)])

/-- R264: the ENA and ESC bitmaps of an entry. -/
def entryEna (b : List Byte) : BitVec 1024 := BitVec.ofNat 1024 (leNat ((b.drop (b.length - 320)).take 128))
def entryEsc (b : List Byte) : BitVec 1024 := BitVec.ofNat 1024 (leNat ((b.drop (b.length - 192)).take 128))

/-- R268: the lanes an undo word rebuilds: an escaped lane takes the next word of the list, any other the formula's. -/
def undoLanes (ena esc : BitVec 1024) (f : Nat → Word) : Nat → Nat → List Word → List Word
  | 0, _, _ => []
  | n + 1, i, list =>
    if ena.getLsbD i && esc.getLsbD i then list.headD 0 :: undoLanes ena esc f n (i + 1) list.tail
    else (if ena.getLsbD i then f i else 0) :: undoLanes ena esc f n (i + 1) list

/-- R264, R265: an undo word: pops the entry and writes the lanes whose ENA bit is 1. `fixed` is the size of the fixed part, and
`f` gives a lane from the header and the entry's bytes. Of an entry whose SIZE or bitmaps software has changed in memory, so that its parts
no longer fit, the bitmaps are those of the last 320 bytes that there are, and a list too short goes on with zeros, which the spec does not
say: DESIGN CHOICE, unsafe (log 85). -/
def State.undo (s : State) (lat : Nat) (d : Fin 16) (op tag ty var param fixed : Nat)
    (f : Header → List Byte → Nat → Word) : Eff :=
  match s.popEntry op tag ty var param none with
  | .error e => .error e
  | .ok (h, b, s') =>
    s'.landAt lat (.plane d (entryEna b)
      (undoLanes (entryEna b) (entryEsc b) (f h b) lanes 0 (wordsOf ((b.drop fixed).take (b.length - fixed - 320)))))

/-- The f32 remainder of a lane in an entry. -/
def entryRem (b : List Byte) (i : Nat) : Num := Fmt.f32.decode (leNat ((b.drop (4 * i)).take 4))

end Sys2Proof.Machine
end

