-- ==== Sys2Proof/Machine/Context.lean ====
section
/-! DEFINITION. Saved contexts in memory: what R430 and R431 lay out byte by byte (log 11). -/

namespace Sys2Proof.Machine

/-- Bytes followed by zeros up to `n`. -/
def padTo (n : Nat) (b : List Byte) : List Byte := b ++ List.replicate (n - b.length) 0

/-- R431: the 24 bytes of a loop set. -/
def loopBytes (l : LoopSet) : List Byte := leBytes 8 l.start ++ leBytes 8 l.fin ++ leBytes 8 l.cnt.toNat

/-- R432: the 32 bytes of a scoreboard entry; the operands captured at issue are the data, of a `cas` both values. -/
def boardBytes (x : Access) : List Byte :=
  leBytes 8 (2 ^ 63 + b2n x.faulted * 2 ^ 62 + x.kind * 2 ^ 56 + x.reg * 2 ^ 48 + Nat.log2 (max 1 x.width) * 2 ^ 46 + x.order % 2 ^ 32)
    ++ leBytes 8 x.addr
    ++ (if x.op = .cas then padTo 8 (x.data.take 8) ++ padTo 8 (x.data2.take 8) else padTo 16 (x.data.take 16))

/-- R435: the number of a result's kind, its register, and its value; a plane's or a mask's stands in the in-flight plane area. The spec
gives the record's items and no places for them: DESIGN CHOICE, unsafe (log 11). -/
def Landing.item : Landing → Nat × Nat × List Byte
  | .reg r v => (0, r, leBytes 4 v.toNat)
  | .latch k v => (1, k, leBytes 4 v.toNat)
  | .plane p _ _ => (2, p, [])
  | .pred q _ _ => (3, q, [])
  | .flags q _ => (4, q, [])
  | .sysreg n v => (5, n, leBytes 8 v.toNat)
  | .slice a v => (6, 0, leBytes 4 a ++ v)
  | .lanes v => (7, v.length, [])
  | .bank h a v => (8, h, leBytes 4 a ++ v)
  | .xslot k _ _ coll => (9, k, [BitVec.ofNat 8 (b2n coll)])
  | .treg n _ => (10, n, [])
  | .part p l keep v => (11, p, leBytes 4 l ++ leBytes 4 keep.toNat ++ leBytes 4 v.toNat)
  | .tail b v => (12, 0, leBytes 8 b ++ v)

/-- R435: the 48-byte record of a result in flight: kind, register, remaining delay, and value. -/
def InFlight.record (f : InFlight) (now : Nat) : List Byte :=
  let i := f.what.item
  padTo 48 (leBytes 2 i.1 ++ leBytes 2 i.2.1 ++ leBytes 4 (f.due - now) ++ i.2.2.take 40)

/-- R431: the twelve slots from 0x188. -/
def Core.slots (k : Core) (c : Nat) : List Nat :=
  [k.sysreg c 0x22, k.sysreg c 0x20, k.sysreg c 0x21, k.sysreg c 0x10, k.sysreg c 0x30, k.sysreg c 0x31, k.sysreg c 0x32,
   k.tail.resident, k.sysreg c 0x40, k.sysreg c 0x41, k.sysreg c 0x50, k.sysreg c 0x51]

/-- R431: the pending barrier word. -/
def Core.pendingWord (k : Core) : Nat :=
  match k.barrier with
  | some b => b.word.toNat + 2 ^ 32
  | none => 0

/-- R431: the control block of core `c`, in a state of R431. -/
def Core.control (k : Core) (c st : Nat) (x : Launch) : List Byte :=
  let head := leBytes 8 (k.pc % 2 ^ 48 + st * 2 ^ 48) ++ leBytes 8 (k.lid + k.widx * 2 ^ 32)
    ++ (List.range 55).flatMap fun i => leBytes 4 (k.rd (i + 1)).toNat
  let latches := padTo 0x100 head ++ (List.range 5).flatMap fun i => leBytes 4 (k.rd (56 + i)).toNat
  let loops := padTo 0x120 latches ++ ((List.range 4).flatMap fun i => loopBytes (Map.get { start := 0, fin := 0, cnt := 0 } k.loops i))
    ++ leBytes 8 k.depth ++ (k.slots c).flatMap (leBytes 8)
  let sync := padTo 0x200 loops ++ leBytes 8 k.phaseCount ++ leBytes 8 k.pendingWord ++ leBytes 8 k.oseq.toNat
    ++ leBytes 8 (k.fpos + k.flen * 2 ^ 32)
  let board := padTo 0x440 (padTo 0x240 sync ++ k.board.flatMap boardBytes) ++ (k.inflight.take 32).flatMap (·.record k.sched)
  (padTo 0xA40 board ++ ((List.range 64).flatMap fun h => leBytes 8 (k.handle h).descriptor)
    ++ leBytes 4 x.planes ++ leBytes 4 x.tiles ++ leBytes 4 x.gran ++ leBytes 4 x.rsDepth)

/-- R287, R430: the bytes of a tensor register: the entry's words, the view, and its flags, padded to `n`. The spec gives no places
within it: DESIGN CHOICE, unsafe (log 11). -/
def TReg.bytes (t : TReg) (busy : Bool) (n : Nat) : List Byte :=
  padTo n (padTo 128 (t.words.flatMap fun w => leBytes 8 w.toNat)
    ++ ([t.ver, t.row0, t.col0, t.i2, t.i3, t.wr, t.wc, t.rs.toNat, t.cs.toNat].flatMap (leBytes 4))
    ++ [BitVec.ofNat 8 (b2n t.loaded + 2 * b2n t.eg + 4 * b2n busy)])

/-- R90, R430: the bytes of a snapshot. -/
def Snapshot.bytes (x : Snapshot) : List Byte :=
  padTo 32 (leBytes 8 x.rngkey.toNat ++ [x.rngctr.toNat, x.widx, x.lid, x.fctl.toNat, x.fpos].flatMap (leBytes 4))
    ++ (List.range 16).flatMap fun n => (Map.get TReg.reset x.tregs n).bytes false 192

/-- R119, R430: the bytes of a chain that stands in a channel. -/
def Chain.bytes (x : Option Chain) : List Byte :=
  match x with
  | some c => leBytes 8 1 ++ leBytes 8 c.ptr.toNat ++ c.snap.bytes
  | none => List.replicate 3120 0

/-- R119, R430: the 12 KiB of a channel: its state, DONE and last STAT, the record to read next or again, the active and the shadow set. -/
def Channel.bytes (x : Channel) : List Byte :=
  let again := (x.recs.find? (!·.started)).map (·.ptr)
  padTo 12288 (leBytes 4 x.state ++ leBytes 4 x.done.toNat ++ leBytes 8 x.stat ++ leBytes 8 ((again.orElse fun _ => x.next).getD 0).toNat
    ++ padTo 3120 (Chain.bytes x.active) ++ padTo 3120 (Chain.bytes x.shadow))

/-- R430: the Millstone's shadow command, its snapshot and index plane, and the open chain's depth. -/
def Mill.bytes (m : Mill) : List Byte :=
  leBytes 8 m.depth ++ match m.shadow with
    | some x => leBytes 4 1 ++ leBytes 4 x.acc ++ leBytes 8 x.op.code ++ leBytes 8 x.off ++ x.a.bytes false 192 ++ x.b.bytes false 192
        ++ x.snap.bytes ++ padTo 4096 (bytesOf x.ix)
    | none => leBytes 8 0

/-- R224, R430: the 80 bytes of a line of the store queue: data, byte mask, and the address with space and scope. -/
def SqLine.bytes (l : SqLine) : List Byte :=
  padTo 64 (l.data.take 64) ++ leBytes 8 l.mask.toNat ++ leBytes 8 (64 * l.block + 2 * l.scope + b2n l.m)

/-- R255, R430: the 2 KiB of a crossbar slot: by lane the enable and DST, with the collision bit beside the first. -/
def XSlot.bytes (x : XSlot) : List Byte :=
  (List.range lanes).flatMap fun i =>
    leBytes 2 (x.dst.getD i 0 + b2n (x.en.getLsbD i) * 2 ^ 15 + (if i = 0 then b2n x.coll * 2 ^ 14 else 0))

/-- Pieces of 4 KiB, the last shorter. -/
def pieces4K (b : List Byte) : List (List Byte) := tabulate ((b.length + 4095) / 4096) fun i => (b.drop (4096 * i)).take 4096

/-- R435: what of a result goes to the in-flight plane area, in pieces of a plane: a plane's value, and what is too long for a record. The
spec gives planes a place there: DESIGN CHOICE for the others, unsafe (log 11). -/
def Landing.image : Landing → List (List Byte)
  | .plane _ m v => [bytesOf (tabulate Sys2Proof.Machine.lanes fun i => if m.getLsbD i then lane v i else 0)]
  | .pred _ m v => [leBytes 128 m.toNat ++ leBytes 128 v.toNat]
  | .flags _ v => [leBytes 128 v.toNat]
  | .lanes v => pieces4K (v.flatMap fun e => leBytes 4 e.1 ++ leBytes 4 e.2.toNat)
  | .bank _ _ v => if v.length ≤ 32 then [] else pieces4K v
  | .xslot _ en dst coll => [({ en := en, dst := dst, coll := coll } : XSlot).bytes]
  | .treg _ t => t.bytes t.busy 512 :: (if t.codebook.isEmpty then [] else [t.codebook])
  | .tail _ v => if v.length ≤ 32 then [] else pieces4K v
  | _ => []

/-- Parts at `base` and every `step` bytes on. -/
def partsAt (base step : Nat) (l : List (List Byte)) : List (Nat × List Byte) := l.zipIdx.map fun (b, i) => (base + step * i, b)

/-- R279: the ring bytes of an entry, in one part or, where it wraps, in two. -/
def Tail.entryParts (t : Tail) (e : TailEnt) : List (Nat × List Byte) :=
  let b := e.base % ringSize
  let v := t.read e.base e.size
  [(0x50000 + b, v.take (ringSize - b))] ++ (if ringSize < b + e.size then [(0x50000, v.drop (ringSize - b))] else [])

/-- R430: the areas of a context that are written as zeros before what a core holds of them: tensor registers, crossbar slots, and the
planes and tiles that the launch has; beside them the store queue and the channels, but for a park frame, `st` 1. -/
def contextZeros (st : Nat) (x : Launch) : List (Nat × Nat) :=
  [(0, 0x2000), (0x2000, 0x2000), (0x14000, 0x4000), (0x40000, 4096 * x.planes), (0x70000, 65536 * x.tiles)]
    ++ if st = 1 then [] else [(0x18000, 0xA000), (0x22000, 0x6000)]

/-- R430: the parts of a context, each with its offset. -/
def Core.context (k : Core) (c st : Nat) (x : Launch) : List (Nat × List Byte) :=
  [(0, k.control c st x), (0x1000, (List.range 12).flatMap fun q => leBytes 128 (Map.get 0 k.preds (q + 1)).toNat)]
    ++ k.tregs.map (fun (n, t) => (0x2000 + 512 * n, t.bytes (k.busy (.t n)) 512))
    ++ (k.tregs.filter fun t => !t.2.codebook.isEmpty).map (fun (n, t) => (0x4000 + 4096 * n, t.codebook))
    ++ k.xslots.map (fun (n, t) => (0x14000 + 2048 * n, t.bytes))
    ++ (if st = 1 then [] else
          partsAt 0x18000 80 ((k.sq.take 512).map SqLine.bytes) ++ k.flume.map fun (n, t) => (0x22000 + 12288 * n, t.bytes))
    ++ (if k.mill.shadow.isSome || k.mill.depth != 0 then [(0x28000, k.mill.bytes)] else [])
    ++ partsAt 0x2C000 4096 ((k.inflight.flatMap fun f => f.what.image).take 16)
    ++ (k.planes.filter fun p => p.1 < x.planes).map (fun p => (0x40000 + 4096 * p.1, bytesOf (tabulate lanes fun i => lane p.2 i)))
    ++ (k.tail.ents.filter fun e => e.st ≤ 1).flatMap k.tail.entryParts
    ++ (k.tiles.filter fun a => a.1 < x.tiles).map fun a => (0x70000 + 65536 * a.1, bytesOf (tabulate 16384 fun i => lane a.2 i))

/-- Writes parts of a context at a physical address. -/
def State.writeParts (s : State) (p key pa : Nat) : List (Nat × List Byte) → State
  | [] => s
  | (o, b) :: t => (s.saveWrite p key (pa + o) b).writeParts p key pa t

/-- Writes areas of a context as zeros. -/
def State.zeroParts (s : State) (p key pa : Nat) : List (Nat × Nat) → State
  | [] => s
  | (o, n) :: t => (s.saveZero p key (pa + o) n).zeroParts p key pa t

/-- R430: writes the context of core `c` at a physical address. -/
def State.writeContext (s : State) (p key pa c st : Nat) (x : Launch) (k : Core) : State :=
  (s.zeroParts p key pa (contextZeros st x)).writeParts p key pa (k.context c st x)

/-- R429: the physical address of frame `i` of a virtual device; none where it does not lie in the partition's granules. -/
def State.frameAt (s : State) (v i : Nat) : Option Nat :=
  let pa := ((s.vd v).pfBase.toNat + i) * 0x100000
  if ownsRange (s.vdPart v) pa 0x100000 then some pa else none

/-- R429: the index of the fault frame: PFCNT, or 0 where that lies outside the partition's granules and frame 0 does not. -/
def State.faultFrame (s : State) (v : Nat) : Option Nat :=
  [(s.vd v).pfCount.toNat, 0].find? fun i => (s.frameAt v i).isSome

/-- R49, R50: the key fault that an access of the device's own to frame `i` meets. -/
def State.frameFault (s : State) (v i : Nat) : Option Trap :=
  match s.frameAt v i with
  | some pa => (s.saveFault (s.vd v).part (s.saveKey v) pa 0x100000).map fun cls => trapOf cls pa
  | none => none

/-- R429: writes the context of core `c` into frame `i`. -/
def State.saveFrame (s : State) (v i c st : Nat) (k : Core) : State :=
  match s.frameAt v i with
  | some pa => s.writeContext (s.vd v).part (s.saveKey v) pa c st (s.job c) k
  | none => s

/-- R376, R463: the bundle that a member of a flight issues next: the oldest that the lead has issued and it has not, else the lead's. -/
def State.nextPc (s : State) (m : Nat) : Nat :=
  let k := s.core m
  let lead := s.core (m - k.fpos)
  if k.fpos = 0 then k.pc
  else match (lead.trail.take (k.fpos * (s.job m).skew)).reverse.find? (· != 0) with
    | some a => a - 1
    | none => lead.pc

/-- R463: the cores' own next bundles, before their contexts are saved. -/
def State.ownPcs (s : State) : List Nat → State
  | [] => s
  | m :: ms => (s.setCore m { s.core m with pc := s.nextPc m }).ownPcs ms

/-! ### Loading -/

/-- A little-endian field of a frame. -/
def State.frameField (s : State) (key pa off n : Nat) : Nat := leNat (s.paRead key (pa + off) n)

/-- Words of a frame. -/
def State.frameWords (s : State) (key pa off n : Nat) : List Word := tabulate n fun i => BitVec.ofNat 32 (s.frameField key pa (off + 4 * i) 4)

/-- Sets several keys of a map. -/
def putAll {α : Type} (m : Map α) : List (Nat × α) → Map α
  | [] => m
  | (k, v) :: t => putAll (Map.put m k v) t

/-- Bytes of a list from an offset, as a number. -/
def fieldOf (b : List Byte) (off n : Nat) : Nat := leNat ((b.drop off).take n)

/-- R287, R430: a tensor register as its 512 bytes hold it. -/
def TReg.over (t : TReg) (b : List Byte) (codebook : List Byte) : TReg :=
  { t with
    words := if bit (fieldOf b 164 1) 0 then tabulate 16 fun i => BitVec.ofNat 64 (fieldOf b (8 * i) 8) else t.words
    loaded := bit (fieldOf b 164 1) 0, eg := bit (fieldOf b 164 1) 1, codebook := codebook,
    ver := fieldOf b 128 4, row0 := fieldOf b 132 4, col0 := fieldOf b 136 4, i2 := fieldOf b 140 4, i3 := fieldOf b 144 4,
    wr := fieldOf b 148 4, wc := fieldOf b 152 4, rs := BitVec.ofNat 32 (fieldOf b 156 4), cs := BitVec.ofNat 32 (fieldOf b 160 4) }

/-- R255, R430: a crossbar slot as its 2 KiB hold it. -/
def XSlot.ofBytes (b : List Byte) : XSlot :=
  { en := laneMask fun i => bit (fieldOf b (2 * i) 2) 15, dst := tabulate lanes fun i => fieldOf b (2 * i) 2 % 1024,
    coll := bit (fieldOf b 0 2) 14 }

/-- R224, R430: a line of the store queue as its 80 bytes hold it. -/
def SqLine.ofBytes (b : List Byte) : SqLine :=
  let w := fieldOf b 72 8
  { m := bit w 0, scope := w % 64 / 2, block := w / 64, mask := BitVec.ofNat 64 (fieldOf b 64 8), data := b.take 64 }

/-- R133: a handle with a descriptor, and the model's own counts as they were. -/
def Handle.over (x : Handle) (d : Nat) : Handle :=
  { x with
    defd := bit d 63, state := fld d 62 61, gen := bit d 60, shs := fld d 59 58, vis := bit d 57, vtag := fld d 56 55,
    stag := fld d 54 53, rdr := fld d 52 45, dbl := bit d 40, size := fld d 33 21, base := fld d 20 8 }

/-- R432: a scoreboard entry as its 32 bytes hold it; the lanes of a plane access are as they were. -/
def Access.over (x : Access) (b : List Byte) : Access :=
  let w := fieldOf b 0 8
  let some16 (l : List Byte) (off : Nat) : List Byte := if l.length ≤ 16 then ((b.drop off).take l.length) else l
  { x with
    faulted := bit w 62, reg := fld w 55 48, addr := fieldOf b 8 8,
    width := if Nat.log2 (max 1 x.width) = fld w 47 46 then x.width else 2 ^ fld w 47 46,
    order := if x.order % 2 ^ 32 = fld w 31 0 then x.order else fld w 31 0,
    data := some16 x.data 16, data2 := if x.op = .cas then some16 x.data2 24 else x.data2 }

/-- R432: the valid entries of a scoreboard as a frame holds them. -/
def State.frameBoard (s : State) (key pa : Nat) (l : List Access) : List Access :=
  l.zipIdx.filterMap fun (x, i) =>
    let b := s.paRead key (pa + 0x240 + 32 * i) 32
    if i < 16 && !bit (fieldOf b 0 8) 63 then none else some (if i < 16 then x.over b else x)

/-- R435: a result in flight with the register and the value of its record and its pieces. -/
def Landing.over (r : Nat) (v img : List Byte) : Landing → Landing
  | .reg _ _ => .reg r (BitVec.ofNat 32 (fieldOf v 0 4))
  | .latch _ _ => .latch r (BitVec.ofNat 32 (fieldOf v 0 4))
  | .plane _ m _ => .plane r m (wordsOf img)
  | .pred _ _ _ => .pred r (BitVec.ofNat 1024 (fieldOf img 0 128)) (BitVec.ofNat 1024 (fieldOf img 128 128))
  | .flags _ _ => .flags r (BitVec.ofNat 1024 (fieldOf img 0 128))
  | .sysreg _ _ => .sysreg r (BitVec.ofNat 64 (fieldOf v 0 8))
  | .slice _ d => .slice (fieldOf v 0 4) ((v.drop 4).take d.length)
  | .lanes d => .lanes (tabulate d.length fun i => (fieldOf img (8 * i) 4, BitVec.ofNat 32 (fieldOf img (8 * i + 4) 4)))
  | .bank _ _ d => .bank r (fieldOf v 0 4) (if d.length ≤ 32 then (v.drop 4).take d.length else img.take d.length)
  | .xslot _ _ _ _ => let x := XSlot.ofBytes img; .xslot r x.en x.dst x.coll
  | .treg _ t => .treg r (t.over (img.take 512) (if t.codebook.isEmpty then [] else (img.drop 4096).take 4096))
  | .part _ _ _ _ => .part r (fieldOf v 0 4) (BitVec.ofNat 32 (fieldOf v 4 4)) (BitVec.ofNat 32 (fieldOf v 8 4))
  | .tail _ d => .tail (fieldOf v 0 8) (if d.length ≤ 32 then (v.drop 8).take d.length else img.take d.length)

/-- R435: the results in flight as a frame holds them, from record `i` and piece `n` on; those that found no place are as they were. -/
def State.frameFlight (s : State) (key pa now : Nat) : Nat → Nat → List InFlight → List InFlight
  | _, _, [] => []
  | i, n, f :: fs =>
    let k := f.what.image.length
    let b := s.paRead key (pa + 0x440 + 48 * i) 48
    let g : InFlight := if 32 ≤ i || 16 < n + k then f
      else { f with due := now + fieldOf b 4 4, what := f.what.over (fieldOf b 2 2) (b.drop 8) (s.paRead key (pa + 0x2C000 + 4096 * n) (4096 * k)) }
    g :: s.frameFlight key pa now (i + 1) (n + k) fs

/-- R431: the barrier word that a frame holds as pending, on a core with the registers `k`. -/
def pendingBarrier (k : Core) (w : Nat) : Option Barrier :=
  if !bit w 32 then none
  else
    let word := BitVec.ofNat 32 w
    let b (kind scope : Nat) (flag : Bool) (d : Nat) : Barrier := { kind := kind, scope := scope, flag := flag, d := d, word := word }
    if k.barrier.any (·.word = word) then k.barrier
    else match decodeOp (w / 2 ^ 23 % 256) (w % 2 ^ 23) with
      | .ok (.phase sc) => some (b 0 sc.val false 0)
      | .ok (.bar sc) => some (b 1 sc.val false 0)
      | .ok (.ostep d a) => some (b 2 4 (k.rd a != 0) d.val)
      | _ => none

/-- R259, R430: the ring of a core with its `n` resident bytes, which end at offset `rsp`, as a frame holds them. -/
def State.loadRing (s : State) (key pa rsp n : Nat) (m : Map Byte) : Map Byte :=
  (List.range n).foldl (fun m i => let o := (rsp - n + i) % ringSize; Map.put m o (s.paByte key (pa + 0x50000 + o))) m

/-- R259, R263: the entries of `left` resident bytes that end at offset `top`, newest first, as their headers in the ring give them. -/
def Tail.entsAt (t : Tail) : Nat → Nat → Nat → List TailEnt
  | 0, _, _ => []
  | fuel + 1, top, left =>
    let z := 64 * (Header.ofBytes (t.read (top - 64) 64)).size
    if z = 0 || left < z || top < z then [] else { base := top - z, size := z, st := 0 } :: t.entsAt fuel (top - z) (left - z)

/-- R260, R279: the Tailrace of a core as a frame holds it. -/
def State.loadTail (s : State) (key pa : Nat) (t : Tail) : Tail :=
  let f := s.frameField key pa
  let n := min ringSize (f 0x1C0 8)
  let u : Tail := { t with
    rsp := f 0x1A8 8, rsbase := BitVec.ofNat 32 (f 0x1B0 4), high := rslimHigh (f 0x1B8 4), low := rslimLow (f 0x1B8 4),
    ring := s.loadRing key pa (f 0x1A8 8) n t.ring }
  let u := { u with ents := u.entsAt 2048 u.rsp n }
  { u with count := u.recount }

/-- R119, R430: a channel with what a frame holds of its state, its DONE and its last STAT. -/
def Channel.over (x : Channel) (b : List Byte) : Channel :=
  { x with state := fieldOf b 0 4, done := BitVec.ofNat 32 (fieldOf b 4 4), stat := fieldOf b 8 8 }

/-- R430, R431: a core with what a context in memory holds, read at the places that the spec gives; what it gives no place is as `k` has
it (log 11). -/
def State.loadParts (s : State) (key pa : Nat) (x : Launch) (k : Core) : Core :=
  let f := s.frameField key pa
  let loop (i : Nat) : LoopSet :=
    LoopSet.mk (f (0x120 + 24 * i) 8 % 2 ^ 48) (f (0x128 + 24 * i) 8 % 2 ^ 48) (BitVec.ofNat 32 (f (0x130 + 24 * i) 4))
  let book (n : Nat) (t : TReg) : TReg :=
    { t with codebook := if t.loaded && t.fmt = 12 && t.space != 3 then s.paRead key (pa + 0x4000 + 4096 * n) 4096 else t.codebook }
  let treg (n : Nat) : TReg := book n ((k.treg n).over (s.paRead key (pa + 0x2000 + 512 * n) 512) (k.treg n).codebook)
  let k := { k with
    pc := f 0 8 % 2 ^ 48, lid := f 8 4, widx := f 0xC 4,
    sregs := putAll k.sregs ((s.frameWords key pa 0x10 55).zipIdx.map fun (w, i) => (i + 1, w)),
    latches := putAll k.latches ((s.frameWords key pa 0x100 5).zipIdx.map fun (w, i) => (i, w)),
    loops := putAll k.loops (tabulate 4 fun i => (i, loop i)), depth := f 0x180 8 % 8,
    fctl := BitVec.ofNat 32 (f 0x188 4) &&& 15, rngkey := BitVec.ofNat 64 (f 0x190 8), rngctr := BitVec.ofNat 32 (f 0x198 4),
    mbtag := BitVec.ofNat 32 (f 0x1A0 4), tail := s.loadTail key pa k.tail, tok := BitVec.ofNat 32 (f 0x1C8 4),
    scb := BitVec.ofNat 64 (f 0x1D0 8), freeze := BitVec.ofNat 64 (f 0x1D8 8), cycle := BitVec.ofNat 64 (f 0x1E0 8),
    phaseCount := f 0x200 8, oseq := BitVec.ofNat 32 (f 0x210 4), fpos := f 0x218 4, flen := f 0x21C 4,
    board := s.frameBoard key pa k.board, inflight := s.frameFlight key pa k.sched 0 0 k.inflight,
    handles := putAll k.handles (tabulate 64 fun h => (h, (k.handle h).over (f (0xA40 + 8 * h) 8))),
    preds := putAll k.preds (tabulate 12 fun q => (q + 1, BitVec.ofNat 1024 (f (0x1000 + 128 * q) 128))),
    tregs := putAll k.tregs (tabulate 16 fun n => (n, treg n)),
    xslots := putAll k.xslots (tabulate 8 fun n => (n, XSlot.ofBytes (s.paRead key (pa + 0x14000 + 2048 * n) 2048))),
    planes := putAll k.planes (tabulate x.planes fun p => (p, s.frameWords key pa (0x40000 + 4096 * p) 1024)),
    tiles := putAll k.tiles (tabulate x.tiles fun a => (a, s.frameWords key pa (0x70000 + 65536 * a) 16384)) }
  { k with barrier := pendingBarrier k (f 0x208 8) }

/-- R430: the store queue and the channels of a context that is no park frame. -/
def State.loadHeld (s : State) (key pa : Nat) (k : Core) : Core :=
  let line (i : Nat) : SqLine := SqLine.ofBytes (s.paRead key (pa + 0x18000 + 80 * i) 80)
  { k with
    sq := (tabulate 512 line).filter (·.mask != 0)
    flume := k.flume.map fun (n, t) => (n, t.over (s.paRead key (pa + 0x22000 + 12288 * n) 16)) }

/-- R415: the context of a gang switch as a restore reads it back. -/
def State.reload (s : State) (key pa : Nat) (x : Launch) (k : Core) : Core := s.loadHeld key pa (s.loadParts key pa x k)

/-- R445: core `k` with the context that the fault frame holds, of which `d` is the model's copy: it goes on as it stands, and the accesses
that have left it are as they are. -/
def State.loadFrame (s : State) (key pa : Nat) (x : Launch) (d k : Core) : Core :=
  let j := (s.reload key pa x d).rebase k.sched
  { j with
    mode := k.mode, job := k.job, entry := k.entry, gq := k.gq, mq := k.mq, issueNo := k.issueNo, bundleNo := k.bundleNo, away := k.away,
    mill := k.mill, wall := k.wall, charges := k.charges, ostep := k.ostep, votes := k.votes, trap := k.trap, after := k.after,
    lead := k.lead, trail := k.trail, loopTrail := k.loopTrail }

/-- R429: the contexts of a flight as they are read from consecutive frames. -/
def State.reloadAll (s : State) (v l : Nat) : Nat → List (Nat × Core) → List (Nat × Core)
  | _, [] => []
  | i, (c, k) :: t =>
    (c, match s.frameAt v i with
      | some pa => s.loadParts (s.saveKey v) pa (s.launch l) k
      | none => k) :: s.reloadAll v l (i + 1) t

end Sys2Proof.Machine
end

