-- ==== Sys2Proof/Machine/EvPhase.lean ====
section
/-! DEFINITION. Events that complete phases, barriers and votes, move granules, swap handles and suspend continuations (R127-R130,
R136, R323-R326, R333, R370-R372). -/

namespace Sys2Proof.Machine

/-! ### The gang across devices -/

/-- The gang of a virtual device. -/
def State.gangOf (s : State) (v : Nat) : Option Gang := s.gangs.lookup (s.vd v).gid

/-- Replaces a gang. -/
def State.setGang (s : State) (g : Nat) (x : Gang) : State := { s with gangs := Map.put s.gangs g x }

/-- R323, R333, R484: a message of a barrier or a vote to every other member. -/
def State.sendControl (s : State) (gid : Nat) (g : Gang) (type arg : Nat) (w : GangWord) : State :=
  s.sendLane (s.othersOf g) { Control.flit gid type arg g.epoch with lid := w.lid, kind := w.kind }

/-- What a member may do about a barrier of gang scope whose own cores have all arrived: complete it, or wait. -/
inductive GangGate where
  | complete (s : State)
  | wait (s : State)

/-- Removes one arrival of each device of a list at a word. -/
def dropArrivals (w : GangWord) (as : List (Nat × GangWord)) : List Nat → List (Nat × GangWord)
  | [] => as
  | d :: ds => dropArrivals w (as.erase (d, w)) ds

/-- R323, R326, R492: the member's arrival at a word, which it sends once, to every other member. -/
def State.announce (s : State) (gid : Nat) (g : Gang) (w : GangWord) : State :=
  let me := s.devnum.toNat
  if g.arrivals.contains (me, w) then s
  else (s.setGang gid { g with arrivals := (me, w) :: g.arrivals }).sendControl gid g 0x20 w.scope w

/-- R323, R326, R484, R492: the part of the other members of the gang launch with the word's LID: every member announces its arrival;
rank 0 waits for all arrivals and then sends the release, for which the others wait. Which member releases, and how a flit that holds a
scope alone names the launch and the kind of word, the spec does not say. DESIGN CHOICE, unsafe (log 64). -/
def State.gangGate (s : State) (v : Nat) (w : GangWord) : GangGate :=
  match s.gangOf v with
  | none => .complete s
  | some g =>
    let id := (s.vd v).gid
    if w.scope != 4 || g.members.length ≤ 1 then .complete s
    else if g.rank = 0 then
      if (s.othersOf g).all fun d => g.arrivals.contains (d, w) then
        .complete ((s.setGang id { g with arrivals := dropArrivals w g.arrivals g.members }).sendControl id g 0x21 w.scope w)
      else .wait (s.announce id g w)
    else match g.releases.find? (·.2 = w) with
      | some r => .complete (s.setGang id { g with releases := g.releases.erase r, arrivals := dropArrivals w g.arrivals g.members })
      | none => .wait (s.announce id g w)

/-- R492: which gang launch a launch joins: its LID, and how many launches with that LID its virtual device has read before it. Software
kicks the launches of one LID on every member in one order, so that the members count alike (log 64). -/
def State.gangLid (s : State) (l : Nat) : Nat :=
  let x := s.launch l
  (s.launches.filter fun e => e.1 < l && e.2.vd = x.vd && !e.2.words.isEmpty && e.2.lidF = x.lidF).length * 2 ^ 32 + x.lidF

/-- R492: the launch of a virtual device that joins a gang launch, where it has been read. -/
def State.launchOf (s : State) (v lid : Nat) : Option (Nat × Launch) :=
  s.launches.find? fun e => e.2.vd = v && !e.2.words.isEmpty && s.gangLid e.1 = lid

/-- R323, R492: the cores on this member of a gang launch, where none of them has an unfinished continuation left and every access and
update that they sent has been performed: they count as arrived at every later barrier of it. A launch that has completed leaves none;
one that has not started, or was never kicked, counts for none. -/
def State.doneCores (s : State) (v lid : Nat) : Option (List Nat) :=
  match s.launchOf v lid with
  | none => none
  | some (l, x) =>
    match x.state with
    | .complete => some []
    | .running =>
      if !s.taken l && x.cores.all (fun c => (s.core c).barrier.isNone && !s.remains l c && s.quietCore c) then some x.cores else none
    | _ => none

/-! ### Phases and barriers -/

/-- R323, R351: have all participants arrived, with what they issued before performed? -/
def State.allArrived (s : State) (l : Nat) (b : Barrier) (cs : List Nat) : Bool :=
  !s.taken l && cs.all fun c => s.arrived l c b && s.quietCore c

/-- R324, R351: the participants leave a phase; each counts it, its ordered updates count anew, and its local stores due by now land. -/
def State.leavePhase (s : State) : List Nat → State
  | [] => s
  | c :: cs =>
    let k := s.core c
    ((s.setCore c { k with barrier := none, phaseCount := k.phaseCount + 1, oseq := 0 }).landDue c).leavePhase cs

/-- R325, R351: the participants leave a barrier, and the local stores due by now land. -/
def State.leaveBar (s : State) : List Nat → State
  | [] => s
  | c :: cs => ((s.setCore c { s.core c with barrier := none }).landDue c).leaveBar cs

/-- The barrier word of a kind on which a core waits, with its launch and its participants on this device. -/
def State.waitingAt (s : State) (c kind : Nat) : Option (Barrier × Nat × List Nat) :=
  match (s.core c).barrier, (s.core c).job with
  | some b, some l => if b.kind = kind then some (b, l, (s.launch l).scopeInst b.scope c) else none
  | _, _ => none

/-- R323, R326: the word of the gang's launch `l` on which a core waits. -/
def State.gangWord (s : State) (l : Nat) (b : Barrier) : GangWord := { lid := s.gangLid l, kind := b.kind, scope := b.scope }

/-- R324: a phase at which all participants `cs` on this device have arrived completes, once what it performs may be performed. -/
def State.endPhase (s : State) (v : Nat) (w : GangWord) (cs : List Nat) : State :=
  match s.settleFirst v w.scope cs with
  | some t => t
  | none =>
    match s.gangGate v w with
    | .wait t => t
    | .complete t => (t.settle v w.scope cs).leavePhase cs

/-- R325: a barrier at which all participants on this device have arrived completes. -/
def State.endBar (s : State) (v : Nat) (w : GangWord) (cs : List Nat) : State :=
  match s.gangGate v w with
  | .wait t => t
  | .complete t => t.leaveBar cs

/-- R323-R325, R492: a member none of whose cores has a continuation of the gang launch left takes part for them in each word at which
another member has arrived: in a phase its held stores are released, in a barrier nothing is. -/
def State.answerWords (s : State) (v : Nat) : List GangWord → State
  | [] => s
  | w :: ws =>
    (match s.doneCores v w.lid with
     | none => s
     | some cs => if w.kind = 0 then s.endPhase v w cs else s.endBar v w cs).answerWords v ws

/-- R492: the words of gang scope at which other members have arrived, each once. -/
def State.answerBarrier (s : State) (gid : Nat) : State :=
  match s.gangs.lookup gid with
  | none => s
  | some g =>
    s.answerWords g.vd (((g.arrivals.filter fun e => e.1 != s.devnum.toNat && e.2.scope = 4).map (·.2)).eraseDups)

/-- R324: the phase on which a core waits completes: stores are released, ordered updates closed, and all participants leave. -/
def execPhaseComplete (c : Nat) (s : State) : Host.Outcome State Fault Refusal :=
  s.move fun s =>
    match s.waitingAt c 0 with
    | none => s.answerBarrier (s.coreGid c)
    | some (b, l, cs) =>
      if s.allArrived l b cs then s.endPhase (s.launchVd l) (s.gangWord l b) cs else s

/-- R325: the barrier on which a core waits completes. -/
def execBarrierComplete (c : Nat) (s : State) : Host.Outcome State Fault Refusal :=
  s.move fun s =>
    match s.waitingAt c 1 with
    | none => s
    | some (b, l, cs) =>
      if s.allArrived l b cs then s.endBar (s.launchVd l) (s.gangWord l b) cs else s

/-! ### The step vote -/

/-- R333: the vote's result reaches the cores: sr.ostep, and d where the core voted. -/
def State.leaveVote (s : State) (step : Word) (d : Bool) : List Nat → State
  | [] => s
  | c :: cs =>
    let k := s.core c
    let s' := (s.setCore c { k with barrier := none, ostep := step, votes := k.votes + 1 }).landDue c
    (match k.barrier with
     | some b => s'.landHidden c b.d 1 (b2n d)
     | none => s').leaveVote step d cs

/-- R333: a vote of a gang ends with or without a flag: every core of the gang here takes its sr.ostep. -/
def State.tally (s : State) (gid : Nat) (g : Gang) (flag : Bool) : State :=
  let step := if flag then g.ostep else g.ostep + 1
  let s := s.setGang gid { g with ostep := step }
  { s with cores := s.cores.map fun e => (e.1, if s.coreVd e.1 = g.vd && e.2.job.isSome then { e.2 with ostep := step } else e.2) }

/-- R333: a vote of a launch ends. -/
def State.endVote (s : State) (l : Nat) (flag : Bool) (cs : List Nat) : State :=
  let v := s.launchVd l
  match s.gangOf v with
  | none => s
  | some g =>
    let t := s.tally (s.vd v).gid g flag
    (t.setLaunch l { t.launch l with votes := (t.launch l).votes + 1 }).leaveVote (if flag then g.ostep else g.ostep + 1) (!flag) cs

/-- R333: how a vote with this member's flag stands: its result, or what the member does while it has none. -/
inductive VoteGate where
  | result (flag : Bool) (s : State)
  | wait (s : State)

/-- One flag of a launch of each device of a list is used up. -/
def dropFlags (lid : Nat) (fs : List (Nat × GangFlag)) : List Nat → List (Nat × GangFlag)
  | [] => fs
  | d :: ds => dropFlags lid (match fs.find? (fun e => e.1 = d && e.2.lid = lid) with | some e => fs.erase e | none => fs) ds

/-- R333: the flag of a device in the vote of a launch. -/
def Gang.flagOf (g : Gang) (lid d : Nat) : Option Bool := (g.flags.find? fun e => e.1 = d && e.2.lid = lid).map (·.2.flag)

/-- R333, R484: the member's flag, which it sends once, to every other member. -/
def State.castFlag (s : State) (gid : Nat) (g : Gang) (f : GangFlag) : State :=
  let me := s.devnum.toNat
  if (g.flagOf f.lid me).isSome then s
  else (s.setGang gid { g with flags := (me, f) :: g.flags }).sendControl gid g 0x22 (b2n f.flag) { lid := f.lid, kind := 2, scope := 4 }

/-- R333, R484: every member sends its flag; rank 0 waits for the flags of all and then sends the result, for which the others wait
(log 64). -/
def State.voteGate (s : State) (gid : Nat) (g : Gang) (f : GangFlag) : VoteGate :=
  let others := s.othersOf g
  if g.members.length ≤ 1 then .result f.flag s
  else if g.rank = 0 then
    if others.all fun d => (g.flagOf f.lid d).isSome then
      let any := f.flag || others.any fun d => g.flagOf f.lid d = some true
      .result any ((s.setGang gid { g with flags := dropFlags f.lid g.flags g.members }).sendControl gid g 0x23 (b2n any)
        { lid := f.lid, kind := 2, scope := 4 })
    else .wait (s.castFlag gid g f)
  else match g.results.find? (·.lid = f.lid) with
    | some r => .result r.flag (s.setGang gid { g with results := g.results.erase r, flags := dropFlags f.lid g.flags g.members })
    | none => .wait (s.castFlag gid g f)

/-- R333, R492: a member none of whose cores has a continuation of the gang launch left votes with flag 0 in each vote that another
member has begun, and takes the result. -/
def State.answerVotes (s : State) (gid : Nat) : List Nat → State
  | [] => s
  | lid :: ls =>
    (match s.gangs.lookup gid with
     | none => s
     | some g =>
       if (s.doneCores g.vd lid).isNone then s
       else match s.voteGate gid g { lid := lid, flag := false } with
         | .wait t => t
         | .result r t => match t.gangs.lookup gid with
           | some h => t.tally gid h r
           | none => t).answerVotes gid ls

/-- R492: the launches in whose votes other members have voted, each once. -/
def State.answerVote (s : State) (gid : Nat) : State :=
  match s.gangs.lookup gid with
  | none => s
  | some g => s.answerVotes gid (((g.flags.filter fun e => e.1 != s.devnum.toNat).map (·.2.lid)).eraseDups)

/-- R492: what a member whose cores have nothing left to do answers the others. -/
def State.answerGang (s : State) (gid : Nat) : State := (s.answerBarrier gid).answerVote gid

/-- R333: the vote on which a core waits completes, once every core of every member has voted or counts as having voted. -/
def execOstepVoteComplete (c : Nat) (s : State) : Host.Outcome State Fault Refusal :=
  s.move fun s =>
    match s.waitingAt c 2 with
    | none => s.answerVote (s.coreGid c)
    | some (b, l, cs) =>
      if s.taken l || !(cs.all fun c => s.arrived l c b) then s
      else
        let flag := cs.any fun c => ((s.core c).barrier.map (·.flag)).getD false
        let v := s.launchVd l
        match s.gangOf v with
        | none => s
        | some g => match s.voteGate (s.vd v).gid g { lid := s.gangLid l, flag := flag } with
          | .wait t => t
          | .result r t => t.endVote l r cs

/-! ### Granules -/

/-- R128: the 64 KiB of a granule. -/
def State.granuleBytes (s : State) (g : Nat) : List Byte := s.gRead (g * Config.granuleBytes) Config.granuleBytes

/-- R126: zeroes a granule. -/
def State.zeroGranule (s : State) (g : Nat) : State :=
  { s with gmem := s.gmem.filter fun e => e.1 / Config.granuleBytes != g }

/-- R50, R54, R394: an access of the device's own to a gang's save area has met a fault: it ends a launch of the gang that runs here, that
of core `c` where it is one. Where the gang runs no launch here there is none that it could end (log 70). -/
def State.saveTrap (s : State) (gid c cls addr : Nat) : State :=
  match s.gangs.lookup gid with
  | none => s
  | some x =>
    let runs (d : Nat) : Bool := match (s.core d).job with | some l => s.launchVd l = x.vd && (s.launch l).state = .running | none => false
    match (c :: s.cores.map (·.1)).find? runs with
    | some d => s.takeFault d (trapOf cls addr)
    | none => s

/-- R49, R50: the fault that moving a granule between its slice and its slot in the save area meets, at the map or at the slot. -/
def State.slotFault (s : State) (x : Gang) (g : Nat) : Option Nat :=
  (s.saveFault x.part x.key (spillByte x.savePa g) 1).orElse fun _ => s.saveFault x.part x.key (s.spillSlot x g) Config.granuleBytes

/-- R128: the owner's copy of a granule leaves it: to its spill slot, under its gang's key, with the gang's map bit set; a retired
gang's is dropped. The granule is then free and zero. -/
def State.spillGranule (s : State) (g : Nat) : State :=
  let t := s.granule g
  let free (s : State) : State := { s.zeroGranule g with granules := Map.put s.granules g Granule.reset }
  match s.gangs.lookup t.gid with
  | none => free s
  | some x =>
    if x.retired then free s
    else match s.slotFault x g with
      | some cls => (free s).saveTrap t.gid (g / 32) cls (s.spillSlot x g)
      | none => free ((s.setSpillBit t.gid g true).saveWrite x.part x.key (s.spillSlot x g) (s.granuleBytes g))

/-- R50, R128: restores the copy of a gang into a free granule, or meets a fault. -/
def State.restoreGranule (s : State) (gid g : Nat) : State :=
  match s.gangs.lookup gid with
  | none => s
  | some x =>
    match s.slotFault x g with
    | some cls => s.saveTrap gid (g / 32) cls (s.spillSlot x g)
    | none =>
      let b := s.paRead x.key (s.spillSlot x g) Config.granuleBytes
      let s := ((s.setSpillBit gid g false).zeroGranule g).gWrite (g * Config.granuleBytes) b
      { s with granules := Map.put s.granules g { gid := gid, pin := 0 } }

/-- R131: does a local store in flight of the slice's core still have to land in the granule? A spill comes after it. -/
def State.landsIn (s : State) (g : Nat) : Bool :=
  let spot (a n : Nat) : Bool := a / Config.granuleBytes = g % 32 || (a + n - 1) / Config.granuleBytes = g % 32
  (s.core (g / 32)).inflight.any fun f =>
    match f.what with
    | .slice a v => spot a v.length
    | .lanes v => v.any fun e => spot e.1 4
    | .bank _ a v => spot a v.length
    | _ => false

/-- R127: the granules in which the local stores in flight of a context land, once it is on core `c`. -/
def Core.storeGranules (k : Core) (c : Nat) : List Nat := k.inflight.flatMap fun f => (f.what.stores c).map (· / Config.granuleBytes)

/-- R127: the touch of a granule is settled. -/
def State.settleTouch (s : State) (g : Nat) : State := { s with touches := Map.erase s.touches g }

/-- R127, R128: the spill that a gang's touch of another gang's granule brings: the zeroed granule is the toucher's at once where it
has no copy to restore. -/
def State.spillFor (s : State) (gid g : Nat) : State :=
  let s := s.spillGranule g
  if s.spillBit gid g then s else (s.takeGranule gid g).settleTouch g

/-- R127, R129: may the touch of a granule by a gang spill it now: another gang's, not pinned, nothing on its way to it? -/
def State.spillable (s : State) (gid g : Nat) : Bool :=
  (s.granule g).gid != 0 && (s.granule g).gid != gid && (s.granule g).pin = 0 && !s.landsIn g

/-- R127, R128: the touch of a granule by a gang is settled at once where no pin and no landing holds it: the other gang's copy is spilled,
and the toucher's restored. -/
def State.settleNow (s : State) (gid : Nat) : List Nat → State
  | [] => s
  | g :: gs =>
    let s := if s.spillable gid g then s.spillGranule g else s
    (if (s.granule g).gid = 0 && s.spillBit gid g then s.restoreGranule gid g else s).settleNow gid gs

/-- The granule of an event: its G number. -/
def granuleOf (c gran : Nat) : Nat := 32 * c + gran % 32

/-- R127, R128: the touch that waits at a granule spills it. -/
def execGranuleSpill (c : Nat) (gran : Nat) (s : State) : Host.Outcome State Fault Refusal :=
  s.move fun s =>
    let g := granuleOf c gran
    match s.touches.lookup g with
    | some gid => if s.spillable gid g then s.spillFor gid g else s
    | none => s

/-- R127, R128: the copy of the gang whose touch waits returns to its free granule. -/
def execGranuleRestore (c : Nat) (gran : Nat) (s : State) : Host.Outcome State Fault Refusal :=
  s.move fun s =>
    let g := granuleOf c gran
    match s.touches.lookup g with
    | some gid => if (s.granule g).gid = 0 && s.spillBit gid g then (s.restoreGranule gid g).settleTouch g else s
    | none => s

/-! ### Handles and suspension -/

/-- R136, R137: the swap of a double-banked handle. That of a core which issues comes at the end of its cycle (`Core.swapAll`). -/
def execHandleSwap (c : Nat) (h : Fin 64) (s : State) : Host.Outcome State Fault Refusal :=
  s.move fun s =>
    if (s.core c).mode != .running && ((s.core c).handle h).canSwap then s.updHandle c h Handle.swap else s

/-- R372: has the continuation of a core waited for all that a suspension waits for? The model also lets its accesses leave the
queues first. -/
def Core.calm (k : Core) : Bool :=
  k.inflight.isEmpty && k.gq.isEmpty && k.mq.isEmpty && k.mill.active.isNone && k.mill.shadow.isNone

/-- R373: the state of a continuation is gone from a core; what belongs to the core and the launch stays. -/
def Core.vacate (k : Core) : Core :=
  { Core.reset with
    job := k.job, sched := k.sched, units := k.units, away := k.away, sq := k.sq, handles := k.handles, flume := k.flume, lid := k.lid,
    ostep := k.ostep, freeze := k.freeze, cycle := k.cycle, wall := k.wall, phaseCount := k.phaseCount, oseq := k.oseq, votes := k.votes,
    charges := k.charges, issueNo := k.issueNo, flen := 1, tail := { Tail.reset with flight := k.tail.flight } }

/-- R373: the continuation of a core is off it. What it leaves stands until the next one begins on the core. -/
def Core.rest (k : Core) : Core :=
  { k with mode := .idle, fpos := 0, flen := 1, lead := 0, trail := [], loopTrail := [], readyAt := none, stalled := false, cause := 0 }

/-- The cores of a flight rest. -/
def State.restAll (s : State) : List Nat → State
  | [] => s
  | c :: cs => (s.setCore c (s.core c).rest).restAll cs

/-- R370: the virtual address of a pool entry. -/
def Launch.entryVa (x : Launch) (e : Nat) : Nat := x.cpool + 64 * e

/-- R370: the 64 bytes of a pool entry. -/
def poolBytes (hw hg : Bool) (hn st pc widx lid : Nat) (cs : List Word) : List Byte :=
  leBytes 8 (b2n hw * 2 ^ 63 + b2n hg * 2 ^ 62 + hn * 2 ^ 56 + st * 2 ^ 48 + pc % 2 ^ 48) ++ leBytes 8 (widx * 2 ^ 32 + lid)
    ++ cs.flatMap fun w => leBytes 4 w.toNat

/-- R370: writes a pool entry, or answers the continuation-state fault with the entry's address. -/
def State.poolWrite (s : State) (v va : Nat) (bs : List Byte) : Except Trap State :=
  match s.mWindow v va 64 64 with
  | some _ => .error (trapOf 15 va)
  | none => match s.mStore v va bs .write with
    | .ok t => .ok t
    | .error _ => .error (trapOf 15 va)

/-- R370: the bytes of a pool entry as the Sluice reads them back. -/
def State.poolRead (s : State) (v va : Nat) : Except Trap (List Byte × State) :=
  match s.mWindow v va 64 64 with
  | some _ => .error (trapOf 15 va)
  | none => match s.mLoad v va 64 .read with
    | .ok r => .ok r
    | .error _ => .error (trapOf 15 va)

/-- R370: the first word of a pool entry with a field replaced: `n` bits from bit `i`. -/
def poolField (w i n v : Nat) : Nat := w - fld w (i + n - 1) i * 2 ^ i + v * 2 ^ i

/-- R370, R372: a pool entry with another ST, and nothing else changed. -/
def poolState (b : List Byte) (st : Nat) : List Byte := leBytes 8 (poolField (leNat (b.take 8)) 48 4 st) ++ b.drop 8

/-- R372: a pool entry at a suspension: `end` sets ST, `yield` PC, CS, ST and HW, a yielding `await` HG and HN beside them. -/
def suspendedEntry (b : List Byte) (kind h : Nat) (gen : Bool) (pc : Nat) (cs : List Word) : List Byte :=
  if kind = 0 then poolState b 3
  else
    let w := poolField (leNat (b.take 8)) 0 48 (pc % 2 ^ 48)
    let w := if kind = 1 then poolField (poolField w 48 4 0) 63 1 0 else poolField (poolField w 48 4 2) 56 8 (128 + b2n gen * 64 + h)
    leBytes 8 w ++ (b.drop 8).take 8 ++ cs.flatMap fun w => leBytes 4 w.toNat

/-- R372: the suspension of the continuation on core `c`, which leads its flight: the pool entry records it. -/
def State.suspendNow (s : State) (c kind h : Nat) (gen : Bool) (ms : List Nat) : State :=
  match (s.core c).job with
  | none => s
  | some l =>
    let k := s.core c
    let x := s.launch l
    let cs := tabulate 12 fun i => k.rd (i + 1)
    match s.poolRead x.vd (x.entryVa k.entry) with
    | .error t => s.takeFault c t
    | .ok (b, s) => match s.poolWrite x.vd (x.entryVa k.entry) (suspendedEntry b kind h gen k.pc cs) with
    | .error t => s.takeFault c t
    | .ok s =>
      let x := s.launch l
      let s := s.setLaunch l (if kind = 0 then
          { x with items := Map.put x.items k.widx 2, pool := Map.erase x.pool k.entry }
        else { x with suspended := x.suspended ++ [(k.entry, c, kind != 1)] })
      s.restAll ms

/-- R375: the cores of the flight that core `c` leads. -/
def State.crew (s : State) (c : Nat) : List Nat := (List.range (s.core c).flen).map (c + ·)

/-- R372: once its waits are over, the suspended continuation of a core leaves it. -/
def execSuspendCommit (c : Nat) (s : State) : Host.Outcome State Fault Refusal :=
  s.move fun s =>
    match (s.core c).mode with
    | .suspending kind h gen =>
      let ms := s.crew c
      if (ms.all fun m => (s.core m).calm) && (s.core c).trail.all (· = 0) then s.suspendNow c kind h gen ms else s
    | _ => s

end Sys2Proof.Machine
end

