-- ==== Sys2Proof/Machine/Fabric.lean ====
section
/-! DEFINITION. What leaves the device as its links carry it: flits of 64 bytes, each beside a 64-bit frame word (R476, R477, R481, R482,
R484). -/

namespace Sys2Proof.Machine

/-- R477, R482: bits 63 to 58 of a frame word: the virtual channel or the type, SOP and EOP. -/
def frameTop (vc : Nat) (sop eop : Bool) : Nat := vc * 2 ^ 60 + b2n sop * 2 ^ 59 + b2n eop * 2 ^ 58

/-- The bytes of a flit, padded with zeros. -/
def flitBytes (b : List Byte) : List Byte := b ++ List.replicate (64 - b.length) 0

/-- R482: flits of a packet; one without payload takes one flit. -/
def packetFlits (p : Packet) : Nat := max 1 ((p.len + 63) / 64)

/-- The last flits of a packet of `n`. The first flit holds the header in the low 58 bits of its frame word, and each later one a credit
return of `cs`, where one is left. -/
def flitsFrom (vc header n : Nat) : Nat → List Nat → List Byte → List Flit
  | 0, _, _ => []
  | k + 1, cs, b =>
    let first := decide (k + 1 = n)
    { frame := BitVec.ofNat 64 (frameTop vc first (k = 0) + if first then header else cs.headD 0), bytes := flitBytes (b.take 64) }
      :: flitsFrom vc header n k (if first then cs else cs.tail) (b.drop 64)

/-- R482: the fields below EOP of a packet's header. -/
def fabricHeader (comm dst src len gang : Nat) : Nat := comm * 2 ^ 52 + dst * 2 ^ 41 + src * 2 ^ 30 + len * 2 ^ 17 + gang * 2

/-- R482, R483: the virtual channel of a communicator or of the system class. -/
def channelOfComm (comm : Nat) : Nat := if comm = 32 then 14 else comm % 15

/-- R482: bits 51 to 32 of a frame word that returns credits. -/
def creditField (c : Credit) : Nat := channelOfComm c.comm * 2 ^ 48 + c.flits * 2 ^ 32

/-- R482: a data packet on its link, with the credits that ride in its later flits. -/
def packetWire (p : Packet) : List Flit :=
  flitsFrom p.vc (fabricHeader p.comm p.dst p.src p.len p.gang) (packetFlits p) (packetFlits p) (p.credits.map creditField) p.payload

/-- R484: the payload of a control-lane message: 64 bytes, or 256 of a REPORT. -/
def Control.payload (m : Control) : List Byte :=
  leBytes 1 m.type ++ leBytes 1 m.arg ++ leBytes 2 m.gang ++ leBytes 4 m.epoch.toNat ++ leBytes 8 0
    ++ m.sums.flatMap fun x => leBytes 8 x.toNat

/-- R484: flits of a control-lane message. -/
def Control.flits (m : Control) : Nat := if m.type = 3 then 4 else 1

/-- R484, R494: a control-lane message on its way to one device. Its COMM is 0, which the spec does not say (log 38). -/
def Control.wire (m : Control) (dst : Nat) : List Flit :=
  flitsFrom 15 (fabricHeader 0 dst m.src (64 * m.flits) m.gang) m.flits m.flits [] m.payload

/-- R484, R494: a SLOT message on its way to one device; its gang id is 0. -/
def slotWire (src dst row : Nat) (backfill : List Nat) : List Flit :=
  flitsFrom 15 (fabricHeader 0 dst src 64 0) 1 1 [] (leBytes 1 0x10 ++ leBytes 3 0 ++ leBytes 4 row ++ backfill.flatMap (leBytes 2))

/-- R477: the fields below EOP of a Seust header. -/
def seustHeader (func tag len vd : Nat) : Nat := func * 2 ^ 49 + tag * 2 ^ 37 + len * 2 ^ 24 + vd * 2 ^ 16

/-- R477: flits of an ACK: the data of an MRD stand in its first flit, those of an HRD in further ones. -/
def ackFlits (data : List Byte) : Nat := if data.length ≤ 8 then 1 else 1 + (data.length + 63) / 64

/-- R477: an ACK on its link. The credits that it returns to its function stand in its second flit (log 38). -/
def ackWire (func tag status : Nat) (data : List Byte) (credits : Nat) : List Flit :=
  let n := ackFlits data
  let first := flitBytes (leBytes 8 status ++ if data.length ≤ 8 then data else [])
  flitsFrom 5 (seustHeader func tag data.length 0) n n [credits * 2 ^ 32] (first ++ if data.length ≤ 8 then [] else data)

/-- R477: credits return to a function in a flit of no packet, whose frame word has no place for the function (log 38). -/
def seustCreditWire (flits : Nat) : Flit := { frame := BitVec.ofNat 64 (frameTop 5 false true + flits * 2 ^ 32), bytes := flitBytes [] }

/-- R477: flits of a request: one, and those of the data of an HWR. -/
def requestFlits (data : Nat) : Nat := 1 + (data + 63) / 64

/-- R477: an INT on its link. It names its virtual device, and function 0, which the spec does not say (log 38). -/
def intWire (vd kind : Nat) (seq : DWord) : List Flit :=
  flitsFrom 4 (seustHeader 0 0 0 0) 1 1 [] (leBytes 2 vd ++ leBytes 1 kind ++ leBytes 5 0 ++ leBytes 8 seq.toNat)

/-- R477, R482, R484: what an output is on its link: the packets of it, flit by flit. A credit that rides in no packet leaves in a flit of
its own. -/
def Output.wire : Output → List (List Flit)
  | .ack func tag status data credits => [ackWire func tag status data credits]
  | .seustCredit _ flits => [[seustCreditWire flits]]
  | .int vd kind seq => [intWire vd kind seq]
  | .packet _ p => [packetWire p]
  | .credit _ c => [[{ frame := BitVec.ofNat 64 (creditField c), bytes := flitBytes [] }]]
  | .control m => m.dst.map m.wire
  | .slot src dst _ row _ bf => dst.map fun d => slotWire src d row bf

/-- R477: is a Seust header malformed: its type, its function, its length or its reserved bits? -/
def seustMalformed (h : Nat) : Bool :=
  let type := fld h 63 60
  let len := fld h 36 24
  4 ≤ type || 256 < fld h 57 49 || fld h 15 0 != 0
    || (if type ≤ 1 then len != 8 else len < 16 || 4096 < len || len % 16 != 0)
    || (fld h 23 16 != 0 && (type ≤ 1 || fld h 57 49 != 0))

/-- R482: is the frame word of a flit malformed: the header of a first one, or the bits of another that are to be 0? -/
def frameMalformed (f : Flit) : Bool :=
  let w := f.frame.toNat
  if bit w 59 then 32 < fld w 57 52 || 4096 < fld w 29 17 || bit w 0 else fld w 57 52 != 0 || fld w 31 0 != 0

/-- The packet that a header, its payload and what the model adds to it describe. -/
def packetOf (w : Nat) (n : PacketNote) (payload : List Byte) : Packet :=
  { vc := fld w 63 60, comm := fld w 57 52, dst := fld w 51 41, src := fld w 40 30, len := fld w 29 17, gang := fld w 16 1, index := n.index,
    head := n.head, payload := payload.take (fld w 29 17), failed := n.failed, credits := [] }

/-- R482: the credits that flits return: those of well-formed flits that are not the first of a packet, each to the gang and the
communicator that the model notes beside it (log 1). -/
def creditsOf : List Flit → List (Nat × Nat) → List Credit
  | f :: fs, o :: os =>
    let n := fld f.frame.toNat 47 32
    if bit f.frame.toNat 59 then creditsOf fs (o :: os)
    else if frameMalformed f || n = 0 then creditsOf fs os
    else { gang := o.1, comm := o.2, flits := n } :: creditsOf fs os
  | _, _ => []

/-- R482: do flits make one packet: a good first flit, good others of its virtual channel, EOP in the last alone, and as many as LEN needs? -/
def wholePacket : List Flit → Bool
  | [] => false
  | f :: fs =>
    let w := f.frame.toNat
    bit w 59 && !frameMalformed f && (fs.all fun x => !bit x.frame.toNat 59 && !frameMalformed x && fld x.frame.toNat 63 60 = fld w 63 60)
      && fs.length + 1 = max 1 ((fld w 29 17 + 63) / 64)
      && ((f :: fs).dropLast.all fun x => !bit x.frame.toNat 58) && ((f :: fs).getLast?.any fun x => bit x.frame.toNat 58)

/-- R482: the packet of flits that arrive. A packet of which a flit was dropped is lost (log 1). -/
def packetFrom (fs : List Flit) (n : PacketNote) : Option Packet :=
  match fs with
  | [] => none
  | f :: _ => if wholePacket fs then some (packetOf f.frame.toNat n (fs.flatMap (·.bytes))) else none

/-- R484: is a control-lane message of a type that is listed? One of another type is dropped. -/
def laneType (t : Nat) : Bool := (1 ≤ t && t ≤ 0x0A) || t = 0x10 || (0x20 ≤ t && t ≤ 0x23) || t = 0x30

end Sys2Proof.Machine
end

