-- ==== Sys2Proof/Machine/EvFault.lean ====
section
/-! DEFINITION. Events of faults: entries of the fault queue, parking, restoring, and the end of a launch by a fault (R359,
R425-R435). -/

namespace Sys2Proof.Machine

/-! ### Interrupts -/

/-- R476, R478: an interrupt leaves, or is held while the Seust link is down. -/
def State.sendInt (s : State) (v kind : Nat) (seq : DWord) : State :=
  if s.seustUp then { s with out := .int v kind seq :: s.out } else { s with ints := s.ints ++ [.int v kind seq] }

/-- R393: a completion interrupt: at once, or at the end of a window. -/
def State.signalCompletion (s : State) (v : Nat) : State :=
  let x := s.vd v
  if !x.ie then s
  else if x.win = 0 then s.sendInt v 0 x.cseq
  else s.setVd v { x with window := true }

/-- R426: an interrupt of the fault queue: at once, or at the end of a window. -/
def State.signalFault (s : State) (v : Nat) : State :=
  let x := s.vd v
  if !x.fqIe then s
  else if x.win = 0 then s.sendInt v 1 (x.fqTail.zeroExtend 64)
  else s.setVd v { x with windowFq := true }

/-! ### The fault queue -/

/-- R426: entries of the ring. -/
def VDev.ringSize (x : VDev) : Nat := 2 ^ (min x.fqLog.toNat 12 + 4)

/-- R426: may an entry be written? -/
def VDev.fqRoom (x : VDev) : Bool := x.fqEn && (x.fqTail - x.fqHead).toNat < x.ringSize

/-- R427: what an entry says. -/
structure FqWords where
  addr : Nat
  frame : Nat
  core : Nat
  fpos : Nat
  cls : Nat
  kind : Nat
  code : Nat
  arg : Nat
  lid : Nat

/-- R427: the 32 bytes of an entry. -/
def FqWords.bytes (e : FqWords) (seq : Nat) : List Byte :=
  leBytes 8 e.addr
    ++ leBytes 8 (e.frame * 2 ^ 48 + e.core * 2 ^ 37 + e.fpos * 2 ^ 33 + e.cls * 2 ^ 28 + e.kind * 2 ^ 24 + e.code % 2 ^ 17)
    ++ leBytes 8 seq ++ leBytes 8 (e.arg * 2 ^ 32 + e.lid)

/-- R426, R427: writes an entry with the next SEQ and advances TAIL, or answers the check of R33 that the write fails. -/
def State.fqWrite (s : State) (v : Nat) (e : FqWords) : Except Trap State :=
  let x := s.vd v
  let va := x.fqBase.toNat * 4096 + x.fqTail.toNat % x.ringSize * 32
  match s.mWindow v va 32 32 with
  | some t => .error t
  | none => match s.mStore v va (e.bytes (x.fqSeq + 1)) .write with
    | .error t => .error t
    | .ok s =>
      let x := s.vd v
      .ok ((s.setVd v { x with fqTail := x.fqTail + 1, fqSeq := x.fqSeq + 1 }).signalFault v)

/-! ### Parking -/

/-- R429: the lowest `n` consecutive free frames; none where there are none, or where they do not all lie in the partition's granules. -/
def State.freeFrames (s : State) (v n : Nat) : Option Nat :=
  let x := s.vd v
  let low := (List.range x.pfCount.toNat).find? fun i =>
    i + n ≤ x.pfCount.toNat && (List.range n).all fun j => !x.frames.contains (i + j)
  low.filter fun i => (List.range n).all fun j => (s.frameAt v (i + j)).isSome

/-- R432: has every access that is not held by a fault been performed? -/
def Core.boardReady (k : Core) : Bool :=
  (match k.gq.head? with | some x => x.faulted | none => true) && (match k.mq.head? with | some x => x.faulted | none => true)

/-- R279: have spills and refills ended, those that will fail among them? -/
def Tail.still (t : Tail) : Bool := t.flight.isEmpty && t.ents.all fun e => e.st = 0

/-- R435: has a core of a parking flight waited for all that it waits for? -/
def Core.parkReady (k : Core) : Bool :=
  k.boardReady && k.tail.still && k.mill.active.isNone && k.mill.shadow.isNone

/-- R435: does what is in flight fit a context? -/
def Core.flightFits (k : Core) : Bool :=
  k.inflight.length ≤ 32 && (k.inflight.flatMap fun f => f.what.image).length ≤ 16

/-- Inserts an access by its order of issue. -/
def insertAccess (x : Access) : List Access → List Access
  | [] => [x]
  | y :: ys => if x.order < y.order then x :: y :: ys else y :: insertAccess x ys

/-- R432, R433: the pending accesses of a core, oldest first. -/
def Core.pending (k : Core) : List Access := k.mq.foldl (fun l x => insertAccess x l) k.gq

/-- Bits of a list of truth values. -/
def boolBits (l : List Bool) : Nat := l.zipIdx.foldl (fun n (b, i) => n + b2n b * 2 ^ i) 0

/-- R433: sr.scb for pending accesses, or its old value where none has faulted. -/
def Core.scbOf (k : Core) (l : List Access) : DWord :=
  match l.find? (·.faulted) with
  | none => k.scb
  | some x => BitVec.ofNat 64 ((k.bundleNo - (x.bundle + 1)) % 2 ^ 16 * 2 ^ 32 + boolBits (l.map (·.faulted)) * 2 ^ 16 + 2 ^ l.length - 1)

/-- R432, R435: a core's context as a park or an end saves it. -/
def Core.captured (k : Core) : Core :=
  let l := k.pending
  { k with gq := [], mq := [], board := l, scb := k.scbOf l, after := if k.mode = .parking then k.after else k.mode }

/-- R429: the cores of a flight give up their continuation, whose contexts go to frames. -/
def State.parkAll (s : State) (v frame : Nat) : Nat → List Nat → State
  | _, [] => s
  | i, c :: cs =>
    let k := (s.core c).captured
    let s := s.saveFrame v (frame + i) c 1 k
    (s.setCore c { k.vacate with away := k.away ++ k.stores }).parkAll v frame (i + 1) cs

/-- R428: the cores of a flight wait in place. -/
def State.waitAll (s : State) (seq : Nat) : List Nat → State
  | [] => s
  | c :: cs => (s.setCore c { (s.core c).captured with mode := .waiting seq }).waitAll seq cs

/-- R423: the member of a flight whose fault the entry names: the first that is parking, in position order. -/
def State.parker (s : State) (ms : List Nat) : Option (Nat × Trap) :=
  ms.findSome? fun m => match (s.core m).mode, (s.core m).trap with | .parking, some t => some (m, t) | _, _ => none

/-- R424, R437: a flight is parked for its fault, or for a `sysc` once every member has issued it. -/
def State.parks (s : State) (ms : List Nat) (t : Trap) : Bool :=
  (ms.all fun m => (s.core m).parkReady) && (t.cls != 0 || ms.all fun m => (s.core m).mode = .parking)

/-- R426-R429, R435: writes the entry of a parking flight that core `c` leads, and parks it in frames or in place. Frames whose key is not
loaded fault instead (R50, R54). -/
def State.parkFlight (s : State) (c m : Nat) (t : Trap) : State :=
  let v := s.coreVd c
  let ms := s.crew c
  let frame := (s.freeFrames v ms.length).getD 0xFFFF
  let l := (s.core c).job.getD 0
  let arg := if t.kind = 7 then ((s.core c).trap.map (·.addr)).getD t.addr else 0
  let e : FqWords :=
    { addr := if t.kind = 7 then 0 else t.addr, frame := frame, core := c, fpos := (s.core m).fpos, cls := t.cls,
      kind := t.kind, code := t.code, arg := arg, lid := (s.core c).lid }
  match (if frame = 0xFFFF then none else s.frameFault v frame) with
  | some x => s.takeFault m x
  | none => match s.fqWrite v e with
  | .error x => s.takeFault m { t with cls := if t.cls = 0 then x.cls else t.cls }
  | .ok s =>
    let x := s.vd v
    let s := s.ownPcs ms
    let parked := ms.map fun i => (i, (s.core i).captured)
    let f : FqEntry :=
      { seq := x.fqSeq, frame := frame, core := c, kind := t.kind, trap := t, parked := parked, launch := l,
        channel := 0, comm := 0, dreg := t.reg, resolved := none }
    let s := s.setVd v { x with fq := x.fq ++ [f], frames := if frame = 0xFFFF then x.frames else x.frames ++ ms.map (frame + · - c) }
    if frame = 0xFFFF then s.waitAll x.fqSeq ms else s.parkAll v frame 0 ms

/-- R435: one cycle of landings for the cores of a flight whose results in flight do not fit a context. -/
def State.parkOrLand (s : State) (c m : Nat) (t : Trap) : State :=
  if (s.crew c).all fun i => (s.core i).flightFits then s.parkFlight c m t
  else (s.crew c).foldl (fun s i => s.schedStep i) s

/-- R115: writes the entry of a parked channel. -/
def State.parkChannel (s : State) (v c n : Nat) (t : Trap) : State :=
  let k := s.core c
  let ch := k.channel n
  match s.fqWrite v { addr := t.addr, frame := 0xFFFF, core := c - k.fpos, fpos := k.fpos, cls := t.cls, kind := 4, code := 0, arg := 0, lid := (s.job c).lidF } with
  | .error _ => (s.setCore c (k.setChannel n { ch with trap := none })).takeFault c t
  | .ok s =>
    let x := s.vd v
    let f : FqEntry :=
      { seq := x.fqSeq, frame := 0xFFFF, core := c, kind := 4, trap := t, parked := [], launch := k.job.getD 0,
        channel := n, comm := 0, dreg := 0, resolved := none }
    let s := s.setVd v { x with fq := x.fq ++ [f] }
    s.setCore c ((s.core c).setChannel n { ch with trap := none, parkedSeq := if ch.state = 3 then x.fqSeq else 0 })

/-- The cores that run launches of a virtual device. -/
def State.coresOf (s : State) (v : Nat) : List Nat :=
  (s.cores.filter fun (_, k) => match k.job with | some l => s.launchVd l = v | none => false).map (·.1)

/-- R426: what waits to write an entry: a parking flight, as its lead, the faulting member and the fault, or a parked channel. -/
inductive Waiter where
  | flight (c m : Nat) (t : Trap)
  | channel (c n : Nat) (t : Trap)

/-- R426: the waiter of a core. -/
def State.waiter (s : State) (c : Nat) : Option Waiter :=
  let k := s.core c
  let chan (n : Nat) : Option Waiter := (k.channel n).trap.map fun t => .channel c n t
  let ms := s.crew c
  let park := if k.fpos != 0 then none else match s.parker ms with
    | some (m, t) => if s.parks ms t then some (Waiter.flight c m t) else none
    | none => none
  (park.orElse fun _ => chan 0).orElse fun _ => chan 1

/-- R426: the first waiter among the cores of a virtual device writes its entry, once the ring has room. -/
def execFaultEntryWrite (v : Nat) (s : State) : Host.Outcome State Fault Refusal :=
  s.move fun s =>
    if !(s.vd v).fqRoom then s
    else match (s.coresOf v).findSome? s.waiter with
      | none => s
      | some (.flight c m t) => s.parkOrLand c m t
      | some (.channel c n t) => s.parkChannel v c n t

/-! ### The end of a launch -/

/-- R425, step 4: the "ended" entry of a faulting core with the context `k`, which names the lead of a flight; the first of a launch gets the
fault frame, and the completion record names its core. An entry that cannot be written is dropped. -/
def State.endedEntry (s : State) (l c : Nat) (k : Core) : State :=
  let x := s.launch l
  let v := x.vd
  let t := k.trap.getD { cls := 0 }
  let frame := if x.faultSeq = 0 then (s.faultFrame v).getD 0xFFFF else 0xFFFF
  let e : FqWords :=
    { addr := t.addr, frame := frame, core := c - k.fpos, fpos := k.fpos, cls := t.cls, kind := 8, code := t.code, arg := 0, lid := x.lidF }
  let lost := (s.setVd v { s.vd v with fqLost := true }).w1cSet (.fqLost v)
  if !(s.vd v).fqRoom then lost
  else match s.fqWrite v e with
    | .error _ => lost
    | .ok s => if x.faultSeq = 0 then s.setLaunch l { s.launch l with faultSeq := (s.vd v).fqSeq, fault := some (c - k.fpos, t) } else s

/-- R425, step 4: the "ended" entries of a launch, in the order in which its cores were stopped. -/
def State.endedEntries (s : State) (l : Nat) : List (Nat × Core) → State
  | [] => s
  | (c, k) :: t => (s.endedEntry l c k).endedEntries l t

/-- R429, R445: the context of core `c` goes to the fault frame, where there is one. -/
def State.fillFaultFrame (s : State) (v c st : Nat) (k : Core) : State :=
  match s.faultFrame v with
  | some i => (s.saveFrame v i c st k).setVd v { s.vd v with dump := some k }
  | none => s

/-- R425, step 1: a faulting core's context, written to the fault frame where it is the first of its launch, and kept for its entry. -/
def State.endCore (s : State) (l c : Nat) : State :=
  let s := s.ownPcs [c]
  let k := (s.core c).captured
  let s := if (s.launch l).ended.isEmpty then s.fillFaultFrame (s.launchVd l) c 2 k else s
  let x := s.launch l
  (s.setLaunch l { x with ended := x.ended ++ [(c, k)] }).setCore c { k.vacate with sq := k.sq, trap := none }

/-- R116: the channels of a core stop: claims are returned, nothing more is written. -/
def State.stopChannels (s : State) (c : Nat) : State :=
  let s := s.abandonAll c ((s.core c).channel 0).recs
  s.abandonAll c ((s.core c).channel 1).recs

/-- R425, R373: a core of an ended launch is empty. -/
def State.clearCore (s : State) (c : Nat) : State :=
  let s := s.stopChannels c
  let k := s.core c
  s.setCore c { Core.reset with job := k.job, sched := k.sched, wall := k.wall, charges := k.charges, ostep := k.ostep }

/-- Clears several cores. -/
def State.clearCores (s : State) : List Nat → State
  | [] => s
  | c :: cs => (s.clearCore c).clearCores cs

/-- R410: packets injected for a gang are counted by channel. -/
def Gang.countSent (g : Gang) (vc n : Nat) : Gang := { g with sent := Map.modify 0 g.sent vc (· + BitVec.ofNat 64 n) }
def Gang.countReceived (g : Gang) (vc : Nat) : Gang := { g with received := Map.modify 0 g.received vc (· + 1) }

/-- The other ranks of a communicator. -/
def Comm.peers (m : Comm) : List Nat := (List.range m.size).filter (· != m.rank)

/-- R342: what a packet tells of a failed operation whose descriptor was not read. -/
def unreadHead : OpHead := { op := 15, red := 0, dt := 0, count := 0, root := 0 }

/-- R342: the packet that tells rank `q` of the failure of operation `i`, with what was read of its descriptor (log 65). -/
def State.failPacket (s : State) (v n : Nat) (g : Gang) (i : Nat) (h : OpHead) (q : Nat) : Packet :=
  { vc := n % 15, comm := n, dst := g.members.getD q 0, src := s.devnum.toNat, len := 0, gang := (s.vd v).gid, index := i,
    head := h, payload := [], failed := true, credits := [] }

/-- R482: credits due ride in the frame words of the flits of packets that are not the first of one, oldest first; and those left. -/
def rideCredits : List Credit → List Packet → List Packet × List Credit
  | cs, [] => ([], cs)
  | cs, p :: ps =>
    let n := packetFlits p - 1
    let r := rideCredits (cs.drop n) ps
    ({ p with credits := cs.take n } :: r.1, r.2)

/-- R341, R482: packets leave by a port, with the credits that are due there. -/
def State.emit (s : State) (port : Nat) (ps : List Packet) : State :=
  let q := s.port port
  let r := rideCredits q.creditsDue ps
  { s.setPort port { q with creditsDue := r.2 } with out := (r.1.map fun p => Output.packet port p).reverse ++ s.out }

/-- R341: credits are to return by a port. -/
def State.oweCredit (s : State) (port : Nat) (c : Credit) : State :=
  s.setPort port { s.port port with creditsDue := (s.port port).creditsDue ++ [c] }

/-- R482: as time passes, credits due at a port that carries packets leave it in flits that are no packet's. -/
def State.flushCredits (s : State) : List Nat → State
  | [] => s
  | p :: ps =>
    (if s.portUp p && !(s.port p).creditsDue.isEmpty then
      { s.setPort p { s.port p with creditsDue := [] } with out := ((s.port p).creditsDue.map (Output.credit p)).reverse ++ s.out }
    else s).flushCredits ps

/-- R341: the ports of a link mask. -/
def portsOf (mask : Nat) : List Nat := (List.range 36).filter mask.testBit

/-- R342: an operation has failed here: every other rank is told, through the lowest port of the communicator that carries packets, or
through any later, once one does. The spec names no packet for it: DESIGN CHOICE, unsafe (log 65). -/
def State.tellFailed (s : State) (v n : Nat) (m : Comm) (i : Nat) (h : OpHead) : State :=
  match s.gangOf v with
  | none => s
  | some g =>
    let ps := m.peers.map (s.failPacket v n g i h)
    match (portsOf m.mask).find? s.portUp with
    | some port => (s.setGang (s.vd v).gid (g.countSent (n % 15) ps.length)).emit port ps
    | none => match (s.vd v).comms.lookup n with
      | some k => s.setComm v n { k with owed := k.owed ++ ps.map fun p => (portsOf m.mask, p) }
      | none => s

/-- R341: the credits of buffered packets whose operation satisfies `p` return to their senders. -/
def State.returnCredits (s : State) (v n : Nat) (p : Nat → Bool) : State :=
  match (s.vd v).comms.lookup n with
  | none => s
  | some m =>
    let s := s.setComm v n { m with buffered := m.buffered.filter fun e => !p e.2.1 }
    let c (k : Nat) : Credit := { gang := (s.vd v).gid, comm := n, flits := k }
    (m.buffered.filter fun e => p e.2.1).foldl (fun s e => s.oweCredit e.1 (c e.2.2)) s

/-- R342: the operations of an ended launch leave their communicators failed. -/
def Comm.abandon (m : Comm) (l : Nat) : Comm :=
  { m with failed := m.failed || m.queue.any (·.launch = l), queue := m.queue.filter (·.launch != l), past := m.past.filter (·.2.2 != l) }

/-- R342: the other ranks learn of the operations that an ending launch abandons; their buffers are free. -/
def State.tellAbandoned (s : State) (v l : Nat) : Map Comm → State
  | [] => s
  | (n, m) :: ms =>
    let gone := m.queue.filter (·.launch = l)
    let s := if m.failed then s else gone.foldl (fun s o => s.tellFailed v n m o.index (o.head.getD unreadHead)) s
    (if gone.isEmpty then s else s.returnCredits v n fun _ => true).tellAbandoned v l ms

/-- R373: the cores of a launch that it is on. -/
def State.coresOn (s : State) (l : Nat) : List Nat := (s.launch l).cores.filter fun c => (s.core c).job = some l

/-- R359: the held lines of a launch in saved contexts of its gang. -/
def State.savedLines (s : State) (l : Nat) : List SqLine :=
  match s.gangOf (s.launch l).vd with
  | some g => (g.saved.filter fun e => e.2.job = some l).flatMap fun e => e.2.sq
  | none => []

/-- R359: the gang keeps nothing of a launch that has ended. -/
def State.forget (s : State) (l : Nat) : State :=
  let x := s.launch l
  match s.gangOf x.vd with
  | some g => s.setGang (s.vd x.vd).gid { g with
      saved := g.saved.filter (fun e => e.2.job != some l), heldOut := g.heldOut.filter (·.launch != l), rerun := g.rerun.filter (· != l) }
  | none => s

/-- R127: the granules of the held stores that the end of a launch releases. -/
def State.endGranules (s : State) (l : Nat) : List Nat := s.releaseGranules 4 (s.coresOn l) ++ lineGranules (s.savedLines l)

/-- R425, steps 2 to 4, R359: the other cores and the engines stop; held stores are released, held updates discarded, those of contexts
that a switch has saved with them; and then the "ended" entries are written. -/
def State.endLaunch (s : State) (l : Nat) : State :=
  let x := s.launch l
  let v := x.vd
  let cores := s.coresOn l
  let s := (((s.releaseAll v 4 cores).performLines v (s.savedLines l)).forget l)
  let s := { s with held := s.held.filter fun u => u.launch != l }
  let s := (s.clearCores cores).tellAbandoned v l (s.vd v).comms
  let y := s.vd v
  let gone := y.fq.filter (·.launch = l)
  let used := (gone.filter (·.frame != 0xFFFF)).flatMap fun e => (List.range e.parked.length).map (e.frame + ·)
  let s := s.setVd v { y with
    fq := y.fq.filter (·.launch != l), frames := y.frames.filter (!used.contains ·), comms := y.comms.map fun (n, m) => (n, m.abandon l) }
  let s := s.endedEntries l (s.launch l).ended
  s.setLaunch l { s.launch l with status := 1, suspended := [], pool := [], ended := [] }

/-- R425: may the launch end: have all faulting cores been dealt with? -/
def State.endReady (s : State) (l : Nat) : Bool :=
  let x := s.launch l
  x.state = .ending && x.status = 0 && (x.cores.all fun c => (s.core c).mode != .faulted)

/-- R425, R459: a faulting core is dealt with once its accesses and its spills and refills have ended, and once all are, the launch ends. Its completion record is the work of LAUNCH_COMPLETE. -/
def execLaunchFaultEnd (c : Nat) (s : State) : Host.Outcome State Fault Refusal :=
  s.move fun s =>
    let k := s.core c
    match k.job with
    | none => s
    | some l =>
      if (s.launch l).state != .ending then s
      else
        let s := if k.mode = .faulted && k.boardReady && k.tail.still then s.endCore l c else s
        let x := s.launch l
        if s.endReady l then s.touching (s.vd x.vd).gid (s.endGranules l) (·.endLaunch l) else s

/-! ### Resolution and return -/

/-- R428: a write of FQRES. -/
def execFqresWrite (v : Nat) (seq : BitVec 32) (mask : BitVec 16) (s : State) : Host.Outcome State Fault Refusal :=
  s.move fun s => s.resolve v seq.toNat mask.toNat (s.vd v).fqRval

/-- R428: may a resolved entry be restored on core `c`? -/
def State.restorable (s : State) (v c : Nat) (e : FqEntry) : Bool :=
  e.resolved.isSome && e.frame != 0xFFFF
    && match e.parked with
      | [] => false
      | (_, k) :: _ =>
        let x := s.launch e.launch
        (s.core c).job = some e.launch && s.mayRun x k.widx c && (s.launchVd e.launch) = v && x.state = .running
          && (List.range e.parked.length).all fun i => (s.core (c + i)).mode = .idle

/-- R429: the frames of an entry are free. -/
def VDev.unframe (x : VDev) (e : FqEntry) : VDev :=
  let used := (List.range e.parked.length).map (e.frame + ·)
  { x with fq := x.fq.filter (·.seq != e.seq), frames := x.frames.filter (!used.contains ·) }

/-- R127: the granules that the local stores in flight of an entry's contexts touch again, where its flight returns to core `c`. -/
def FqEntry.storeGranules (e : FqEntry) (c : Nat) : List Nat :=
  e.parked.zipIdx.flatMap fun (p, i) => p.2.storeGranules (c + i)

/-- R127, R428, R434: a resolved continuation is restored on an idle core, the lowest SEQ first. Frames whose key is no longer loaded fault
(R50, R54). -/
def execParkedRestore (v : Nat) (seq : Nat) (core : Nat) (s : State) : Host.Outcome State Fault Refusal :=
  s.move fun s =>
    match (s.vd v).fq.find? (s.restorable v core) with
    | none => s
    | some e =>
      match e.resolved with
      | some (mask, val) =>
        if e.seq = seq then
          match s.frameFault v e.frame with
          | some t => ((s.setVd v ((s.vd v).unframe e)).unparkAll core core e mask val e.parked).takeFault core t
          | none => s.touching (s.vd v).gid (e.storeGranules core) fun s =>
              (s.setVd v ((s.vd v).unframe e)).unparkAll core core e mask val (s.reloadAll v e.launch e.frame e.parked)
        else s
      | none => s

/-- R429: a write of PFBASE or PFCNT, ignored while a launch runs or a frame is in use. -/
def execParkFrameConfigWrite (v : Nat) (cnt : Bool) (w : BitVec 64) (s : State) : Host.Outcome State Fault Refusal :=
  s.move fun s =>
    let x := s.vd v
    let busy := s.launches.any fun (_, y) => y.vd = v && y.live
    if busy || !x.frames.isEmpty then s
    else s.setVd v (if cnt then { x with pfCount := w.truncate 16 } else { x with pfBase := (w >>> 20).truncate 44 })

end Sys2Proof.Machine
end

