-- ==== Sys2Proof/Machine/Sluice.lean ====
section
/-! DEFINITION. The Sluice: kicks, launch records and their checks, graph nodes, readiness, preloading and completion
(R361-R364, R380-R393). -/

namespace Sys2Proof.Machine

/-! ### Kicks -/

/-- R380: entries of a queue's ring. -/
def VDev.queueSize (x : VDev) (q : Nat) : Nat := 2 ^ (min (Map.get 0 x.qcfgLog q).toNat 8 + 4)

/-- R381: HEAD and TAIL of a queue. -/
def VDev.qHead (x : VDev) (q : Nat) : Word := Map.get 0 x.dbellHead q
def VDev.qTail (x : VDev) (q : Nat) : Word := Map.get 0 x.dbellTail q

/-- R381, R403, R420: may the Sluice serve the virtual device now? -/
def VDev.scheduled (x : VDev) : Bool := x.run && (x.saveArea.isSome || x.joined) && !x.stopped && !x.stopping

/-- R45, R409: may the Sluice start a launch of the virtual device now? -/
def VDev.dispatches (x : VDev) : Bool := x.scheduled && x.trEn

/-- R381: the virtual device is scheduled again: what is pended is served, and a queue with nothing to read has been. -/
def VDev.resumed (x : VDev) : VDev :=
  let todo := (List.range 64).foldl (fun (m : BitVec 64) q => if x.qHead q = x.qTail q then m else m ||| (1#64 <<< q)) 0
  { x with run := true, accs := [], pend := x.pend &&& todo }

/-- R381: is the kick refused? -/
def VDev.kickRefused (x : VDev) (q : Nat) (tail : BitVec 32) : Bool :=
  !Map.get false x.qcfgEn q || x.queueSize q < (tail - x.qHead q).toNat || x.stopped || x.stopping

/-- R381: a doorbell write. -/
def execKick (v : Nat) (q : Nat) (tail : BitVec 32) (s : State) : Host.Outcome State Fault Refusal :=
  s.move fun s =>
    let x := s.vd v
    if x.kickRefused q tail then (s.setVd v { x with qovf := true }).w1cSet (.qovf v)
    else
      let x := { x with dbellTail := Map.put x.dbellTail q tail }
      s.setVd v (if x.scheduled then x else { x with pend := x.pend ||| (1#64 <<< q) })

/-! ### The checks of a record -/

/-- R383: the node that a number names in a partition's sequence. -/
def nodeAt : List (Nat × Nat) → Nat → Option Nat
  | [], _ => none
  | (f, n) :: t, i => if i < n then some (f + i) else nodeAt t (i - n)

/-- R361: the reserved fields of a record are 0. -/
def Launch.reservedOk (x : Launch) : Bool :=
  fld (x.w 0) 63 56 = 0 && !bit (x.w 0) 35 && fld (x.w 4) 63 48 = 0 && fld (x.w 5) 31 20 = 0 && fld (x.w 5) 15 13 = 0
    && fld (x.w 5) 7 6 = 0 && x.w 31 = 0 && x.prologue % 4 = 0

/-- R361, R364: alignment and ranges of a record's fields. -/
def Launch.rangesOk (x : Launch) : Bool :=
  x.codeVa % 4096 = 0 && x.kbase % 256 = 0 && x.cpool % 64 = 0 && x.crec % 32 = 0 && 1 ≤ x.codeLen && x.codeLen ≤ 65536
    && x.entryPc < x.codeLen && x.klen ≤ 0xFFF0 && x.klen % 16 = 0 && x.cpoolN != 0 && x.planesF ≤ 16 && x.tilesF ≤ 8
    && x.granF ≤ 32 && x.rsDepthF % 64 = 0

/-- R362: a level word is well-formed. -/
def Launch.levelOk (x : Launch) (l : Nat) : Bool :=
  fld (x.lev l) 31 11 = 0 && !bit (x.lev l) 7 && fld (x.lev l) 3 0 = 0 && x.dom l ≤ 5 && x.levScope l ≤ 4 && x.ext l != 0
    && (x.dom l != 5 || x.levScope l = 0)

/-- R364: the levels, for a gang of `n` members. The order of domains leaves room for one group of flight levels only. -/
def Launch.levelsOk (x : Launch) (n : Nat) : Bool :=
  let ls := List.range x.nlev
  (ls.all x.levelOk) && ((List.range 8).all fun l => l < x.nlev || x.lev l = 0) && x.count ≤ 2 ^ 32
    && ((List.range (x.nlev - 1)).all fun l => x.dom l ≤ x.dom (l + 1) && x.levScope (l + 1) ≤ x.levScope l)
    && (ls.all fun l => x.dom l != 0 || x.ext l = n)
    && (if ls.any (fun l => x.dom l = 3) then x.det else x.flenF = 0)

/-- R377: the handle that an HD word defines, where it is enabled. -/
def Launch.hdHandle (x : Launch) (i : Nat) : Option (Nat × Handle) :=
  let w := x.hd i
  if bit w 63 then some (fld w 61 56, Handle.define (fld w 42 30) (fld w 55 43) (bit w 62)) else none

/-- R377: the handles that a record defines. -/
def Launch.hds (x : Launch) : List (Nat × Handle) := (List.range 4).filterMap x.hdHandle

/-- R134, R363: the region of a handle lies in the granules of the launch. -/
def Launch.handleFits (x : Launch) (h : Handle) : Bool :=
  h.regionOk && h.base * 256 + h.bankSize * (1 + b2n h.dbl) ≤ x.gran * Config.granuleBytes

/-- R377: the HD words of a record. -/
def Launch.hdsOk (x : Launch) : Bool :=
  ((List.range 4).all fun i => fld (x.hd i) 29 0 = 0) && (x.hds.all fun e => x.handleFits e.2)
    && decide ((x.hds.map (·.1)).Nodup)

/-- R364: the nodes that a record names lie in the partition's sequence. -/
def Launch.nodesOk (x : Launch) (ns : List (Nat × Nat)) : Bool :=
  (if x.node = 0xFFFF then x.pred = 0 else (nodeAt ns x.node).isSome)
    && x.succs.all fun m => m = 0xFFFF || (nodeAt ns m).isSome

/-- R403: the number of members of a virtual device's gang. -/
def State.gangSize (s : State) (v : Nat) : Nat :=
  match s.gangOf v with
  | some g => max 1 g.members.length
  | none => 1

/-- R364: is a record that was read whole accepted, but for its node's state? -/
def State.recordOk (s : State) (x : Launch) : Bool :=
  let p := s.vdPart x.vd
  x.reservedOk && x.rangesOk && x.clustersF ≤ p.clusters.length && x.levelsOk (s.gangSize x.vd) && x.hdsOk && x.nodesOk p.nodes

/-! ### Graph nodes -/

/-- A graph node. -/
def State.node (s : State) (n : Nat) : Node := Map.get Node.reset s.nodes n

/-- Replaces a node. -/
def State.setNode (s : State) (n : Nat) (x : Node) : State := { s with nodes := Map.put s.nodes n x }

/-- The device node of a launch, where it names one. -/
def State.nodeOf (s : State) (x : Launch) : Option Nat :=
  if x.node = 0xFFFF then none else nodeAt (s.vdPart x.vd).nodes x.node

/-- R384: reading a record with a node: whether it is refused, and the node after it. -/
def Node.read (n : Node) (l pred : Nat) : Bool × Node :=
  if n.armed then (true, n)
  else if pred < n.ec then (true, { n with ec := 0, fb := false })
  else (false, { n with cnt := pred - n.ec, ec := 0, armed := true, launch := l })

/-- R384: a completion reaches a successor. -/
def Node.complete (n : Node) (status : Nat) : Node :=
  let n := { n with fb := n.fb || status != 0 }
  if n.armed then { n with cnt := n.cnt - 1 } else { n with ec := min 65535 (n.ec + 1) }

/-- R384: a satisfied node is disarmed by its launch, which reads its failure bit. -/
def State.disarm (s : State) (l : Nat) : State :=
  let x := s.launch l
  match x.armed with
  | none => s
  | some n =>
    let d := s.node n
    if d.armed && d.launch = l && d.cnt = 0 then
      (s.setNode n { d with armed := false, fb := false }).setLaunch l { x with armed := none, failedPred := x.failedPred || d.fb }
    else s

/-- R384: a completion reaches a node, which is disarmed at once where that satisfies it. -/
def State.signal (s : State) (status n : Nat) : State := (s.setNode n ((s.node n).complete status)).disarm (s.node n).launch

/-- R384: the successors of a launch, each in turn. -/
def State.updateSuccs (s : State) (ns : List (Nat × Nat)) (status : Nat) : List Nat → State
  | [] => s
  | m :: ms =>
    (match (if m = 0xFFFF then none else nodeAt ns m) with
     | some n => s.signal status n
     | none => s).updateSuccs ns status ms

/-! ### Readiness -/

/-- R382: is a launch eligible: has every launch read before it from its queue completed? -/
def State.eligible (s : State) (l : Nat) : Bool :=
  let x := s.launch l
  s.launches.all fun (m, y) => l ≤ m || y.vd != x.vd || y.queue != x.queue || y.state = .complete

/-- R384: is the node of a launch, if it has one, satisfied? -/
def State.nodeDone (s : State) (l : Nat) : Bool :=
  match (s.launch l).armed with
  | none => true
  | some n => !((s.node n).armed && (s.node n).launch = l)

/-- R384, R385: a waiting launch becomes ready. -/
def State.readyOne (s : State) (l : Nat) : State :=
  let s := s.disarm l
  let x := s.launch l
  if x.ready.isNone && s.eligible l && s.nodeDone l then
    s.setLaunch l { x with
      ready := some s.now, failedPred := x.failedPred || Map.get 0 (s.vd x.vd).queueStatus x.queue != 0 }
  else s

/-- The launches that wait and were not refused. -/
def State.waiting (s : State) : List Nat :=
  (s.launches.filter fun (_, x) => x.state = .waiting && x.status = 0).map (·.1)

/-- R384: launches that have become ready. -/
def State.markAll (s : State) : List Nat → State
  | [] => s
  | l :: ls => (s.readyOne l).markAll ls

/-- R384: marks every launch that has become ready. -/
def State.markReady (s : State) : State := s.markAll s.waiting

/-! ### Reading records -/

/-- R381: the queue that the Sluice serves first after a resumption: the lowest with its PEND bit set and an entry to read. -/
def VDev.firstPending (x : VDev) : Option Nat :=
  (List.range 64).find? fun q => x.pend.getLsbD q && x.qHead q != x.qTail q

/-- R381: HEAD advances; a queue with nothing left to read is no longer pending. -/
def VDev.consume (x : VDev) (q : Nat) : VDev :=
  let x := { x with dbellHead := Map.put x.dbellHead q (x.qHead q + 1) }
  if x.qHead q = x.qTail q then { x with pend := x.pend &&& ~~~(1#64 <<< q) } else x

/-- A naturally aligned read of M with all its checks. -/
def State.mReadChecked (s : State) (v va n : Nat) : Except Trap (List Byte × State) :=
  match s.mWindow v va n n with
  | some t => .error t
  | none => s.mLoad v va n .read

/-- R361: the 32 words of a record. -/
def recordWords (b : List Byte) : List DWord := tabulate 32 fun i => BitVec.ofNat 64 (leNat ((b.drop (8 * i)).take 8))

/-- Enters a launch, numbered in the order in which the Sluice reads them. -/
def State.enter (s : State) (x : Launch) : State :=
  { s with launches := Map.put s.launches s.nextLaunch x, nextLaunch := s.nextLaunch + 1 }

/-- R364, R384: a record that was read whole: checked, and its node armed. -/
def State.enterRecord (s : State) (x : Launch) : State :=
  if !s.recordOk x then s.enter { x with status := 3 }
  else match s.nodeOf x with
    | none => s.enter x
    | some n =>
      let r := (s.node n).read s.nextLaunch x.pred
      (s.setNode n r.2).enter (if r.1 then { x with status := 3 } else { x with armed := some n })

/-- R45, R381: may the next entry of a queue be read? -/
def VDev.mayFetch (x : VDev) (q : Nat) : Bool :=
  x.dispatches && x.qHead q != x.qTail q && (match x.firstPending with | some p => p = q | none => true)

/-- R364, R381: the Sluice reads the next entry of a queue and the record that it names. -/
def execLaunchRecordFetch (v : Nat) (q : Nat) (s : State) : Host.Outcome State Fault Refusal :=
  s.move fun s =>
    let x := s.vd v
    if !x.mayFetch q then s
    else
      let entry := (Map.get 0 x.qcfgBase q).toNat * 4096 + (x.qHead q).toNat % x.queueSize q * 8
      let l := { Launch.reset with vd := v, queue := q, index := (x.qHead q).toNat }
      let unread (s : State) (va : Nat) : State :=
        (s.setVd v ((s.vd v).consume q)).enter { l with va := va, status := 3 }
      match s.mReadChecked v entry 8 with
      | .error _ => (unread s 0).markReady
      | .ok (b, s) =>
        match s.mReadChecked v (leNat b) 256 with
        | .error _ => (unread s (leNat b)).markReady
        | .ok (r, s) => ((s.setVd v ((s.vd v).consume q)).enterRecord { l with va := leNat b, words := recordWords r }).markReady

/-- R385: a ready launch with a failed predecessor and RUNF 0 is skipped. -/
def execLaunchSkip (l : Nat) (s : State) : Host.Outcome State Fault Refusal :=
  s.move fun s =>
    let x := s.launch l
    if x.state = .waiting && x.status = 0 && x.ready.isSome && x.failedPred && !x.runf then s.setLaunch l { x with status := 2 } else s

/-! ### Preloading -/

/-- A cluster. -/
def State.cluster (s : State) (c : Nat) : Cluster := Map.get Cluster.reset s.clusters c

/-- Replaces a cluster. -/
def State.setCluster (s : State) (c : Nat) (x : Cluster) : State := { s with clusters := Map.put s.clusters c x }

/-- R56, R387: the code image of a record as a preload reads it, charged like other traffic; none where a read would fault. -/
def State.imageOf (s : State) (x : Launch) : Option (Map Word × State) :=
  if (s.extent x.vd x.codeVa (4 * x.codeLen) .fetch).isSome then none
  else match s.mReadAll x.vd .preload (4 * x.codeLen / 4096 + 2) x.codeVa (4 * x.codeLen) with
    | .ok (b, t) => some (Map.setList 0 [] 0 (wordsOf b), t)
    | .error _ => none

/-- R388: does a bank hold the image of a launch? -/
def Bank.holds (b : Bank) (x : Launch) : Bool := b.vd = x.vd && b.va = x.codeVa && b.len = x.codeLen

/-- R388: the words of a launch's image, where a bank of the cluster holds them. -/
def State.resident (s : State) (c : Nat) (x : Launch) : Option (Map Word) :=
  let k := s.cluster c
  ((([k.active, k.standby].filterMap id).find? (·.holds x)).map (·.words))

/-- R387: loads a free standby bank with the image of a launch. -/
def State.preloadBank (s : State) (c : Nat) (x : Launch) (l : Option Nat) : State :=
  match s.imageOf x with
  | none => s
  | some (w, s) =>
    s.setCluster c { s.cluster c with
      standby := some { vd := x.vd, va := x.codeVa, len := x.codeLen, words := w, launch := l, node := x.node } }

/-- R388: a virtual device of the cluster's partition with a hint not yet served. -/
def State.hinted (s : State) (c : Nat) : Option (Nat × Nat) :=
  s.vds.findSome? fun (v, x) =>
    if (Map.get Part.reset s.parts x.part).clusters.contains c then x.hint.map fun a => (v, a) else none

/-- R388: a hint is served: its record is read as a preload reads, and dropped silently where it cannot be. -/
def State.serveHint (s : State) (c v va : Nat) : State :=
  let t := s.setVd v { s.vd v with hint := none }
  if (s.mWindow v va 256 256).isSome then t
  else match t.mLoad v va 256 .preload with
    | .error _ => t
    | .ok (b, t) =>
      let x := { Launch.reset with vd := v, va := va, words := recordWords b }
      if s.recordOk x then t.preloadBank c x none else t

/-- R387: a free standby bank is loaded: with the image of a launch that waits for the cluster, or for the hint where the number
names no such launch. -/
def execPreload (c : Nat) (l : Nat) (s : State) : Host.Outcome State Fault Refusal :=
  s.move fun s =>
    if (s.cluster c).standby.isSome then s
    else
      let x := s.launch l
      if s.waiting.contains l && (s.vdPart x.vd).clusters.contains c && x.ready.isSome then
        (if (s.resident c x).isSome then s else s.preloadBank c x (some l))
      else match s.hinted c with
        | some (v, va) => s.serveHint c v va
        | none => s

/-- R388: a hint replaces one not yet served. -/
def execHint (v : Nat) (va : BitVec 64) (s : State) : Host.Outcome State Fault Refusal :=
  s.move fun s =>
    s.setVd v { s.vd v with hint := some va.toNat }

/-- Drops the banks of a cluster that hold images a test picks. -/
def Cluster.drop (k : Cluster) (p : Bank → Bool) : Cluster :=
  { k with active := k.active.filter (!p ·), standby := k.standby.filter (!p ·) }

/-- R380: every resident and preloaded image of the virtual device is dropped. The words that a running launch issues from stay
with it. -/
def execLstatInv (v : Nat) (s : State) : Host.Outcome State Fault Refusal :=
  s.move fun s =>
    { s with clusters := s.clusters.map fun (c, k) => (c, k.drop fun b => b.vd = v) }

/-- R389: does launch `y` depend on launch `x` by node or queue? -/
def State.dependsOn (s : State) (x y : Launch) : Bool :=
  y.vd = x.vd && y.queue = x.queue || (y.node != 0xFFFF && (s.vd y.vd).part = (s.vd x.vd).part && x.succs.contains y.node)

/-- R389: is a preload that of a launch that depends on `x`: the launch it was made for, or, of a hint, a waiting launch with this image
or the record that it named? -/
def State.bankDepends (s : State) (x : Launch) (b : Bank) : Bool :=
  match b.launch with
  | some m => s.dependsOn x (s.launch m)
  | none =>
    (b.node != 0xFFFF && (s.vd b.vd).part = (s.vd x.vd).part && x.succs.contains b.node)
      || s.waiting.any fun m => b.holds (s.launch m) && s.dependsOn x (s.launch m)

/-- R389: after an end by a fault, preloads of launches that depend on launch `l` are dropped. -/
def State.dropDependents (s : State) (l : Nat) : State :=
  let x := s.launch l
  { s with clusters := s.clusters.map fun (c, k) =>
      (c, if x.clusters.contains c then { k with standby := k.standby.filter (!s.bankDepends x ·) } else k) }

/-! ### Completion -/

/-- R391: the bytes of a completion record. -/
def Launch.record (x : Launch) (status seq core cls ns : Nat) : List Byte :=
  leBytes 8 (status * 2 ^ 32 + x.lidF) ++ leBytes 8 seq ++ leBytes 8 (core * 2 ^ 32 + cls) ++ leBytes 8 ns

/-- R391: CORE and FCLASS of a completion. -/
def Launch.blame (x : Launch) : Nat × Nat :=
  match x.status, x.fault with
  | 1, some (c, t) => (c, t.cls)
  | _, _ => (0, 0)

/-- R391-R393: the completion record is written, and an interrupt follows it; or CERR is set. CSEQ advances either way. NS of a launch with
status 4 that never started counts from reset, its start being 0, since the spec gives it none. DESIGN CHOICE, unsafe (log 87). -/
def State.writeRecord (s : State) (l : Nat) : State :=
  let x := s.launch l
  let v := x.vd
  if x.recorded then s
  else
    let seq := (s.vd v).cseq.toNat + 1
    let ns := if x.status = 2 || x.status = 3 then 0 else s.now - x.start
    let num (s : State) : State :=
      (s.setVd v { s.vd v with cseq := BitVec.ofNat 64 seq }).setLaunch l { x with recorded := true, seqNo := seq }
    let lost : State := num ((s.setVd v { s.vd v with cerr := true }).w1cSet (.cerr v))
    let b := x.record x.status seq x.blame.1 x.blame.2 ns
    if x.words.isEmpty || x.crec % 32 != 0 then lost
    else if (s.mWindow v x.crec 32 32).isSome then lost
    else match s.mStore v x.crec b .record with
      | .error _ => lost
      | .ok t => (num t).signalCompletion v

/-- R386: the clusters of a launch are idle again. -/
def State.freeClusters (s : State) (cs : List Nat) : State :=
  { s with
    clusters := s.clusters.map (fun (c, k) => (c, if cs.contains c then { k with launch := none } else k)),
    cores := s.cores.map fun (c, k) => (c, if cs.contains (c / 16) then { k with job := none, mode := .idle } else k) }

/-- R382, R384, R390-R393: a launch completes with its status. -/
def State.finish (s : State) (l : Nat) : State :=
  let s := s.writeRecord l
  let x := s.launch l
  let v := x.vd
  let s := if x.words.isEmpty then s else s.updateSuccs (s.vdPart v).nodes x.status x.succs
  let s := if x.status = 1 then s.dropDependents l else s
  let s := s.freeClusters (x.clusters.filter fun c => (s.cluster c).launch = some l)
  let s := s.setVd v { s.vd v with queueStatus := Map.put (s.vd v).queueStatus x.queue x.status }
  (s.setLaunch l { s.launch l with state := .complete, clusters := [], code := [], kwin := [], pool := [], suspended := [] }).markReady

/-- R118: is a channel idle or halted, with an empty shadow set and no record left? -/
def Channel.done? (x : Channel) : Bool := (x.state = 0 || x.state = 4) && x.shadow.isNone && x.recs.isEmpty

/-- R390: has a core nothing left to do for its launch? -/
def Core.finished (k : Core) : Bool :=
  k.mode = .idle && (k.channel 0).done? && (k.channel 1).done? && k.mill.active.isNone && k.mill.shadow.isNone
    && k.gq.isEmpty && k.mq.isEmpty && k.tail.flight.isEmpty

/-- R390: have all items of a running launch ended, with every engine done and the held state free to settle? -/
def State.ended (s : State) (l : Nat) : Bool :=
  let x := s.launch l
  !s.taken l && (s.unstarted x).isEmpty && (x.items.all fun e => e.2 = 2) && (x.cores.all fun c => (s.core c).finished)
    && ((s.vd x.vd).comms.all fun e => e.2.queue.all (·.launch != l))
    && (s.held.all fun u => u.launch != l || u.place != 0)

/-- R359, R390: a launch completes: one that was refused, skipped or stopped once its queue has come to it; one that has run once
its held state is settled; one that ended by a fault after its ending, which is made here where a switch has taken it off its
clusters. -/
def execLaunchComplete (l : Nat) (s : State) : Host.Outcome State Fault Refusal :=
  s.move fun s =>
    let x := s.launch l
    match x.state with
    | .waiting => if x.status != 0 && s.eligible l && Map.has s.launches l then s.finish l else s
    | .running =>
      if !s.ended l then s
      else match s.settleFirst x.vd 4 x.cores with
        | some t => t
        | none => ((s.settle x.vd 4 x.cores).finish l).answerGang (s.vd x.vd).gid
    | .ending =>
      if x.status = 1 then s.finish l
      else if (s.coresOn l).isEmpty then s.touching (s.vd x.vd).gid (s.endGranules l) (·.endLaunch l)
      else s
    | _ => s

/-- R393: a write of CCFG. -/
def execCcfgWrite (v : Nat) (w : BitVec 64) (s : State) : Host.Outcome State Fault Refusal :=
  s.move fun s =>
    let x := s.vd v
    let ie := w.getLsbD 16
    s.setVd v { x with ie := ie, win := w.truncate 16, window := x.window && ie }

/-- R393, R426: the coalescing window of a virtual device ends. -/
def execCoalesceWindowClose (v : Nat) (s : State) : Host.Outcome State Fault Refusal :=
  s.move fun s =>
    let x := s.vd v
    let s := s.setVd v { x with window := false, windowFq := false }
    let s := if x.window then s.sendInt v 0 x.cseq else s
    if x.windowFq then s.sendInt v 1 (x.fqTail.zeroExtend 64) else s

end Sys2Proof.Machine
end

