-- ==== Sys2Proof/Machine/SluiceStart.lean ====
section
/-! DEFINITION. The Sluice: choosing a launch, starting it on its clusters, and starting and resuming continuations (R366, R368,
R370-R378, R386, R409). -/

namespace Sys2Proof.Machine

/-! ### Choosing -/

/-- R492: does a launch of the gang with the same LID still run on this member? -/
def State.twinRuns (s : State) (x : Launch) : Bool :=
  1 < s.gangSize x.vd
    && s.launches.any fun (_, y) => (s.vd y.vd).gid = (s.vd x.vd).gid && y.lidF = x.lidF
        && y.live

/-- R386: does launch `x` go before `y`: higher PRI, then the earlier ready time, then the lower queue? -/
def Launch.before (x y : Launch) : Bool :=
  let rx := x.ready.getD 0
  let ry := y.ready.getD 0
  if x.pri != y.pri then y.pri < x.pri else if rx != ry then rx < ry else x.queue < y.queue

/-- The first of some launches. -/
def State.firstOf (s : State) : List Nat → Option Nat
  | [] => none
  | l :: ls =>
    match s.firstOf ls with
    | none => some l
    | some m => if (s.launch m).before (s.launch l) then some m else some l

/-- R386: the selected launch of a virtual device. -/
def State.selected (s : State) (v : Nat) : Option Nat :=
  s.firstOf (s.waiting.filter fun l =>
    let x := s.launch l
    x.vd = v && x.ready.isSome && !(x.failedPred && !x.runf))

/-- R411, R414: is the member of this virtual device committing? Its clusters settle then, and none takes up a new launch (DEDUCED). -/
def State.committing (s : State) (v : Nat) : Bool := s.gangs.any fun e => e.2.vd = v && e.2.vote = .committing

/-- R45, R409: the virtual devices of a partition that run in the cell, with their selected launches. -/
def State.candidates (s : State) (p : Nat) : List (Nat × Nat) :=
  s.vds.filterMap fun (v, x) =>
    if x.part = p && x.dispatches && !s.committing v then
      match s.selected v with
      | some l => if s.twinRuns (s.launch l) then none else some (v, l)
      | none => none
    else none

/-- R409: the virtual device with the largest CUR, the lowest number first. -/
def largest (cur : Map Nat) : List (Nat × Nat) → Option (Nat × Nat)
  | [] => none
  | e :: es =>
    match largest cur es with
    | none => some e
    | some f => if Map.get 0 cur e.1 < Map.get 0 cur f.1 then some f else some e

/-- R409: one decision of the weighted round robin. CUR is kept plus a constant, 2 ^ 32, so that it never falls below 0. -/
def State.roundRobin (s : State) (p : Nat) : State :=
  let all := s.candidates p
  let heavy := all.filter fun e => (s.vd e.1).weight != 0
  let cand := if heavy.isEmpty then all else heavy
  let y := Map.get Part.reset s.parts p
  let cur := cand.foldl (fun m e => Map.put m e.1 (Map.get (2 ^ 32) m e.1 + (s.vd e.1).weight.toNat)) y.cur
  match largest cur cand with
  | none => s
  | some (v, l) =>
    let sum := (cand.map fun e => (s.vd e.1).weight.toNat).sum
    { s with parts := Map.put s.parts p { y with cur := Map.put cur v (Map.get (2 ^ 32) cur v - sum), granted := some l } }

/-- R45, R409: a decision that still stands: its launch waits, and its virtual device may start it. -/
def State.standing (s : State) (p : Nat) : Option Nat :=
  (Map.get Part.reset s.parts p).granted.filter fun l => s.waiting.contains l && (s.vd (s.launch l).vd).dispatches && !s.committing (s.launch l).vd

/-- R409: decides unless a decision stands. -/
def State.choose (s : State) (p : Nat) : State := if (s.standing p).isSome then s else s.roundRobin p

/-! ### Starting a launch -/

/-- R386: may the launch take these clusters: distinct idle ones of its partition, as many as it asks for? -/
def State.grantOk (s : State) (x : Launch) (cs : List Nat) : Bool :=
  let held := (s.vdPart x.vd).clusters
  (cs.all fun c => held.contains c && (s.cluster c).launch.isNone) && decide cs.Nodup && !cs.isEmpty
    && cs.length = (if x.clustersF = 0 then held.length else x.clustersF)

/-- Inserts a number in increasing order. -/
def insertNat (n : Nat) : List Nat → List Nat
  | [] => [n]
  | m :: ms => if n < m then n :: m :: ms else m :: insertNat n ms

/-- Numbers in increasing order. -/
def sortNats : List Nat → List Nat
  | [] => []
  | n :: ns => insertNat n (sortNats ns)

/-- R378, step 3: a core of a launch in its initial state. Held stores of a discarded run stay (R358). -/
def Core.launched (l ostep : Nat) (lid : Nat) (k : Core) : Core :=
  { Core.reset with
    job := some l, ostep := BitVec.ofNat 32 ostep, lid := lid, sq := k.sq, wall := k.wall, charges := k.charges }

/-- Applies a change to several cores. -/
def State.onCores (s : State) (f : Nat → Core → Core) : List Nat → State
  | [] => s
  | c :: cs => (s.setCore c (f c (s.core c))).onCores f cs

/-- The clusters of a grant run the launch; the image that `imgs` gives a cluster becomes its active bank. -/
def State.takeClusters (s : State) (l : Nat) (x : Launch) (imgs : Map (Map Word)) : List Nat → State
  | [] => s
  | c :: cs =>
    let k := s.cluster c
    let t := match imgs.lookup c with
      | some w =>
        let b : Bank := { vd := x.vd, va := x.codeVa, len := x.codeLen, words := w, launch := some l, node := 0xFFFF }
        s.setCluster c { launch := some l, active := some b, standby := k.standby.filter (!·.holds x) }
      | none => s.setCluster c { k with launch := some l }
    t.takeClusters l x imgs cs

/-- R378, step 1: the image of each cluster: a resident one, or that fetched from memory. -/
def State.images (s : State) (x : Launch) (cs : List Nat) : Except Trap (Map (Map Word) × State) :=
  let res (w : Map Word) : Map (Map Word) := cs.map fun c => (c, (s.resident c x).getD w)
  if cs.all fun c => (s.resident c x).isSome then .ok (res [], s)
  else match s.mReadExtent x.vd x.codeVa (4 * x.codeLen) .fetch with
    | .error t => .error t
    | .ok (b, t) => .ok (res (Map.setList 0 [] 0 (wordsOf b)), t)

/-- R378, step 2: the launch information. -/
def Launch.info (x : Launch) : List Byte := leBytes 4 x.lidF ++ leBytes 4 (b2n x.failedPred) ++ leBytes 8 x.count

/-- R378, step 2: the constant window. -/
def State.fillWindow (s : State) (x : Launch) : Except Trap (Map Byte × State) :=
  match s.mReadExtent x.vd x.kbase x.klen .read with
  | .error t => .error t
  | .ok (b, t) => .ok (Map.setList 0 (Map.setList 0 [] 0 b) 0xFFF0 x.info, t)

/-- R378, steps 4 and 5: the handles of a core, and its prologue chain. -/
def Core.furnish (x : Launch) (i : Nat) (k : Core) : Core :=
  let k := x.hds.foldl (fun k e => k.setHandle e.1 e.2) k
  if x.prologue = 0 then k
  else
    let ptr := BitVec.ofNat 64 (x.prologue + i * x.pstride)
    let snap := { k.snapshot with tregs := [] }
    k.setChannel 0 ((k.channel 0).enter { ptr := ptr, snap := snap, issued := 0 })

/-- R378: the gang's step count as the cores of a virtual device's launch start with it. -/
def State.ostepOf (s : State) (v : Nat) : Nat :=
  match s.gangOf v with
  | some g => g.ostep.toNat
  | none => 0

/-- R378, steps 1 to 5, with the launch running on its clusters. -/
def State.startOn (s : State) (l : Nat) (cs : List Nat) : State :=
  let x := { s.launch l with state := .running, clusters := cs, start := s.now, status := 0, fault := none }
  let s := s.setLaunch l x
  let ostep := s.ostepOf x.vd
  let fresh (s : State) : State := s.onCores (fun _ => Core.launched l ostep x.lidF) x.cores
  match s.images x cs with
  | .error t => ((fresh s).takeClusters l x [] cs).takeFault (x.cores.headD 0) t
  | .ok (imgs, s) =>
    let s := (fresh s).takeClusters l x imgs cs
    match s.fillWindow x with
    | .error t => s.takeFault (x.cores.headD 0) t
    | .ok (kw, s) =>
      let s := s.setLaunch l { x with code := imgs, kwin := kw }
      s.onCores (fun c k => Core.furnish x (x.cores.idxOf c) k) x.cores

/-- R315: a Millstone goes on with its saved shadow command. -/
def Mill.goOn (m : Mill) : Mill :=
  let m := { m with held := false, asked := false }
  if m.active.isNone then { m with active := m.shadow, shadow := none } else m

/-- R404: the place of a core's context in a save area. -/
def State.contextPa (s : State) (g : Gang) (c : Nat) : Nat :=
  let pos := ((Map.get Part.reset s.parts g.part).clusters.filter (· < c / 16)).length * 16 + c % 16
  g.savePa + 0x1000000 + pos * 0x100000

/-- R415: contexts go back on their cores. -/
def State.restoreCores (s : State) (ostep : Word) : List (Nat × Core) → State
  | [] => s
  | (c, k) :: cs =>
    let j := s.core c
    (s.setCore c { k.rebase j.sched with mill := k.mill.goOn, ostep := ostep, wall := j.wall, charges := j.charges }).restoreCores ostep cs

/-- R358, R415: a discarded launch starts again on its clusters, whose cores hold the stores that its gang's save kept. -/
def State.restartLaunch (s : State) (l : Nat) : State :=
  let x := s.launch l
  let gid := (s.vd x.vd).gid
  match s.gangs.lookup gid with
  | none => s.startOn l x.clusters
  | some g =>
    let mine := g.saved.filter fun e => e.2.job = some l
    let s := s.setGang gid { g with saved := g.saved.filter fun e => e.2.job != some l }
    (s.restoreCores g.ostep mine).startOn l x.clusters

/-- R45, R415: may a discarded launch start again: its virtual device dispatches, and its clusters are idle? -/
def State.mayRestart (s : State) (l : Nat) : Bool :=
  let x := s.launch l
  x.state = .discarded && (s.vd x.vd).dispatches && !s.committing x.vd && x.clusters.all fun c => (s.cluster c).launch.isNone

/-- R45, R378, R386, R409: the launch that the Sluice chose starts once its clusters are idle; a discarded one that could not start again
when its gang resumed starts now. -/
def execLaunchStart (l : Nat) (grant : List Nat) (s : State) : Host.Outcome State Fault Refusal :=
  s.move fun s =>
    if (s.launch l).state = .discarded then (if s.mayRestart l then s.restartLaunch l else s) else
    let p := (s.vd (s.launch l).vd).part
    let s := s.choose p
    let x := s.launch l
    let cs := sortNats grant
    if s.standing p = some l && s.grantOk x cs && !s.twinRuns x then
      let y := Map.get Part.reset s.parts p
      { s with parts := Map.put s.parts p { y with granted := none } }.startOn l cs
    else s

/-! ### Waves -/

/-- R368: the width of a domain on the scale of scopes; a flight is narrower than a cluster and wider than a core. -/
def Group.width (g : Group) : Nat :=
  match g.dom with
  | 0 => 3
  | 1 => 2
  | 2 => 1
  | 3 => 1
  | _ => 0

/-- R368: is a group as wide as its SCOPE or narrower? A group of cores within a flight has the flight for its instance. -/
def Group.within (g : Group) (flight : Bool) : Bool := (if g.dom = 4 && flight then 1 else g.width) ≤ g.scope

/-- R368: the instance of a group's domain that holds core `c`, within `u`, with the number of instances; a flight is not split. -/
def Launch.instanceAt (x : Launch) (g : Group) (flight : Bool) (u : List Nat) (c : Nat) : Nat × List Nat :=
  let inst := if g.dom = 4 && flight then [u] else x.instances g.dom u
  (inst.length, (inst.find? (·.contains c)).getD [])

/-- R368: a group of an item with what decides its waves on core `c`: the number of the group, the item's wave, and the region J. -/
structure WaveAt where
  pos : Nat
  g : Group
  k : Nat
  wave : Nat
  region : List Nat

/-- R368: the wave of every group of an item on core `c`. -/
def Launch.wavesFrom (x : Launch) (c pos : Nat) : List Group → Bool → List Nat → List WaveAt
  | [], _, _ => []
  | g :: gs, flight, u =>
    if g.dom = 5 then []
    else if g.dom = 0 then x.wavesFrom c (pos + 1) gs flight u
    else
      let r := x.instanceAt g flight u c
      let region := if g.within flight then x.scopeInst g.scope c else r.2
      { pos := pos, g := g, k := r.1, wave := g.idx / r.1, region := region }
        :: x.wavesFrom c (pos + 1) gs (flight || g.dom = 3) r.2

/-- R368: the items of the wave before, with the same digits outside the group, which are those of its enclosing levels (log 56). -/
def Launch.waveBefore (x : Launch) (w : Nat) (a : WaveAt) : List Nat :=
  let idxs (v : Nat) : List Nat := (x.groups v).map (·.idx)
  (List.range x.count).filter fun v =>
    let d := (idxs v).getD a.pos 0
    d / a.k + 1 = a.wave && (idxs v).take a.pos = (idxs w).take a.pos

/-- R368: has an item ended, or can its instance not lie within a region? -/
def State.overIn (s : State) (x : Launch) (region : List Nat) (v : Nat) : Bool :=
  match x.items.lookup v with
  | some 2 => true
  | some n => !region.contains (n - 3)
  | none => (s.place x v).all fun u => u.all fun c => !region.contains c

/-- R368: the instances of the group's scope within a region. -/
def Launch.scopeParts (x : Launch) (sc : Nat) (region : List Nat) : List (List Nat) :=
  match sc with
  | 0 => region.map fun c => [c]
  | 1 => x.instances 2 region
  | 2 => x.instances 1 region
  | _ => [region]

/-- R368: what names a wave phase: the group, the digits of its enclosing levels, the wave before, and the instance (log 56). -/
def Launch.waveKey (x : Launch) (w : Nat) (a : WaveAt) (cs : List Nat) : List Nat :=
  a.pos :: a.wave :: cs.headD 0 :: ((x.groups w).map (·.idx)).take a.pos

/-- R323, R368: does a core count as arrived at a wave phase: does it wait at a phase of that scope, or is no continuation on it, and none
suspended or parked from it? Items that no core has started are no continuations yet. -/
def State.atWave (s : State) (l sc c : Nat) : Bool :=
  match (s.core c).barrier with
  | some b => b.kind = 0 && b.scope = sc
  | none => (s.core c).mode = .idle && !s.leftOn l c

/-- R351, R368: performs the wave phase of one instance, unless it has completed, once all its cores have arrived and what they issued has
been performed; `error` while it cannot complete, a phase of gang scope having announced this member. -/
def State.wavePhase (s : State) (l w : Nat) (a : WaveAt) (cs : List Nat) : Except State State :=
  let x := s.launch l
  let key := x.waveKey w a cs
  let v := x.vd
  let sc := a.g.scope
  let pass (s : State) : State :=
    let s := (s.settle v sc cs).leavePhase cs
    s.setLaunch l { s.launch l with wavePhases := key :: (s.launch l).wavePhases }
  if x.wavePhases.contains key then .ok s
  else if s.taken l || !(cs.all fun c => s.atWave l sc c && s.quietCore c) then .error s
  else match s.settleFirst v sc cs with
    | some t => .error t
    | none =>
      match s.gangGate v { lid := s.gangLid l, kind := 0, scope := sc } with
      | .complete t => .ok (pass t)
      | .wait t => .error t

/-- The wave phases of several instances. -/
def State.wavePhases (s : State) (l w : Nat) (a : WaveAt) : List (List Nat) → Except State State
  | [] => .ok s
  | cs :: rest =>
    match s.wavePhase l w a cs with
    | .ok t => t.wavePhases l w a rest
    | .error t => .error t

/-- R368: have the items of the wave before ended, for every group of the item on core `c`? -/
def State.waveOver (s : State) (x : Launch) (w : Nat) (a : WaveAt) : Bool :=
  a.wave = 0 || (x.waveBefore w a).all (s.overIn x a.region)

/-- R368: may item `w` start on core `c`, but for its wave phases? -/
def State.wavesOver (s : State) (x : Launch) (w c : Nat) : Bool := (x.wavesFrom c 0 (x.groups w) false x.cores).all (s.waveOver x w)

/-- R368: the wave phases before an item, group by group. -/
def State.passWaves (s : State) (l w : Nat) : List WaveAt → Except State State
  | [] => .ok s
  | a :: rest =>
    match (if a.wave = 0 then .ok s else s.wavePhases l w a ((s.launch l).scopeParts a.g.scope a.region)) with
    | .ok t => t.passWaves l w rest
    | .error t => .error t

/-! ### Work items -/

/-- R375: the cores that an item started or resumed on core `c` occupies: the core, or the flight that it leads. -/
def Launch.crewAt (x : Launch) (c : Nat) : List Nat := (List.range x.flightLen).map (c + ·)

/-- R371: is the core, or every member of the flight it leads, idle for its running launch? -/
def State.idleCrew (s : State) (l c : Nat) : Bool :=
  let x := s.launch l
  x.state = .running && (s.vd x.vd).run && (x.crewAt c).all fun m => (s.core m).job = some l && (s.core m).mode = .idle

/-- R371-R374: a continuation begins on the cores of its crew, each with the lead's carried scalars. -/
def State.board (s : State) (x : Launch) (c entry pc widx : Nat) (cs : List Word) : State :=
  s.onCores (fun m k => { k.vacate with
    mode := .running, entry := entry, pc := pc, widx := widx, fpos := m - c, flen := x.flightLen, lead := c,
    sregs := cs.zipIdx.map fun (w, i) => (i + 1, w) }) (x.crewAt c)

/-- R370: is a pool entry malformed? -/
def poolMalformed (b : List Byte) : Bool := 4 ≤ fld (leNat (b.take 8)) 51 48 || fld (leNat (b.take 8)) 55 52 != 0

/-- R138, R371: is a suspended continuation ready for core `c`? One that waits for a handle stays with the core that suspended it. -/
def State.contReady (s : State) (x : Launch) (c : Nat) (e : Nat × Nat × Bool) : Bool :=
  if e.2.2 then
    e.2.1 = c && (match s.poolRead x.vd (x.entryVa e.1) with
      | .error _ => true
      | .ok (b, _) => poolMalformed b
          || ((s.core c).handle (fld (leNat (b.take 8)) 61 56)).awaited (bit (leNat (b.take 8)) 62))
  else s.mayRun x (Map.get 0 x.pool e.1) c

/-- R371: the ready continuations for core `c`, by pool entry. -/
def State.readyFor (s : State) (x : Launch) (c : Nat) : List Nat := (x.suspended.filter (s.contReady x c)).map (·.1)

/-- R371: is `e` the ready continuation with the lowest WIDX? -/
def State.lowestReady (s : State) (x : Launch) (c e : Nat) : Bool :=
  let r := s.readyFor x c
  r.contains e && r.all fun f => Map.get 0 x.pool e ≤ Map.get 0 x.pool f

/-- R371: is `w` the lowest item that core `c` may start now? -/
def State.lowestItem (s : State) (x : Launch) (c w : Nat) : Bool :=
  let fit (v : Nat) : Bool := s.mayRun x v c && s.wavesOver x v c
  (s.unstarted x).find? fit = some w

/-- R371, R428: does a continuation, resumed or restored, go before a new item on core `c`? -/
def State.preferred (s : State) (x : Launch) (c : Nat) : Bool :=
  !(s.readyFor x c).isEmpty || (s.vd x.vd).fq.any (s.restorable x.vd c)

/-- R371: writes the pool entry of a new item and starts it. -/
def State.beginItem (s : State) (l c w entry : Nat) : State :=
  let x := s.launch l
  let cs := tabulate 12 fun i => BitVec.ofNat 32 (x.sc (i + 1))
  let s := s.setLaunch l { x with items := Map.put x.items w (3 + c), pool := Map.put x.pool entry w }
  match s.poolWrite x.vd (x.entryVa entry) (poolBytes false false 0 1 x.entryPc w x.lidF cs) with
  | .error t => s.takeFault c t
  | .ok s => s.board x c entry x.entryPc w cs

/-- R368, R371: an idle core or flight starts the lowest new item that it may start, in a free pool entry. -/
def execWorkItemStart (c : Nat) (w : Nat) (entry : Nat) (s : State) : Host.Outcome State Fault Refusal :=
  s.move fun s =>
    match (s.core c).job with
    | none => s
    | some l =>
      let x := s.launch l
      if s.idleCrew l c && !s.preferred x c && s.lowestItem x c w && entry < x.cpoolN && !Map.has x.pool entry then
        match s.passWaves l w (x.wavesFrom c 0 (x.groups w) false x.cores) with
        | .ok t => t.beginItem l c w entry
        | .error t => t
      else s

/-- R371: a ready continuation leaves the pool. -/
def Launch.take (x : Launch) (entry c : Nat) : Launch :=
  { x with suspended := x.suspended.filter (·.1 != entry), items := Map.put x.items (Map.get 0 x.pool entry) (3 + c) }

/-- R371, R373: an idle core or flight takes the ready continuation with the lowest WIDX. -/
def execContinuationResume (c : Nat) (entry : Nat) (s : State) : Host.Outcome State Fault Refusal :=
  s.move fun s =>
    match (s.core c).job with
    | none => s
    | some l =>
      let x := s.launch l
      if !(s.idleCrew l c && s.lowestReady x c entry) then s
      else match s.poolRead x.vd (x.entryVa entry) with
        | .error t => s.takeFault c t
        | .ok (b, s) =>
          if poolMalformed b then s.takeFault c (trapOf 15 (x.entryVa entry))
          else match s.poolWrite x.vd (x.entryVa entry) (poolState b 1) with
            | .error t => s.takeFault c t
            | .ok s =>
              (s.setLaunch l ((s.launch l).take entry c)).board x c entry (fld (leNat (b.take 8)) 47 0)
                (Map.get 0 x.pool entry) (wordsOf (b.drop 16))

end Sys2Proof.Machine
end

