-- ==== Sys2Proof/Machine/Registers.lean ====
section
/-! DEFINITION. Registers of the management window: plain fields, bandwidth limiters, key slots, the Governor's limit (R7, R45-R56,
R194, R400-R402, R426, R445, R448, R480, R486). -/

namespace Sys2Proof.Machine

/-- The state after a step that always leaves one. -/
def afterStep (s : State) (o : Host.Outcome State Fault Refusal) : State :=
  match o with
  | .next t => t
  | _ => s

/-! ### Plain fields -/

/-- Bits [hi:lo] of a register value. -/
def bits (v : DWord) (hi lo : Nat) : Nat := fld v.toNat hi lo

/-- R7, R478: a bit that a host write clears, if `clear` says so, unless the device has set it in this cycle. -/
def stays (fresh : List W1c) (w : W1c) (b clear : Bool) : Bool := b && (!clear || fresh.contains w)

/-- R7: a write of a virtual device's register, in a cycle in which the device has set the bits `fresh`. -/
def VDev.write (x : VDev) (fresh : List W1c) (v : DWord) : MReg → VDev
  | .mtroot _ => { x with root := BitVec.ofNat 28 (bits v 39 12), trEn := v.getLsbD 0 }
  | .mwlim _ => { x with lastPg := BitVec.ofNat 52 (bits v 63 12) }
  | .mtinva _ => { x with invPage := BitVec.ofNat 52 (bits v 63 12) }
  | .mtistat d => { x with bwref := stays fresh (.bwref d) x.bwref (v.getLsbD 2), ovf := stays fresh (.ovf d) x.ovf (v.getLsbD 1) }
  | .tidbase _ => { x with tidBase := BitVec.ofNat 57 (bits v 63 7) }
  | .tidn _ => { x with tidCount := v.truncate 16 }
  | .olbase _ => { x with olBase := BitVec.ofNat 52 (bits v 63 12) }
  | .olsize _ => { x with olCount := v.truncate 20 }
  | .fqbase _ => { x with fqBase := BitVec.ofNat 52 (bits v 63 12) }
  | .fqctl d =>
    { x with
      fqLost := stays fresh (.fqLost d) x.fqLost (v.getLsbD 7), fqDres := v.getLsbD 6, fqIe := v.getLsbD 5, fqEn := v.getLsbD 4, fqLog := v.truncate 4 }
  | .fqhead _ => { x with fqHead := v.truncate 32 }
  | .fqrval _ => { x with fqRval := v.truncate 32 }
  | .vdpol _ => { x with gscope := v.getLsbD 0 }
  | .vdstat d => { x with qRaised := stays fresh (.qRaised d) x.qRaised (v.getLsbD 2) }
  | .dbgctl _ => { x with tstop := v.getLsbD 1, dbgEn := v.getLsbD 0 }
  | .snctl _ => { x with snCtl := v.truncate 5 }
  | .snstat d => { x with latched := stays fresh (.latched d) x.latched (v.getLsbD 0) }
  | .qcfg _ q =>
    { x with
      qcfgBase := Map.put x.qcfgBase q (BitVec.ofNat 52 (bits v 63 12)), qcfgLog := Map.put x.qcfgLog q (BitVec.ofNat 4 (bits v 11 8)),
      qcfgEn := Map.put x.qcfgEn q (v.getLsbD 0) }
  | .lstat d => { x with cerr := stays fresh (.cerr d) x.cerr (v.getLsbD 1), qovf := stays fresh (.qovf d) x.qovf (v.getLsbD 0) }
  | _ => x

/-- R480: a write of DEVCTL but for its RESET bit: the device number is kept while QEN is set; with QEN clear no port has a
link (R486). -/
def State.writeDevctl (s : State) (v : DWord) : State :=
  { s with
    devnum := if s.qen then s.devnum else BitVec.ofNat 11 (bits v 42 32), qen := v.getLsbD 1,
    ports := if v.getLsbD 1 then s.ports else s.ports.map fun (p, x) => (p, { x with up := false, retraining := false }) }

/-- R486: a write of QPCTL: the PMD is kept while EN is set; a port that is not enabled has no link. -/
def QPort.write (x : QPort) (v : DWord) : QPort :=
  { x with pmd := if x.en then x.pmd else v.getLsbD 1, en := v.getLsbD 0, up := x.up && v.getLsbD 0, retraining := x.retraining && v.getLsbD 0 }

/-- R7: a write of a register field that has no behaviour of its own. -/
def State.writeReg (s : State) (r : MReg) (v : DWord) : State :=
  match r with
  | .ksel => { s with ksel := v.truncate 12 }
  | .kstat => { s with kerr := stays s.fresh .kerr s.kerr (v.getLsbD 2) }
  | .kdata i => if i < 8 then { s with kdata := Map.put s.kdata i v } else s
  | .parg i => if i < 4 then { s with parg := Map.put s.parg i v } else s
  | .devctl => s.writeDevctl v
  | .thstat => { s with holds := stays s.fresh .holds s.holds (v.getLsbD 18) }
  | .qpctl p => if p < 36 then s.setPort p ((s.port p).write v) else s
  | .qcfg d q => if q < 64 then s.setVd d ((s.vd d).write s.fresh v r) else s
  | .mtroot d | .mwlim d | .mtinva d | .mtistat d | .tidbase d | .tidn d | .olbase d | .olsize d | .fqbase d | .fqctl d
  | .fqhead d | .fqrval d | .vdpol d | .vdstat d | .dbgctl d | .snctl d | .snstat d | .lstat d =>
    s.setVd d ((s.vd d).write s.fresh v r)

/-- R7: a register write. -/
def execRegisterWrite (r : MReg) (v : BitVec 64) (s : State) : Host.Outcome State Fault Refusal :=
  s.move fun s =>
    s.writeReg r v

/-! ### Limiters -/

/-- R55: a write of BWLIM; every channel's bucket starts full. -/
def execBwlimWrite (v : Nat) (w : BitVec 64) (s : State) : Host.Outcome State Fault Refusal :=
  s.move fun s =>
    let x := s.vd v
    let rate := BitVec.ofNat 20 (bits w 43 24)
    let burst := w.truncate 16
    if rate != 0 && burst = (0 : BitVec 16) then (s.setVd v { x with bwref := true }).w1cSet (.bwref v)
    else s.setVd v { x with bwRate := rate, bwBurst := burst, accs := x.accs.filter fun e => 512 ≤ e.1 }

/-- R402: a write of QBWLIM; every port's bucket starts full. -/
def execQbwlimWrite (v : Nat) (w : BitVec 64) (s : State) : Host.Outcome State Fault Refusal :=
  s.move fun s =>
    let x := s.vd v
    let rate := BitVec.ofNat 20 (bits w 43 24)
    let burst := w.truncate 16
    if rate != 0 && burst = (0 : BitVec 16) then s
    else s.setVd v { x with qRate := rate, qBurst := burst, accs := x.accs.filter fun e => e.1 < 512 }

/-- R56: the requests admitted from a bucket, oldest first: what is left of the bucket and of the requests. -/
def admitted : Nat → List Nat → Nat × List Nat
  | acc, [] => (acc, [])
  | acc, n :: ns => if n * 64 * 16384 ≤ acc then admitted (acc - n * 64 * 16384) ns else (acc, n :: ns)

/-- R56: one cycle of a bucket with its capacity in 64-byte units and its refill. -/
def VDev.bucket (x : VDev) (b cap refill : Nat) : VDev :=
  let full := cap * 64 * 16384
  let r := admitted (min (Map.get full x.accs b + refill) full) (Map.get [] x.requests b)
  { x with accs := Map.set full x.accs b r.1, requests := Map.set [] x.requests b r.2 }

/-- R56, R402: one cycle of a limiter: of a channel below 512, or of port b - 512, over whose partition's ports the rate is
spread. -/
def execLimiterTick (v : Nat) (b : Nat) (s : State) : Host.Outcome State Fault Refusal :=
  s.move fun s =>
    let x := s.vd v
    if b < 512 then
      if x.bwRate = 0 then s else s.setVd v (x.bucket b x.bwBurst.toNat (min x.bwRate.toNat 655360))
    else
      let n := (s.vdPart v).ports.length
      if x.qRate = 0 || n = 0 then s else s.setVd v (x.bucket b x.qBurst.toNat (min x.qRate.toNat 115200 * 512 / n))

/-! ### Keys -/

/-- R54: KDATA is cleared after every command. -/
def State.clearKdata (s : State) : State := { s with kdata := [] }

/-- R54: a refused key command. -/
def State.refuseKey (s : State) : State := ({ s with kerr := true }.w1cSet .kerr).clearKdata

/-- R54: fills the slot that KSEL names with two keys, and notes where they come from (log 6). -/
def State.fillSlot (s : State) (k1 k2 : BitVec 256) (mat : Config.KeyMat) : State :=
  { s with slots := Map.put s.slots s.ksel.toNat { state := 1, k1 := k1, k2 := k2, mat := mat } }.clearKdata

/-- R54: may the selected slot be filled? -/
def State.mayFill (s : State) : Bool := s.ksel != 0 && (s.slot s.ksel.toNat).state = 0

/-- R54: fills an empty slot from the entropy source. -/
def execKeyGenerate (s : State) : Host.Outcome State Fault Refusal :=
  s.move fun s =>
    if s.mayFill then { s with draws := s.draws + 2 }.fillSlot (Config.entropy s.draws) (Config.entropy (s.draws + 1)) (.drawn s.draws)
    else s.refuseKey

/-- R53: a key of four KDATA words, least significant first. -/
def State.keyFrom (s : State) (i : Nat) : BitVec 256 :=
  BitVec.ofNat 256 (joinWords ((List.range 4).flatMap fun j => splitWords 2 (Map.get 0 s.kdata (i + j)).toNat))

/-- R54: fills an empty slot from KDATA. -/
def execKeyLoad (s : State) : Host.Outcome State Fault Refusal :=
  s.move fun s =>
    if s.mayFill && s.keyFrom 0 != s.keyFrom 4 then s.fillSlot (s.keyFrom 0) (s.keyFrom 4) (.loaded (s.keyFrom 0) (s.keyFrom 4)) else s.refuseKey

/-- R54: a loaded slot begins to be zeroised. -/
def execKeyZeroise (s : State) : Host.Outcome State Fault Refusal :=
  s.move fun s =>
    let n := s.ksel.toNat
    if n != 0 && (s.slot n).state = 1 then
      { s with slots := Map.put s.slots n { s.slot n with state := 2 } }.clearKdata
    else s.refuseKey

/-- R54: a zeroising slot is cleared. -/
def execKeyZeroiseComplete (n : Nat) (s : State) : Host.Outcome State Fault Refusal :=
  s.move fun s =>
    if (s.slot n).state = 2 then { s with slots := Map.put s.slots n KeySlot.reset } else s

/-! ### The Governor -/

/-- R194: a write of GOVCTL. -/
def execGovctlWrite (v : BitVec 64) (s : State) : Host.Outcome State Fault Refusal :=
  s.move fun s =>
    let lim := bits v 19 0
    let t := { s with
      govEn := v.getLsbD 31, govRaised := stays s.fresh .govRaised s.govRaised (v.getLsbD 30) || lim < 256,
      govLimit := BitVec.ofNat 20 (max 256 lim) }
    if lim < 256 then t.w1cSet .govRaised else t

end Sys2Proof.Machine
end

