-- ==== Sys2Proof/Machine/EvDebug.lean ====
section
/-! DEFINITION. The debugger and the snapshot trigger (R445-R448). -/

namespace Sys2Proof.Machine

/-- R445: the running launch halts. -/
def execDbgHalt (v : Nat) (s : State) : Host.Outcome State Fault Refusal :=
  s.move fun s =>
    if (s.coresOf v).isEmpty then s
    else s.setVd v { s.vd v with halted := true, stepping := false, dbgMill := none, dbgSteps := 0, dbgStall := false }

/-- R445: cores that `trap` or `halt` stopped go on. -/
def State.unhalt (s : State) : List Nat → State
  | [] => s
  | c :: cs =>
    let k := s.core c
    (if k.mode = .halted then s.setCore c { k with mode := .running } else s).unhalt cs

/-- R445: the launch is released. -/
def execDbgRun (v : Nat) (s : State) : Host.Outcome State Fault Refusal :=
  s.move fun s =>
    (s.setVd v { s.vd v with halted := false, stepping := false, dbgMill := none }).unhalt (s.coresOf v)

/-- R446: the halted cores that a step moves: those that lead themselves or a flight. -/
def State.stepLeads (s : State) (v : Nat) : List Nat :=
  (s.coresOf v).filter fun c =>
    let k := s.core c
    k.fpos = 0 && k.mode != .idle && ((s.vd v).halted || k.mode = .halted)

/-- R446, R447: a step: every halted core moves by one core cycle, which comes next, and the engines with the last of them. A launch none
of whose cores runs steps its engines alone. -/
def execDbgStep (v : Nat) (s : State) : Host.Outcome State Fault Refusal :=
  s.move fun s =>
    if !s.debugHalted v then s
    else
      let x := s.vd v
      let s := s.setVd v { x with dbgSteps := x.dbgSteps + 1, dbgStall := false, stepping := x.halted }
      let cs := if (s.stepLeads v).isEmpty then (s.coresOf v).take 1 else s.stepLeads v
      { s with agenda := cs.map .debugCore ++ s.agenda }

/-- Does a core run a launch of a virtual device? -/
def State.serves (s : State) (v c : Nat) : Bool := (s.core c).job.isSome && s.coreVd c = v

/-- R446: the Millstone of a core runs its active command to completion. -/
def execDbgRunMillstone (v : Nat) (c : Nat) (s : State) : Host.Outcome State Fault Refusal :=
  s.move fun s =>
    if s.debugHalted v && s.serves v c && (s.core c).mill.active.isSome then s.setVd v { s.vd v with dbgMill := some c } else s

/-- R445: the context of a core goes to the fault frame. -/
def execDbgDump (v : Nat) (c : Nat) (s : State) : Host.Outcome State Fault Refusal :=
  s.move fun s =>
    if s.debugHalted v && s.serves v c then
      match (s.faultFrame v).bind (s.frameFault v) with
      | some t => s.takeFault c t
      | none => s.fillFaultFrame v c 3 ({ s.core c with pc := s.nextPc c } : Core).captured
    else s

/-- R129: the granules that the records of a core's channels have pinned. -/
def Core.pinned (k : Core) : List Nat := ((k.channel 0).recs ++ (k.channel 1).recs).flatMap (·.pins)

/-- R127, R129, R445: core `c` goes on with a context of the fault frame, whose local stores in flight and whose pinned granules are
touched; where a granule is not free for that, the command does nothing but ask for it (log 11). -/
def State.putFrame (s : State) (c : Nat) (k : Core) : State :=
  let gs := k.storeGranules c ++ k.pinned
  (s.settleNow (s.coreGid c) gs).touching (s.coreGid c) gs fun s => ((s.unpin (s.core c).pinned).pin k.pinned).setCore c k

/-- R445: the fault frame goes back into a core; a frame whose key is not loaded faults (R50, R54). -/
def execDbgLoad (v : Nat) (c : Nat) (s : State) : Host.Outcome State Fault Refusal :=
  s.move fun s =>
    if s.debugHalted v && s.serves v c then
      match s.faultFrame v with
      | none => s
      | some i =>
        match s.frameFault v i, s.frameAt v i with
        | some t, _ => s.takeFault c t
        | none, some pa => s.putFrame c (s.loadFrame (s.saveKey v) pa (s.job c) ((s.vd v).dump.getD (s.core c)) (s.core c))
        | none, none => s
    else s

/-- R448: a write of SNSTAT.FIRE. -/
def execSnstatFire (v : Nat) (s : State) : Host.Outcome State Fault Refusal :=
  s.move fun s => if (s.vd v).snCtl.getLsbD 1 then s.fireSnapshot v 0 2 else s

/-- R448: a trigger that another member has broadcast. -/
def execSnapshotTrigger (v : Nat) (s : State) : Host.Outcome State Fault Refusal :=
  s.move fun s => if (s.vd v).snCtl.getLsbD 3 then s.fireSnapshot v 0 4 else s

end Sys2Proof.Machine
end

