-- ==== Sys2Proof/Machine/EvMill.lean ====
section
/-! DEFINITION. Events of the Millstone: latch fill, waves and completion (R282-R319). -/

namespace Sys2Proof.Machine

/-! ### Operands -/

/-- R290: the accesses of the elements, and of their scales, at places of a tensor. -/
def TReg.reads (t : TReg) (ps : List (Int × Int)) : List EAcc :=
  let ins := ps.filter fun p => t.inside t.i3 t.i2 p.1 p.2
  ins.map (fun p => t.acc false (t.addr t.i3 t.i2 p.1 p.2) (containerBytes t.fmt))
    ++ (if t.bs then ins.map fun p => t.acc false (t.scaleAddr t.i3 t.i2 p.1 p.2) 1 else [])

/-- The accesses of a command's reads. -/
def Cmd.reads (x : Cmd) : List EAcc :=
  match x.op with
  | .mma _ _ _ _ _ _ => x.a.cbAccs ++ x.b.cbAccs ++ x.a.reads x.placesA ++ x.b.reads x.placesB
  | .mld _ fmt => [{ sp := 2, h := 0, fill := false, addr := x.bank + x.off, n := 16384 * loadBytes fmt }]
  | _ => []

/-- R297: the codes of a row of A or a column of B along K. -/
def State.codesOf (s : State) (c : Nat) (t : TReg) (k : Nat) (at_ : Nat → Int × Int) : List Nat :=
  tabulate k fun i => t.code (s.tensorMem c t) t.i3 t.i2 (at_ i).1 (at_ i).2

/-- R290: the scales of the blocks of 32 along K of a row of A or a column of B. -/
def State.scalesOf (s : State) (c : Nat) (t : TReg) (k : Nat) (at_ : Nat → Int × Int) : List Nat :=
  tabulate (k / 32) fun b => t.scale (s.tensorMem c t) t.i3 t.i2 (at_ (32 * b)).1 (at_ (32 * b)).2

/-- R305: the words of a tile image at a slice offset. -/
def State.tileImage (s : State) (c a fmt : Nat) : List Nat :=
  tabulate 16384 fun e =>
    let x := leNat (s.lRead c (a + e * loadBytes fmt) (loadBytes fmt))
    match fmt with
    | 0 => x
    | 1 => (convert (Fmt.bf16.decode x) .f32 0 false 0).1
    | _ => (convert (Fmt.f16.decode x) .f32 0 false 0).1

/-- R290, R295: the scales of a row of A; a gathered row outside the tensor has scale 127. -/
def State.scalesA (s : State) (c : Nat) (x : Cmd) (i : Nat) : List Nat :=
  let out : Bool := match x.op with
    | .mma _ _ _ _ _ true => x.a.ext 1 ≤ (x.ix.getD i 0).toNat
    | _ => false
  if out then List.replicate (x.kDim / 32) 127 else s.scalesOf c x.a x.kDim fun k => x.placeA i k

/-- R282, R294: the command with its operands. -/
def State.fillLatch (s : State) (c : Nat) (x : Cmd) : Cmd :=
  let x := { x with latched := true, readers := [], a := s.withCodebook c x.a, b := s.withCodebook c x.b }
  match x.op with
  | .mma _ _ _ _ _ _ => { x with
      opA := tabulate x.mDim fun i => s.codesOf c x.a x.kDim fun k => x.placeA i k
      opB := tabulate x.nDim fun j => s.codesOf c x.b x.kDim fun k => x.placeB k j
      scA := tabulate x.mDim (s.scalesA c x)
      scB := tabulate x.nDim fun j => s.scalesOf c x.b x.kDim fun k => x.placeB k j }
  | .mld _ fmt => { x with opA := [s.tileImage c (x.bank + x.off) fmt] }
  | _ => x

/-- Does the command read operands? -/
def Cmd.isReader (x : Cmd) : Bool :=
  match x.op with
  | .mma _ _ _ _ _ _ => true
  | .mld _ _ => true
  | _ => false

/-- R292: does the command read the slice, by offset or through a handle? -/
def Cmd.usesSlice (x : Cmd) : Bool :=
  match x.op with
  | .mma _ _ _ _ _ _ => 2 ≤ x.a.space || 2 ≤ x.b.space
  | .mld _ _ => true
  | _ => false

/-- R129, R292, R294: the operand latch fill of the active command: its reads are made, under the pins of their granules, and its readers
returned; a G read outside the partition is a late fault. -/
def State.millFill (s : State) (c : Nat) : State :=
  let k := s.core c
  match k.mill.active with
  | none => s
  | some x =>
    if x.latched || !x.isReader || (x.usesSlice && !k.storesLanded x.issued) then s
    else match s.engineCheck c .read x.reads with
      | some t => s.takeFault c t
      | none =>
        let gs := s.engineGranules c x.reads
        s.touching (s.coreGid c) gs fun s =>
          let y := s.fillLatch c x
          let s := (s.pin gs).unclaimAll c x.readers
          let k := s.core c
          (s.setCore c { k with mill := { k.mill with active := some y } }).unpin gs

/-- R294, R445: the operand latch fill, unless the Millstone holds. -/
def execMillstoneLatchFill (c : Nat) (s : State) : Host.Outcome State Fault Refusal :=
  s.move fun s =>
    if s.holdsMill c then s else s.millFill c

/-! ### Waves -/

/-- R319: the width of the array. -/
def arrayWidth (pf : Nat) : Nat :=
  match pf with
  | 0 => 32
  | 5 => 32
  | 2 => 128
  | 7 => 128
  | 6 => 16
  | _ => 64

/-- R193: the weight of a wave. -/
def waveWeight (pf : Nat) : Nat :=
  match pf with
  | 0 => 40
  | 5 => 40
  | 1 => 52
  | 3 => 44
  | 4 => 60
  | 6 => 24
  | _ => 64

/-- R319: the waves of a command, with the weight of each. -/
def Cmd.waveCount (x : Cmd) : Nat × Nat :=
  match x.op with
  | .mma pf _ _ _ _ _ => (x.kDim * ((x.nDim + arrayWidth pf - 1) / arrayWidth pf), waveWeight pf)
  | _ => (0, 0)

/-- R315: the Millstone samples a request that has been made. -/
def Mill.sample (m : Mill) : Mill := { m with held := m.held || m.asked, asked := false }

/-- R315: a Millstone is asked to stop at its next retirement: an idle one samples the request at once, a busy one as a wave completes. -/
def Mill.ask (m : Mill) : Mill :=
  let m := { m with asked := true }
  if m.active.isNone then m.sample else m

/-- R191, R315, R316, R319: a wave of the active command completes, once the Governor has charged it; one that it refuses waits. A replay
ends with the wave that missed. -/
def State.millWave (s : State) (c : Nat) : State :=
  let k := s.core c
  match k.mill.active with
  | none => s
  | some x =>
    if !x.latched || x.waveCount.1 ≤ x.waves then s
    else if s.waveAllowed k x.waveCount.2 then
      let y := { x with waves := x.waves + 1 }
      let done := k.mill.again.isEmpty && k.mill.replay.any (· ≤ y.waves)
      s.setCore c { k.charge k.waveCycle x.waveCount.2 with
        mill := { k.mill.sample with active := some y, waveReady := none, replay := if done then none else k.mill.replay } }
    else s.setCore c { k with mill := { k.mill with waveReady := some (k.mill.waveReady.getD (k.waveCycle, x.waveCount.2)) } }

/-- R319, R445: a wave, unless the Millstone holds. -/
def execMillstoneWave (c : Nat) (s : State) : Host.Outcome State Fault Refusal :=
  s.move fun s =>
    if s.holdsMill c then s else s.millWave c

/-! ### Products -/

/-- R298: the width of a profile's window. -/
def windowBits (pf : Nat) : Nat :=
  match pf with
  | 0 => 48
  | 2 => 24
  | 5 => 64
  | 7 => 32
  | _ => 40

/-- R298: the canonical NaN. -/
def canonicalNan : Nat := 0x7FC00000

/-- R298: Round32 of an exact value. -/
def round32 (x : Num) : Nat := (convert x .f32 0 false 0).1

/-- R298: the products of a block, or none where the NaN rules apply. -/
def products : List (Num × Num) → Option (List Num)
  | [] => some []
  | (x, y) :: t =>
    if x.isNan || y.isNan then none
    else match mulExact x y, products t with
      | some p, some ps => some (p :: ps)
      | _, _ => none

/-- R298: the exponent of the leading bit of a finite product that is not 0. -/
def Num.top : Num → Option Int
  | .fin _ m e _ => if m = 0 then none else some (e + (Nat.log2 m : Int))
  | _ => none

/-- R298: a product in units of 2^q, truncated toward zero. -/
def Num.truncTo (q : Int) : Num → Int
  | .fin neg m e _ =>
    let a : Nat := if q ≤ e then m * 2 ^ (e - q).toNat else m / 2 ^ (q - e).toNat
    if neg then -(a : Int) else a
  | _ => 0

/-- R298: BlockSum. -/
def blockSum (pf : Nat) (ps : List (Num × Num)) (sa sb : Nat) : Nat :=
  if sa = 255 || sb = 255 then canonicalNan
  else match products ps with
    | none => canonicalNan
    | some p =>
      let infs := p.filter Num.isInf
      if infs.any Num.neg && infs.any (fun x => !x.neg) then canonicalNan
      else match infs.head? with
        | some i => round32 i
        | none =>
          match (p.filterMap Num.top) with
          | [] => 0
          | t :: ts =>
            let q := ts.foldl max t + 1 - windowBits pf
            let sum : Int := (p.map (Num.truncTo q)).foldl (· + ·) 0
            if sum = 0 then 0 else round32 ((Num.fin (sum < 0) sum.natAbs q false).scale ((sa : Int) + sb - 254))

/-- R299: one product of P6. -/
def pairProduct (x y : Num) (sa sb : Nat) : Nat :=
  if sa = 255 || sb = 255 then canonicalNan
  else match products [(x, y)] with
    | some [p] => round32 (p.scale ((sa : Int) + sb - 254))
    | _ => canonicalNan

/-- R297-R300: ProfileAccumulate. -/
def accumulate (pf : Nat) (fa fb : Fmt) (c : Nat) (a b sa sb : List Nat) : Nat :=
  match pf with
  | 3 =>
    let v (f : Fmt) (x : Nat) : Int := match f with | .int sg n => (if sg then sxt n x else ((x % 2 ^ n : Nat) : Int)) | _ => 0
    wrap 32 ((a.zip b).foldl (fun t (x, y) => t + v fa x * v fb y) (sxt 32 c))
  | 6 =>
    ((a.zip b).zipIdx.foldl (fun t ((x, y), k) =>
      addRne t (pairProduct (fa.decode x) (fb.decode y) (sa.getD (k / 32) 127) (sb.getD (k / 32) 127))) c)
  | _ =>
    (List.range (a.length / 32)).foldl (fun t i =>
      let ps := (((a.drop (32 * i)).take 32).zip ((b.drop (32 * i)).take 32)).map fun (x, y) => (fa.decode x, fb.decode y)
      addRne t (blockSum pf ps (sa.getD i 127) (sb.getD i 127))) c

/-- R297: the tile after a product. -/
def Cmd.productTile (x : Cmd) (pf : Nat) (clr : Bool) (tile : List Word) : List Word :=
  tabulate 16384 fun e =>
    let i := e / 128
    let j := e % 128
    let c := if clr then 0 else (lane tile e).toNat
    if i < x.mDim && j < x.nDim then
      BitVec.ofNat 32 (accumulate pf (tensorFmt x.a.fmt) (tensorFmt x.b.fmt) c (x.opA.getD i []) (x.opB.getD j [])
        (x.scA.getD i []) (x.scB.getD j []))
    else BitVec.ofNat 32 c

/-! ### Completion -/

/-- R303: the format of `mret`. -/
def retFmt (fmt : Nat) : Fmt :=
  match fmt with
  | 1 => .bf16
  | 2 => .f16
  | 3 => .e4m3
  | 4 => .e5m2
  | 5 => .int true 8
  | _ => .int true 16

/-- R302: the rounding mode of `mret`, by the codes of R62. -/
def Cmd.retMode (x : Cmd) (rm : Nat) : Nat :=
  match rm with
  | 0 => 0
  | 1 => 1
  | 2 => 4
  | _ => x.snap.fctl.toNat % 8

/-- R303: what `mret` writes for element `e` of the tile. -/
def Cmd.retCode (x : Cmd) (fmt rm : Nat) (sat : Bool) (v : Word) (e : Nat) : Nat :=
  if fmt = 0 then v.toNat
  else if 5 ≤ fmt then (convert (Num.ofInt v.toInt) (retFmt fmt) 1 false 0).1
  else
    let mode := x.retMode rm
    let rb := if mode = 4 then
      philox x.snap.rngkey (x.acc * 4096 + e / 4) x.snap.widx x.snap.lid x.snap.rngctr.toNat (e % 4) else 0
    (convert (Fmt.f32.decode v.toNat) (retFmt fmt) mode sat rb).1

/-- R303: the bytes that `mret` writes. -/
def Cmd.retImage (x : Cmd) (fmt rm : Nat) (sat : Bool) (tile : List Word) : List Byte :=
  (List.range 16384).flatMap fun e => leBytes (retBytes fmt) (x.retCode fmt rm sat (lane tile e) e)

/-- R304: the granules of the bytes that a completing command writes. -/
def Cmd.writes (x : Cmd) : List EAcc :=
  match x.op with
  | .mret _ fmt _ _ _ _ => [{ sp := 2, h := 0, fill := true, addr := x.bank + x.off, n := 16384 * retBytes fmt }]
  | _ => []

/-- R303, R304, R306: the completion of `mret`: the handle is written, then published where PUB is 1. -/
def State.returnTile (s : State) (c : Nat) (x : Cmd) (h fmt rm : Nat) (pub clr sat : Bool) : State :=
  let k := s.core c
  let s := s.gStore (s.coreGid c) (gAddr c (x.bank + x.off)) (x.retImage fmt rm sat (k.tile x.acc))
  let s := if clr then s.setCore c { s.core c with tiles := Map.put (s.core c).tiles x.acc [] } else s
  let s := s.updHandle c h fun y => { y.filled with mretBusy := 0 }
  if !pub then s
  else match ((s.core c).handle h).publish with
    | some y => s.setCore c ((s.core c).setHandle h y)
    | none => s.takeFault c { cls := 16, addr := h }

/-- R282, R312: what a command's completion writes; the sums of a product stay in the array while the chain is open. -/
def State.finishCmd (s : State) (c : Nat) (x : Cmd) (stays : Bool) : State :=
  let k := s.core c
  match x.op with
  | .mma pf clr _ _ _ _ =>
    let r := x.productTile pf clr (k.mill.sums.getD (k.tile x.acc))
    if stays then s.setCore c { k with mill := { k.mill with sums := some r } }
    else s.setCore c { k with tiles := Map.put k.tiles x.acc r, mill := { k.mill with sums := none } }
  | .mret h fmt rm pub clr sat => s.returnTile c x h fmt rm pub clr sat
  | .mld _ _ => s.setCore c { k with tiles := Map.put k.tiles x.acc ((x.opA.headD []).map (BitVec.ofNat 32)) }
  | .mclr => s.setCore c { k with tiles := Map.put k.tiles x.acc [] }

/-- R313: does the next command continue the chain of the one that completes? -/
def Mill.continues (m : Mill) (x : Cmd) (d : Nat) : Bool :=
  match x.op, m.shadow with
  | .mma pf _ ret _ _ _, some y =>
    (match y.op with
      | .mma pf' clr' _ _ _ _ => !ret && m.depth + 1 < d && y.acc = x.acc && !clr' && ((pf = 3) = (pf' = 3))
          && m.chainBytes + x.latchBytes + y.latchBytes ≤ 262144
      | _ => false)
  | _, _ => false

/-- R283, R311, R313: the Millstone after its active command completes: the chain goes on or retires, and the shadow command
becomes active unless a hold has been sampled before a retirement; one that falls idle samples a request (R315). -/
def Mill.next (m : Mill) (x : Cmd) (d : Nat) : Mill :=
  let on := m.continues x d
  let m := { m with depth := if on then m.depth + 1 else 0,
                    chainBytes := if on then m.chainBytes + x.latchBytes else 0, chain := if on then m.chain ++ [x] else [],
                    replay := none, waveReady := none }
  if m.held && !on then { m with active := none }
  else if m.shadow.isNone then { m with active := none }.sample
  else { m with active := m.shadow, shadow := none }

/-- R316: the open chain is replayed from the tile's value at its last retirement, with the operands in the latch. -/
def Mill.rewind (m : Mill) : Mill :=
  match m.active with
  | none => m
  | some x =>
    match m.chain.map (fun y => { y with waves := 0 }) ++ [{ x with waves := 0 }] with
    | y :: ys => { m with active := some y, again := ys, sums := none, replay := some x.waves, waveReady := none }
    | [] => m

/-- R316: a residue miss: the first of a chain's run replays it; one during the replay is an uncorrectable error. -/
def Mill.missed (m : Mill) : Option Mill := if m.replay.isSome then none else some m.rewind

/-- Has the active command run its course? -/
def Cmd.ran (x : Cmd) : Bool := (x.latched || !x.isReader) && x.waveCount.1 ≤ x.waves

/-- R446: the command that the debugger let run has completed. -/
def State.millServed (s : State) (c : Nat) : State :=
  let v := s.coreVd c
  if (s.vd v).dbgMill = some c then s.setVd v { s.vd v with dbgMill := none } else s

/-- R129, R311, R316: the active command completes: its writes land, their granules pinned meanwhile, its busy bits clear and its token is counted; one that a replay runs again
only forms its sums. -/
def State.millComplete (s : State) (c : Nat) : State :=
  match (s.core c).mill.active with
  | none => s
  | some x =>
    if !x.ran then s
    else match (s.core c).mill.again with
      | y :: ys =>
        let s := s.finishCmd c x true
        let k := s.core c
        s.setCore c { k with mill := { k.mill with active := some y, again := ys } }
      | [] =>
        let gs := s.engineGranules c x.writes
        s.touching (s.coreGid c) gs fun s =>
          let d := (s.job c).rdepth
          let s := ((s.pin gs).finishCmd c x ((s.core c).mill.continues x d)).unpin gs
          let k := s.core c
          (s.setCore c { k with tok := k.tok + 1, mill := k.mill.next x d }).millServed c

/-- R311, R445: a command completes, unless the Millstone holds. -/
def execMillstoneCommandComplete (c : Nat) (s : State) : Host.Outcome State Fault Refusal :=
  s.move fun s =>
    if s.holdsMill c then s else s.millComplete c

end Sys2Proof.Machine
end

