-- ==== Sys2Proof/Machine/EvFlume.lean ====
section
/-! DEFINITION. Events of the Flume: a record is fetched and checked, starts, and completes (R90-R118). -/

namespace Sys2Proof.Machine

/-! ### Records in memory -/

/-- R92, R94: the access to bytes of a record. -/
def recAcc (ptr off n : Nat) : EAcc := { sp := locSpace ptr, h := 0, fill := false, addr := locAddr ptr + off, n := n }

/-- R33, R46, R115: the fault that a write of bytes of a record meets, whose window was checked when the record was read. -/
def State.recFault (s : State) (c ptr off n : Nat) : Option Trap := s.lateCheck c .write [recAcc ptr off n]

/-- Writes bytes of a record, where the access passes its checks. -/
def State.recWrite (s : State) (c ptr off : Nat) (bs : List Byte) : State :=
  let a := recAcc ptr off bs.length
  match s.recFault c ptr off bs.length with
  | some _ => s
  | none => (s.engineNote (s.coreVd c) .write (pagesOf [a])).engineStore (s.coreVd c) (s.engineWrite c a bs 0)

/-- R96: rewrites CTRL. -/
def State.writeCtrl (s : State) (c : Nat) (x : FlumeRec) (own : Bool) (stat : Nat) : State :=
  s.recWrite c x.ptr.toNat 0 (leBytes 8 (ctrlWord (x.w 0) own stat))

/-- Changes a channel. -/
def State.updChannel (s : State) (c n : Nat) (f : Channel → Channel) : State :=
  s.setCore c ((s.core c).setChannel n (f ((s.core c).channel n)))

/-- Replaces the first record of a list that has not started. -/
def replaceUnstarted (y : FlumeRec) : List FlumeRec → List FlumeRec
  | [] => []
  | x :: xs => if x.started then x :: replaceUnstarted y xs else y :: xs

/-- R115, R116: a record fails: the channel has failed and the launch ends. -/
def State.failChannel (s : State) (c n stat : Nat) (t : Trap) : State :=
  (s.updChannel c n fun ch => { ch with state := 5, stat := stat }).takeFault c { t with kind := 4 }

/-- R115: a record waits for the pager: the channel is parked, and the record runs again from its fetch with the claims it has made. -/
def State.parkRecord (s : State) (c n : Nat) (x : FlumeRec) (t : Trap) : State :=
  let y := { x with words := [], started := false, closing := false, pins := [], writes := [], crc := 0 }
  ((s.unpin x.pins).updChannel c n fun ch => { ch with
    state := 3, trap := some { t with kind := 4 },
    recs := if ch.recs.any (fun r => !r.started) then replaceUnstarted y ch.recs else ch.recs ++ [y] }).faultSeen (s.coreVd c) t.cls

/-- R115: a record ends with a STAT in CTRL and a fault, unless that write faults itself. -/
def State.endRecord (s : State) (c n : Nat) (x : FlumeRec) (stat : Nat) (t : Trap) : State :=
  match s.recFault c x.ptr.toNat 0 8 with
  | some e => if e.cls = 5 then s.parkRecord c n x e else s.failChannel c n 5 e
  | none => (s.writeCtrl c x true stat).failChannel c n stat t

/-- R96, R110, R115: a record is refused with a STAT: CTRL is rewritten and a Flume record error raised. -/
def State.refuse (s : State) (c n : Nat) (x : FlumeRec) (stat : Nat) : State :=
  s.endRecord c n x stat { cls := 17, addr := locAddr x.ptr.toNat }

/-- R115: a fault of a record: translation not present parks the channel, any other fault is written as STAT 5 and ends the
launch. -/
def State.recordFault (s : State) (c n : Nat) (x : FlumeRec) (t : Trap) : State :=
  if t.cls = 5 then s.parkRecord c n x t else s.endRecord c n x 5 t

/-! ### Fetch -/

/-- A record of a chain, not yet read. -/
def freshRec (ch : Chain) (ptr : DWord) : FlumeRec :=
  { ptr := ptr, words := [], snap := ch.snap, issued := ch.issued, src := [], dst := none, shadow := false, drained := false,
    pend := none, started := false, closing := false, pins := [], writes := [], crc := 0, last := false }

/-- R93, R110: the record that a running channel reads next: one that must be read again, else the next of the chain. -/
def Channel.toFetch (x : Channel) : Option FlumeRec :=
  if x.state != 1 && x.state != 2 then none
  else match x.recs.find? (fun r => !r.started) with
    | some r => if r.words.isEmpty then some r else none
    | none => match x.active, x.next with
      | some ch, some p => some (freshRec ch p)
      | _, _ => none

/-- R93: the channel once it has read a record; one that it reads again leads on only where it is the last that it has read. -/
def Channel.fetched (x : Channel) (r : FlumeRec) : Channel :=
  let again := x.recs.any fun q => !q.started
  let last := (x.recs.takeWhile (·.started)).length + 1 = x.recs.length
  { x with
    recs := if again then replaceUnstarted r x.recs else x.recs ++ [r],
    next := if again && !last then x.next else if r.isLast then none else some (BitVec.ofNat 64 (r.w 1)) }

/-- R110: the record with its words. -/
def FlumeRec.withWords (x : FlumeRec) (bs : List Byte) : FlumeRec :=
  let y := { x with words := tabulate 16 fun i => BitVec.ofNat 64 (leNat ((bs.drop (8 * i)).take 8)) }
  { y with last := y.isLast }

/-- R110, R129: reads and checks a record, whose granule stays pinned until it completes. -/
def State.fetchRecord (s : State) (c n : Nat) (x : FlumeRec) : State :=
  let p := x.ptr.toNat
  if !recordPtrOk p then s.failChannel c n 0 { cls := 17, addr := p }
  else if locSpace p = 2 && !(s.core c).storesLanded x.issued then s
  else
    let a := recAcc p 0 128
    match s.engineCheck c .read [a] with
    | some t => if t.cls = 5 then s.parkRecord c n x t else s.failChannel c n 5 t
    | none =>
      let gs := s.engineGranules c [a]
      s.touching (s.coreGid c) gs fun s =>
        let s := (s.engineNote (s.coreVd c) .read (pagesOf [a])).chargeLines (s.coreVd c) (mLines [a])
        let y := x.withWords (s.engineRead c a)
        if !y.own then s.failChannel c n 0 { cls := 17, addr := locAddr p }
        else
          let st := y.check (s.vd (s.coreVd c)).gscope ((s.job c).levScope 0)
          if st != 0 then s.refuse c n y st
          else (s.pin gs).updChannel c n fun ch => ch.fetched { y with pins := gs }

/-- R116, R445: do the channels of a core stand still: for the debugger, or because the launch is ending by a fault? -/
def State.flumeStops (s : State) (c : Nat) : Bool :=
  s.holdsFlume c || (match (s.core c).job with | some l => (s.launch l).state = .ending | none => true)

/-- R110: a channel fetches and checks the next record of its chain. -/
def execFlumeRecordFetch (c : Nat) (ch : Fin 2) (s : State) : Host.Outcome State Fault Refusal :=
  s.move fun s =>
    match ((s.core c).channel ch).toFetch with
    | none => s
    | some x => if s.flumeStops c then s else s.fetchRecord c ch x

/-! ### Start -/

/-- R91: does the record read the slice, by offset or through a handle: its source, its list, its 1 × 32 scales, or the codebook of
its destination (R86)? -/
def FlumeRec.usesSlice (x : FlumeRec) : Bool :=
  if x.raw then !x.zfe && 2 ≤ locSpace (x.w 3)
  else (!x.zfe && 2 ≤ x.s.space) || (x.gae && 2 ≤ locSpace (x.w 9)) || (x.bsm = 1 && 2 ≤ locSpace (x.w 10))
    || (x.pke && x.d.space = 3)

/-- What claiming a record's handles comes to. -/
inductive Claim where
  | done (s : State) (x : FlumeRec)
  | wait (s : State) (x : FlumeRec)
  | fault (t : Trap)

/-- R111: the release that a record will perform counts as pending from its start. -/
def State.pendRelease (s : State) (c : Nat) (x : FlumeRec) : State × FlumeRec :=
  if x.rhe && x.pend.isNone then (s.updHandle c x.rh fun h => { h with releases := h.releases + 1 }, { x with pend := some x.rh }) else (s, x)

/-- R111: the handle `h` is claimed for reading; where the record will release it, it drains and its release is pending. -/
def State.claimSource (s : State) (c h : Nat) (x : FlumeRec) : State × FlumeRec :=
  let drains := x.rhe && x.rh = h && ((s.core c).handle h).state = 2
  let s := s.updHandle c h fun y => { y.claim with state := if drains then 3 else y.state }
  let x := { x with src := x.src ++ [h], drained := x.drained || drains }
  if x.rh = h then s.pendRelease c x else (s, x)

/-- R111, R136: claims the handles that a record reads. -/
def State.claimSources (s : State) (c : Nat) : List Nat → FlumeRec → Claim
  | [], x => .done s x
  | h :: hs, x =>
    if x.src.contains h then s.claimSources c hs x
    else
      let y := (s.core c).handle h
      if !y.defd then .fault { cls := 16, addr := h }
      else if (y.state = 2 || y.state = 3) && y.shs != 2 && y.rdr < 255 then
        (s.claimSource c h x).1.claimSources c hs (s.claimSource c h x).2
      else .wait s x

/-- R107, R111: claims the destination handle, with its swizzle tag. -/
def State.claimDest (s : State) (c : Nat) (x : FlumeRec) : Claim :=
  match x.dstHandle, x.dst with
  | some h, none =>
    let y := (s.core c).handle h
    if !y.defd then .fault { cls := 16, addr := h }
    else match y.fill x.tag with
      | none => .wait s x
      | some z => .done (s.setCore c ((s.core c).setHandle h z)) { x with dst := some h, shadow := y.dbl }
  | _, _ => .done s x

/-- R111: claims the handles of a record. A claim that has been made stands while the record waits for another. The release of a handle
that the record does not read is pending once all are made. -/
def State.claimHandles (s : State) (c : Nat) (x : FlumeRec) : Claim :=
  match s.claimSources c x.srcHandles x with
  | .done s x =>
    (match s.claimDest c x with
     | .done s x => .done (s.pendRelease c x).1 (s.pendRelease c x).2
     | r => r)
  | r => r

/-- R85, R86, R107: the checks of the record's registers at its start. Where the regions of both fail, the source's fault is raised, which
the spec does not say: DESIGN CHOICE, unsafe (log 82). -/
def State.startCheck (s : State) (c : Nat) (x : FlumeRec) : Option Trap :=
  let k := s.core c
  let bad (t : TReg) : Option Trap := if t.space = 3 then t.regionFault k.handles else none
  if x.raw then none
  else if !x.zfe && x.s.space = 3 && (k.handle x.s.handle).vtag != x.s.swz then some { cls := 9 }
  else (if x.zfe then none else bad x.s).orElse fun _ => bad x.d

/-- R86: a handle-relative LC2 register of the snapshot has its codebook, read at the record's start. -/
def State.withCodebooks (s : State) (c : Nat) (x : FlumeRec) : FlumeRec :=
  if x.cbAccs.isEmpty then x
  else
    let ts := Map.put (Map.put x.snap.tregs x.st (s.withCodebook c x.s)) x.dt (s.withCodebook c x.d)
    { x with snap := { x.snap with tregs := ts } }

/-- R102: the entries of the gather list. -/
def State.gatherList (s : State) (c : Nat) (x : FlumeRec) : List Nat := x.listAccs.map fun a => leNat (s.engineRead c a)

/-- R32, R110: the first fault of the record's extent, which is one. A list that faults leaves no source to check beside it. -/
def State.extentFault (s : State) (c : Nat) (x : FlumeRec) (list : List Nat) : Option Trap :=
  s.extentCheck c (x.listAccs ++ x.cbAccs ++ x.srcAccs list ++ x.ocpAccs list) x.dstAccs

/-- R32, R102: does the gather list, or a codebook, fault? -/
def State.listFault (s : State) (c : Nat) (x : FlumeRec) : Option Trap :=
  (s.engineCheck c .read (x.listAccs ++ x.cbAccs)).bind fun _ => s.extentCheck c (x.listAccs ++ x.cbAccs) x.dstAccs

/-- R111: may the release of a completing record be made: no reader is left but the record itself? -/
def State.releaseFree (s : State) (c : Nat) (x : FlumeRec) : Bool :=
  !x.rhe ||
    (let h := (s.core c).handle x.rh
     !(h.state = 2 || h.state = 3) || h.rdr = (if x.src.contains x.rh then 1 else 0))

/-- R111, R117: does the oldest record of a channel wait for its release, so that the channel waits whatever the next one does? -/
def State.headWaits (s : State) (c n : Nat) : Bool :=
  ((s.core c).channel n).recs.head?.any fun x => x.closing && !s.releaseFree c x

/-- R93, R117: a record waits, in a state of its channel: 2 for another record or a handle, 1 for a granule or a landing. -/
def State.waitRecord (s : State) (c n st : Nat) (x : FlumeRec) : State :=
  s.updChannel c n fun ch => { ch with state := if s.headWaits c n then 2 else st, recs := replaceUnstarted x ch.recs }

/-- R129: a record claims granules: those that it has not yet pinned are pinned. -/
def State.pinFor (s : State) (x : FlumeRec) (gs : List Nat) : State × FlumeRec :=
  let new := (gs.filter (!x.pins.contains ·)).eraseDups
  (s.pin new, { x with pins := x.pins ++ new })

/-- R110: the record begins to stream: its source is read, and what it will write is held. -/
def State.beginStream (s : State) (c n : Nat) (x : FlumeRec) (list gs : List Nat) : State :=
  let reads := x.listAccs ++ x.cbAccs ++ x.srcAccs list ++ x.ocpAccs list
  let v := s.coreVd c
  let s := (((s.pinFor x gs).1).engineNote v .read (pagesOf reads)).chargeLines v (mLines reads)
  let s := s.engineNote v .write (pagesOf x.dstAccs)
  let y := s.withCodebooks c (s.pinFor x gs).2
  let r := s.stream c y list
  s.waitRecord c n 1 { y with started := true, writes := r.1, crc := r.2 }

/-- R110, R127: the record's extent is checked, and its granules are taken before it streams. -/
def State.openExtent (s : State) (c n : Nat) (x : FlumeRec) : State :=
  let list := s.gatherList c x
  match s.extentFault c x list with
  | some t => (s.waitRecord c n 1 x).recordFault c n x t
  | none =>
    let gs := s.engineGranules c (x.listAccs ++ x.cbAccs ++ x.srcAccs list ++ x.ocpAccs list ++ x.dstAccs)
    (s.waitRecord c n 1 x).touching (s.coreGid c) gs fun s => s.beginStream c n x list gs

/-- R102, R111, R129: a record whose handles are claimed: its checks, then its gather list and its codebooks, whose granules it first takes
and pins, then its extent. -/
def State.startRecord (s : State) (c n : Nat) (x : FlumeRec) : State :=
  match (s.startCheck c x).orElse fun _ => s.listFault c x with
  | some t => s.recordFault c n x t
  | none =>
    let gs := s.engineGranules c (x.listAccs ++ x.cbAccs)
    (s.waitRecord c n 1 x).touching (s.coreGid c) gs fun s => (s.pinFor x gs).1.openExtent c n (s.pinFor x gs).2

/-- R111, R450: is an earlier record of the channel, which has started, still to publish the handle that the record fills? It then waits, as
it will find the handle ready or draining. DEDUCED, unsafe (log 72). -/
def Channel.publishesFirst (y : Channel) (x : FlumeRec) : Bool :=
  y.recs.any fun r => r.started && r.phe && !r.shadow && r.dst = some r.ph && x.dstHandle = some r.ph && x.dst.isNone

/-- R93, R117: does a record that has not started wait for an earlier one of its channel? -/
def Channel.awaits (y : Channel) (x : FlumeRec) : Bool := (x.wait && y.recs.head?.any (·.started)) || y.publishesFirst x

/-- R93, R111: the first record that has not started starts, once its waits are over. -/
def execFlumeRecordStart (c : Nat) (ch : Fin 2) (s : State) : Host.Outcome State Fault Refusal :=
  s.move fun s =>
    let y := (s.core c).channel ch
    match y.recs.find? (fun r => !r.started) with
    | none => s
    | some x =>
      if s.flumeStops c || x.words.isEmpty || (y.state != 1 && y.state != 2) then s
      else if y.awaits x then s.waitRecord c ch 2 x
      else if x.usesSlice && !(s.core c).storesLanded x.issued then s.waitRecord c ch 1 x
      else match s.claimHandles c x with
        | .fault t => s.recordFault c ch x t
        | .wait s x => s.waitRecord c ch 2 x
        | .done s x => s.startRecord c ch x

/-! ### Completion -/

/-- R111: what the completion of a record does to handles, or none where it is a violation. -/
def State.completeHandles (s : State) (c : Nat) (x : FlumeRec) : Option State :=
  let s := s.unclaimAll c x.src
  let s := match x.dst with | some h => s.updHandle c h Handle.filled | none => s
  let free := (s.core c).handle x.rh
  if x.rhe && !(free.defd && (free.state = 2 || free.state = 3)) then none
  else
    let s := if x.rhe then s.updHandle c x.rh fun h => { h with state := 0 } else s
    let s := match x.pend with | some h => s.updHandle c h fun y => { y with releases := y.releases - 1 }.settle | none => s
    if x.phe then
      let h := (s.core c).handle x.ph
      match (if h.defd then h.publish else none) with
      | some y => some (s.setCore c ((s.core c).setHandle x.ph y))
      | none => none
    else some s

/-- R90, R117: a chain becomes active. -/
def Channel.activate (x : Channel) : Channel :=
  match x.shadow with
  | some ch => { x with active := some ch, shadow := none, next := some ch.ptr, state := 1 }
  | none => x

/-- R90, R93, R117, R337: the channel after its oldest record completes; `waits` says whether the next one waits for a handle. -/
def Channel.advance (x : Channel) (waits : Bool) : Channel :=
  let last := (x.recs.head?.map (·.last)).getD true
  let x := { x with recs := x.recs.tail, done := x.done + 1, stat := 0, state := if x.state = 2 && !waits then 1 else x.state }
  if x.active.isNone then (if x.recs.isEmpty then { x with state := 4 }.activate else x)
  else if last then { x with active := none, next := none, state := 0 }.activate
  else x

/-- R93, R111, R117: does the first record of a channel that has not started wait, once the oldest has completed: for an earlier record or
for a handle? -/
def State.stillWaits (s : State) (c n : Nat) : Bool :=
  let y := (s.core c).channel n
  let y := { y with recs := y.recs.tail }
  match y.recs.find? (fun r => !r.started && !r.words.isEmpty) with
  | some x => y.awaits x || (match s.claimHandles c x with | .wait _ _ => true | _ => false)
  | none => false

/-- R108: the checksum is compared and differs. -/
def FlumeRec.mismatch (x : FlumeRec) : Bool := x.ckm = 2 && x.crc != fld (x.w 12) 63 32

/-- R54, R115: the fault of the writes that the completion of a record makes: to the record itself, which are checked before any byte
that it streamed moves, and to memory under a key that is gone. -/
def State.closeFault (s : State) (c : Nat) (x : FlumeRec) : Option Trap :=
  ((if x.ckm != 0 then s.recFault c x.ptr.toNat 0x60 4 else none).orElse fun _ => s.recFault c x.ptr.toNat 0 8).orElse fun _ =>
    s.storeFault (s.coreVd c) x.writes

/-- R108, R110, R115: the oldest record completes: its writes land; CTRL is rewritten, handles change and DONE advances. A handle
violation leaves OWN at 1. -/
def State.completeRecord (s : State) (c n : Nat) (x : FlumeRec) : State :=
  let s := s.engineStore (s.coreVd c) x.writes
  let s := if x.ckm != 0 then s.recWrite c x.ptr.toNat 0x60 (leBytes 4 x.crc) else s
  if x.mismatch then s.refuse c n x 4
  else match (s.writeCtrl c x false 0).completeHandles c x with
    | none => s.endRecord c n x 5 { cls := 16, addr := if x.rhe then x.rh else x.ph }
    | some s => (s.unpin x.pins).updChannel c n (·.advance (s.stillWaits c n))

/-- R110, R111, R115: the oldest record of a channel completes, unless it waits for a release or one of its own writes faults. -/
def State.closeRecord (s : State) (c n : Nat) (x : FlumeRec) : State :=
  match s.closeFault c x with
  | some t =>
    if t.cls != 5 then s.endRecord c n x 5 t
    else if ((s.core c).channel n).state = 3 then s
    else (s.updChannel c n fun ch => { ch with recs := { x with started := false } :: ch.recs.tail }).parkRecord c n { x with started := false } t
  | none =>
    if x.mismatch || s.releaseFree c x then s.completeRecord c n x
    else s.updChannel c n fun ch => { ch with
      state := if ch.state = 1 then 2 else ch.state, recs := { x with closing := true } :: ch.recs.tail }

/-- R110: the oldest record of a channel completes. -/
def execFlumeRecordComplete (c : Nat) (ch : Fin 2) (s : State) : Host.Outcome State Fault Refusal :=
  s.move fun s =>
    let y := (s.core c).channel ch
    match y.recs.head? with
    | none => s
    | some x => if x.started && y.state != 5 && !s.flumeStops c then s.closeRecord c ch x else s

end Sys2Proof.Machine
end

