-- ==== Sys2Proof/Machine/Partition.lean ====
section
/-! DEFINITION. The partition control block: its commands and their codes (R394-R406, R408, R416, R418-R421). -/

namespace Sys2Proof.Machine

/-! ### The form of a command -/

/-- R397: what a command comes to: a refusal with its code, or a state with code 0 or 6. -/
abbrev Cmdr := Except Nat (Nat × State)

/-- A command that is done. -/
def done (s : State) : Cmdr := .ok (0, s)

/-- Refuses with a code where the condition holds. -/
def refuseIf (c : Bool) (code : Nat) (f : Cmdr) : Cmdr := if c then .error code else f

/-- R395: a command finishes: CODE is written, SEQ advances and BUSY clears. -/
def State.endCommand (s : State) (code : Nat) : State := { s with pcode := code, pseq := s.pseq + 1, pbusy := false, pwait := none }

/-- A partition. -/
def State.part (s : State) (p : Nat) : Part := Map.get Part.reset s.parts p

/-- Replaces a partition. -/
def State.setPart (s : State) (p : Nat) (x : Part) : State := { s with parts := Map.put s.parts p x }

/-- R395: an argument register. -/
def State.arg (s : State) (i : Nat) : Nat := (Map.get 0 s.parg i).toNat

/-- R396: bits that the arguments may hold. -/
def State.argsWithin (s : State) (a b c d : Nat) : Bool :=
  s.arg 0 &&& a = s.arg 0 && s.arg 1 &&& b = s.arg 1 && s.arg 2 &&& c = s.arg 2 && s.arg 3 &&& d = s.arg 3

/-- All bits of an argument. -/
def all64 : Nat := 2 ^ 64 - 1

/-- R395-R397: a command on a partition, which must exist unless it is being created; `a` to `d` are the bits that the arguments may
hold. -/
def State.command (s : State) (p a b c d : Nat) (exists_ : Bool) (f : State → Cmdr) : State :=
  if s.pbusy then s
  else
    let s := { s with pcmdPart := p }
    if p = 0 || 255 < p || (exists_ && !Map.has s.parts p) || !s.argsWithin a b c d then s.endCommand 1
    else match f s with
      | .error code => s.endCommand code
      | .ok (code, t) => if t.pbusy then t else t.endCommand code

/-- Does a virtual device belong to a partition? -/
def State.isVd (s : State) (p v : Nat) : Bool := (s.vd v).part = p

/-- The virtual devices of a partition. -/
def State.vdsOf (s : State) (p : Nat) : List Nat := (s.vds.filter fun e => e.2.part = p).map (·.1)

/-- The gangs of a partition that are not retired. -/
def State.gangsOf (s : State) (p : Nat) : List (Nat × Gang) := s.gangs.filter fun e => e.2.part = p && !e.2.retired

/-! ### Creating and destroying -/

/-- R396: creates an empty partition. Of a number that a partition has the spec gives no CODE: DESIGN CHOICE, unsafe (log 88). -/
def execPcreate (p : Nat) (s : State) : Host.Outcome State Fault Refusal :=
  s.move fun s =>
    s.command p 0 0 0 0 false fun s => refuseIf (Map.has s.parts p) 3 (done (s.setPart p Part.reset))

/-- R396: frees every resource of a partition that holds no virtual device and no gang. -/
def execPdestroy (p : Nat) (s : State) : Host.Outcome State Fault Refusal :=
  s.move fun s =>
    s.command p 0 0 0 0 true fun s =>
      refuseIf (!(s.vdsOf p).isEmpty || !(s.gangsOf p).isEmpty) 3 (done { s with parts := Map.erase s.parts p })

/-! ### Granting and revoking -/

/-- R399: an entry of the capability table. -/
structure Cap where
  typ : Nat
  count : Nat
  gran : Nat
  min : Nat
  max : Nat
  div : Nat
  first : Nat
  deriving DecidableEq, Repr

/-- R399: the capability table of the part, with the lowest index of each type. -/
def caps : List Cap :=
  [⟨1, 80, 1, 1, 80, 1, 0⟩, ⟨2, 1024, 2 ^ 30, 1, 1024, 1, 0⟩, ⟨3, 4095, 1, 1, 4095, 1, 1⟩, ⟨4, 36, 1, 1, 36, 1, 0⟩,
   ⟨5, 4096, 1, 1, 4096, 1, 0⟩, ⟨6, 32, 1, 1, 32, 1, 0⟩, ⟨7, 65536, 1, 256, 65536, 2, 0⟩,
   ⟨8, 16777216, 65536, 16, 65536, 1, 0⟩, ⟨9, 256, 4096, 1, 256, 1, 0⟩, ⟨10, 655360, 1, 1, 655360, 1, 0⟩,
   ⟨11, 115200, 1, 1, 115200, 1, 0⟩]

/-- R399: a type that is an allotment with no unit indices. -/
def Cap.allotment (c : Cap) : Bool := c.typ = 8 || c.typ = 10 || c.typ = 11

/-- The nodes of runs. -/
def runNodes (rs : List (Nat × Nat)) : List Nat := rs.flatMap fun r => (List.range r.2).map (r.1 + ·)

/-- R399: the units of an indexed type that a partition holds. -/
def Part.units (x : Part) (t : Nat) : List Nat :=
  match t with
  | 1 => x.clusters
  | 2 => x.granules
  | 3 => x.keys
  | 4 => x.ports
  | 5 => x.routes
  | 6 => x.comms
  | 7 => runNodes x.nodes
  | 9 => x.kickPages
  | _ => []

/-- R399: how many units of a type a partition holds. -/
def Part.held (x : Part) (t : Nat) : Nat :=
  match t with
  | 8 => x.sump
  | 10 => x.hbmBw
  | 11 => x.quijaBw
  | _ => (x.units t).length

/-- Adds numbers to a list in increasing order. -/
def insertAll (l : List Nat) : List Nat → List Nat
  | [] => l
  | n :: ns => insertAll (insertNat n l) ns

/-- Removes a range from runs, splitting those that it cuts. -/
def cutRuns (f n : Nat) (rs : List (Nat × Nat)) : List (Nat × Nat) :=
  rs.flatMap fun r =>
    [(r.1, min (r.1 + r.2) f - r.1), (max r.1 (f + n), r.1 + r.2 - max r.1 (f + n))].filter fun q => q.2 != 0

/-- R396: a partition with the units [f, f + n) of a type added. -/
def Part.grant (x : Part) (t f n : Nat) : Part :=
  let us := (List.range n).map (f + ·)
  match t with
  | 1 => { x with clusters := insertAll x.clusters us }
  | 2 => { x with granules := insertAll x.granules us }
  | 3 => { x with keys := insertAll x.keys us }
  | 4 => { x with ports := insertAll x.ports us }
  | 5 => { x with routes := insertAll x.routes us }
  | 6 => { x with comms := insertAll x.comms us }
  | 7 => { x with nodes := x.nodes ++ [(f, n)] }
  | 8 => { x with sump := x.sump + n }
  | 9 => { x with kickPages := insertAll x.kickPages us }
  | 10 => { x with hbmBw := x.hbmBw + n }
  | 11 => { x with quijaBw := x.quijaBw + n }
  | _ => x

/-- R396: a partition with the units [f, f + n) of a type taken back. -/
def Part.revoke (x : Part) (t f n : Nat) : Part :=
  let keep (l : List Nat) : List Nat := l.filter fun u => u < f || f + n ≤ u
  match t with
  | 1 => { x with clusters := keep x.clusters }
  | 2 => { x with granules := keep x.granules }
  | 3 => { x with keys := keep x.keys }
  | 4 => { x with ports := keep x.ports }
  | 5 => { x with routes := keep x.routes }
  | 6 => { x with comms := keep x.comms }
  | 7 => { x with nodes := cutRuns f n x.nodes }
  | 8 => { x with sump := x.sump - n }
  | 9 => { x with kickPages := keep x.kickPages }
  | 10 => { x with hbmBw := x.hbmBw - n }
  | 11 => { x with quijaBw := x.quijaBw - n }
  | _ => x

/-- R399: the sum of an allotment over all partitions. -/
def State.sumHeld (s : State) (t : Nat) : Nat := (s.parts.map fun e => e.2.held t).sum

/-- R383: the nodes of a range read 0 when their run is granted. -/
def State.clearNodes (s : State) (f n : Nat) : State := { s with nodes := s.nodes.filter fun e => e.1 < f || f + n ≤ e.1 }

/-- R398, R399: is a grant's size or range out of bounds? -/
def Cap.grantBad (c : Cap) (x : Part) (f n : Nat) : Bool :=
  n < c.min || (c.typ != 8 && c.max < x.held c.typ + n) || (c.div = 2 && f % c.min != 0)
    || (if c.allotment then f != 0 else f < c.first || c.first + c.count < f + n)

/-- R399: does an allotment lack the bytes or units for a grant? -/
def State.allotmentShort (s : State) (c : Cap) (x : Part) (n : Nat) : Bool :=
  if c.typ = 8 then x.granules.length * 2 ^ 30 < (x.sump + n) * 65536
  else (c.typ = 10 || c.typ = 11) && c.count < s.sumHeld c.typ + n

/-- R394: are all the units free? -/
def State.unitsFree (s : State) (t f n : Nat) : Bool :=
  s.parts.all fun e => (e.2.units t).all fun u => u < f || f + n ≤ u

/-- R399: grants free resources to a partition. -/
def execPgrant (p : Nat) (s : State) : Host.Outcome State Fault Refusal :=
  s.move fun s =>
    s.command p 0xFF all64 all64 0 true fun s =>
      let f := s.arg 1
      let n := s.arg 2
      match caps.find? (·.typ = s.arg 0) with
      | none => .error 1
      | some c =>
        refuseIf (c.grantBad (s.part p) f n) 1
        (refuseIf (s.allotmentShort c (s.part p) n) 4
        (refuseIf (!s.unitsFree c.typ f n) 2
        (done ((if c.typ = 7 then s.clearNodes f n else s).setPart p ((s.part p).grant c.typ f n)))))

/-- R404: the bytes of a save area. -/
def Part.saveSize (x : Part) (sump : Nat) : Nat := 0x1000000 + 16 * x.clusters.length * 0x300000 + sump * 65536

/-- Do two ranges of bytes meet? -/
def rangesMeet (a n b m : Nat) : Bool := a < b + m && b < a + n

/-- R419: does an overflow log of a virtual device lie in HBM granules of [f, f + n)? -/
def State.logIn (s : State) (v f n : Nat) : Bool :=
  (extentPages ((s.vd v).olBase.toNat * 4096) ((s.vd v).olCount.toNat * 32)).any fun va =>
    match s.walk v va with
    | .ok lf => let g := (fld lf.e 39 12 * 4096 + va % lf.size) / 2 ^ 30; f ≤ g && g < f + n
    | .error _ => false

/-- R419: is a bit of a gang's spill map set? One that cannot be read is not. -/
def State.spillSet (s : State) (gid : Nat) (x : Gang) (g : Nat) : Bool :=
  (s.saveFault x.part x.key (spillByte x.savePa g) 1).isNone && s.spillBit gid g

/-- R419: is a resource of [f, f + n) in use by partition `p`? -/
def State.inUse (s : State) (p t f n : Nat) : Bool :=
  let x := s.part p
  let inR (u : Nat) : Bool := f ≤ u && u < f + n
  let vs := s.vdsOf p
  let gs := s.gangsOf p
  match t with
  | 1 =>
    (s.launches.any fun e => vs.contains e.2.vd && (e.2.state = .running || e.2.state = .ending) && e.2.clusters.any inR)
      || (gs.any fun e => e.2.saved.any fun c => inR (c.1 / 16))
      || (gs.any fun e => (List.range (n * 512)).any fun i => s.spillSet e.1 e.2 (f * 512 + i))
      || (s.granules.any fun e => inR (e.1 / 512) && e.2.gid != 0 && gs.any fun g => g.1 = e.2.gid)
  | 2 =>
    (gs.any fun e => rangesMeet e.2.savePa (x.saveSize e.2.sumpSize) (f * 2 ^ 30) (n * 2 ^ 30))
      || (vs.any fun v => s.logIn v f n || ((s.vd v).trEn && inR ((s.vd v).root.toNat * 4096 / 2 ^ 30)))
  | 3 => (List.range n).any fun i => (s.slot (f + i)).state != 0
  | 4 => vs.any fun v => (s.vd v).comms.any fun c => (List.range n).any fun i => c.2.mask.testBit (f + i)
  | 5 => vs.any fun v => !(s.vd v).comms.isEmpty
  | 6 => x.comms.length < (vs.map fun v => (s.vd v).comms.length).sum + n
  | 7 => (List.range n).any fun i => (s.node (f + i)).armed
  | 8 => x.sump < (gs.map fun e => e.2.sumpSize).sum + n
  | 9 => vs.any inR
  | _ => false

/-- R419: takes resources back from a partition. -/
def execPrevoke (p : Nat) (s : State) : Host.Outcome State Fault Refusal :=
  s.move fun s =>
    s.command p 0xFF all64 all64 0 true fun s =>
      let t := s.arg 0
      let f := s.arg 1
      let n := s.arg 2
      match caps.find? (·.typ = t) with
      | none => .error 1
      | some c =>
        refuseIf (n = 0 || (if c.allotment then f != 0 else f < c.first || c.first + c.count < f + n)) 1
        (refuseIf (if c.allotment then (s.part p).held t < n else !((List.range n).all fun i => ((s.part p).units t).contains (f + i))) 2
        (refuseIf (s.inUse p t f n) 3 (done (s.setPart p ((s.part p).revoke t f n)))))

/-! ### Virtual devices and gangs -/

/-- R403: the hidden gang id of a virtual device that has not joined a gang. -/
def hiddenGid (v : Nat) : Nat := 65536 + v

/-- A gang when it is created. -/
def Gang.new (part vd rank : Nat) (members : List Nat) (pa key sump pdl tdrain : Nat) : Gang :=
  { part := part, vd := vd, rank := rank, members := members, savePa := pa, key := key, sumpSize := sump, pdl := pdl,
    tdrain := tdrain, retired := false, vote := .out, epoch := 0, sump := [], sumpHead := 0, sumpTail := 0, arrivalNo := 0, sent := [],
    received := [], ostep := 0, missed := 0, saved := [], heldOut := [], saving := [], rerun := [], unsettled := [], reports := [], doneBy := [], voteStart := 0, voting := false, captureSent := false,
    trigger := false, ckptDue := false, resumeAtOnce := false, undo := [], ckpt := none, mirroring := false, mirrorAt := 0, hostLines := [], rollbacks := 0,
    rolled := false, lost := [], arrivals := [], releases := [],
    flags := [], results := [] }

/-- R127, R441: the header's fields at 0x100 to 0x110 and the spill map area of a new save area are written as zeros. -/
def State.clearSpillMap (s : State) (p key pa : Nat) : State := (s.saveZero p key (pa + 0x100) 64).saveZero p key (pa + 0x1000) 8192

/-- The number of a vote state in a save area's header (log 66). -/
def VoteState.code : VoteState → Nat
  | .run => 0
  | .halting => 1
  | .halted => 2
  | .capturing => 3
  | .committing => 4
  | .out => 5
  | .resuming => 6

/-- R404: the header of a gang's save area: gang id, key id, epoch, state, sr.ostep, Sump head and tail, missed deadlines, each as an
8-byte word. The spec gives no offsets: DESIGN CHOICE, unsafe (log 66). -/
def Gang.header (g : Gang) (gid : Nat) : List Byte :=
  [gid, g.key, g.epoch.toNat, g.vote.code, g.ostep.toNat, g.sumpHead, g.sumpTail, g.missed].flatMap (leBytes 8)

/-- R404: writes the header of a gang's save area. -/
def State.writeHeader (s : State) (gid : Nat) : State :=
  match s.gangs.lookup gid with
  | some g => if g.retired then s else s.saveWrite g.part g.key g.savePa (g.header gid)
  | none => s

/-- R404: the place of a gang's Sump ring. -/
def State.sumpBase (s : State) (g : Gang) : Nat := g.savePa + (s.part g.part).saveSize 0

/-- R413: the bytes of a Sump entry: the header and the packet's payload, padded to 64 bytes. -/
def sumpEntry (p : Packet) (n : DWord) : List Byte :=
  [p.vc, p.src, p.len, p.comm].flatMap (leBytes 2) ++ leBytes 8 n.toNat ++ List.replicate 48 0
    ++ p.payload ++ List.replicate ((64 - p.payload.length % 64) % 64) 0

/-- R413: writes 64-byte blocks into the Sump ring, from an offset on. -/
def State.sumpWrite (s : State) (g : Gang) : Nat → Nat → List Byte → State
  | 0, _, _ => s
  | fuel + 1, off, b =>
    if b.isEmpty then s
    else (s.saveWrite g.part g.key (s.sumpBase g + off % (g.sumpSize * 65536)) (b.take 64)).sumpWrite g fuel (off + 64) (b.drop 64)

/-- R413: a packet is captured: it joins the Sump, in the state and in the save area. -/
def State.capture (s : State) (gid : Nat) (g : Gang) (p : Packet) : State :=
  let b := sumpEntry p g.arrivalNo
  let s := if g.sumpSize = 0 then s else s.sumpWrite g 66 g.sumpTail b
  (s.setGang gid { g with sump := g.sump ++ [p], sumpTail := g.sumpTail + b.length, arrivalNo := g.arrivalNo + 1 }).writeHeader gid

/-- R403: what the area of a save area must meet: its place, its key slot, and that the slot is loaded. -/
def State.areaCheck (s : State) (p pa key size : Nat) (f : Cmdr) : Cmdr :=
  refuseIf (pa % 0x200000 != 0 || 2 ^ 40 < pa + size || !ownsRange (s.part p) pa size || !(s.part p).keys.contains key) 2
  (refuseIf ((s.slot key).state != 1) 4 f)

/-- R403: a virtual device with its gang of one, which runs at once where it has a save area. -/
def State.newVd (s : State) (p v pa key : Nat) : State :=
  let x := { VDev.reset with
    part := p, gid := hiddenGid v, kickPage := v, saveArea := if pa = 0 then none else some (pa, key), run := pa != 0 }
  let s := s.setVd v x
  if pa = 0 then s
  else
    let g := { Gang.new p v 0 [s.devnum.toNat] pa key 0 0 0 with vote := .run }
    ((s.setGang (hiddenGid v) g).clearSpillMap p key pa).writeHeader (hiddenGid v)

/-- R396, R403: creates a virtual device. A kick page that the partition does not own gives CODE 2 and not 4: DESIGN CHOICE, unsafe (log 88). -/
def execVdcreate (p : Nat) (s : State) : Host.Outcome State Fault Refusal :=
  s.move fun s =>
    s.command p 0xFF all64 0xFFF 0 true fun s =>
      let v := s.arg 0
      let pa := s.arg 1
      let key := s.arg 2
      refuseIf (!(s.part p).kickPages.contains v) 2
      (refuseIf ((s.vd v).part != 0) 3
      (if pa = 0 then done (s.newVd p v 0 0)
       else s.areaCheck p pa key ((s.part p).saveSize 0) (done (s.newVd p v pa key))))

/-- R401: sets weight and quantum. -/
def execVdsched (p : Nat) (s : State) : Host.Outcome State Fault Refusal :=
  s.move fun s =>
    s.command p 0xFF 0xFF 0xFFFFF 0 true fun s =>
      let v := s.arg 0
      let q := s.arg 2
      let x := { s.vd v with weight := BitVec.ofNat 8 (s.arg 1) }
      refuseIf (!s.isVd p v) 2
      (refuseIf (q = 0) 5
      (if q < 100 then .ok (6, (s.setVd v { x with quant := 100, qRaised := true }).w1cSet (.qRaised v))
       else done (s.setVd v { x with quant := BitVec.ofNat 20 q })))

/-- R403: zeroes and frees every granule tagged with a gang id. -/
def State.freeTagged (s : State) (gid : Nat) : State :=
  let gs := (s.granules.filter fun e => e.2.gid = gid).map (·.1)
  gs.foldl (fun s g => { s.zeroGranule g with granules := Map.put s.granules g Granule.reset }) s

/-- R396: removes a stopped virtual device. The granules that its own gang of one holds become free and zero, which the spec does not say.
DESIGN CHOICE, unsafe (log 75). -/
def execVddestroy (p : Nat) (s : State) : Host.Outcome State Fault Refusal :=
  s.move fun s =>
    s.command p 0xFF 0 0 0 true fun s =>
      let v := s.arg 0
      refuseIf (!s.isVd p v) 2
      (refuseIf (!(s.vd v).stopped || (s.vd v).joined) 3
      (done { s.freeTagged (hiddenGid v) with vds := Map.erase s.vds v, gangs := Map.erase s.gangs (hiddenGid v) }))

/-- R403: the member list in memory, under key id 0. -/
def State.memberList (s : State) (pa n : Nat) : List Nat := tabulate n fun i => leNat (s.paRead 0 (pa + 2 * i) 2)

/-- Is a list strictly increasing? -/
def rising : List Nat → Bool
  | a :: b :: t => a < b && rising (b :: t)
  | _ => true

/-- Does a virtual device have a launch on clusters? -/
def State.vdBusy (s : State) (v : Nat) : Bool :=
  s.launches.any fun e => e.2.vd = v && e.2.live

/-- R443: the pages of a virtual device's M space that are mapped take the bytes that a mirror holds of them, from `base` on. -/
def State.loadPages (s : State) (v base : Nat) : List Nat → State
  | [] => s
  | p :: ps =>
    (match s.walk v (4096 * p) with
     | .ok lf => s.paWrite (fld lf.e 63 52) (fld lf.e 39 12 * 4096 + 4096 * p % lf.size) (s.paRead 0 (base + 4096 * p) 4096)
     | .error _ => s).loadPages v base ps

/-- R443: a gang joined on a device that holds its mirror loads it: the save area, with what its header says of the gang, and the M space as
its own tables map it. The launches of the failed device, which a save area does not hold, do not come with it. The form of the mirror is
the model's: DESIGN CHOICE, unsafe (log 67). -/
def State.loadMirror (s : State) (v gid : Nat) : State :=
  match s.mirrors.lookup gid, s.gangs.lookup gid with
  | some base, some g =>
    let n := (s.part g.part).saveSize g.sumpSize
    let s := s.saveWrite g.part g.key g.savePa (s.paRead 0 base n)
    let f := s.header g
    let g := { g with
      epoch := BitVec.ofNat 32 (f 0x10), ostep := BitVec.ofNat 32 (f 0x20), sumpHead := f 0x28, sumpTail := f 0x30, missed := f 0x38 }
    ((s.setGang gid g).loadPages v (base + n) (List.range ((s.vd v).lastPg.toNat + 1)))
  | _, _ => s

/-- R403, R443: the virtual device is the member of its new gang, which has not started, or goes on from its mirror. -/
def State.joinGang (s : State) (v gid : Nat) (g : Gang) : State :=
  let s := s.freeTagged (hiddenGid v)
  let s := s.freeTagged gid
  let s := { s with gangs := Map.put (Map.erase s.gangs (hiddenGid v)) gid g }
  (((s.setVd v { s.vd v with gid := gid, joined := true, saveArea := none, run := false }).clearSpillMap g.part g.key g.savePa).loadMirror v gid).writeHeader gid

/-- R394: does a range of device memory touch a granule that another partition owns? -/
def State.foreignRange (s : State) (p a n : Nat) : Bool :=
  s.parts.any fun e => e.1 != p && e.2.granules.any fun g => a / 2 ^ 30 ≤ g && g ≤ (a + n - 1) / 2 ^ 30

/-- R403: joins a virtual device to a gang. A member list in granules of another partition is refused with CODE 2, because no command
of a partition reads a resource of another (R394, R397). DEDUCED, unsafe (log 68). -/
def execGjoin (p : Nat) (s : State) : Host.Outcome State Fault Refusal :=
  s.move fun s =>
    s.command p (2 ^ 46 - 1) all64 (2 ^ 60 - 1) all64 true fun s =>
      let gid := fld (s.arg 0) 15 0
      let rank := fld (s.arg 0) 26 16
      let n := fld (s.arg 0) 37 27 + 1
      let v := fld (s.arg 0) 45 38
      let key := fld (s.arg 2) 11 0
      let sump := fld (s.arg 2) 27 12
      let ms := s.memberList (s.arg 3) n
      let g := Gang.new p v rank ms (s.arg 1) key sump (fld (s.arg 2) 43 28) (fld (s.arg 2) 59 44)
      let used := ((s.gangsOf p).map fun e => e.2.sumpSize).sum
      refuseIf (!s.isVd p v) 2
      (refuseIf (gid = 0 || sump < 16 || g.pdl < 10 || g.tdrain = 0 || 2 ^ 40 < s.arg 3 + 2 * n) 1
      (refuseIf ((s.vd v).joined || s.vdBusy v || (s.gangs.any fun e => e.1 = gid && !e.2.retired)) 3
      (s.areaCheck p g.savePa key ((s.part p).saveSize sump)
      (refuseIf ((s.part p).sump < used + sump) 4
      (refuseIf (s.foreignRange p (s.arg 3) (2 * n)) 2
      (refuseIf (n ≤ rank || ms.getD rank 0 != s.devnum.toNat || !rising ms) 1
      (done (s.joinGang v gid g))))))))

/-- R405: is a gang named in a slot row or the backfill list of its partition? -/
def Part.names (x : Part) (gid : Nat) : Bool := (x.cells.any fun e => e.2.contains gid) || x.bfill.any fun e => e.2 = gid

/-- R405: the launches of a retired gang's virtual device that stand in its save area are off their clusters for good. -/
def State.dropClusters (s : State) (v : Nat) : State :=
  { s with launches := s.launches.map fun (l, x) =>
      (l, if x.vd = v && (x.state = .saved || x.state = .discarded) then { x with clusters := [] } else x) }

/-- R405: retires a gang that is not running; its checkpoint goes with its save area. Of a gang with no member here the spec gives no CODE:
DESIGN CHOICE, unsafe (log 88). -/
def execGretire (p : Nat) (s : State) : Host.Outcome State Fault Refusal :=
  s.move fun s =>
    s.command p 0xFFFF 0 0 0 true fun s =>
      let gid := s.arg 0
      match s.gangs.lookup gid with
      | none => .error 2
      | some g =>
        refuseIf (g.part != p || g.retired) 2
        (refuseIf ((s.vd g.vd).run || g.vote = .resuming || (s.part p).names gid || !(s.vd g.vd).comms.isEmpty) 3
        (done (((s.setGang gid { g with
            retired := true, saved := [], heldOut := [], sump := [], ckpt := none, undo := [], mirroring := false, hostLines := [] }).setVd g.vd
          { s.vd g.vd with gid := hiddenGid g.vd, joined := false, saveArea := none }).dropClusters g.vd)))

/-! ### The slot column -/

/-- R406: the gangs of a cell. -/
def cellGangs (w : Nat) : List Nat := (tabulate 4 fun i => w / 2 ^ (16 * i) % 2 ^ 16).filter (· != 0)

/-- R406: has a gang a member in the partition? -/
def State.gangIn (s : State) (p gid : Nat) : Bool := (s.gangsOf p).any fun e => e.1 = gid

/-- R406: writes one row of the slot column. The running row keeps its cell until it starts again. Of a gang with no member here the spec
gives no CODE: DESIGN CHOICE, unsafe (log 88). -/
def execSlotw (p : Nat) (s : State) : Host.Outcome State Fault Refusal :=
  s.move fun s =>
    s.command p 0x3F all64 0xFFFFF 0x7F true fun s =>
      let x := s.part p
      let cell := cellGangs (s.arg 1)
      refuseIf (s.arg 3 = 0 || 64 < s.arg 3) 1
      (refuseIf (!cell.all (s.gangIn p)) 2
      (done (s.setPart p { x with
        cells := Map.put x.cells (s.arg 0) cell, durs := Map.put x.durs (s.arg 0) (max 100 (s.arg 2)), rows := s.arg 3 })))

/-- R417: is a gang of the partition in a vote on this device? -/
def State.voting (s : State) (p : Nat) : Bool :=
  (s.gangsOf p).any fun e => e.2.voting || !(e.2.vote = .run || e.2.vote = .out || e.2.vote = .resuming)

/-- R408, R417: writes one entry of the backfill list, which the walks of the running row read unless a vote is in progress. -/
def execBfillw (p : Nat) (s : State) : Host.Outcome State Fault Refusal :=
  s.move fun s =>
    s.command p 0xF 0xFFFF 0 0 true fun s =>
      let x := s.part p
      let put (m : Map Nat) : Map Nat := Map.set 0 m (s.arg 0) (s.arg 1)
      done (s.setPart p { x with bfill := put x.bfill, rowFill := if s.voting p then x.rowFill else put x.rowFill })

/-! ### Communicators -/

/-- R416: the communicators that the virtual devices of a partition hold. -/
def State.commsUsed (s : State) (p : Nat) : Nat := ((s.vdsOf p).map fun v => (s.vd v).comms.length).sum

/-- R341, R416: creates a communicator. -/
def execCcreate (p : Nat) (s : State) : Host.Outcome State Fault Refusal :=
  s.move fun s =>
    s.command p 0xFFFFFFFF (2 ^ 36 - 1) 0 0 true fun s =>
      let v := fld (s.arg 0) 7 0
      let n := fld (s.arg 0) 12 8
      let x := s.vd v
      let m := { Comm.reset with
        rank := s.rankOf v, size := s.gangSize v, prio := fld (s.arg 0) 15 13, quota := fld (s.arg 0) 31 16, mask := s.arg 1 }
      refuseIf (!s.isVd p v) 2
      (refuseIf (m.quota = 0) 1
      (refuseIf (Map.has x.comms n) 3
      (refuseIf ((s.part p).comms.length ≤ s.commsUsed p
          || (List.range 36).any fun i => m.mask.testBit i && !(s.part p).ports.contains i) 4
      (done (s.setComm v n m)))))

/-- R416: destroys an idle communicator. -/
def execCdestroy (p : Nat) (s : State) : Host.Outcome State Fault Refusal :=
  s.move fun s =>
    s.command p 0x1FFF 0 0 0 true fun s =>
      let v := fld (s.arg 0) 7 0
      let n := fld (s.arg 0) 12 8
      let x := s.vd v
      refuseIf (!s.isVd p v) 2
      (match x.comms.lookup n with
       | none => .error 1
       | some m => refuseIf (!m.queue.isEmpty) 3 (done (s.setVd v { x with comms := Map.erase x.comms n })))

/-! ### Stopping a tenant -/

/-- R414, R420: the launches of a virtual device that are on clusters. -/
def State.onClusters (s : State) (v : Nat) : List Nat :=
  (s.launches.filter fun e => e.2.vd = v && (e.2.state = .running || e.2.state = .ending)).map (·.1)

/-- R420: the cores on which a virtual device's launches are. -/
def State.tenantCores (s : State) (v : Nat) : List Nat := (s.onClusters v).flatMap s.coresOn

/-- R358, R420: the held store lines of a virtual device: of its cores and of its gang's saved contexts on this device. -/
def State.tenantLines (s : State) (v : Nat) : List SqLine :=
  (s.tenantCores v).flatMap (fun c => (s.core c).sq) ++ match s.gangOf v with
    | some g => g.saved.flatMap fun e => e.2.sq
    | none => []

/-- R420: the contexts, the held updates and the Sump of a stopped member are gone. -/
def State.emptyGang (s : State) (v : Nat) : State :=
  match s.gangOf v with
  | none => s
  | some g =>
    s.setGang (s.vd v).gid { g with
      saved := [], heldOut := [], sump := [], sumpHead := g.sumpTail, vote := .out, trigger := false, ckptDue := false }

/-- R420, step 4: every launch read and not completed completes with status 4. -/
def State.stopLaunches (s : State) : List Nat → State
  | [] => s
  | l :: ls => ((s.setLaunch l { s.launch l with status := 4, fault := none }).finish l).stopLaunches ls

/-- R420, steps 2 to 4: this member is discarded, engines stop, held stores are released and held updates dropped, and every launch
completes. -/
def State.haltTenant (s : State) (v : Nat) : State :=
  let mine := (s.launches.filter fun e => e.2.vd = v && e.2.state != .complete).map (·.1)
  let cores := s.tenantCores v
  let s := ((s.performLines v (s.tenantLines v)).clearCores cores).emptyGang v
  let s := { s with held := s.held.filter fun u => u.vd != v }
  let x := s.vd v
  let comms := x.comms.map fun (n, m) => (n, mine.foldl (fun m l => m.abandon l) m)
  (s.setVd v { x with comms := comms, fq := [], frames := [], run := false }).stopLaunches mine

/-- R36: the leaf words of a leaf: all replicas of a run. -/
def Leaf.words (lf : Leaf) : List Nat :=
  if bit lf.e 6 then
    let n := if lf.size = 2 ^ 16 then 16 else 32
    (List.range n).map fun i => (lf.pa / 8 / n * n + i) * 8
  else [lf.pa]

/-- R421: is page `p` of a virtual device dirty? -/
def State.dirty (s : State) (v p : Nat) : Bool :=
  match s.walk v (p * 4096) with
  | .ok lf => lf.words.any fun a => bit (s.paWord 0 a) 5
  | .error _ => false

/-- R421: pages of a virtual device's window, and bytes of a dirty report of so many. -/
def VDev.pages (x : VDev) : Nat := x.lastPg.toNat + 1
def reportSize (pages : Nat) : Nat := (pages + 63) / 64 * 8

/-- R421: the dirty report of a number of pages. -/
def State.report (s : State) (v pages : Nat) : List Byte :=
  tabulate (reportSize pages) fun i =>
    BitVec.ofNat 8 (boolBits (tabulate 8 fun j => 8 * i + j < pages && s.dirty v (8 * i + j)))

/-- R421: clears D in leaf words. -/
def State.clearD (s : State) : List Nat → State
  | [] => s
  | a :: as =>
    let w := s.paWord 0 a
    (if bit w 5 then s.paWrite 0 a (leBytes 8 (w - 32)) else s).clearD as

/-- R421: the leaf words of so many pages of a window, from the first page on. -/
def State.leafWords (s : State) (v pages : Nat) : List Nat :=
  (List.range pages).flatMap fun p =>
    match s.walk v (p * 4096) with
    | .ok lf => lf.words
    | .error _ => []

/-- R420, R421: the steps of a stop once no vote is in progress and the granules of held stores are at hand (R127, R129). Its report covers
the pages that the window had when the command was accepted, whose room was checked then. -/
def State.stopVd (s : State) (w : StopWait) : State :=
  s.touching (s.vd w.vd).gid (lineGranules (s.tenantLines w.vd)) fun s =>
    let s := s.haltTenant w.vd
    let s := s.paWrite 0 w.pa (s.report w.vd w.pages)
    let s := if w.clear then s.clearD (s.leafWords w.vd w.pages) else s
    let s := s.setVd w.vd { s.vd w.vd with stopped := true, stopping := false, sseq := s.pseq + 1 }
    s.endCommand 0

/-- R417: is the gang of a virtual device in a vote? -/
def State.inVote (s : State) (v : Nat) : Bool :=
  match s.gangOf v with
  | some g => (g.vote != .run && g.vote != .out) || g.voting
  | none => false

/-- R420: the running gang of more than one member that its coordinator must first switch out by a vote. A member of another rank has no
message to ask for one: it stops alone (log 67). -/
def State.votesFirst (s : State) (v : Nat) : Bool :=
  match s.gangOf v with
  | some g => g.vote = .run && g.rank = 0 && 1 < g.members.length && (s.vd v).run
  | none => false

/-- R412, R420: a switch of a gang is due. -/
def State.dueSwitch (s : State) (gid : Nat) : State :=
  match s.gangs.lookup gid with
  | some g => s.setGang gid { g with trigger := true }
  | none => s

/-- R417, R420: a stop that waited goes on. -/
def State.resumeStop (s : State) : State :=
  match s.pwait with
  | some w => if s.inVote w.vd then s else if s.votesFirst w.vd then s.dueSwitch (s.vd w.vd).gid else s.stopVd w
  | none => s

/-- R420: a stop is accepted: doorbell writes are refused from now on, and BUSY stays set until the last step. -/
def State.acceptStop (s : State) (v pa : Nat) : State :=
  { s.setVd v { s.vd v with stopping := true } with
    pbusy := true, pwait := some { vd := v, pa := pa, clear := s.arg 2 = 1, pages := (s.vd v).pages } }

/-- R420: stops a virtual device. Of one that is stopped or being stopped the spec gives no CODE: DESIGN CHOICE, unsafe (log 88). -/
def execVdstop (p : Nat) (s : State) : Host.Outcome State Fault Refusal :=
  s.move fun s =>
    (s.command p 0xFF all64 1 0 true fun s =>
      let v := s.arg 0
      let pa := s.arg 1
      let x := s.vd v
      refuseIf (!s.isVd p v) 2
      (refuseIf (x.stopped || x.stopping) 3
      (refuseIf (2 ^ 40 < pa + reportSize x.pages || !ownsRange (s.part p) pa (reportSize x.pages)) 2
      (done (s.acceptStop v pa))))).resumeStop

end Sys2Proof.Machine
end

