-- ==== Sys2Proof/Machine/Windlass.lean ====
section
/-! DEFINITION. The Windlass: operations of communicators, their chunks and packets, and what arrives on Quija (R341-R346, R413,
R471, R482, R483, R495). -/

namespace Sys2Proof.Machine

/-! ### Descriptors -/

/-- Word `i` of a descriptor. -/
def WOp.w (o : WOp) (i : Nat) : Nat := (o.words.getD i 0).toNat

/-- R342: the fields of a descriptor. -/
def WOp.own (o : WOp) : Bool := bit (o.w 0) 63
def WOp.op (o : WOp) : Nat := if o.bar then 4 else fld (o.w 0) 62 59
def WOp.red (o : WOp) : Nat := fld (o.w 0) 58 56
def WOp.dt (o : WOp) : Nat := fld (o.w 0) 55 52
def WOp.scope (o : WOp) : Nat := fld (o.w 0) 51 49
def WOp.phe (o : WOp) : Bool := bit (o.w 0) 48
def WOp.ph (o : WOp) : Nat := fld (o.w 0) 47 42
def WOp.root (o : WOp) : Nat := fld (o.w 0) 31 0
def WOp.count (o : WOp) : Nat := o.w 1
def WOp.src (o : WOp) : Nat := o.w 2
def WOp.dst (o : WOp) : Nat := o.w 3

/-- R342: what matched peers compare. -/
def WOp.headOf (o : WOp) : OpHead := { op := o.op, red := o.red, dt := o.dt, count := o.count, root := o.root }

/-- R342: bytes of an element. -/
def WOp.width (o : WOp) : Nat := if o.dt = 1 then 2 else 4

/-- R342: does a rank read its source? -/
def WOp.reads (o : WOp) (rank : Nat) : Bool := o.op < 3 || (o.op = 3 && rank = o.root)

/-- R342: elements of the source and of the destination, on a communicator of `n` ranks. -/
def WOp.srcCount (o : WOp) (n : Nat) : Nat := if o.op = 1 then n * o.count else o.count
def WOp.dstCount (o : WOp) (n : Nat) : Nat := if o.op = 2 then n * o.count else o.count

/-- R92: a location word that a descriptor may hold: SP 0, 1 or 2, with the bits that its space allows. -/
def wLocOk (w : Nat) : Bool :=
  w % 4 = 0 &&
    match locSpace w with
    | 0 => true
    | 1 => w < 2 ^ 32
    | 2 => w < 2 ^ 21
    | _ => false

/-- R342: is the descriptor malformed on a rank of a communicator of `n`? -/
def WOp.malformed (o : WOp) (rank n : Nat) : Bool :=
  4 < o.op || 2 < o.red || 3 < o.dt || 4 < o.scope || fld (o.w 0) 41 38 != 0 || fld (o.w 0) 37 32 != 0
    || (o.words.drop 4).any (fun x => x != 0)
    || (if o.op = 3 then n ≤ o.root else o.root != 0)
    || (o.reads rank && !wLocOk o.src) || (o.op < 4 && !wLocOk o.dst)

/-- Accesses of an extent, page by page. -/
def spanAccs (w n : Nat) : List EAcc :=
  (extentPages (locAddr w) n).map fun a =>
    { sp := locSpace w, h := 0, fill := false, addr := a, n := min (a / 4096 * 4096 + 4096) (locAddr w + n) - a }

/-- R342: the accesses of an operation. -/
def WOp.srcAccs (o : WOp) (rank n : Nat) : List EAcc := if o.reads rank then spanAccs o.src (o.srcCount n * o.width) else []
def WOp.dstAccs (o : WOp) (n : Nat) : List EAcc := if o.op < 4 then spanAccs o.dst (o.dstCount n * o.width) else []

/-! ### Starting -/

/-- R342: the first operation of a communicator, changed. -/
def Comm.setHead (m : Comm) (o : WOp) : Comm := { m with queue := o :: m.queue.tail }

/-- R342: the launch that posted an operation from core `c` ends by a fault, while it still runs. -/
def State.endPoster (s : State) (c l : Nat) (t : Trap) : State :=
  let x := s.launch l
  if (s.core c).job = some l && (x.state = .running || (x.state = .ending && x.status = 0)) then s.takeFault c t else s

/-- R342: the class and kind of the fault that ends the launches of a failed operation. -/
def recordError (addr : Nat) : Trap := { cls := 17, addr := addr, kind := 5 }

/-- R342: an operation fails: its communicator has failed on every rank, the operation leaves it, and the launch ends by a Flume record
error. -/
def State.failOp (s : State) (v n : Nat) (m : Comm) (o : WOp) (addr : Nat) : State :=
  let s := s.setComm v n { m with failed := true, queue := m.queue.tail, parts := [] }
  let s := if m.failed then s else s.tellFailed v n m o.index (if o.words.isEmpty then unreadHead else o.headOf)
  (s.returnCredits v n fun _ => true).endPoster o.core o.launch (recordError addr)

/-- R342: rewrites the descriptor's first word with OWN and a STAT. -/
def State.writeDesc (s : State) (o : WOp) (own : Bool) (stat : Nat) : State :=
  let w := o.w 0 % 2 ^ 63 - fld (o.w 0) 41 38 * 2 ^ 38 + b2n own * 2 ^ 63 + stat * 2 ^ 38
  s.recWrite o.core o.ptr.toNat 0 (leBytes 8 w)

/-- R342, R426: translation not present holds an operation: its entry is written once the ring has room. The descriptor of one that has
not started is read again. -/
def State.holdOp (s : State) (v n : Nat) (m : Comm) (o : WOp) (t : Trap) : State :=
  if !(s.vd v).fqRoom then s
  else
    let e : FqWords :=
      { addr := t.addr, frame := 0xFFFF, core := o.core - (s.core o.core).fpos, fpos := (s.core o.core).fpos, cls := t.cls, kind := 5, code := 0,
        arg := 0, lid := (s.launch o.launch).lidF }
    match s.fqWrite v e with
    | .error _ => s.takeFault o.core { t with kind := 5 }
    | .ok s =>
      let x := s.vd v
      let f : FqEntry :=
        { seq := x.fqSeq, frame := 0xFFFF, core := o.core, kind := 5, trap := t, parked := [], launch := o.launch,
          channel := 0, comm := n, dreg := 0, resolved := none }
      let s := s.setVd v { x with fq := x.fq ++ [f] }
      (s.setComm v n (m.setHead { o with words := if o.started then o.words else [], held := x.fqSeq })).faultSeen v t.cls

/-- R127: the granules of a descriptor's first word. -/
def State.descGranules (s : State) (o : WOp) : List Nat := s.engineGranules o.core [recAcc o.ptr.toNat 0 8]

/-- R127, R342: an operation receives a STAT, once the granules of its descriptor are at hand. Where the descriptor cannot be written,
translation not present holds the operation. -/
def State.statOp (s : State) (v n : Nat) (m : Comm) (o : WOp) (stat : Nat) : State :=
  match s.recFault o.core o.ptr.toNat 0 8 with
  | some t => if t.cls = 5 then s.holdOp v n m o t else s.failOp v n m o t.addr
  | none => s.touching (s.vd v).gid (s.descGranules o) fun s => (s.writeDesc o true stat).failOp v n m o (locAddr o.ptr.toNat)

/-- R342: does a peer's operation differ from what has arrived of an operation? -/
def Comm.disagrees (m : Comm) (o : WOp) : Bool := m.parts.any fun p => p.index = o.index && p.head != o.headOf

/-- R127, R342: an operation that failed with a peer's receives STAT 2: its descriptor's granule is settled at once. Where a pin holds it for
another gang nothing is written (log 65). -/
def State.statPeer (s : State) (v : Nat) (o : WOp) : State :=
  if (s.recFault o.core o.ptr.toNat 0 8).isSome then s
  else
    let gid := (s.vd v).gid
    let gs := s.descGranules o
    (s.settleNow gid gs).touching gid gs fun s => s.writeDesc o true 2

/-- R342: another rank's operation `i` has failed: the communicator has failed, and the launch that posted the matched operation ends. The
matched operation receives STAT 2 where its descriptor has been read and differs from what the packet tells of the other's, or from what
another peer has sent of its own. Operations that are queued before it stay, and fail as they reach the head; the parts that have arrived
are dropped, so that one that had started neither completes nor fails. DESIGN CHOICE, unsafe (log 65). -/
def State.peerFailed (s : State) (v n : Nat) (m : Comm) (i : Nat) (h : OpHead) : State :=
  let s := s.setComm v n { m with failed := true, queue := m.queue.filter (·.index != i), parts := [] }
  let s := s.returnCredits v n fun _ => true
  match m.queue.find? (·.index = i), m.past.lookup i with
  | some o, _ =>
    let differs := match o.head with | some x => (h != unreadHead && h != x) || m.disagrees o | none => false
    (if differs then s.statPeer v o else s).endPoster o.core o.launch (recordError (if differs then locAddr o.ptr.toNat else 0))
  | none, some (c, l) => s.endPoster c l (recordError 0)
  | none, none => s

/-- R342: a fault of an operation's accesses. -/
def State.faultOp (s : State) (v n : Nat) (m : Comm) (o : WOp) (t : Trap) : State :=
  if t.cls = 5 then s.holdOp v n m o t else s.statOp v n m o 3

/-- R471: the barrier chunks of an operation: one without payload on each link of the communicator's, to each other rank. -/
def State.barPackets (s : State) (v n : Nat) (m : Comm) (o : WOp) : List (List Nat × Packet) :=
  let members := match s.gangOf v with | some g => g.members | none => []
  if !o.bar then []
  else (portsOf m.mask).flatMap fun port => m.peers.map fun q =>
    ([port], { vc := n % 15, comm := n, dst := members.getD q 0, src := s.devnum.toNat, len := 0, gang := (s.vd v).gid, index := o.index,
               head := o.headOf, payload := [], failed := false, credits := [] })

/-- R341, R471: the head of a communicator's queue has started: what has arrived of it leaves the receive buffer, and the chunks of a
barrier are to leave. -/
def State.startOp (s : State) (v n : Nat) (m : Comm) (o : WOp) (source : List Byte) : State :=
  let y := m.setHead { o with started := true, head := some o.headOf, source := source }
  (s.setComm v n { y with owed := m.owed ++ s.barPackets v n m o }).returnCredits v n (· = o.index)

/-- R91, R344, R360: do the local stores issued before the `wpost` have still to land, where an access is to the slice? -/
def State.awaitsStores (s : State) (o : WOp) (as : List EAcc) : Bool :=
  as.any (fun a => a.sp = 2) && !(s.core o.core).storesLanded o.issued

/-- R342, R344: an operation whose descriptor is good starts: its source is read. -/
def State.runOp (s : State) (v n : Nat) (m : Comm) (o : WOp) : State :=
  let src := o.srcAccs m.rank m.size
  let dst := o.dstAccs m.size
  match s.extentCheck o.core src dst with
  | some t => s.faultOp v n m o t
  | none =>
    if s.awaitsStores o src then s
    else s.touching (s.vd v).gid (s.engineGranules o.core (src ++ dst)) fun s =>
      let s := ((s.engineNote v .read (pagesOf src)).chargeLines v (mLines src)).engineNote v .write (pagesOf dst)
      s.startOp v n m o (src.flatMap (s.engineRead o.core))

/-- R342: the checks of a descriptor that has been read. -/
def State.checkOp (s : State) (v n : Nat) (m : Comm) (o : WOp) : State :=
  if !o.own then s.failOp v n m o (locAddr o.ptr.toNat)
  else if o.malformed m.rank m.size then s.statOp v n m o 1
  else if (o.scope = 4 && !(s.vd v).gscope) || (s.launch o.launch).levScope 0 < o.scope then s.statOp v n m o 4
  else s.runOp v n m o

/-- R342: reads the descriptor of an operation. -/
def State.readOp (s : State) (v n : Nat) (m : Comm) (o : WOp) : State :=
  let p := o.ptr.toNat
  if locSpace p = 3 || fld p 5 4 != 0 || !wLocOk p then s.failOp v n m o (locAddr p)
  else
    let a := recAcc p 0 64
    match s.engineCheck o.core .read [a] with
    | some t => if t.cls = 5 then s.holdOp v n m o t else s.failOp v n m o t.addr
    | none =>
      if s.awaitsStores o [a] then s
      else s.touching (s.vd v).gid (s.engineGranules o.core [a]) fun s =>
        let s := (s.engineNote v .read (pagesOf [a])).chargeLines v (mLines [a])
        let b := s.engineRead o.core a
        s.checkOp v n m { o with words := tabulate 8 fun i => BitVec.ofNat 64 (leNat ((b.drop (8 * i)).take 8)) }

/-- R411, R445, R488: may the Windlass act for a virtual device: does its gang run, and is it not halted by the debugger or by heat? -/
def State.windlassRuns (s : State) (v : Nat) : Bool := !s.hold && (s.vd v).run && (!(s.vd v).halted || (s.vd v).stepping)

/-- R342: the operation at the head of a communicator's queue starts. -/
def execWindlassOpStart (v : Nat) (n : Nat) (s : State) : Host.Outcome State Fault Refusal :=
  s.move fun s =>
    match (s.vd v).comms.lookup n with
    | none => s
    | some m =>
      match m.queue.head? with
      | none => s
      | some o =>
        if o.started || o.held != 0 || !s.windlassRuns v || (s.launch o.launch).state != .running then s
        else if m.failed then s.failOp v n m o 0
        else if o.bar then s.startOp v n m o []
        else s.readOp v n m o

/-! ### Chunks -/

/-- R495: the bytes that this rank sends to rank `q`: the model lets every rank send to every other rank directly (log 16). -/
def WOp.dataFor (o : WOp) (m : Comm) (q : Nat) : List Byte :=
  match o.op with
  | 0 => o.source
  | 1 => (o.source.drop (q * o.count * o.width)).take (o.count * o.width)
  | 2 => o.source
  | 3 => if m.rank = o.root then o.source else []
  | _ => []

/-- R345: the chunks of a message: 64 KiB each, the last shorter; a message without bytes is one empty chunk. -/
def chunksOf (n : Nat) : Nat := max 1 ((n + 65535) / 65536)

/-- The chunks that an operation sends: the rank and the number of the chunk. Those of a barrier go by links (R471). -/
def WOp.plan (o : WOp) (m : Comm) : List (Nat × Nat) :=
  if o.bar then [] else m.peers.flatMap fun q => (List.range (chunksOf (o.dataFor m q).length)).map fun i => (q, i)

/-- Pieces of at most `k` bytes; no bytes are one empty piece. `fuel` bounds their number. -/
def pieces (k : Nat) : Nat → List Byte → List (List Byte)
  | 0, b => [b]
  | fuel + 1, b => if b.length ≤ k then [b] else b.take k :: pieces k fuel (b.drop k)

/-- R482: the packets of a chunk. -/
def State.packets (s : State) (v n : Nat) (m : Comm) (o : WOp) (q i : Nat) : List Packet :=
  let g := (s.vd v).gid
  let members := match s.gangOf v with | some x => x.members | none => []
  let body := ((o.dataFor m q).drop (65536 * i)).take 65536
  (pieces 4096 16 body).map fun b =>
    { vc := n % 15, comm := n, dst := members.getD q 0, src := s.devnum.toNat, len := b.length, gang := g, index := o.index,
      head := o.headOf, payload := b, failed := false, credits := [] }

/-- R402: the flits of packets are charged at their port, while the limiter acts. -/
def VDev.chargeFlits (x : VDev) (port : Nat) : List Packet → VDev
  | [] => x
  | p :: ps => ((List.range (packetFlits p)).foldl (fun x _ => x.charge (512 + port) 1) x).chargeFlits port ps

/-- R341: the flits of a communicator's receive buffer quota on a link: 64 KiB a chunk. -/
def Comm.room (m : Comm) : Nat := m.quota * 1024

/-- R471: the first owed packet that may leave by a port, and the packets without it. -/
def Comm.nextOwed (m : Comm) (port : Nat) : Option (Packet × List (List Nat × Packet)) :=
  match m.owed.find? (·.1.contains port) with
  | some e => some (e.2, m.owed.erase e)
  | none => none

/-- R345: the chunk that a communicator would start on a port, and the communicator once it has: an owed one first, else the next of its
first operation. -/
def State.nextChunk (s : State) (port v n : Nat) (m : Comm) : Option (List Packet × Comm) :=
  match m.nextOwed port with
  | some (p, rest) => some ([p], { m with owed := rest })
  | none => match m.queue.head? with
    | some o =>
      if !o.started || o.held != 0 || !m.mask.testBit port then none
      else (o.plan m)[o.sent]?.map fun (q, i) => (s.packets v n m o q i, m.setHead { o with sent := o.sent + 1 })
    | none => none

/-- Flits of a chunk. -/
def chunkFlits (ps : List Packet) : Nat := (ps.map packetFlits).sum

/-- R345: has the communicator a chunk for a port, which may start: does the receiver's quota hold room for all of it? -/
def State.wantsPort (s : State) (port v n : Nat) (m : Comm) : Bool :=
  s.windlassRuns v && (match s.gangOf v with | some g => g.vote = .run | none => true)
    && (match s.nextChunk port v n m with | some (ps, _) => Map.get 0 m.used port + chunkFlits ps ≤ m.room | none => false)

/-- R345: the communicators that want a port, with their place in the round robin and their priority. -/
def State.wanting (s : State) (port : Nat) : List (Nat × Nat) :=
  s.vds.flatMap fun (v, x) => (x.comms.filter fun (n, m) => s.wantsPort port v n m).map fun (n, m) => (32 * v + n, m.prio)

/-- R345: is the communicator the port's choice: the highest priority, then the first after the one served last? -/
def State.portChoice (s : State) (port id prio : Nat) : Bool :=
  let turn (i : Nat) : Nat := (i + 8192 - 1 - (s.port port).served) % 8192
  (s.wanting port).all fun e => e.2 < prio || (e.2 = prio && turn id ≤ turn e.1)

/-- R483, R484: may the next system-class chunk of a port leave: on credits of its class, and not twice in turn while a communicator's
chunk waits? -/
def State.sysDue (s : State) (port : Nat) : Bool :=
  let q := s.port port
  match q.sysWait with
  | ps :: _ => s.portUp port && q.sysUsed + chunkFlits ps ≤ Config.systemFlits && (!q.sysLast || (s.wanting port).isEmpty)
  | [] => false

/-- R483, R484: a system-class chunk leaves. -/
def State.sendSystem (s : State) (port : Nat) : State :=
  let q := s.port port
  match q.sysWait with
  | ps :: rest => (s.setPort port { q with sysWait := rest, sysUsed := q.sysUsed + chunkFlits ps, sysLast := true }).emit port ps
  | [] => s

/-- R341, R345, R484: at a chunk boundary of a port, a chunk of the communicator that the port chooses leaves, on credits of the
communicator's own, or, in alternation with these, one of the system class. -/
def execWindlassChunkStart (port : Nat) (v : Nat) (n : Nat) (s : State) : Host.Outcome State Fault Refusal :=
  s.move fun s =>
    if s.sysDue port then s.sendSystem port
    else match (s.vd v).comms.lookup n with
    | none => s
    | some m =>
      match s.nextChunk port v n m, s.gangOf v with
      | some (ps, y), some g =>
        if !(s.portUp port && s.wantsPort port v n m && s.portChoice port (32 * v + n) m.prio) then s
        else
          let s := s.setComm v n { y with used := Map.modify 0 m.used port (· + chunkFlits ps) }
          let s := s.setGang (s.vd v).gid (g.countSent (n % 15) ps.length)
          let s := if (s.vd v).qRate = 0 then s else s.setVd v ((s.vd v).chargeFlits port ps)
          (s.setPort port { s.port port with served := 32 * v + n, sysLast := false }).emit port ps
      | _, _ => s

/-! ### Completion -/

/-- R343: one reduction step of two values in the wide type. -/
def reduceStep (red dt x y : Nat) : Nat :=
  match red with
  | 0 => if dt ≤ 1 then addRne x y else (x + y) % 2 ^ 32
  | r =>
    if dt ≤ 1 then (elemPick (r = 2) 0 0 x y).1
    else if dt = 2 then (if decide (sxt 32 x < sxt 32 y) = (r = 2) then y else x)
    else if r = 2 then max x y else min x y

/-- R343: an element widened, and a result narrowed. -/
def widen (dt x : Nat) : Nat := if dt = 1 then x * 2 ^ 16 else x
def narrow (dt x : Nat) : Nat := if dt = 1 then (convert (Fmt.f32.decode x) .bf16 0 false 0).1 else x

/-- R343: Reduce, over the elements of the ranks in ascending order. -/
def reduceElem (red dt : Nat) : List Nat → Nat
  | [] => 0
  | x :: xs => narrow dt (xs.foldl (fun v y => reduceStep red dt v (widen dt y)) (widen dt x))

/-- R343: Reduce over vectors of `n` elements. -/
def reduceAll (red dt w n : Nat) (vs : List (List Byte)) : List Byte :=
  (List.range n).flatMap fun i => leBytes w (reduceElem red dt (vs.map fun v => leNat ((v.drop (w * i)).take w)))

/-- What a rank has sent of an operation, this rank's own part included. -/
def Comm.partOf (m : Comm) (o : WOp) (q : Nat) : Option (List Byte) :=
  if q = m.rank then some (o.dataFor m q)
  else (m.parts.find? fun p => p.rank = q && p.index = o.index).map (·.data)

/-- R342: bytes that rank `q` sends to this one. -/
def WOp.expected (o : WOp) (q : Nat) : Nat :=
  match o.op with
  | 0 => o.count * o.width
  | 1 => o.count * o.width
  | 2 => o.count * o.width
  | 3 => if q = o.root then o.count * o.width else 0
  | _ => 0

/-- R342, R471: has everything of an operation arrived from every other rank? -/
def Comm.arrived (m : Comm) (o : WOp) : Bool :=
  m.peers.all fun q => match m.partOf o q with | some d => d.length = o.expected q | none => false

/-- R343: the destination bytes of an operation. -/
def Comm.result (m : Comm) (o : WOp) : List Byte :=
  let parts := (List.range m.size).map fun q => (m.partOf o q).getD []
  match o.op with
  | 0 => reduceAll o.red o.dt o.width o.count parts
  | 1 => reduceAll o.red o.dt o.width o.count parts
  | 2 => parts.flatMap id
  | 3 => parts.getD o.root []
  | _ => []

/-- R346: an operation is done and leaves its queue. -/
def Comm.finish (m : Comm) (o : WOp) : Comm :=
  { m with
    queue := m.queue.tail, parts := m.parts.filter (·.index != o.index), past := m.past ++ [(o.index, o.core, o.launch)],
    done := Map.modify 0 m.done o.launch (· + 1) }

/-- Writes of an operation's destination, page by page. -/
def State.destWrites (s : State) (c : Nat) : List EAcc → List Byte → List EngineWrite
  | [], _ => []
  | a :: as, b => s.engineWrite c a (b.take a.n) 0 ++ s.destWrites c as (b.drop a.n)

/-- R342, R346: operations completed by launches that have ended match nothing any more, and are not counted. -/
def State.trimPast (s : State) (m : Comm) : Comm :=
  { m with past := m.past.filter (fun e => (s.launch e.2.2).live), done := m.done.filter fun e => (s.launch e.1).live }

/-- R344: the writes of an operation, its OWN, its publish and its count. A violation leaves the operation to be abandoned by the
launch that it ends. -/
def State.completeOp (s : State) (v n : Nat) (m : Comm) (o : WOp) : State :=
  let s := s.engineStore v (s.destWrites o.core (o.dstAccs m.size) (m.result o))
  let s := if o.bar then s else s.writeDesc o false 0
  let y := s.trimPast (m.finish o)
  if o.bar || !o.phe then s.setComm v n y
  else
    let h := (s.core o.core).handle o.ph
    match (if h.defd then h.publish else none) with
    | some z => (s.setCore o.core ((s.core o.core).setHandle o.ph z)).setComm v n y
    | none => s.takeFault o.core { cls := 16, addr := o.ph, kind := 5 }

/-- R54, R342: the fault of the writes that the completion of an operation makes. -/
def State.finishFault (s : State) (v : Nat) (m : Comm) (o : WOp) : Option Trap :=
  if o.bar then none
  else ((s.lateCheck o.core .write (o.dstAccs m.size)).orElse fun _ => s.recFault o.core o.ptr.toNat 0 8).orElse fun _ =>
    s.storeFault v (s.destWrites o.core (o.dstAccs m.size) (m.result o))

/-- R127, R342, R344: everything of an operation has arrived: it completes, unless a write of it faults. -/
def State.closeOp (s : State) (v n : Nat) (m : Comm) (o : WOp) : State :=
  match s.finishFault v m o with
  | some t => s.faultOp v n m o t
  | none =>
    let desc := if o.bar then [] else [recAcc o.ptr.toNat 0 8]
    s.touching (s.vd v).gid (s.engineGranules o.core (o.dstAccs m.size ++ desc)) fun s => s.completeOp v n m o

/-- R342-R346: the operation at the head of a queue completes, or disagrees with a peer's. -/
def execWindlassOpComplete (v : Nat) (n : Nat) (s : State) : Host.Outcome State Fault Refusal :=
  s.move fun s =>
    match (s.vd v).comms.lookup n with
    | none => s
    | some m =>
      match m.queue.head? with
      | none => s
      | some o =>
        if !o.started || o.held != 0 || !s.windlassRuns v || (s.launch o.launch).state != .running then s
        else if m.disagrees o then (if o.bar then s.failOp v n m o 0 else s.statOp v n m o 2)
        else if (o.plan m).length ≤ o.sent && m.arrived o then s.closeOp v n m o
        else s

/-! ### Arrivals -/

/-- A part with one more packet of it. -/
def addPart (rank : Nat) (p : Packet) : List WPart → List WPart
  | [] => [{ rank := rank, index := p.index, head := p.head, data := p.payload }]
  | x :: xs => if x.rank = rank && x.index = p.index then { x with data := x.data ++ p.payload } :: xs else x :: addPart rank p xs

/-- R341: the credits of a packet that has left the receive buffer are to return on the link it came by. -/
def State.consumed (s : State) (port : Option Nat) (p : Packet) : State :=
  match port with
  | some i => s.oweCredit i { gang := p.gang, comm := p.comm, flits := packetFlits p }
  | none => s

/-- R341, R342, R482: a packet reaches its communicator, from a port or from the Sump. It keeps its place in the receive buffer until its
operation has started. -/
def State.deliver (s : State) (port : Option Nat) (g : Gang) (p : Packet) : State :=
  match (s.vd g.vd).comms.lookup p.comm with
  | none => s.consumed port p
  | some m =>
    if p.failed then (s.consumed port p).peerFailed g.vd p.comm m p.index p.head
    else if m.failed || p.index + m.queue.length < m.posted then s.consumed port p
    else
      let m := { m with parts := addPart (g.members.idxOf p.src) p m.parts }
      if m.queue.head?.any (fun o => o.started && o.index = p.index) then (s.setComm g.vd p.comm m).consumed port p
      else
        let more := match port with | some i => [(i, p.index, packetFlits p)] | none => []
        s.setComm g.vd p.comm { m with buffered := m.buffered ++ more }

/-- R341, R483: credits return to the communicator that they name, which no other shares, or to the system class. -/
def State.takeCredit (s : State) (port : Nat) (c : Credit) : State :=
  if c.comm = 32 then s.setPort port { s.port port with sysUsed := (s.port port).sysUsed - c.flits }
  else match s.gangs.lookup c.gang with
    | none => s
    | some g => match (s.vd g.vd).comms.lookup c.comm with
      | some m => s.setComm g.vd c.comm { m with used := Map.modify 0 m.used port (· - c.flits) }
      | none => s

/-- R341: the credits that flits bring. -/
def State.takeCredits (s : State) (port : Nat) (cs : List Credit) : State := cs.foldl (·.takeCredit port ·) s

/-- R411, R413: is a member past CAPTURE, so that arriving packets go to its Sump? -/
def Gang.captures (g : Gang) : Bool :=
  match g.vote with
  | .capturing | .committing | .out | .resuming => true
  | _ => false

/-- R482: flits with a malformed frame word are dropped and counted at their port. -/
def State.countDrops (s : State) (port n : Nat) : State :=
  if n = 0 then s else s.setPort port { s.port port with drop := min 65535 ((s.port port).drop + n) }

/-- R443: a packet of a mirror copy reaches the peer: its bytes go to their place, under the system key, and the device notes where the
mirror of the gang lies. The packet's form is the model's: DESIGN CHOICE, unsafe (log 67). -/
def State.storeMirror (s : State) (p : Packet) : State :=
  let base := leNat (p.payload.take 8)
  let pa := base + leNat ((p.payload.drop 8).take 8)
  let b := p.payload.drop 16
  if p.payload.length ≤ 16 || 2 ^ 40 < pa + b.length then s
  else { s.paWrite 0 pa b with mirrors := Map.put s.mirrors p.gang base }

/-- R413, R482: a packet of the gang arrives: captured, where the member is past CAPTURE, or delivered. -/
def State.arrivePacket (s : State) (port : Nat) (g : Gang) (p : Packet) : State :=
  let g := g.countReceived p.vc
  if g.captures then (s.capture p.gang g p).consumed (some port) p
  else (s.setGang p.gang g).deliver (some port) g p

/-- R413, R443, R482: a packet arrives at a port: one of the system class is a mirror's, for the peer; another is captured or delivered, where
it is for a gang of this device, and goes no further otherwise. -/
def State.arrives (s : State) (port : Nat) (p : Packet) : State :=
  if p.dst != s.devnum.toNat then s.consumed (some port) p
  else if p.comm = 32 then (s.storeMirror p).consumed (some port) p
  else match s.gangs.lookup p.gang with
    | none => s.consumed (some port) p
    | some g => if g.retired then s.consumed (some port) p else s.arrivePacket port g p

/-- R341, R413, R482: flits arrive at a port: the malformed ones are dropped and counted, the others bring their credits, and where they
make a packet it arrives; a packet of which a flit is missing is lost (log 1). -/
def execQuijaPacketReceive (port : Nat) (pkt : PacketIn) (s : State) : Host.Outcome State Fault Refusal :=
  s.move fun s =>
    if !s.portUp port then s
    else
      let s := (s.countDrops port (pkt.flits.filter frameMalformed).length).takeCredits port (creditsOf pkt.flits pkt.note.owners)
      match packetFrom pkt.flits pkt.note with
      | none => s
      | some p => s.arrives port p

end Sys2Proof.Machine
end

