-- ==== Sys2Proof/Machine/Gang.lean ====
section
/-! DEFINITION. Gangs: the slot matrix, the switch vote, saving and restoring, checkpoints and rollback (R280, R315, R358, R403-R418,
R441-R443). -/

namespace Sys2Proof.Machine

/-! ### Messages -/

/-- R410, R484: a message of the coordinator to every member, itself included: it leaves for the others, and the coordinator's own
member acts on it next. -/
def State.toMembers (s : State) (gid type : Nat) (epoch : Word) (own : State → State) : State :=
  match s.gangs.lookup gid with
  | some g => own (s.sendLane (s.othersOf g) (.flit gid type 0 epoch))
  | none => own s

/-- R410, R484: a message of a member to the coordinator, which may be on this device. -/
def State.toCoordinator (s : State) (gid type arg : Nat) (sums : List DWord) (own : State → State) : State :=
  match s.gangs.lookup gid with
  | none => s
  | some g =>
    if g.rank = 0 then own s
    else s.sendLane [g.members.headD 0] { Control.flit gid type arg g.epoch with sums := sums }

/-! ### Estimates -/

/-- R430: the bytes of a core's context as its launch uses it (log 17). -/
def Core.contextBytes (k : Core) (x : Launch) : Nat :=
  let planeResults := (k.inflight.flatMap fun f => f.what.image).length
  let books := (k.tregs.filter fun t => !t.2.codebook.isEmpty).length
  (33 + 4 * x.planes + 64 * x.tiles + 16 * b2n k.mill.shadow.isSome + 4 * planeResults + 4 * books) * 1024
    + 80 * k.sq.length + k.tail.resident

/-- R414: the remaining waves of a core. -/
def Core.wavesLeft (k : Core) : Nat :=
  (match k.mill.active with | some c => c.waveCount.1 - c.waves | none => 0)
    + (match k.mill.shadow with | some c => c.waveCount.1 | none => 0)

/-- R414: the save estimate of a cluster, in units of 1/4096 ns: bytes at 512 bytes, and waves at 1.6, per nanosecond. -/
def State.saveEstimate (s : State) (l c : Nat) : Nat :=
  let ks := tabulate 16 fun i => s.core (16 * c + i)
  8 * (ks.map fun k => k.contextBytes (s.launch l)).sum + 2560 * (ks.map Core.wavesLeft).sum

/-- R412, R414: does the save of a cluster of a launch fit within PDL? -/
def State.saveFits (s : State) (g : Gang) (l c : Nat) : Bool := s.saveEstimate l c ≤ g.pdl * 1000 * 4096

/-- R414: does the drain estimate of a launch fit within PDL? The core time used is that of all its cores since its start (log 17). -/
def State.drainFits (s : State) (g : Gang) (l : Nat) : Bool :=
  let x := s.launch l
  let ended := (x.items.filter fun e => e.2 = 2).length
  let left := (x.items.filter fun e => e.2 != 2).length + (s.unstarted x).length
  let used := (s.now - x.start) * x.cores.length
  ended != 0 && left * used ≤ g.pdl * 1000 * 16 * ended
    && (s.vd x.vd).comms.all fun e => e.2.queue.all (·.launch != l)

/-- The launches of a virtual device that run on clusters. -/
def State.runningOf (s : State) (v : Nat) : List Nat :=
  (s.launches.filter fun e => e.2.vd = v && e.2.state = .running).map (·.1)

/-- R412: free bytes of a Sump. -/
def Gang.sumpFree (g : Gang) : Nat := g.sumpSize * 65536 - (g.sumpTail - g.sumpHead)

/-- Links of a mask. -/
def linksOf (m : Nat) : Nat := ((List.range 36).filter m.testBit).length

/-- R412: the bytes that the quotas of a gang's communicators may put in flight. -/
def State.quotaBytes (s : State) (v : Nat) : Nat := ((s.vd v).comms.map fun e => e.2.quota * 65536 * linksOf e.2.mask).sum

/-- R412, R488: why a member refuses PREPARE, or none. -/
def State.refusal (s : State) (g : Gang) : Option Nat :=
  if s.hold then some 2
  else if g.sumpFree < s.quotaBytes g.vd then some 1
  else if !(s.runningOf g.vd).all (fun l => (s.launch l).clusters.all (s.saveFits g l)) then some 2
  else none

/-! ### The vote -/

/-- R410: a member's gang, for a message of the current vote. -/
def State.current (s : State) (gid : Nat) (epoch : Word) : Option Gang :=
  match s.gangs.lookup gid with
  | some g => if g.epoch = epoch && !g.retired then some g else none
  | none => none

/-- R418: counts in the row that runs. -/
def State.count (s : State) (p : Nat) (f : SStat → SStat) : State :=
  let x := s.part p
  s.setPart p { x with sstat := Map.modify SStat.reset x.sstat x.row f }

/-- R407: a gang is not to start any more in the running row. -/
def State.unstart (s : State) (p gid : Nat) : State :=
  let x := s.part p
  s.setPart p { x with starting := x.starting.filter (· != gid) }

/-- R411, R412, R417: ABORT: the gang goes on, and keeps its cells. -/
def State.onAbort (s : State) (gid : Nat) (epoch : Word) : State :=
  match s.current gid epoch with
  | none => s
  | some g =>
    if g.vote = .halting || g.vote = .halted then ((s.setGang gid { g with vote := .run }).unstart g.part gid).resumeStop else s

/-- R411, R417: ABORT. -/
def execAbort (gid : Nat) (epoch : BitVec 32) (s : State) : Host.Outcome State Fault Refusal :=
  s.move fun s =>
    s.onAbort gid epoch

/-- R412, R418: REFUSE reaches the coordinator: the vote is aborted, and a retry is due. -/
def State.onRefuse (s : State) (gid : Nat) (epoch : Word) (dev : Nat) : State :=
  match s.current gid epoch with
  | none => s
  | some g =>
    if g.rank != 0 || !g.voting then s
    else
      let s := s.setGang gid { g with
        voting := false, trigger := g.trigger || !g.resumeAtOnce, ckptDue := g.ckptDue || g.resumeAtOnce, reports := [] }
      let s := s.count g.part fun x => { x with rdev := dev, refuse := min 65535 (x.refuse + 1) }
      s.toMembers gid 7 epoch (·.onAbort gid epoch)

/-- R412, R418: REFUSE reaches the coordinator: the vote is aborted, and a retry is due. -/
def execRefuse (gid : Nat) (epoch : BitVec 32) (dev : Nat) (_reason : Nat) (s : State) : Host.Outcome State Fault Refusal :=
  s.move fun s =>
    s.onRefuse gid epoch dev

/-- R412: REPORT reaches the coordinator. -/
def State.onReport (s : State) (gid : Nat) (epoch : Word) (dev : Nat) (sent received : List DWord) : State :=
  match s.current gid epoch with
  | none => s
  | some g =>
    if g.rank != 0 || !g.voting || !g.members.contains dev then s
    else s.setGang gid { g with reports := (dev, sent, received) :: g.reports.filter (·.1 != dev) }

/-- R412: REPORT reaches the coordinator. -/
def execReport (gid : Nat) (epoch : BitVec 32) (dev : Nat) (sent : List (BitVec 64)) (received : List (BitVec 64)) (s : State) : Host.Outcome State Fault Refusal :=
  s.move fun s =>
    s.onReport gid epoch dev sent received

/-- R410: the sums of a member, sent and received, for channels 0 to 14. -/
def Gang.sums (g : Gang) : List DWord × List DWord := (tabulate 15 (Map.get 0 g.sent), tabulate 15 (Map.get 0 g.received))

/-- R411: a member sends its REPORT. -/
def State.sendReport (s : State) (gid : Nat) (g : Gang) : State :=
  let r := g.sums
  s.toCoordinator gid 3 0 ((r.1.zip r.2).flatMap fun (a, b) => [a, b]) (·.onReport gid g.epoch s.devnum.toNat r.1 r.2)

/-- R411, R412, R441: PREPARE. It does not say whether the vote makes an interval checkpoint, for which every cluster saves: a member that
does not lead takes it for one where its own interval has ended. DEDUCED, unsafe (log 68). -/
def State.onPrepare (s : State) (gid : Nat) (epoch : Word) : State :=
  match s.gangs.lookup gid with
  | none => s
  | some g =>
    if g.vote != .run || g.retired || !(s.vd g.vd).run || (g.rank = 0 && g.epoch != epoch) then s
    else
      let g := { g with epoch := epoch }
      let t := s.setGang gid g
      match s.refusal g with
      | some r => t.toCoordinator gid 2 r [] (·.onRefuse gid epoch s.devnum.toNat)
      | none => t.setGang gid { g with
          vote := .halting, resumeAtOnce := if g.rank = 0 then g.resumeAtOnce else g.ckptDue, ckptDue := g.rank = 0 && g.ckptDue }

/-- R411, R412: PREPARE. -/
def execPrepare (gid : Nat) (epoch : BitVec 32) (s : State) : Host.Outcome State Fault Refusal :=
  s.move fun s =>
    s.onPrepare gid epoch

/-- R412, R441: the coordinator starts a vote: for a switch that is due, else for a checkpoint. -/
def State.startVote (s : State) (gid : Nat) (g : Gang) : State :=
  let e := g.epoch + 1
  let g := { g with
    epoch := e, voteStart := s.now, voting := true, captureSent := false, trigger := false, ckptDue := g.trigger && g.ckptDue,
    resumeAtOnce := !g.trigger, reports := [], doneBy := [] }
  (s.setGang gid g).toMembers gid 1 e (·.onPrepare gid e)

/-- R412, R417: a trigger, of a switch or of a checkpoint: a vote starts, or waits for the one in progress. A member that does not lead
notes that its checkpoint is due. -/
def State.trigger (s : State) (gid : Nat) (ckpt : Bool) : State :=
  match s.gangs.lookup gid with
  | none => s
  | some g =>
    if g.retired || !(s.vd g.vd).run then s
    else if g.rank != 0 then s.setGang gid { g with ckptDue := g.ckptDue || ckpt }
    else
      let g := { g with trigger := g.trigger || !ckpt, ckptDue := g.ckptDue || ckpt }
      if g.voting || g.vote != .run then s.setGang gid g else s.startVote gid g

/-- R412, R417: the retry of a refused vote, or the vote of a trigger that waited, while it stands. -/
def execVoteRetry (gid : Nat) (s : State) : Host.Outcome State Fault Refusal :=
  s.move fun s =>
    match s.gangs.lookup gid with
    | none => s
    | some g =>
      if g.rank = 0 && !g.voting && (g.trigger || g.ckptDue) && g.vote = .run && (s.vd g.vd).run then s.startVote gid g else s

/-- R411: the chunks in progress have finished. -/
def execChunksDrained (gid : Nat) (s : State) : Host.Outcome State Fault Refusal :=
  s.move fun s =>
    match s.gangs.lookup gid with
    | none => s
    | some g => if g.vote = .halting then (s.setGang gid { g with vote := .halted }).sendReport gid { g with vote := .halted } else s

/-- R411: QUERY. -/
def State.onQuery (s : State) (gid : Nat) (epoch : Word) : State :=
  match s.current gid epoch with
  | none => s
  | some g => if g.vote = .halted || g.vote = .capturing then s.sendReport gid g else s

/-- R411: QUERY. -/
def execQuery (gid : Nat) (epoch : BitVec 32) (s : State) : Host.Outcome State Fault Refusal :=
  s.move fun s =>
    s.onQuery gid epoch

/-- R411, R413: CAPTURE. -/
def State.onCapture (s : State) (gid : Nat) (epoch : Word) : State :=
  match s.current gid epoch with
  | none => s
  | some g =>
    if g.vote = .halted then (s.setGang gid { g with vote := .capturing }).sendReport gid { g with vote := .capturing } else s

/-- R411, R413: CAPTURE. -/
def execCapture (gid : Nat) (epoch : BitVec 32) (s : State) : Host.Outcome State Fault Refusal :=
  s.move fun s =>
    s.onCapture gid epoch

/-- R412: do the sums agree on every channel? -/
def Gang.balanced (g : Gang) : Bool :=
  (List.range 15).all fun i =>
    g.reports.foldl (fun n r => n + r.2.1.getD i 0) (0 : DWord) = g.reports.foldl (fun n r => n + r.2.2.getD i 0) (0 : DWord)

/-! ### The slot matrix -/

/-- R406: the cell of a row. -/
def Part.cell (x : Part) (row : Nat) : List Nat := Map.get [] x.cells row

/-- R407: is a gang running on this device? -/
def State.gangRuns (s : State) (gid : Nat) : Bool :=
  match s.gangs.lookup gid with
  | some g => (s.vd g.vd).run && !g.retired
  | none => false

/-- R407: the joined gangs of a partition that run. -/
def State.runningGangs (s : State) (p : Nat) : List Nat :=
  ((s.gangsOf p).filter fun e => e.1 < 65536 && s.gangRuns e.1).map (·.1)

/-- R407, R412: does a gang hold its cells: does it run on this device, or is a vote of its members that this device coordinates not over?
A gang is out, and its cells are free, once DONE has come from every member. -/
def State.holdsCells (s : State) (gid : Nat) : Bool :=
  s.gangRuns gid || (match s.gangs.lookup gid with | some g => g.voting && !g.retired | none => false)

/-- R407: the joined gangs of a partition that hold their cells. -/
def State.holdingGangs (s : State) (p : Nat) : List Nat :=
  ((s.gangsOf p).filter fun e => e.1 < 65536 && s.holdsCells e.1).map (·.1)

/-- R420: may a gang be started: is its member here neither stopped nor being stopped? -/
def State.startable (s : State) (gid : Nat) : Bool :=
  match s.gangs.lookup gid with
  | some g => !g.retired && !(s.vd g.vd).stopped && !(s.vd g.vd).stopping
  | none => false

/-- R401: is a gang passed over: its only member has weight 0? The weights of members on other devices do not stand in this one
(log 18). -/
def State.passedOver (s : State) (g : Gang) : Bool := g.members.length ≤ 1 && (s.vd g.vd).weight = 0

/-- R401, R407, R420: the gangs of a cell that are to start: those that do not run, or are being switched out, may be started and are not
passed over. -/
def State.toStart (s : State) (cell : List Nat) : List Nat :=
  cell.filter fun g =>
    match s.gangs.lookup g with
    | some x => (!s.gangRuns g || x.vote != .run || x.voting) && !s.passedOver x && s.startable g
    | none => false

/-- R407: triggers the switch of several gangs. -/
def State.triggerAll (s : State) : List Nat → State
  | [] => s
  | g :: gs => (s.trigger g false).triggerAll gs

/-- R412: the trigger of a gang that the new row names does not stand any more, unless its tenant is being stopped. -/
def State.lapse (s : State) : List Nat → State
  | [] => s
  | g :: gs =>
    (match s.gangs.lookup g with
     | some x => s.setGang g { x with trigger := (s.vd x.vd).stopping && x.trigger }
     | none => s).lapse gs

/-- R406, R407: a row starts with the cell and the list that are written now: gangs that it does not name are switched out, and those
that it names are to start. -/
def State.startRow (s : State) (p row epoch : Nat) (bf : List Nat) : State :=
  let x := s.part p
  let cell := x.cell row
  let leave := (s.runningGangs p).filter fun g => !cell.contains g
  let s := s.setPart p { x with
    row := row, rowOn := true, rowCell := cell, rowFill := x.bfill, epoch := epoch, backfilled := bf,
    starting := s.toStart cell ++ bf.filter (fun g => s.gangIn p g && s.startable g), cur := [], granted := none }
  (s.lapse cell).triggerAll leave

/-- R407, R408: a SLOT message; one of the running row only adds to what is backfilled. -/
def State.onSlot (s : State) (p row epoch : Nat) (backfill : List Nat) : State :=
  let x := s.part p
  let bf := backfill.filter (· != 0)
  if !Map.has s.parts p then s
  else if x.rowOn && x.epoch = epoch && x.row = row then
    s.setPart p { x with backfilled := x.backfilled ++ bf, starting := x.starting ++ bf.filter fun g => s.gangIn p g && !s.gangRuns g && s.startable g }
  else s.startRow p row epoch bf

/-- R407, R408: a SLOT message; one of the running row only adds to what is backfilled. -/
def execSlot (p : Nat) (row : Nat) (epoch : Nat) (backfill : List Nat) (s : State) : Host.Outcome State Fault Refusal :=
  s.move fun s =>
    s.onSlot p row epoch backfill

/-- R408: a row as a walk of the backfill list sees it: what this device's cell names, what holds it, what is to start, and the list. -/
structure RowView where
  cell : List Nat
  holders : List Nat
  starting : List Nat
  fill : Map Nat

/-- R408: the row that is about to start, and the running row, whose cell may hold backfilled gangs. -/
def State.nextView (s : State) (p row : Nat) : RowView :=
  let cell := (s.part p).cell row
  { cell := cell, holders := cell, starting := s.toStart cell, fill := (s.part p).bfill }
def State.thisView (s : State) (p : Nat) : RowView :=
  let x := s.part p
  { cell := x.rowCell, holders := x.rowCell ++ x.backfilled, starting := x.starting, fill := x.rowFill }

/-- R408: is this device's cell idle: does it hold no gang that runs or starts? -/
def State.cellIdle (s : State) (r : RowView) : Bool := r.holders.all fun g => !s.holdsCells g && !(r.starting.contains g && s.startable g)

/-- R408: the walk of the backfill list, with the gangs chosen so far. -/
def State.walkList (s : State) (p : Nat) (r : RowView) (taken : Bool) : List Nat → List Nat
  | [] => []
  | g :: gs =>
    let here := s.gangIn p g
    if g = 0 || s.holdsCells g || r.cell.contains g || (here && (taken || !s.cellIdle r)) then s.walkList p r taken gs
    else g :: s.walkList p r (taken || here) gs

/-- R408: the gangs chosen for a row, at most the four that a SLOT message carries. What other devices' cells hold does not stand in
this device (log 18). -/
def State.chosen (s : State) (p : Nat) (r : RowView) : List Nat :=
  (s.walkList p r false (tabulate 16 fun i => Map.get 0 r.fill i)).take 4

/-- R407, R494: the other devices of a partition, as far as this one knows them: those of its gangs' members. -/
def State.partDevices (s : State) (p : Nat) : List Nat := (((s.gangsOf p).flatMap fun e => s.othersOf e.2)).eraseDups

/-- R407, R485, R494: the slot master sends SLOT for a row, where its partition has a route. -/
def State.sendSlot (s : State) (p row epoch : Nat) (bf : List Nat) : State :=
  (if s.routed p then { s with out := .slot s.devnum.toNat (s.partDevices p) p row epoch bf :: s.out } else s).onSlot p row epoch bf

/-- R407: the row's duration is over, and the slot master starts the next row. -/
def execSlotRowExpire (p : Nat) (s : State) : Host.Outcome State Fault Refusal :=
  s.move fun s =>
    if !Map.has s.parts p then s
    else
      let x := s.part p
      let row := if x.rowOn then (x.row + 1) % x.rows else 0
      (s.setPart p { x with master := true }).sendSlot p row (x.epoch + 1) (s.chosen p (s.nextView p row))

/-- R408: after a gang has left early, the slot master walks the list again. -/
def State.rewalk (s : State) (p : Nat) : State :=
  let x := s.part p
  let bf := s.chosen p (s.thisView p)
  if x.master && x.rowOn && !bf.isEmpty then s.sendSlot p x.row x.epoch bf else s

/-- R407: a gang's quantum ends. -/
def execQuantumExpire (gid : Nat) (s : State) : Host.Outcome State Fault Refusal :=
  s.move fun s =>
    s.trigger gid false

/-! ### Resumption -/

/-- R407: is a gang's start due: is it to start, or to resume at once, with this device's cell free of outgoing gangs? -/
def State.resumeDue (s : State) (gid : Nat) (g : Gang) : Bool :=
  let x := s.part g.part
  g.resumeAtOnce
    || (x.starting.contains gid && (s.holdingGangs g.part).all fun h => h = gid || x.rowCell.contains h || x.backfilled.contains h)

/-- R411, R415: RESUME: the coordinator sends it when it is due; a member that is out starts to restore. A gang with a stopped member
is not started. -/
def State.onResume (s : State) (gid : Nat) (epoch : Word) : State :=
  match s.current gid epoch with
  | none => s
  | some g =>
    let x := s.vd g.vd
    if g.vote != .out || g.voting || x.stopped || x.stopping || (g.rank = 0 && !s.resumeDue gid g) then s
    else
      let s := s.setGang gid { g with vote := .resuming }
      if g.rank = 0 then s.sendLane (s.othersOf g) (.flit gid 9 0 g.epoch) else s

/-- R410, R411, R415: RESUME: the coordinator sends it when it is due; a member that is out starts to restore, where the epoch is that of
its vote. A gang with a stopped member is not started. -/
def execResumeMessage (gang : GangEpoch) (s : State) : Host.Outcome State Fault Refusal :=
  s.move fun s =>
    s.onResume gang.gid gang.epoch

/-- R412, R417: DONE reaches the coordinator; from every member, the gang is out. A switch that waited for a checkpoint's vote still
waits. -/
def State.onDone (s : State) (gid : Nat) (epoch : Word) (dev : Nat) : State :=
  match s.current gid epoch with
  | none => s
  | some g =>
    if g.rank != 0 || !g.voting || !g.members.contains dev then s
    else
      let g := { g with doneBy := dev :: g.doneBy.filter (· != dev) }
      if !(g.members.all fun d => g.doneBy.contains d) then s.setGang gid g
      else
        let s := s.setGang gid { g with voting := false, trigger := g.resumeAtOnce && g.trigger, ckptDue := false }
        let s := s.count g.part fun x => { x with switch := (x.switch + 1) % 2 ^ 16 }
        (if g.resumeAtOnce then s.onResume gid epoch else s.rewalk g.part).resumeStop

/-- R412: DONE reaches the coordinator; from every member, the gang is out. -/
def execDoneMessage (gid : Nat) (epoch : BitVec 32) (dev : Nat) (s : State) : Host.Outcome State Fault Refusal :=
  s.move fun s =>
    s.onDone gid epoch dev

/-! ### Settling -/

/-- R358, R414: what a discarded core keeps: its held stores, for its launch. -/
def Core.kept (k : Core) : Core := { Core.reset with job := k.job, sq := k.sq }

/-- R358, R414: a launch of which a cluster was discarded runs again from its start: of its contexts only held stores are kept. Its
Windlass operations stay queued. DEDUCED, unsafe (log 41). -/
def State.discard (s : State) (gid l : Nat) : State :=
  let x := s.launch l
  let v := x.vd
  let y := s.vd v
  let used := ((y.fq.filter fun e => e.launch = l && e.frame != 0xFFFF)).flatMap fun e => (List.range e.parked.length).map (e.frame + ·)
  let s := s.setVd v { y with fq := y.fq.filter (·.launch != l), frames := y.frames.filter (!used.contains ·) }
  let s := match s.gangs.lookup gid with
    | some g => s.setGang gid { g with
        saved := g.saved.map (fun ((i, k) : Nat × Core) => (i, if k.job = some l then Core.kept k else k)), rerun := g.rerun.filter (· != l) }
    | none => s
  s.setLaunch l { x with
    state := .discarded, items := [], pool := [], suspended := [], wavePhases := [], votes := 0, fault := none, faultSeq := 0, ended := [] }

/-- R414: the cores of a cluster. -/
def clusterCores (c : Nat) : List Nat := tabulate 16 fun i => 16 * c + i

/-- R414: a launch with its last cluster off is saved, or runs again from its start. -/
def State.offClusters (s : State) (gid l : Nat) : State :=
  if !((s.launch l).clusters.all fun d => (s.cluster d).launch.isNone) then s
  else match s.gangs.lookup gid with
    | some g => if g.rerun.contains l then s.discard gid l else s.setLaunch l { s.launch l with state := .saved }
    | none => s

/-- R414: a cluster is to be saved: its cores stop issuing and its Millstones stop at a retirement. -/
def State.beginSave (s : State) (gid c : Nat) (missed : Bool) : State :=
  match s.gangs.lookup gid with
  | none => s
  | some g =>
    let s := s.onCores (fun _ k => { k with mill := k.mill.ask }) (clusterCores c)
    let s := s.setGang gid { g with saving := c :: g.saving, missed := g.missed + b2n missed }
    if missed then s.count g.part fun x => { x with miss := min 65535 (x.miss + 1) } else s

/-- R116, R414: a cluster of a launch is discarded: its cores and engines stop. -/
def State.discardCluster (s : State) (gid l c : Nat) : State :=
  match s.gangs.lookup gid with
  | none => s
  | some g =>
    let kept := (clusterCores c).map fun i => (i, (s.core i).kept)
    let s := s.setGang gid { g with saved := g.saved ++ kept, rerun := l :: g.rerun.filter (· != l) }
    ((s.clearCores (clusterCores c)).freeClusters [c]).offClusters gid l

/-- R414, R420: how a cluster of a launch settles. A checkpoint saves (R441); a member that is being stopped discards. -/
inductive Settle where
  | drain
  | save (missed : Bool)
  | discard
  deriving DecidableEq, Repr

/-- R414, R420, R441: the choice of a cluster. -/
def State.settleBy (s : State) (g : Gang) (l c : Nat) : Settle :=
  if (s.vd g.vd).stopping then .discard
  else if g.resumeAtOnce then .save false
  else if s.drainFits g l then .drain
  else if s.saveFits g l c then .save false
  else if (s.launch l).rst then .discard
  else .save true

/-- R414: a cluster of a launch settles by a choice. -/
def State.settleCluster (s : State) (gid l c : Nat) : Settle → State
  | .drain => s
  | .save missed => s.beginSave gid c missed
  | .discard => s.discardCluster gid l c

/-- R414: the clusters of launches settle, each by its own choice, made at COMMIT. -/
def State.settleAll (s : State) (gid : Nat) : List (Nat × Nat × Settle) → State
  | [] => s
  | (l, c, k) :: t => (s.settleCluster gid l c k).settleAll gid t

/-- R414: the choices of the clusters of launches. -/
def State.settleChoices (s : State) (g : Gang) (ls : List Nat) : List (Nat × Nat × Settle) :=
  ls.flatMap fun l => (s.launch l).clusters.map fun c => (l, c, s.settleBy g l c)

/-- R441: is rollback enabled for a gang? -/
def State.rollbackOn (s : State) (g : Gang) : Bool := fld (s.header g 0x100) 19 0 != 0

/-! ### Mirroring -/

/-- R443: the device to which a gang's checkpoints are mirrored, and the place of the mirror there, where MPA is set. -/
def State.peer (s : State) (g : Gang) : Option (Nat × Nat) :=
  let w := s.header g 0x110
  if fld w 47 0 = 0 then none else some (fld w 63 48, fld w 47 0)

/-- R443, R483: a packet of the system class. -/
def State.systemPacket (s : State) (gid dst : Nat) (b : List Byte) : Packet :=
  { vc := 14, comm := 32, dst := dst, src := s.devnum.toNat, len := b.length, gang := gid, index := 0,
    head := { op := 0, red := 0, dt := 0, count := 0, root := 0 }, payload := b, failed := false, credits := [] }

/-- R443: the lines of M that have been written since the last checkpoint: by the gang, which its undo log names, by the host, and in
completion records; each with its key. -/
def Gang.writtenLines (g : Gang) : List (Nat × Nat) := ((g.undo.filter (·.m)).map fun u => (u.key, u.line)) ++ g.hostLines

/-- Pieces of 2 KiB with their offsets, from an offset on. -/
def pieces2K (off : Nat) (b : List Byte) : List (Nat × List Byte) :=
  tabulate ((b.length + 2047) / 2048) fun i => (off + 2048 * i, (b.drop (2048 * i)).take 2048)

/-- R443: what a copy holds of a mapped page at an offset of the mirror: all of it, or the lines that have been written. -/
def State.mirrorPage (s : State) (g : Gang) (whole : Bool) (off key pa : Nat) : List (Nat × List Byte) :=
  if whole then pieces2K off (s.paRead key pa 4096)
  else ((List.range 64).filter fun i => g.writtenLines.contains (key, pa / 64 + i)).map fun i =>
    (off + 64 * i, s.paRead key (pa + 64 * i) 64)

/-- R443: what a copy holds of a gang's M space, at the offset of each page in its window, from `off` on. -/
def State.mirrorSpace (s : State) (g : Gang) (whole : Bool) (off : Nat) : List (Nat × List Byte) :=
  (List.range ((s.vd g.vd).lastPg.toNat + 1)).flatMap fun p =>
    match s.walk g.vd (4096 * p) with
    | .ok lf => s.mirrorPage g whole (off + 4096 * p) (fld lf.e 63 52) (fld lf.e 39 12 * 4096 + 4096 * p % lf.size)
    | .error _ => []

/-- R443: a copy: the save area, and the M space behind it, whole where the mirror has had no copy yet. -/
def State.mirrorParts (s : State) (g : Gang) (whole : Bool) : List (Nat × List Byte) :=
  let n := (s.part g.part).saveSize g.sumpSize
  pieces2K 0 (s.paRead g.key g.savePa n) ++ s.mirrorSpace g whole n

/-- R443: the payload of a packet of a copy: where the mirror lies, the offset in it, and bytes. -/
def mirrorPayload (base : Nat) (x : Nat × List Byte) : List Byte := leBytes 8 base ++ leBytes 8 x.1 ++ x.2

/-- R484: packets in chunks of 64 KiB, sixteen packets each. `fuel` bounds their number. -/
def chunksOfPackets : Nat → List Packet → List (List Packet)
  | 0, _ => []
  | fuel + 1, ps => if ps.isEmpty then [] else ps.take 16 :: chunksOfPackets fuel (ps.drop 16)

/-- R443, R483: a checkpoint is to leave for the peer as system-class traffic. A mirror at a new place receives a whole copy. The spec gives
the copy no form: DESIGN CHOICE, unsafe (log 67). -/
def State.mirror (s : State) (gid : Nat) (g : Gang) : State :=
  match s.peer g, (s.part g.part).ports.find? s.portUp with
  | some (dev, base), some port =>
    let whole := !g.mirroring || g.mirrorAt != s.header g 0x110
    let ps := (s.mirrorParts g whole).map fun x => s.systemPacket gid dev (mirrorPayload base x)
    let q := s.port port
    (s.setGang gid { g with mirroring := true, mirrorAt := s.header g 0x110 }).setPort port
      { q with sysWait := q.sysWait ++ chunksOfPackets ps.length ps }
  | _, _ => s.setGang gid { g with mirroring := false }

/-- R485: what waits at a port without a link goes by the remaining routes of its partition: chunks of the system class by the first that
is up, and packets bound to it by any port of their communicator. -/
def State.reroute (s : State) (p : Nat) : State :=
  if s.portUp p then s
  else
    let free (m : Comm) : Comm := { m with owed := m.owed.map fun (l, x) => (if l = [p] then portsOf m.mask else l, x) }
    let s := { s with vds := s.vds.map fun ((v, x) : Nat × VDev) => (v, { x with comms := x.comms.map fun ((n, m) : Nat × Comm) => (n, free m) }) }
    match (s.parts.find? fun e => e.2.ports.contains p).bind fun e => e.2.ports.find? s.portUp with
    | some q =>
      let t := s.setPort q { s.port q with sysWait := (s.port q).sysWait ++ (s.port p).sysWait }
      t.setPort p { t.port p with sysWait := [] }
    | none => s

/-- R485: reroutes from several ports. -/
def State.rerouteAll (s : State) : List Nat → State
  | [] => s
  | p :: ps => (s.reroute p).rerouteAll ps

/-- Counts an event in ERRCNT. -/
def State.err (s : State) (i : Nat) : State := { s with errcnt := Map.modify 0 s.errcnt i (· + 1) }

/-- The nodes of a partition with their states. -/
def State.nodesOf (s : State) (p : Nat) : List (Nat × Node) := (runNodes (s.part p).nodes).map fun n => (n, s.node n)

/-- R429, R441: an entry with its contexts as its frames hold them. -/
def State.readFrames (s : State) (v : Nat) (e : FqEntry) : FqEntry :=
  if e.frame = 0xFFFF then e else { e with parked := s.reloadAll v e.launch e.frame e.parked }

/-- R441: what a checkpoint keeps of a gang. -/
def State.keep (s : State) (g : Gang) : Checkpoint :=
  let x := s.vd g.vd
  { cores := g.saved, launches := s.launches.filter fun e => e.2.vd = g.vd, nextLaunch := s.nextLaunch, pend := x.pend,
    queueStatus := x.queueStatus, nodes := s.nodesOf g.part, held := g.heldOut, fq := x.fq.map (s.readFrames g.vd), frames := x.frames,
    comms := x.comms, sump := g.sump, sent := g.sent, received := g.received, ostep := g.ostep, mirrored := false }

/-- R441, R443: the checkpoint of a gang that has been saved, and its copy. -/
def State.checkpoint (s : State) (gid : Nat) : State :=
  match s.gangs.lookup gid with
  | none => s
  | some g =>
    if !s.rollbackOn g then s.setGang gid { g with ckpt := none, undo := [], mirroring := false, hostLines := [] }
    else
      let s := s.mirror gid g
      match s.gangs.lookup gid with
      | none => s
      | some g => (s.setGang gid { g with ckpt := some (s.keep g), undo := [], hostLines := [], rollbacks := 0 }).err 5

/-- R358, R404: the header and the held updates of a gang that is out go to its save area. -/
def State.saveHeld (s : State) (gid : Nat) : State :=
  match s.gangs.lookup gid with
  | some g => (s.writeHeader gid).saveWrite g.part g.key (g.savePa + 0x100000) ((g.heldOut.take 262144).flatMap OUpdate.bytes)
  | none => s

/-- R411: the last cluster has settled: the member is out. -/
def State.goOut (s : State) (gid : Nat) : State :=
  match s.gangs.lookup gid with
  | none => s
  | some g =>
    let v := g.vd
    let out := s.held.filter fun u => u.vd = v
    let s := { s with held := s.held.filter fun u => u.vd != v }
    let s := (s.setGang gid { g with vote := .out, saving := [], rerun := [], unsettled := [], heldOut := g.heldOut ++ out }).setVd v
      { s.vd v with run := false }
    ((s.saveHeld gid).checkpoint gid).toCoordinator gid 8 0 [] (·.onDone gid g.epoch s.devnum.toNat)

/-- R411: out once nothing is left to settle. -/
def State.goOutIfSettled (s : State) (gid : Nat) : State :=
  match s.gangs.lookup gid with
  | some g => if g.unsettled.isEmpty then (s.goOut gid).resumeStop else s
  | none => s

/-- R414: COMMIT. -/
def State.onCommit (s : State) (gid : Nat) (epoch : Word) : State :=
  match s.current gid epoch with
  | none => s
  | some g =>
    if g.vote != .halted && g.vote != .capturing then s
    else
      let s := (s.setGang gid { g with vote := .committing, saving := [], rerun := [] }).settleAll gid (s.settleChoices g (s.runningOf g.vd))
      let live := (s.onClusters g.vd).flatMap fun l => (s.launch l).clusters.filter fun c => (s.cluster c).launch = some l
      match s.gangs.lookup gid with
      | some h => (s.setGang gid { h with unsettled := live }).goOutIfSettled gid
      | none => s

/-- R414: COMMIT. -/
def execCommit (gid : Nat) (epoch : BitVec 32) (s : State) : Host.Outcome State Fault Refusal :=
  s.move fun s =>
    s.onCommit gid epoch

/-- R412: the coordinator's poll: COMMIT, CAPTURE or QUERY once every member has reported. -/
def execVotePollTick (gid : Nat) (s : State) : Host.Outcome State Fault Refusal :=
  s.move fun s =>
    match s.gangs.lookup gid with
    | none => s
    | some g =>
      if g.rank != 0 || !g.voting || !(g.members.all fun d => g.reports.any fun r => r.1 = d) then s
      else
        let next (g : Gang) : State := s.setGang gid { g with reports := [] }
        if g.balanced then (next g).toMembers gid 6 g.epoch (·.onCommit gid g.epoch)
        else if g.voteStart + g.tdrain * 1000 ≤ s.now && !g.captureSent then
          (next { g with captureSent := true }).toMembers gid 5 g.epoch (·.onCapture gid g.epoch)
        else (next g).toMembers gid 4 g.epoch (·.onQuery gid g.epoch)

/-- R315, R435: may a core be saved now? -/
def Core.saveReady (k : Core) : Bool :=
  k.boardReady && k.tail.still && k.mill.active.isNone && k.mill.depth = 0 && k.mode != .faulted

/-- R119: a channel as a save keeps it: an abandoned record runs again from its fetch. -/
def Channel.saved (x : Channel) : Channel :=
  { x with recs := x.recs.map fun r =>
      { r with words := [], src := [], dst := none, drained := false, pend := none, started := false, closing := false, pins := [], writes := [] } }

/-- R119, R142, R414: the context of a core as a switch saves it. -/
def State.switchOut (s : State) (c : Nat) : State × Core :=
  let s := s.stopChannels c
  let k := s.core c
  (s, (k.setChannel 0 (k.channel 0).saved).setChannel 1 (k.channel 1).saved)

/-- R414: saves cores of a gang; each is then empty. -/
def State.saveCores (s : State) (gid : Nat) : List Nat → State
  | [] => s
  | c :: cs =>
    let r := s.switchOut c
    let s := r.1
    let k := r.2
    match s.gangs.lookup gid with
    | none => s
    | some g =>
      let s := s.writeContext g.part g.key (s.contextPa g c) c 4 (s.job c) k
      let s := s.setGang gid { g with saved := g.saved ++ [(c, k)] }
      (s.setCore c { Core.reset with sched := k.sched, wall := k.wall, charges := k.charges }).saveCores gid cs

/-- R435: a save that finds too much in flight lets a cycle of landings pass. -/
def State.landCores (s : State) : List Nat → State
  | [] => s
  | c :: cs => (if (s.core c).flightFits then s else s.schedStep c).landCores cs

/-- R414: saves a cluster of launch `l`, which is off with its last cluster. -/
def State.saveCluster (s : State) (gid l c : Nat) : State :=
  (((s.ownPcs (clusterCores c)).saveCores gid (clusterCores c)).setCluster c { s.cluster c with launch := none }).offClusters gid l

/-- R411: a cluster has settled. -/
def State.settled (s : State) (gid c : Nat) : State :=
  match s.gangs.lookup gid with
  | some g => (s.setGang gid { g with unsettled := g.unsettled.filter (· != c) }).goOutIfSettled gid
  | none => s

/-- R411, R414: a cluster of the gang settles: its launch has completed, or its cores are saved. -/
def execClusterSettled (gid : Nat) (c : Nat) (s : State) : Host.Outcome State Fault Refusal :=
  s.move fun s =>
    match s.gangs.lookup gid with
    | none => s
    | some g =>
      if g.vote != .committing || !g.unsettled.contains c then s
      else match (s.cluster c).launch with
        | none => s.settled gid c
        | some l =>
          let cs := clusterCores c
          if (s.launch l).vd != g.vd then s.settled gid c
          else if !g.saving.contains c || (s.launch l).state != .running || !(cs.all fun i => (s.core i).saveReady) then s
          else if !(cs.all fun i => (s.core i).flightFits) then s.landCores cs
          else (s.saveCluster gid l c).settled gid c

/-! ### Resuming -/

/-- R415: the clusters of saved launches run them again. -/
def State.retake (s : State) : List Nat → State
  | [] => s
  | l :: ls =>
    let x := s.launch l
    let s := x.clusters.foldl (fun s c => s.setCluster c { s.cluster c with launch := some l }) s
    (s.setLaunch l { x with state := .running }).retake ls

/-- The launches of a virtual device in a state. -/
def State.inState (s : State) (v : Nat) (st : LState) : List Nat :=
  (s.launches.filter fun e => e.2.vd = v && e.2.state = st).map (·.1)

/-- R415: are the clusters idle to which the gang's launches return? -/
def State.homesIdle (s : State) (v : Nat) : Bool :=
  (s.inState v .saved ++ s.inState v .discarded).all fun l => (s.launch l).clusters.all fun c => (s.cluster c).launch.isNone

/-- R415, step 2: the Sump is re-injected, in capture order. -/
def State.reinject (s : State) (gid : Nat) : List Packet → State
  | [] => s
  | p :: ps =>
    match s.gangs.lookup gid with
    | some g => (s.deliver none g p).reinject gid ps
    | none => s

/-- R45, R415, step 3: discarded launches start again, while the virtual device's translation is enabled. -/
def State.restart (s : State) : List Nat → State
  | [] => s
  | l :: ls => (if (s.vd (s.launch l).vd).trEn then s.restartLaunch l else s).restart ls

/-- R428: what was resolved in place while the gang was out goes on. -/
def State.goOnInPlace (s : State) (v : Nat) : List FqEntry → State
  | [] => s
  | e :: es =>
    (match e.resolved with
     | some (mask, val) => if e.frame = 0xFFFF then s.resumeInPlace v e mask val else s
     | none => s).goOnInPlace v es

/-- R389: after a pre-emption, preloads of virtual devices that do not run are dropped from the clusters of a partition. -/
def State.dropStale (s : State) (p : Nat) : State :=
  { s with clusters := s.clusters.map fun (c, k) =>
      (c, if (s.part p).clusters.contains c then { k with standby := k.standby.filter fun b => (s.vd b.vd).run } else k) }

/-- R56, R389, R411, R415: the gang runs again. One that has been rolled back, or saved for a checkpoint only, was not pre-empted, and
preloads are kept. -/
def State.runAgain (s : State) (gid : Nat) : State :=
  match s.gangs.lookup gid with
  | none => s
  | some g =>
    let s := s.setGang gid { g with vote := .run, sump := [], sumpHead := g.sumpTail, heldOut := [], resumeAtOnce := false }
    let s := (s.setVd g.vd (s.vd g.vd).resumed).unstart g.part gid
    (if g.resumeAtOnce then s else s.dropStale g.part).writeHeader gid

/-- R330, R331, R404: a held update as 32 bytes of its gang's save area hold it. -/
def OUpdate.over (u : OUpdate) (b : List Byte) : OUpdate :=
  let k := fieldOf b 16 8
  let w := fieldOf b 24 8
  { u with
    addr := fieldOf b 0 8, operand := fieldOf b 8 8, core := fld k 52 42, lane := fld k 41 32, seq := fld k 31 0, m := bit w 9, wide := bit w 8,
    op := fld w 7 0 }

/-- R404: the held updates of a gang that is out, as its save area holds them. -/
def State.reloadHeld (s : State) (g : Gang) : List OUpdate :=
  g.heldOut.zipIdx.map fun (u, i) => if i < 262144 then u.over (s.paRead g.key (g.savePa + 0x100000 + 32 * i) 32) else u

/-- R413: bytes of the Sump ring, from an offset on. -/
def State.sumpRead (s : State) (g : Gang) (off n : Nat) : List Byte :=
  (List.range n).map fun i => s.paByte g.key (s.sumpBase g + (off + i) % (g.sumpSize * 65536))

/-- R413: the captured packets as the Sump ring holds them, from an offset on. -/
def State.reloadSump (s : State) (g : Gang) : Nat → List Packet → List Packet
  | _, [] => []
  | off, p :: ps =>
    let h := s.sumpRead g off 16
    let n := fieldOf h 4 2
    let y := { p with vc := fieldOf h 0 2, src := fieldOf h 2 2, len := n, comm := fieldOf h 6 2, payload := s.sumpRead g (off + 64) n }
    y :: s.reloadSump g (off + (sumpEntry p 0).length) ps

/-- R50, R54, R394, R404: the fault that reading back what a gang's save area holds of it meets: the header, held updates, contexts, the
Sump. -/
def State.homeFault (s : State) (g : Gang) : Option Trap :=
  let at_ (pa n : Nat) : Option Trap := (s.saveFault g.part g.key pa n).map fun cls => trapOf cls pa
  let home := (s.inState g.vd .saved).flatMap fun l => g.saved.filter fun e => e.2.job = some l
  (at_ g.savePa 64).orElse fun _ =>
    ((if g.heldOut.isEmpty then none else at_ (g.savePa + 0x100000) (32 * min g.heldOut.length 262144)).orElse fun _ =>
      ((home.findSome? fun e => at_ (s.contextPa g e.1) 0x100000).orElse fun _ =>
        if g.sump.isEmpty || g.sumpSize = 0 then none else at_ (s.sumpBase g) (g.sumpSize * 65536)))

/-- R415: a gang with its held updates and its Sump as its save area holds them. -/
def State.reloadGang (s : State) (g : Gang) : Gang :=
  { g with
    ostep := BitVec.ofNat 32 (s.header g 0x20), heldOut := s.reloadHeld g,
    sump := if g.sumpSize = 0 then g.sump else s.reloadSump g g.sumpHead g.sump }

/-- R415: the contexts that go back on their cores: those of saved launches, as the save area holds them unless it cannot be read. -/
def State.homeward (s : State) (g : Gang) : List (Nat × Core) :=
  (s.inState g.vd .saved).flatMap fun l =>
    (g.saved.filter fun e => e.2.job = some l).map fun (c, k) =>
      (c, if (s.homeFault g).isNone then s.reload g.key (s.contextPa g c) (s.launch l) k else k)

/-- R50, R54: the launches of a gang whose save area could not be read meet the fault. -/
def State.faultHome (s : State) (t : Trap) : List Nat → State
  | [] => s
  | l :: ls => (match s.coresOn l with | c :: _ => s.takeFault c t | [] => s).faultHome t ls

/-- R415: restores a member: contexts and held state, with sr.ostep from the header, the Sump, discarded launches, and then the gang
runs. -/
def State.restoreGang (s : State) (gid : Nat) (g : Gang) : State :=
  let v := g.vd
  let bad := s.homeFault g
  let again := s.inState v .discarded
  let saved := s.inState v .saved
  let home := s.homeward g
  let h := if bad.isNone then s.reloadGang g else g
  let s := s.setGang gid { h with saved := g.saved.filter fun e => !home.any (·.1 = e.1) }
  let s := (s.retake saved).restoreCores h.ostep home
  let s := { s with held := s.held ++ h.heldOut }
  let s := s.goOnInPlace v (s.vd v).fq
  let s := s.reinject gid h.sump
  let s := (s.restart again).runAgain gid
  match bad with
  | some t => s.faultHome t saved
  | none => s

/-- R127: the granules that the local stores in flight of the returning contexts touch again. -/
def State.homeGranules (s : State) (g : Gang) : List Nat :=
  (s.inState g.vd .saved).flatMap fun l =>
    (g.saved.filter fun e => e.2.job = some l).flatMap fun e => e.2.storeGranules e.1

/-- R127, R411, R415: restore and re-injection are done. -/
def execRestoreDone (gid : Nat) (s : State) : Host.Outcome State Fault Refusal :=
  s.move fun s =>
    match s.gangs.lookup gid with
    | none => s
    | some g =>
      if g.vote = .resuming && !g.retired && s.homesIdle g.vd then
        s.touching gid (s.homeGranules g) fun s => (s.restoreGang gid g).resumeStop
      else s

/-! ### Control lane -/

/-- R484: a barrier or phase arrival of another member. -/
def execBarrierArrival (gid : Nat) (dev : Nat) (word : GangWord) (s : State) : Host.Outcome State Fault Refusal :=
  s.move fun s =>
    match s.gangs.lookup gid with
    | some g => (s.setGang gid { g with arrivals := g.arrivals ++ [(dev, word)] }).answerGang gid
    | none => s

/-- R484: a barrier or phase release. -/
def execBarrierRelease (gid : Nat) (dev : Nat) (word : GangWord) (s : State) : Host.Outcome State Fault Refusal :=
  s.move fun s =>
    match s.gangs.lookup gid with
    | some g => (s.setGang gid { g with releases := g.releases ++ [(dev, word)] }).answerGang gid
    | none => s

/-- R333: the combined skip flag of another member. -/
def execOstepFlag (gid : Nat) (dev : Nat) (flag : GangFlag) (s : State) : Host.Outcome State Fault Refusal :=
  s.move fun s =>
    match s.gangs.lookup gid with
    | some g => (s.setGang gid { g with flags := g.flags ++ [(dev, flag)] }).answerGang gid
    | none => s

/-- R333: the result of a vote: was a flag set? -/
def execOstepResult (gid : Nat) (result : GangFlag) (s : State) : Host.Outcome State Fault Refusal :=
  s.move fun s =>
    match s.gangs.lookup gid with
    | some g => (s.setGang gid { g with results := g.results ++ [result] }).answerGang gid
    | none => s

/-! ### Checkpoints and rollback -/

/-- R441: the checkpoint interval ends: a vote that saves and resumes at once. -/
def execCheckpointTimer (gid : Nat) (s : State) : Host.Outcome State Fault Refusal :=
  s.move fun s =>
    match s.gangs.lookup gid with
    | some g => if s.rollbackOn g && fld (s.header g 0x108) 31 0 != 0 then s.trigger gid true else s
    | none => s

/-- R441: has the undo log reached 90 % of its size? -/
def State.undoFull (s : State) (g : Gang) : Bool := 9 * s.undoSize g ≤ 10 * (undoBytes * g.undo.length)

/-- R441: the undo log is 90 % full. -/
def execUndoLogThreshold (gid : Nat) (s : State) : Host.Outcome State Fault Refusal :=
  s.move fun s =>
    match s.gangs.lookup gid with
    | some g => if s.rollbackOn g && s.undoFull g && !g.ckptDue then s.trigger gid true else s
    | none => s

/-- R443: has all of a gang's copy left? -/
def State.mirrorSent (s : State) (gid : Nat) : Bool :=
  s.ports.all fun e => e.2.sysWait.all fun ps => ps.all fun p => p.gang != gid

/-- R443: the mirror copy of a checkpoint is complete, and the checkpoint is committed. -/
def execMirrorComplete (gid : Nat) (s : State) : Host.Outcome State Fault Refusal :=
  s.move fun s =>
    match s.gangs.lookup gid with
    | some g =>
      if (s.peer g).isNone || !g.mirroring || !s.mirrorSent gid then s
      else s.setGang gid { g with ckpt := g.ckpt.map fun c => { c with mirrored := true } }
    | none => s

/-- R127, R128, R442: the old bytes of a line of the G space return: to the gang's granule, or to the copy that was spilled since. -/
def State.undoLineG (s : State) (gid : Nat) (u : UndoLine) : State :=
  let g := 64 * u.line / Config.granuleBytes
  if (s.granule g).gid = gid then s.gWrite (64 * u.line) u.data
  else match s.gangs.lookup gid with
    | none => s
    | some x =>
      if s.spillBit gid g then s.saveWrite x.part x.key (s.spillSlot x g + 64 * u.line % Config.granuleBytes) u.data
      else if (s.granule g).gid = 0 then (s.takeGranule gid g).gWrite (64 * u.line) u.data
      else s

/-- The partition of a gang. -/
def State.gangPart (s : State) (gid : Nat) : Nat := match s.gangs.lookup gid with | some g => g.part | none => 0

/-- R442: restores the logged lines of a gang, newest first. -/
def State.undoLines (s : State) (gid : Nat) : List UndoLine → State
  | [] => s
  | u :: us => (if u.m then s.saveWrite (s.gangPart gid) u.key (64 * u.line) u.data else s.undoLineG gid u).undoLines gid us

/-- R442: is a node named by a launch of virtual device `v`? -/
def State.namesNode (s : State) (v n : Nat) : Bool :=
  s.launches.any fun e => e.2.vd = v && !e.2.words.isEmpty
    && (e.2.node :: e.2.succs).any fun m => m != 0xFFFF && nodeAt (s.vdPart v).nodes m = some n

/-- R442: restores the nodes that the virtual device's launches name. -/
def State.restoreNodes (s : State) (v : Nat) : List (Nat × Node) → State
  | [] => s
  | (n, x) :: t => (if s.namesNode v n then s.setNode n x else s).restoreNodes v t

/-- R384, R442: a launch read after the checkpoint stands as it was first read. -/
def State.reread (s : State) (l : Nat) : State :=
  let x := s.launch l
  let y := { Launch.reset with
    vd := x.vd, queue := x.queue, index := x.index, va := x.va, words := x.words, recorded := x.recorded, seqNo := x.seqNo }
  if x.words.isEmpty || !s.recordOk y then s.setLaunch l { y with status := 3 }
  else match s.nodeOf y with
    | none => s.setLaunch l y
    | some n =>
      let r := (s.node n).read l y.pred
      ((s.setNode n r.2).setLaunch l (if r.1 then { y with status := 3 } else { y with armed := some n })).disarm l

/-- R392, R442: a launch of the checkpoint, which writes no second record. -/
def State.rewind (s : State) : List (Nat × Launch) → State
  | [] => s
  | (l, x) :: t =>
    let y := s.launch l
    (s.setLaunch l { x with recorded := y.recorded, seqNo := y.seqNo }).rewind t

/-- R442: reads launches again, in the order of their first reading. -/
def State.rereadAll (s : State) : List Nat → State
  | [] => s
  | l :: ls => (s.reread l).rereadAll ls

/-- R442, step 1: everything of the gang on this device stops and is dropped. -/
def State.dropGang (s : State) (v : Nat) : State :=
  let live := (s.launches.filter fun e => e.2.vd = v && (e.2.state = .running || e.2.state = .ending)).map (·.1)
  let s := live.foldl (fun s l => (s.clearCores (s.launch l).cores).freeClusters (s.launch l).clusters) s
  { s with held := s.held.filter fun u => u.vd != v }

/-- R280, R442: the contexts of a checkpoint stand in the save area again, as what came later may have overwritten them. -/
def State.rewriteSaved (s : State) (g : Gang) : List (Nat × Core) → State
  | [] => s
  | (c, k) :: cs => (s.writeContext g.part g.key (s.contextPa g c) c 4 (s.launch (k.job.getD 0)) k).rewriteSaved g cs

/-- R280, R442: so do the contexts of parked continuations in their frames. -/
def State.rewriteParked (s : State) (v : Nat) (e : FqEntry) : Nat → List (Nat × Core) → State
  | _, [] => s
  | i, (c, k) :: cs =>
    (match s.frameAt v i with
     | some pa => s.writeContext (s.vd v).part (s.saveKey v) pa c 1 (s.launch e.launch) k
     | none => s).rewriteParked v e (i + 1) cs

/-- R280, R442: the frames of several entries. -/
def State.rewriteFrames (s : State) (v : Nat) : List FqEntry → State
  | [] => s
  | e :: es => (if e.frame = 0xFFFF then s else s.rewriteParked v e e.frame e.parked).rewriteFrames v es

/-- R442: the state of a checkpoint, before the gang resumes; one that waited for its cells goes on waiting. -/
def State.rollTo (s : State) (gid : Nat) (g : Gang) (c : Checkpoint) : State :=
  let v := g.vd
  let s := (s.dropGang v).undoLines gid g.undo
  let later := ((s.launches.filter fun e => e.2.vd = v && c.nextLaunch ≤ e.1)).map (·.1)
  let s := s.restoreNodes v c.nodes
  let s := (s.rewind c.launches).rereadAll later
  let x := s.vd v
  let s := s.setVd v { x with pend := c.pend, queueStatus := c.queueStatus, fq := c.fq, frames := c.frames, comms := c.comms, run := false }
  let waits := g.vote = .out && !g.resumeAtOnce
  let g := { g with
    vote := if waits then .out else .resuming, voting := false, captureSent := false, trigger := false, ckptDue := false,
    resumeAtOnce := !waits, reports := [], doneBy := [], saving := [], rerun := [], unsettled := [],
    saved := c.cores, heldOut := c.held, sump := c.sump, sent := c.sent, received := c.received, ostep := c.ostep, undo := [],
    rollbacks := g.rollbacks + 1, arrivals := [], releases := [], flags := [], results := [] }
  (((s.setGang gid g).rewriteSaved g c.cores).rewriteFrames v c.fq).saveHeld gid

/-- R359, R443: a launch ends because its device has failed: a running one from a core that it is on; the ending of one that is not on
clusters is the work of LAUNCH_COMPLETE. -/
def State.failLaunch (s : State) (l : Nat) : State :=
  let x := s.launch l
  let off := (s.setLaunch l { x with state := .ending, status := 0, fault := some (x.cores.headD 0, { cls := 20 }) }).faultSeen x.vd 20
  match x.state with
  | .running => match s.coresOn l with
    | d :: _ => s.takeFault d { cls := 20 }
    | [] => off
  | .saved => off
  | .discarded => off
  | .waiting =>
    if x.status = 0 then (s.setLaunch l { x with status := 1, start := s.now, fault := some (0, { cls := 20 }) }).faultSeen x.vd 20 else s
  | _ => s

/-- Several launches. -/
def State.failLaunches (s : State) : List Nat → State
  | [] => s
  | l :: ls => (s.failLaunch l).failLaunches ls

/-- R443: the member leaves this device for a spare: what it ran stops here for good. -/
def State.leaveGang (s : State) (gid : Nat) (g : Gang) : State :=
  let s := s.dropGang g.vd
  let s := s.setVd g.vd { s.vd g.vd with run := false, fq := [], frames := [] }
  { s.setGang gid { g with retired := true, vote := .out, saved := [], heldOut := [], sump := [] } with
    launches := s.launches.map fun (l, x) =>
      (l, if x.vd = g.vd && x.state != .complete then { x with state := .saved, clusters := [] } else x) }

/-- R417: the vote of a gang that cannot roll back is aborted: the gang runs on with what is still on its clusters, and what was captured
is delivered. -/
def State.dropVote (s : State) (gid : Nat) (g : Gang) : State :=
  let on := g.vote = .halting || g.vote = .halted || g.vote = .capturing || g.vote = .committing
  let g := { g with voting := false, captureSent := false, reports := [], doneBy := [] }
  if on then (s.setGang gid { g with
      vote := .run, saving := [], rerun := [], unsettled := [], sump := [], sumpHead := g.sumpTail }).reinject gid g.sump
  else s.setGang gid g

/-- R417, R443: the launches of a gang on this device, which has failed, end with FCLASS 20, unless its checkpoint has a mirror and a spare is
named that goes on from it, which is a free value (log 67). A vote in progress is aborted. -/
def State.failGang (s : State) (gid : Nat) : State :=
  let s := match s.gangs.lookup gid with | some g => s.dropVote gid g | none => s
  match s.gangs.lookup gid with
  | none => s
  | some g =>
    let spared := g.ckpt.any (·.mirrored) && Config.spareNamed s.draws
    let s := { s with draws := s.draws + 1 }
    if spared then (s.leaveGang gid g).err 6
    else s.failLaunches ((s.launches.filter fun e => e.2.vd = g.vd).map (·.1))

/-- Several gangs. -/
def State.failGangs (s : State) : List Nat → State
  | [] => s
  | g :: gs => (s.failGang g).failGangs gs

/-- R417, R443: the device is treated as failed; a stop that waited for a vote goes on. -/
def State.deviceFails (s : State) : State := (s.failGangs (s.gangs.map (·.1))).resumeStop

/-- R442: ROLLBACK leaves for the coordinator, or from it for the members. -/
def State.sendRollback (s : State) (gid : Nat) (g : Gang) : State :=
  s.sendLane (if g.rank = 0 then s.othersOf g else [g.members.headD 0]) (.flit gid 0x0A 0 g.epoch)

/-- R441-R443: the gang goes back to its checkpoint on this member. With no checkpoint, or when it has failed three times from one, no
recovery is possible. A retired gang has none (R405). -/
def State.rollBack (s : State) (gid : Nat) : State :=
  match s.gangs.lookup gid with
  | none => s
  | some g =>
    if g.retired then s
    else match g.ckpt with
    | none => (s.failGang gid).resumeStop
    | some c => if 3 ≤ g.rollbacks then s.deviceFails else (((s.rollTo gid g c).err 4).markReady).resumeStop

/-- R442: an error of this member: it sends ROLLBACK, and goes back itself. Where another member coordinates, the message that this one
forwards is still to come. -/
def State.onRollback (s : State) (gid : Nat) : State :=
  match s.gangs.lookup gid with
  | none => s
  | some g => if g.retired then s else ((s.sendRollback gid g).setGang gid { g with rolled := g.rank != 0 }).rollBack gid

/-- R441-R443: ROLLBACK: the coordinator forwards it, and the member goes back, unless it has done so for the error it announced. -/
def execRollback (gid : Nat) (s : State) : Host.Outcome State Fault Refusal :=
  s.move fun s =>
    match s.gangs.lookup gid with
    | none => s
    | some g =>
      if g.retired then s
      else if g.rolled then s.setGang gid { g with rolled := false }
      else (if g.rank = 0 then s.sendRollback gid g else s).rollBack gid

/-- R443: a member that is silent during a vote has failed: the vote is aborted, and where the gang has a mirror it goes back, with a
spare in the failed device's place. -/
def execMemberSilentTimeout (gid : Nat) (dev : Nat) (s : State) : Host.Outcome State Fault Refusal :=
  s.move fun s =>
    match s.gangs.lookup gid with
    | none => s
    | some g =>
      if g.rank = 0 && g.voting && g.members.contains dev && dev != s.devnum.toNat then
        let t := (s.setGang gid { g with voting := false, reports := [], doneBy := [], lost := dev :: g.lost }).toMembers gid 7 g.epoch
          (·.onAbort gid g.epoch)
        if g.ckpt.any (·.mirrored) then t.onRollback gid else t
      else s

/-- R316, R440-R444: an error. Corrected ones are only counted; a second residue miss of one chain, or an error in a gang's state,
rolls the gang back. -/
def execUncorrectableError (site : ErrorSite) (s : State) : Host.Outcome State Fault Refusal :=
  s.move fun s =>
    match site with
    | .sramCorrected => s.err 0
    | .hbmCorrected => s.err 1
    | .residue c =>
      let k := s.core c
      if k.mill.active.isNone then s
      else match k.mill.missed with
        | some m => (s.setCore c { k with mill := m }).err 2
        | none => ((s.err 2).err 3).onRollback (s.coreGid c)
    | .gang gid => (s.err 3).onRollback gid
    | .spare => (s.err 3).err 7
    | .unowned => (s.err 3).deviceFails

end Sys2Proof.Machine
end

