-- ==== Sys2Proof/Machine/EvPhysical.lean ====
section
/-! DEFINITION. The package: temperature, power, reset and bring-up (R8, R14, R50, R120, R480, R487-R490). -/

namespace Sys2Proof.Machine

/-! ### Temperature (R488) -/

/-- R489: ALERT_N is asserted while THROT or HOLD is in force. -/
def State.alert (s : State) : Bool := s.throt || s.hold

/-- Degrees Celsius as TJ counts them. -/
def degrees (n : Nat) : Nat := 16 * n

/-- R488: above 105 °C, and below 115 °C. -/
def execThermalThrottle (tj : BitVec 16) (s : State) : Host.Outcome State Fault Refusal :=
  s.move fun s => if degrees 105 < tj.toNat && tj.toNat < degrees 115 then { s with tj := tj, throt := true } else s

/-- R488: 115 °C or above, and below 125 °C. -/
def execThermalHold (tj : BitVec 16) (s : State) : Host.Outcome State Fault Refusal :=
  s.move fun s =>
    if degrees 115 ≤ tj.toNat && tj.toNat < degrees 125 then { s with tj := tj, throt := true, hold := true, holds := true }.w1cSet .holds else s

/-- R488: below 100 °C a hold ends. -/
def execThermalHoldEnd (tj : BitVec 16) (s : State) : Host.Outcome State Fault Refusal :=
  s.move fun s => if tj.toNat < degrees 100 then { s with tj := tj, throt := false, hold := false } else s

/-- R488: at 105 °C or below the throttle ends, and below 100 °C a hold with it. -/
def execThermalThrottleEnd (tj : BitVec 16) (s : State) : Host.Outcome State Fault Refusal :=
  s.move fun s =>
    if tj.toNat ≤ degrees 105 then { s with tj := tj, throt := false, hold := s.hold && degrees 100 ≤ tj.toNat } else s

/-- R443, R488: a hold of 10 ms: the device is treated as failed. -/
def execThermalHoldTimeout (s : State) : Host.Outcome State Fault Refusal :=
  s.move fun s => if s.hold then s.deviceFails else s

/-! ### Reset -/

/-- R8, R480: the device with every register, SRAM and key slot as after reset. Device memory keeps its ciphertext, which no key opens
any more (R50, R52); the model keeps what it counts, and what has left the device. -/
def State.cleared (s : State) : State :=
  { State.reset with
    agenda := s.agenda, turn := s.turn, out := s.out, now := s.now, draws := s.draws, useTlb := s.useTlb, colds := s.colds, pmem := s.pmem, lines := s.lines,
    pwrok := s.pwrok, powered := s.powered, rst := s.rst, thermtrip := s.thermtrip }

/-- R8, R480: a device reset: every launch ends with no completion record, BOOTSTAT reads 0, and bring-up starts again at step 2. -/
def State.resetDevice (s : State) : State := { s.cleared with warm := true }

/-- R480: DEVCTL.RESET. -/
def execDeviceReset (s : State) : Host.Outcome State Fault Refusal :=
  s.move fun s => s.resetDevice

/-- R489, R490: RST_N is asserted; its release starts bring-up at step 1. -/
def execRstNAssert (s : State) : Host.Outcome State Fault Refusal :=
  s.move fun s => { s.cleared with rst := true }

/-- R487, R488: the power is gone, and every state with it, device memory too. -/
def State.lost (s : State) : State := { s.cleared with pmem := [], lines := [], colds := s.colds + 1, powered := false }

/-- R488: 125 °C, or a sensor fault: THERMTRIP_N is asserted and every state is lost. -/
def execThermtrip (s : State) : Host.Outcome State Fault Refusal :=
  s.move fun s => { s.lost with thermtrip := true }

/-- R487: PWROK is deasserted: the device stops as at a thermal trip. -/
def execPwrokDeassert (s : State) : Host.Outcome State Fault Refusal :=
  s.move fun s => { s.lost with pwrok := false }

/-! ### Bring-up -/

/-- R487, R489: the board brings up the rails, asserts PWROK and releases RST_N. -/
def State.powerUp (s : State) : State := { s with pwrok := true, powered := true, rst := false, thermtrip := false }

/-- R50, R490: slot 0 takes a new key from the entropy source; every other slot is empty. -/
def State.systemKey (s : State) : State :=
  let x : KeySlot := { state := 1, k1 := Config.entropy s.draws, k2 := Config.entropy (s.draws + 1), mat := .drawn s.draws }
  { s with draws := s.draws + 2, slots := [(0, x)] }

/-- R120, R490: what a step of bring-up does: step 3 zeroes every SRAM and frees every granule, step 5 makes the system key, step 6
trains the Seust link, and after step 7 the device is ready. -/
def State.bootAction (s : State) (step : Nat) : State :=
  match step with
  | 3 => { s with gmem := [], granules := [], cores := [], clusters := [], nodes := [], launches := [] }
  | 5 => s.systemKey
  | 6 => { s with seustUp := true }
  | 7 => { s with ready := true }
  | _ => s

/-- R480, R490: the next step of bring-up. -/
def State.nextBoot (s : State) : Nat := if s.warm then 2 else s.bootStep + 1

/-- R490: is PWROK asserted and RST_N released? -/
def State.pinsUp (s : State) : Bool := s.pwrok && s.powered && !s.rst

/-- R490: the next step of bring-up, once the pins allow it, which succeeds or fails. A failing step stops bring-up until RESET or
RST_N. -/
def execBringUp (ok : Bool) (s : State) : Host.Outcome State Fault Refusal :=
  s.move fun s =>
    if s.ready || s.bootFail || !s.pinsUp then s
    else if ok then { s.bootAction s.nextBoot with bootStep := s.nextBoot, warm := false }
    else { s with bootFail := true }

end Sys2Proof.Machine
end

