-- ==== Sys2Proof/Machine/Invalidation.lean ====
section
/-! DEFINITION. Invalidations of cached translations (R43, R44, R46, R47). -/

namespace Sys2Proof.Machine

/-- R47: the bytes of an invalidation: COUNT pages from PAGE, cut at 2 ^ 64; a COUNT of 0 means the whole space. -/
def invRange (page count : Nat) : Nat × Nat :=
  if count = 0 then (0, 2 ^ 64) else (page * 4096, min ((page + count) * 4096) (2 ^ 64))

/-- Do `n` bytes from `a` meet a range? -/
def meets (r : Nat × Nat) (a n : Nat) : Bool := a < r.2 && r.1 < a + n

/-- Do `n` bytes from `a` meet one of several ranges? -/
def meetsAny (rs : List (Nat × Nat)) (a n : Nat) : Bool := rs.any fun r => meets r a n

/-- R44: the cached translations of a virtual device that an invalidation removes. -/
def removed (v : Nat) (r : Nat × Nat) (ts : List TlbEntry) : List TlbEntry := ts.filter fun t => t.vd = v && meets r t.va t.size

/-- R44: the bytes that the removed translations cover, with the range itself. -/
def removedRanges (v : Nat) (r : Nat × Nat) (ts : List TlbEntry) : List (Nat × Nat) := r :: (removed v r ts).map fun t => (t.va, t.va + t.size)

/-- R46: may an access at the M queue of a core, which passed its window check at issue, still be performed at the ranges? One that has
faulted, and those behind it, wait for a resolution. -/
def Core.queueUses (k : Core) (rs : List (Nat × Nat)) : Bool :=
  (k.mq.takeWhile (!·.faulted)).any fun x => x.op != .returned && meetsAny rs x.addr (if x.op = .tload then 128 else x.size)

/-- R44, R46: does an access of a core that has used its translation, or passed its check, wait to finish at memory: in the M queue, in the
store queue, or as a write of a record? -/
def Core.usesRange (k : Core) (rs : List (Nat × Nat)) : Bool :=
  k.queueUses rs || (k.sq.any fun l => l.m && meetsAny rs (64 * l.block) 64)
    || k.flume.any fun c => c.2.recs.any fun x => x.started && x.writes.any fun w => w.m && meetsAny rs w.addr w.data.length

/-- R44: does a started operation of a communicator still read or write the ranges? -/
def Comm.usesRange (m : Comm) (rs : List (Nat × Nat)) : Bool :=
  m.queue.any fun o => o.started && (o.srcAccs m.rank m.size ++ o.dstAccs m.size).any fun a => a.sp = 0 && meetsAny rs a.addr a.n

/-- R44: does an ordered update of a virtual device wait to be applied in the ranges? -/
def OUpdate.usesRange (u : OUpdate) (v : Nat) (rs : List (Nat × Nat)) : Bool :=
  u.vd = v && u.m && meetsAny rs u.addr (if u.wide then 8 else 4)

/-- R44: does any access of a virtual device that used a translation of the ranges still wait, in its cores, in the contexts of its
switched-out gang, or in its communicators? -/
def State.usesRange (s : State) (v : Nat) (rs : List (Nat × Nat)) : Bool :=
  (s.cores.any fun e => s.coreVd e.1 = v && e.2.job.isSome && e.2.usesRange rs)
    || (s.held.any fun u => u.usesRange v rs)
    || ((s.gangOf v).any fun g => (g.saved.any fun e => e.2.usesRange rs) || g.heldOut.any fun u => u.usesRange v rs)
    || (s.vd v).comms.any fun e => e.2.usesRange rs

/-- R44: the caches without the entries of a virtual device that cover any page of a range. -/
def dropRange (v : Nat) (r : Nat × Nat) (ts : List TlbEntry) : List TlbEntry :=
  ts.filter fun t => !(t.vd = v && meets r t.va t.size)

/-- R47: a write of MTINVN: an invalidation is held, or dropped while eight are. -/
def execInvalidationStart (v : Nat) (count : BitVec 52) (s : State) : Host.Outcome State Fault Refusal :=
  s.move fun s =>
    let x := s.vd v
    if 8 ≤ x.pendingInv.length then (s.setVd v { x with ovf := true }).w1cSet (.ovf v)
    else s.setVd v { x with pendingInv := x.pendingInv ++ [(x.invPage.toNat, count.toNat)] }

/-- R44: the oldest invalidation completes once nothing that used the range is unfinished. -/
def execInvalidationComplete (v : Nat) (s : State) : Host.Outcome State Fault Refusal :=
  s.move fun s =>
    let x := s.vd v
    match x.pendingInv with
    | [] => s
    | (page, count) :: rest =>
      let r := invRange page count
      if s.usesRange v (removedRanges v r s.tlb) then s
      else { s with tlb := dropRange v r s.tlb }.setVd v { x with pendingInv := rest, invDone := x.invDone + 1 }

end Sys2Proof.Machine
end

