-- ==== Sys2Proof/Machine/EvHost.lean ====
section
/-! DEFINITION. The host: the management window, the M space of virtual devices, and the links (R7, R34, R53, R380, R395, R398, R400,
R444, R445, R475-R480, R485, R486, R491). -/

namespace Sys2Proof.Machine

/-! ### Reading the management window -/

/-- A register value from its fields, each with the place of its lowest bit. -/
def fields (l : List (Nat × Nat)) : DWord := BitVec.ofNat 64 ((l.map fun e => e.2 * 2 ^ e.1).sum)

/-- R480: the device block. -/
def State.readDevice (s : State) (o : Nat) : DWord :=
  match o with
  | 0x00 => fields [(32, 0xF4A1), (16, 1)]
  | 0x08 => fields [(32, s.devnum.toNat), (1, b2n s.qen)]
  | 0x10 => fields [(4, s.bootStep), (3, b2n s.bootFail), (0, b2n s.ready)]
  | 0x18 => fields [(18, b2n s.holds), (17, b2n s.hold), (16, b2n s.throt), (0, s.tj.toNat)]
  | _ => 0

/-- R398: the capability table: its header, and a word of an entry. -/
def readCaps (o : Nat) : DWord :=
  if o = 0 then fields [(32, 1), (0, caps.length)]
  else if o < 0x40 then 0
  else match caps[(o - 0x40) / 32]? with
    | none => 0
    | some c =>
      match o % 32 with
      | 0x00 => fields [(16, c.div), (0, c.typ)]
      | 0x08 => BitVec.ofNat 64 c.count
      | 0x10 => BitVec.ofNat 64 c.gran
      | _ => fields [(32, c.max), (0, c.min)]

/-- R395, R418: the partition control block. -/
def State.readPartition (s : State) (o : Nat) : DWord :=
  if 0x008 ≤ o && o ≤ 0x020 then Map.get 0 s.parg ((o - 8) / 8)
  else if o = 0x028 then fields [(32, s.pseq.toNat), (8, b2n s.pbusy), (0, s.pcode)]
  else if 0x100 ≤ o && o < 0x300 then
    let x := Map.get SStat.reset (s.part s.pcmdPart).sstat ((o - 0x100) / 8)
    fields [(48, x.rdev), (32, x.refuse), (16, x.miss), (0, x.switch)]
  else 0

/-- R53: the key block. -/
def State.readKeys (s : State) (o : Nat) : DWord :=
  match o with
  | 0x00 => fields [(0, s.ksel.toNat)]
  | 0x10 => fields [(2, b2n s.kerr), (0, (s.slot s.ksel.toNat).state)]
  | _ => 0

/-- R486: a port block. -/
def State.readPort (s : State) (p o : Nat) : DWord :=
  let x := s.port p
  match o with
  | 0x00 => fields [(1, b2n x.pmd), (0, b2n x.en)]
  | 0x08 => fields [(32, x.replay), (16, x.drop), (0, b2n x.up)]
  | _ => 0

/-- R45-R47, R55, R78, R331, R426: the translation block. -/
def VDev.readTranslation (x : VDev) (o : Nat) : DWord :=
  match o with
  | 0x000 => fields [(12, x.root.toNat), (0, b2n x.trEn)]
  | 0x008 => fields [(12, x.lastPg.toNat)]
  | 0x010 => fields [(12, x.invPage.toNat)]
  | 0x020 => fields [(32, x.invDone.toNat), (2, b2n x.bwref), (1, b2n x.ovf), (0, b2n (!x.pendingInv.isEmpty))]
  | 0x028 => fields [(24, x.bwRate.toNat), (0, x.bwBurst.toNat)]
  | 0x030 => fields [(7, x.tidBase.toNat)]
  | 0x038 => fields [(0, x.tidCount.toNat)]
  | 0x040 => fields [(12, x.olBase.toNat)]
  | 0x048 => fields [(0, x.olCount.toNat)]
  | 0x050 => fields [(12, x.fqBase.toNat)]
  | 0x058 => fields [(7, b2n x.fqLost), (6, b2n x.fqDres), (5, b2n x.fqIe), (4, b2n x.fqEn), (0, x.fqLog.toNat)]
  | 0x060 => fields [(0, x.fqHead.toNat)]
  | 0x068 => fields [(0, x.fqTail.toNat)]
  | 0x078 => fields [(0, x.fqRval.toNat)]
  | 0x080 => fields [(20, x.pfBase.toNat)]
  | 0x088 => fields [(0, x.pfCount.toNat)]
  | _ => 0

/-- R400: the control block. -/
def VDev.readControl (x : VDev) (o : Nat) : DWord :=
  match o with
  | 0x00 => fields [(0, b2n x.gscope)]
  | 0x08 => fields [(24, x.qRate.toNat), (0, x.qBurst.toNat)]
  | 0x10 => fields [(32, x.sseq.toNat), (24, x.weight.toNat), (4, x.quant.toNat), (2, b2n x.qRaised), (1, b2n x.stopped), (0, b2n x.run)]
  | _ => 0

/-- R445, R448: the debug block. -/
def State.readDebug (s : State) (v o : Nat) : DWord :=
  let x := s.vd v
  match o with
  | 0x00 => fields [(1, b2n x.tstop), (0, b2n x.dbgEn)]
  | 0x10 => fields [(32, x.dbgSteps.toNat), (2, b2n x.dbgStall), (1, b2n x.dbgMill.isSome), (0, b2n (s.debugHalted v))]
  | 0x18 => fields [(0, x.snCtl.toNat)]
  | 0x20 => fields [(47, x.snTag.toNat), (44, x.snSrc.toNat), (0, b2n x.latched)]
  | _ => 0

/-- R380: a kick page. -/
def VDev.readKick (x : VDev) (o : Nat) : DWord :=
  if o < 0x200 then fields [(32, (x.qHead (o / 8)).toNat), (0, (x.qTail (o / 8)).toNat)]
  else if o < 0x400 then
    let q := (o - 0x200) / 8
    fields [(12, (Map.get 0 x.qcfgBase q).toNat), (8, (Map.get 0 x.qcfgLog q).toNat), (0, b2n (Map.get false x.qcfgEn q))]
  else match o with
    | 0x400 => x.pend
    | 0x410 => fields [(16, b2n x.ie), (0, x.win.toNat)]
    | 0x418 => x.cseq
    | 0x420 => fields [(1, b2n x.cerr), (0, b2n x.qovf)]
    | _ => 0

/-- R491: the snapshot region: an entry of 4 KiB for each block that has latched, in the order tabled, cores by number (log 19). -/
def State.readSnapshot (s : State) (entry o : Nat) : DWord :=
  match s.snap[entry]? with
  | some e => Config.snapshotWord e.2 o
  | none => 0

/-- R479: reads 8 bytes of the management window. -/
def State.windowRead (s : State) (off : Nat) : DWord :=
  let page := off / 4096
  let o := off % 4096
  if page = 0 then s.readDevice o
  else if page = 1 then readCaps o
  else if page = 2 then s.readPartition o
  else if page = 3 then s.readKeys o
  else if off = 0x4000 then fields [(31, b2n s.govEn), (30, b2n s.govRaised), (0, s.govLimit.toNat)]
  else if page = 5 then (if o < 64 then Map.get 0 s.errcnt (o / 8) else 0)
  else if page = 8 then (if o < 64 * 36 then s.readPort (o / 64) (o % 64) else 0)
  else if 0x100 ≤ page && page < 0x200 then
    if o < 0x400 then (s.vd (page - 0x100)).readTranslation o
    else if o < 0x800 then (s.vd (page - 0x100)).readControl (o - 0x400)
    else s.readDebug (page - 0x100) (o - 0x800)
  else if 0x200 ≤ page && page < 0x300 then (s.vd (page - 0x200)).readKick o
  else if 0x1000 ≤ page && page < 0x2000 then s.readSnapshot (page - 0x1000) o
  else 0

/-! ### Writing the management window -/

/-- A write of a plain register. -/
def State.plain (s : State) (r : MReg) (v : DWord) : State := afterStep s (execRegisterWrite r v s)

/-- R480: a write of the device block. -/
def State.writeDevice (s : State) (o : Nat) (v : DWord) : State :=
  match o with
  | 0x08 => if v.getLsbD 0 then afterStep s (execDeviceReset s) else s.plain .devctl v
  | 0x18 => s.plain .thstat v
  | _ => s

/-- R395, R396: a write of PCMD starts a command; an unknown one is malformed. -/
def State.writePcmd (s : State) (v : DWord) : State :=
  let p := bits v 7 0
  let run (f : Nat → State → Host.Outcome State Fault Refusal) : State := afterStep s (f p s)
  match bits v 47 40 with
  | 0x01 => run execPcreate
  | 0x02 => run execPgrant
  | 0x03 => run execPrevoke
  | 0x04 => run execPdestroy
  | 0x10 => run execVdcreate
  | 0x11 => run execVdsched
  | 0x12 => run execVdstop
  | 0x13 => run execVddestroy
  | 0x20 => run execGjoin
  | 0x21 => run execGretire
  | 0x30 => run execSlotw
  | 0x31 => run execBfillw
  | 0x40 => run execCcreate
  | 0x41 => run execCdestroy
  | _ => if s.pbusy then s else { s with pcmdPart := p }.endCommand 1

/-- R395: a write of the partition control block. -/
def State.writePartition (s : State) (o : Nat) (v : DWord) : State :=
  if o = 0 then s.writePcmd v else if 0x008 ≤ o && o ≤ 0x020 then s.plain (.parg ((o - 8) / 8)) v else s

/-- R53, R54: a write of the key block. -/
def State.writeKeys (s : State) (o : Nat) (v : DWord) : State :=
  if o = 0x00 then s.plain .ksel v
  else if o = 0x08 then
    match bits v 1 0 with
    | 1 => afterStep s (execKeyGenerate s)
    | 2 => afterStep s (execKeyLoad s)
    | 3 => afterStep s (execKeyZeroise s)
    | _ => s
  else if o = 0x10 then s.plain .kstat v
  else if 0x40 ≤ o && o < 0x80 then s.plain (.kdata ((o - 0x40) / 8)) v
  else s

/-- R45-R47, R55, R78, R331, R426, R428: a write of a translation block. -/
def State.writeTranslation (s : State) (d o : Nat) (v : DWord) : State :=
  match o with
  | 0x000 => s.plain (.mtroot d) v
  | 0x008 => s.plain (.mwlim d) v
  | 0x010 => s.plain (.mtinva d) v
  | 0x018 => afterStep s (execInvalidationStart d (v.truncate 52) s)
  | 0x020 => s.plain (.mtistat d) v
  | 0x028 => afterStep s (execBwlimWrite d v s)
  | 0x030 => s.plain (.tidbase d) v
  | 0x038 => s.plain (.tidn d) v
  | 0x040 => s.plain (.olbase d) v
  | 0x048 => s.plain (.olsize d) v
  | 0x050 => s.plain (.fqbase d) v
  | 0x058 => s.plain (.fqctl d) v
  | 0x060 => s.plain (.fqhead d) v
  | 0x070 => afterStep s (execFqresWrite d (v.truncate 32) (BitVec.ofNat 16 (bits v 47 32)) s)
  | 0x078 => s.plain (.fqrval d) v
  | 0x080 => afterStep s (execParkFrameConfigWrite d false v s)
  | 0x088 => afterStep s (execParkFrameConfigWrite d true v s)
  | _ => s

/-- R400: a write of a control block. -/
def State.writeControl (s : State) (d o : Nat) (v : DWord) : State :=
  match o with
  | 0x00 => s.plain (.vdpol d) v
  | 0x08 => afterStep s (execQbwlimWrite d v s)
  | 0x10 => s.plain (.vdstat d) v
  | _ => s

/-- R445: a write of DBGCMD. -/
def State.writeDbgcmd (s : State) (d : Nat) (v : DWord) : State :=
  let c := bits v 44 34
  match bits v 63 56 with
  | 1 => afterStep s (execDbgHalt d s)
  | 2 => afterStep s (execDbgRun d s)
  | 3 => afterStep s (execDbgStep d s)
  | 4 => afterStep s (execDbgRunMillstone d c s)
  | 5 => afterStep s (execDbgDump d c s)
  | 6 => afterStep s (execDbgLoad d c s)
  | _ => s

/-- R445, R448: a write of a debug block. A write of SNSTAT that clears LATCHED and fires re-arms first. -/
def State.writeDebug (s : State) (d o : Nat) (v : DWord) : State :=
  match o with
  | 0x00 => s.plain (.dbgctl d) v
  | 0x08 => s.writeDbgcmd d v
  | 0x18 => s.plain (.snctl d) v
  | 0x20 =>
    let s := s.plain (.snstat d) v
    if v.getLsbD 1 then afterStep s (execSnstatFire d s) else s
  | _ => s

/-- R380: a write of a kick page. -/
def State.writeKick (s : State) (d o : Nat) (v : DWord) : State :=
  if o < 0x200 then afterStep s (execKick d (o / 8) (v.truncate 32) s)
  else if o < 0x400 then s.plain (.qcfg d ((o - 0x200) / 8)) v
  else match o with
    | 0x408 => afterStep s (execHint d v s)
    | 0x410 => afterStep s (execCcfgWrite d v s)
    | 0x420 =>
      let s := s.plain (.lstat d) v
      if v.getLsbD 2 then afterStep s (execLstatInv d s) else s
    | _ => s

/-- R479: writes 8 bytes of the management window. -/
def State.windowWrite (s : State) (off : Nat) (v : DWord) : State :=
  let page := off / 4096
  let o := off % 4096
  if page = 0 then s.writeDevice o v
  else if page = 2 then s.writePartition o v
  else if page = 3 then s.writeKeys o v
  else if off = 0x4000 then afterStep s (execGovctlWrite v s)
  else if page = 8 then (if o < 64 * 36 && o % 64 = 0 then s.plain (.qpctl (o / 64)) v else s)
  else if 0x100 ≤ page && page < 0x200 then
    if o < 0x400 then s.writeTranslation (page - 0x100) o v
    else if o < 0x800 then s.writeControl (page - 0x100) (o - 0x400) v
    else s.writeDebug (page - 0x100) (o - 0x800) v
  else if 0x200 ≤ page && page < 0x300 then s.writeKick (page - 0x200) o v
  else s

/-! ### Requests -/

/-- R475, R477: a request is answered; its TAG is outstanding until the ACK leaves. -/
def State.ack (s : State) (func tag status : Nat) (data : List Byte) : State := { s with acks := s.acks ++ [.ack func tag status data 0] }

/-- R477: is a TAG of a function outstanding? -/
def State.outstanding (s : State) (func tag : Nat) : Bool :=
  s.acks.any fun a => match a with | .ack f t _ _ _ => f = func && t = tag | _ => false

/-- R477: flits of a function's requests have been consumed: their credits are to return. -/
def State.oweSeust (s : State) (func n : Nat) : State := { s with seustOwed := Map.modify 0 s.seustOwed func (· + n) }

/-- R476, R477: does a request reach the device? The link is up, and the header has a place for its function and its TAG. -/
def State.reaches (s : State) (func tag : Nat) : Bool := s.seustUp && func ≤ 256 && tag < 4096

/-- R477: a request of `n` flits is taken: one whose TAG is outstanding is refused. -/
def State.request (s : State) (func tag n : Nat) (f : State → State) : State :=
  if !s.reaches func tag then s
  else
    let s := s.oweSeust func n
    if s.outstanding func tag then s.ack func tag 3 [] else f s

/-- R475, R477: what a request on the window is refused with: 3 malformed, 1 out of reach. -/
def windowRefusal (func off : Nat) : Option Nat :=
  if off % 8 != 0 then some 3
  else if func != 0 && off / 4096 != 0x200 + (func - 1) then some 1
  else none

/-- R475: an MRD. -/
def execMrd (func : Nat) (tag : Nat) (off : BitVec 64) (s : State) : Host.Outcome State Fault Refusal :=
  s.move fun s => s.request func tag 1 fun s =>
    match windowRefusal func off.toNat with
    | some e => s.ack func tag e []
    | none => s.ack func tag 0 (leBytes 8 (s.windowRead off.toNat).toNat)

/-- R475, R478: an MWR, performed before its ACK leaves. -/
def execMwr (func : Nat) (tag : Nat) (off : BitVec 64) (v : BitVec 64) (s : State) : Host.Outcome State Fault Refusal :=
  s.move fun s => s.request func tag 1 fun s =>
    match windowRefusal func off.toNat with
    | some e => s.ack func tag e []
    | none => (s.windowWrite off.toNat v).ack func tag 0 []

/-- R31, R475, R477: is an HRD or HWR malformed? -/
def spaceMalformed (func vd va len : Nat) : Bool :=
  len < 16 || 4096 < len || len % 16 != 0 || va % 16 != 0 || (func != 0 && vd != 0 && vd != func - 1)

/-- R475: the virtual device whose M space a request reaches. -/
def spaceOf (func vd : Nat) : Nat := if func = 0 then vd else func - 1

/-- R34, R45: an HRD. -/
def execHrd (func : Nat) (tag : Nat) (vd : Nat) (va : BitVec 64) (len : Nat) (s : State) : Host.Outcome State Fault Refusal :=
  s.move fun s => s.request func tag 1 fun s =>
    let v := spaceOf func vd
    if spaceMalformed func vd va.toNat len then s.ack func tag 3 []
    else if !(s.vd v).trEn then s.ack func tag 2 []
    else match s.mReadExtent v va.toNat len .hostRead with
      | .error _ => s.ack func tag 2 []
      | .ok (b, s) => s.ack func tag 0 b

/-- R34, R45: an HWR. -/
def execHwr (func : Nat) (tag : Nat) (vd : Nat) (va : BitVec 64) (data : List Byte) (s : State) : Host.Outcome State Fault Refusal :=
  s.move fun s => s.request func tag (requestFlits data.length) fun s =>
    let v := spaceOf func vd
    if spaceMalformed func vd va.toNat data.length then s.ack func tag 3 []
    else if !(s.vd v).trEn then s.ack func tag 2 []
    else match s.mWriteExtent v va.toNat data .hostWrite with
      | .error _ => s.ack func tag 2 []
      | .ok s => s.ack func tag 0 []

/-- R477: a Seust packet with a header that is malformed, one of a type that the host does not send among them, or with a TAG still
outstanding, is answered with status 3, and the credits of its flits return, where FUNC and TAG can be read. One whose FUNC is out of range
cannot be answered and is dropped too. -/
def execSeustMalformedPacket (readable : Bool) (header : BitVec 64) (flits : Nat) (s : State) : Host.Outcome State Fault Refusal :=
  s.move fun s =>
    let func := fld header.toNat 57 49
    let tag := fld header.toNat 48 37
    if readable && s.reaches func tag && (seustMalformed header.toNat || s.outstanding func tag) then (s.oweSeust func flits).ack func tag 3 []
    else s

/-- R477, R478: ACKs leave in the order of their requests, each with the credits of its function that a later flit of it has room for. -/
def State.leaveAcks (s : State) : List Output → State
  | [] => { s with acks := [] }
  | .ack f t st d _ :: rest =>
    let n := if ackFlits d = 1 then 0 else min 65535 (Map.get 0 s.seustOwed f)
    { s with out := .ack f t st d n :: s.out, seustOwed := Map.modify 0 s.seustOwed f (· - n) }.leaveAcks rest
  | _ :: rest => s.leaveAcks rest

/-- R477: what the device has for the host leaves while the link is up: ACKs, and then the credits left. -/
def State.leaveSeust (s : State) : State :=
  if !s.seustUp || (s.acks.isEmpty && s.seustOwed.isEmpty) then s
  else
    let s := s.leaveAcks s.acks
    { s with seustOwed := [], out := ((s.seustOwed.filter (·.2 != 0)).map fun e => Output.seustCredit e.1 e.2).reverse ++ s.out }

/-- R477, R478, R482: a cycle is over: what the device set in it may be cleared from now on, and ACKs and credits leave. -/
def State.newCycle (s : State) : State := ({ s with fresh := [] }.leaveSeust).flushCredits (List.range 36)

/-! ### Links -/

/-- R476: the Seust link comes up, and the interrupts held leave. -/
def execSeustLinkUp (s : State) : Host.Outcome State Fault Refusal :=
  s.move fun s =>
    if s.bootStep < 6 then s
    else { s with seustUp := true, seustRetraining := false, out := s.ints.reverse ++ s.out, ints := [] }

/-- R476: the Seust link retrains. -/
def execSeustLinkRetrain (s : State) : Host.Outcome State Fault Refusal :=
  s.move fun s => if s.seustUp then { s with seustUp := false, seustRetraining := true } else s

/-- R476: the Seust link stays down until the control node retrains it. -/
def execSeustRetrainTimeout (s : State) : Host.Outcome State Fault Refusal :=
  s.move fun s => { s with seustRetraining := false }

/-- R485: the receiver of a port asks for a replay. -/
def execLinkReplay (p : Nat) (s : State) : Host.Outcome State Fault Refusal :=
  s.move fun s => if p < 36 then s.setPort p { s.port p with replay := min (2 ^ 32 - 1) ((s.port p).replay + 1) } else s

/-- R485: a port loses its link and retrains. -/
def execPortRetrain (p : Nat) (s : State) : Host.Outcome State Fault Refusal :=
  s.move fun s => if (s.port p).up then s.setPort p { s.port p with up := false, retraining := true } else s

/-- R485: a port that has not retrained goes down; what waited there takes other routes. -/
def execLinkRetrainTimeout (p : Nat) (s : State) : Host.Outcome State Fault Refusal :=
  s.move fun s =>
    if (s.port p).retraining then (s.setPort p { s.port p with up := false, retraining := false }).reroute p else s

/-- R485, R486: a port that is enabled finishes training; what waits at ports that are down may go by it. -/
def execQuijaLinkUp (p : Nat) (s : State) : Host.Outcome State Fault Refusal :=
  s.move fun s =>
    if p < 36 && s.qen && (s.port p).en then
      (s.setPort p { s.port p with up := true, retraining := false }).rerouteAll ((List.range 36).filter fun q => !(s.port q).retraining)
    else s

end Sys2Proof.Machine
end

