-- ==== Sys2Proof/Machine/EvTail.lean ====
section
/-! DEFINITION. Events of the Tailrace: spills and refills complete (R263, R275-R277). -/

namespace Sys2Proof.Machine

/-- R275: the entries after a spill has landed: the entry leaves the ring. Where an older one is being refilled meanwhile, it is the newest
spilled entry, and is refilled too, since the entries in the ring are always the topmost (R259). -/
def spilledEnts (base : Nat) (es : List TailEnt) : List TailEnt :=
  match es.getLast? with
  | some e => if e.base = base then es.dropLast else es.map fun d => if d.base = base then { d with st := 2 } else d
  | none => []

/-- R266: the bytes of an entry: those in the ring, with what of it has still to land. -/
def Core.entryBytes (k : Core) (e : TailEnt) : List Byte :=
  let ring := k.inflight.foldl (fun r f => match f.what with | .tail b v => if b = e.base then ringWrite r b v else r | _ => r) k.tail.ring
  { k.tail with ring := ring }.read e.base e.size

/-- R277: a spill or refill fails: a spill-region fault. -/
def spillFault (t : Trap) (kind : Nat) : Trap := { cls := 13, addr := t.addr, kind := kind }

/-- R277, R425: the fault of a spill or a refill, on a core that has not met one before. -/
def State.tailFault (s : State) (c : Nat) (t : Trap) : State := if (s.core c).mode = .faulted then s else s.takeFault c t

/-- Replaces the Tailrace of a core. -/
def State.setTail (s : State) (c : Nat) (t : Tail) : State := s.setCore c { s.core c with tail := t }

/-- R277: an entry whose spill faulted stays resident. -/
def Tail.spared (t : Tail) (base : Nat) : Tail := { t with ents := t.ents.map fun e => if e.base = base then { e with st := 0 } else e }

/-- R277: after a refill has faulted no entry is being refilled. -/
def Tail.unfilled (t : Tail) : Tail := { t with ents := t.ents.filter fun e => e.st < 2 }

/-- R275: a spill's writes land. A spill of an entry that has been popped comes first. The bytes of an entry pushed by a word whose result
is still in flight are known since its issue (R264), and a spill need not wait for the schedule cycle of that result, in which a core that
stalls for the spill (R273) would never arrive. DEDUCED, safe (log 22). -/
def execTailraceSpillComplete (c : Nat) (s : State) : Host.Outcome State Fault Refusal :=
  s.move fun s =>
    let k := s.core c
    let t := k.tail
    let v := s.coreVd c
    match t.flight with
    | (_, va, bs) :: rest =>
      match s.mWriteExtent v va bs .write with
      | .error e => (s.setTail c { t with flight := rest }).tailFault c (spillFault e 1)
      | .ok s => s.setTail c { t with flight := rest }
    | [] =>
      match t.ents.reverse.find? (·.st = 1) with
      | none => s
      | some e =>
        match s.mWriteExtent v (t.spb + e.base) (k.entryBytes e) .write with
        | .error x => (s.setTail c (t.spared e.base)).tailFault c (spillFault x 1)
        | .ok s => s.setTail c { t with ents := spilledEnts e.base t.ents }

/-- R263, R275: a refilled entry lands in the ring as its header now reads; one whose header R263 rejects, or that cannot be read, is a
spill-region fault. Where software has changed the size since the entry was marked, the older refills are sought anew. -/
def execTailraceRefillComplete (c : Nat) (s : State) : Host.Outcome State Fault Refusal :=
  s.move fun s =>
    let t := (s.core c).tail
    match t.ents.dropWhile (·.st < 2) with
    | [] => s
    | e :: older =>
      let top := e.base + e.size
      let f := s.refillHeader c t top
      if f.st = 3 then (s.setTail c t.unfilled).tailFault c { cls := 13, addr := t.spb + f.base }
      else match s.mReadExtent (s.coreVd c) (t.spb + f.base) f.size .read with
        | .error x => (s.setTail c t.unfilled).tailFault c (spillFault x 0)
        | .ok (bs, s) =>
          let ents := t.ents.takeWhile (·.st < 2) ++ { f with st := 0 } :: (if f.size = e.size then older else [])
          let u : Tail := { t with ring := ringWrite t.ring f.base bs, ents := ents }
          s.setTail c { u with count := u.recount }

end Sys2Proof.Machine
end

