-- ==== Sys2Proof/Machine/PlaneAxis.lean ====
section
/-! DEFINITION. Rotations, broadcasts and reductions along an axis (R251, R252). -/

namespace Sys2Proof.Machine

/-- R251: the lane index of a row and a column. -/
def laneAt (row col : Nat) : Nat := row * 64 + col

/-- R251: the amount k = b × 8 + sub, as the instruction word carries it. -/
def State.axisMove (s : State) (lat : Nat) (d a : Fin 16) (mask : Fin 8) (pw : Fin 4) (src : Nat → Nat → Nat) : Eff :=
  s.planeQuiet lat (pwPlanes pw) d mask fun j i => s.cur.at_ a j (src (i / 64) (i % 64))

/-- R251: rotation along rows. -/
def execProtRow (d : Fin 16) (a : Fin 16) (k : Fin 128) (mask : Fin 8) (pw : Fin 4) (s : State) : Host.Outcome State Fault Refusal :=
  s.word (.protRow d a k mask pw) fun s => s.axisMove 6 d a mask pw fun r c => laneAt r ((c + k) % 64)

/-- R251: rotation along columns. -/
def execProtCol (d : Fin 16) (a : Fin 16) (k : Fin 128) (mask : Fin 8) (pw : Fin 4) (s : State) : Host.Outcome State Fault Refusal :=
  s.word (.protCol d a k mask pw) fun s => s.axisMove 10 d a mask pw fun r c => laneAt ((r + k) % 16) c

/-- R251: broadcast of column k along rows. -/
def execPbcRow (d : Fin 16) (a : Fin 16) (k : Fin 128) (mask : Fin 8) (pw : Fin 4) (s : State) : Host.Outcome State Fault Refusal :=
  s.word (.pbcRow d a k mask pw) fun s => s.axisMove 6 d a mask pw fun r _ => laneAt r k

/-- R251: broadcast of row k along columns. -/
def execPbcCol (d : Fin 16) (a : Fin 16) (k : Fin 128) (mask : Fin 8) (pw : Fin 4) (s : State) : Host.Outcome State Fault Refusal :=
  s.word (.pbcCol d a k mask pw) fun s => s.axisMove 10 d a mask pw fun _ c => laneAt k c

/-! ### Reductions -/

/-- The lanes of the row or column with number `g`. -/
def axisLanes (row : Bool) (g : Nat) : List Nat :=
  if row then (List.range 64).map (laneAt g) else (List.range 16).map fun r => laneAt r g

/-- The number of the row or column of a lane. -/
def axisOf (row : Bool) (i : Nat) : Nat := if row then i / 64 else i % 64

/-- R252: the elements `k` that the enabled lanes of a row or column contribute. -/
def Core.contrib (k : Core) (a : Fin 16) (mask : Fin 8) (row : Bool) (ty j g e : Nat) : List Nat :=
  ((axisLanes row g).filter fun i => (k.pred mask).getLsbD i).map fun i => elemOf ty e (k.at_ a j i)

/-- What a row or column comes to before the rounding of each lane: the exact float sum with the NaNs that stand for its
operands, or the integer result. -/
structure Reduced where
  ops : List Num
  sum : Option Num
  int : Int

/-- R252: the exact sum of contributions. -/
def sumReduce (ty sub : Nat) (xs : List Nat) : Reduced :=
  if ty ≤ 2 then
    let ns := xs.map (fmtOf ty 0).decode
    { ops := if ns.any Num.isSig then [.nan true] else if ns.any Num.isNan then [.nan false] else [],
      sum := sumExact sub ns, int := 0 }
  else { ops := [], sum := none, int := (xs.map (intElem ty sub)).sum }

/-- R252: a float sum rounded once in each lane, or an integer one wrapped or saturated. -/
def sumFinish (ty sub rb : Nat) (r : Reduced) : Nat × Flags :=
  if ty ≤ 2 then floatOp r.ops r.sum (fmtOf ty 0) sub rb else (intOut ty sub r.int, 0)

/-- R252: a reduction word: each group's elements are reduced once, then finished in every lane. -/
def State.planeReduce {α : Type} (s : State) (lat : Nat) (row : Bool) (d a : Fin 16) (mask : Fin 8) (pw : Fin 4) (ty : Fin 8)
    (f : List Nat → α) (fin : Nat → Nat → Nat → α → Nat × Flags) : Eff :=
  let n := if row then 16 else 64
  let tab := tabulate (pwPlanes pw) fun j => tabulate n fun g => tabulate (elems ty) fun e => f (s.cur.contrib a mask row ty j g e)
  s.planeOut lat 4 (pwPlanes pw) d mask fun j i => laneOf ty fun k =>
    match ((tab.getD j []).getD (axisOf row i) [])[k]? with
    | some r => fin j i k r
    | none => (0, 0)

/-- R252: the sum of each row. Where the rounding is stochastic, the one rounding of the sum is made in each lane that takes it, with that
lane's own draw (R68): the spec does not say which lane's draw it is. DESIGN CHOICE, unsafe (log 76). -/
def execPsumRow (d : Fin 16) (a : Fin 16) (mask : Fin 8) (pw : Fin 4) (ty : Fin 8) (sub : Fin 8) (s : State) : Host.Outcome State Fault Refusal :=
  s.word (.psumRow d a mask pw ty sub) fun s => s.planeReduce 9 true d a mask pw ty (sumReduce ty sub) fun j i k =>
    sumFinish ty sub (s.rbits sub j i k)

/-- R252: the sum of each column. -/
def execPsumCol (d : Fin 16) (a : Fin 16) (mask : Fin 8) (pw : Fin 4) (ty : Fin 8) (sub : Fin 8) (s : State) : Host.Outcome State Fault Refusal :=
  s.word (.psumCol d a mask pw ty sub) fun s => s.planeReduce 14 false d a mask pw ty (sumReduce ty sub) fun j i k =>
    sumFinish ty sub (s.rbits sub j i k)

/-- R252: is the extreme a maximum? -/
def isMax (ty sub : Nat) : Bool := if ty ≤ 5 then bit sub 0 else bit sub 1

/-- R252: the result where nothing contributes. -/
def emptyExtreme (ty sub : Nat) : Nat :=
  match fmtOf ty (sub % 2) with
  | .int s n => wrap n (if isMax ty sub then intMin s n else intMax s n)
  | f => f.signed (isMax ty sub) (f.maxCode + 1)

/-- R252: the extreme of the contributions. -/
def extreme (ty sub : Nat) (xs : List Nat) : Nat × Flags :=
  xs.foldl (fun r x =>
    let q := elemPick (isMax ty sub) ty (if ty ≤ 2 then 0 else sub) r.1 x
    (q.1, r.2 ||| q.2)) (emptyExtreme ty sub, 0)

/-- R252: the extreme of each row. -/
def execPredRow (d : Fin 16) (a : Fin 16) (mask : Fin 8) (pw : Fin 4) (ty : Fin 8) (sub : Fin 8) (s : State) : Host.Outcome State Fault Refusal :=
  s.word (.predRow d a mask pw ty sub) fun s => s.planeReduce 9 true d a mask pw ty (extreme ty sub) fun _ _ _ r => r

/-- R252: the extreme of each column. -/
def execPredCol (d : Fin 16) (a : Fin 16) (mask : Fin 8) (pw : Fin 4) (ty : Fin 8) (sub : Fin 8) (s : State) : Host.Outcome State Fault Refusal :=
  s.word (.predCol d a mask pw ty sub) fun s => s.planeReduce 14 false d a mask pw ty (extreme ty sub) fun _ _ _ r => r

end Sys2Proof.Machine
end

