-- ==== Sys2Proof/Machine/PlaneBits.lean ====
section
/-! DEFINITION. Bits, shifts and sequences (R242), predicates (R243-R247), conversion (R248, R249) and random numbers (R250). -/

namespace Sys2Proof.Machine

/-! ### Bits, shifts, sequences -/

/-- R242: a and b. -/
def execPand (d : Fin 16) (a : Fin 16) (b : Fin 16) (mask : Fin 8) (pw : Fin 4) (s : State) : Host.Outcome State Fault Refusal :=
  s.word (.pand d a b mask pw) fun s => s.planeQuiet 6 (pwPlanes pw) d mask fun j i => s.cur.at_ a j i &&& s.cur.at_ b j i

/-- R242: a or b. -/
def execPor (d : Fin 16) (a : Fin 16) (b : Fin 16) (mask : Fin 8) (pw : Fin 4) (s : State) : Host.Outcome State Fault Refusal :=
  s.word (.por d a b mask pw) fun s => s.planeQuiet 6 (pwPlanes pw) d mask fun j i => s.cur.at_ a j i ||| s.cur.at_ b j i

/-- R242: a xor b. -/
def execPxor (d : Fin 16) (a : Fin 16) (b : Fin 16) (mask : Fin 8) (pw : Fin 4) (s : State) : Host.Outcome State Fault Refusal :=
  s.word (.pxor d a b mask pw) fun s => s.planeQuiet 6 (pwPlanes pw) d mask fun j i => s.cur.at_ a j i ^^^ s.cur.at_ b j i

/-- R242: not a. -/
def execPnot (d : Fin 16) (a : Fin 16) (mask : Fin 8) (pw : Fin 4) (s : State) : Host.Outcome State Fault Refusal :=
  s.word (.pnot d a mask pw) fun s => s.planeQuiet 6 (pwPlanes pw) d mask fun j i => ~~~(s.cur.at_ a j i)

/-- R242: a. -/
def execPmov (d : Fin 16) (a : Fin 16) (mask : Fin 8) (pw : Fin 4) (s : State) : Host.Outcome State Fault Refusal :=
  s.word (.pmov d a mask pw) fun s => s.planeQuiet 6 (pwPlanes pw) d mask fun j i => s.cur.at_ a j i

/-- R242: a shift word: `f` takes the element, the count and the width. -/
def State.planeShift (s : State) (d a b : Fin 16) (mask : Fin 8) (pw : Fin 4) (ty : Fin 8) (f : Nat → Nat → Nat → Nat) : Eff :=
  s.planeQuiet 6 (pwPlanes pw) d mask fun j i => packLane ty fun k =>
    f (elemBits ty) (elemOf ty k (s.cur.at_ a j i)) (elemOf ty k (s.cur.at_ b j i) % elemBits ty)

/-- R242: a << (b mod width). -/
def execPshl (d : Fin 16) (a : Fin 16) (b : Fin 16) (mask : Fin 8) (pw : Fin 4) (ty : Fin 8) (sub : Fin 8) (s : State) : Host.Outcome State Fault Refusal :=
  s.word (.pshl d a b mask pw ty sub) fun s => s.planeShift d a b mask pw ty fun _ x n => x * 2 ^ n

/-- R242: a >> (b mod width), zeros enter. -/
def execPshr (d : Fin 16) (a : Fin 16) (b : Fin 16) (mask : Fin 8) (pw : Fin 4) (ty : Fin 8) (sub : Fin 8) (s : State) : Host.Outcome State Fault Refusal :=
  s.word (.pshr d a b mask pw ty sub) fun s => s.planeShift d a b mask pw ty fun _ x n => x / 2 ^ n

/-- R242: a >> (b mod width), the sign bit enters. -/
def execPsar (d : Fin 16) (a : Fin 16) (b : Fin 16) (mask : Fin 8) (pw : Fin 4) (ty : Fin 8) (sub : Fin 8) (s : State) : Host.Outcome State Fault Refusal :=
  s.word (.psar d a b mask pw ty sub) fun s => s.planeShift d a b mask pw ty fun w x n => wrap w (sxt w x / ((2 ^ n : Nat) : Int))

/-- R242: the element number, modulo 2^width. -/
def execPiota (d : Fin 16) (mask : Fin 8) (pw : Fin 4) (ty : Fin 8) (sub : Fin 8) (s : State) : Host.Outcome State Fault Refusal :=
  s.word (.piota d mask pw ty sub) fun s => s.planeQuiet 6 (pwPlanes pw) d mask fun _ i => packLane ty fun k => i * elems ty + k

/-! ### Predicates -/

/-- R243-R245: a predicate result, landing at issue + 6 in the lanes of the mask. -/
def State.predOut (s : State) (q : Fin 16) (mask : Fin 8) (v : BitVec 1024) : Eff := s.landAt 6 (.pred q (s.cur.pred mask) v)

/-- R243: one lane's comparison. -/
def cmpLane (ty sub : Nat) (x y : Word) : Bool × Flags :=
  if ty = 0 then
    let a := Fmt.f32.decode x.toNat
    let b := Fmt.f32.decode y.toNat
    let n := a.isNan || b.isNan
    (match sub with
      | 0 => !n && a.same b
      | 1 => !n && a.lt false b
      | 2 => !n && !b.lt false a
      | 3 => n
      | _ => n || !a.same b, if a.isSig || b.isSig then 1 else 0)
  else
    let a : Int := if ty = 4 then x.toInt else x.toNat
    let b : Int := if ty = 4 then y.toInt else y.toNat
    (match sub with
      | 0 => a = b
      | 1 => a < b
      | 2 => a ≤ b
      | _ => a != b, 0)

/-- R243: compares lane by lane into a predicate. -/
def execPcmp (d : Fin 16) (a : Fin 16) (b : Fin 16) (mask : Fin 8) (ty : Fin 8) (sub : Fin 8) (s : State) : Host.Outcome State Fault Refusal :=
  s.word (.pcmp d a b mask ty sub) fun s =>
    let r := tabulate lanes fun i => cmpLane ty sub (s.cur.at_ a 0 i) (s.cur.at_ b 0 i)
    s.landAll 6 (.pred d (s.cur.pred mask) (laneMask fun i => (r.getD i (false, 0)).1)
      :: flagLandings (s.cur.pred mask) [r.map (·.2)])

/-- R244: writes a where the predicate's bit is 1. -/
def execPsel (d : Fin 16) (a : Fin 16) (b : Fin 16) (mask : Fin 8) (pw : Fin 4) (s : State) : Host.Outcome State Fault Refusal :=
  s.word (.psel d a b mask pw) fun s =>
    s.landAll (groupLat 6 4 (pwPlanes pw)) (tabulate (pwPlanes pw) fun j =>
      .plane (d + j) (s.cur.pred mask &&& s.cur.pred b) (tabulate lanes (s.cur.at_ a j)))

/-- R245: x and y. -/
def execPmand (d : Fin 16) (a : Fin 16) (b : Fin 16) (mask : Fin 8) (s : State) : Host.Outcome State Fault Refusal :=
  s.word (.pmand d a b mask) fun s => s.predOut d mask (s.cur.pred a &&& s.cur.pred b)

/-- R245: x or y. -/
def execPmor (d : Fin 16) (a : Fin 16) (b : Fin 16) (mask : Fin 8) (s : State) : Host.Outcome State Fault Refusal :=
  s.word (.pmor d a b mask) fun s => s.predOut d mask (s.cur.pred a ||| s.cur.pred b)

/-- R245: x xor y. -/
def execPmxor (d : Fin 16) (a : Fin 16) (b : Fin 16) (mask : Fin 8) (s : State) : Host.Outcome State Fault Refusal :=
  s.word (.pmxor d a b mask) fun s => s.predOut d mask (s.cur.pred a ^^^ s.cur.pred b)

/-- R245: not x. -/
def execPmnot (d : Fin 16) (a : Fin 16) (mask : Fin 8) (s : State) : Host.Outcome State Fault Refusal :=
  s.word (.pmnot d a mask) fun s => s.predOut d mask (~~~(s.cur.pred a))

/-- R246: a vote's truth over the voters. -/
def voteBit (sub : Nat) (x m : BitVec 1024) : Bool :=
  match sub % 4 with
  | 0 => x &&& m != 0
  | 1 => x &&& m = m
  | _ => x &&& m = 0

/-- R246: the number of voters whose bit is 1. -/
def voteCount (x m : BitVec 1024) : Nat := (enabledLanes (x &&& m)).length

/-- R246: reduces a predicate over the lanes of the mask, into every lane of a predicate or into a scalar. -/
def execPvote (d : Fin 16) (a : Fin 16) (mask : Fin 8) (sub : Fin 8) (s : State) : Host.Outcome State Fault Refusal :=
  s.word (.pvote d a mask sub) fun s =>
    let x := s.cur.pred a
    let m := s.cur.pred mask
    if sub.val ≤ 2 then s.landAt 14 (.pred d (BitVec.allOnes 1024) (if voteBit sub x m then BitVec.allOnes 1024 else 0))
    else s.landAll 14 (regLandings d [BitVec.ofNat 32 (if sub.val = 6 then voteCount x m else b2n (voteBit sub x m))])

/-- R247: the OR of the five flag planes. -/
def Core.anyFlag (k : Core) : BitVec 1024 := k.pred 8 ||| k.pred 9 ||| k.pred 10 ||| k.pred 11 ||| k.pred 12

/-- R247: clears one flag plane, gathers all five, or clears all five. -/
def execPflag (d : Fin 16) (mask : Fin 8) (sub : Fin 8) (s : State) : Host.Outcome State Fault Refusal :=
  s.word (.pflag d mask sub) fun s =>
    match sub.val with
    | 0 => s.predOut d mask 0
    | 1 => s.predOut d mask s.cur.anyFlag
    | _ => s.landAll 6 ((List.range 5).map fun b => .pred (8 + b) (s.cur.pred mask) 0)

/-! ### Conversion -/

/-- R233: sr.fctl.FRM, whose codes 5 to 7 act as RNE. -/
def Core.frm (k : Core) : Nat := if 5 ≤ k.fctl.toNat % 8 then 0 else k.fctl.toNat % 8

/-- R249: the rounding mode of `pcvt`. -/
def Core.cvtMode (k : Core) (ty sub : Nat) : Nat :=
  if hasVariant ty then
    (match sub / 2 with | 0 => 0 | 1 => 1 | 2 => 4 | _ => k.frm)
  else if sub = 5 then k.frm
  else sub

/-- R249: satfinite, for FP8 destinations. -/
def Core.cvtSat (k : Core) (ty : Nat) : Bool := ty = 3 && bit k.fctl.toNat 3

/-- R248: element number `g` of a source group. -/
def Core.groupElem (k : Core) (a : Fin 16) (sty g : Nat) : Nat :=
  elemOf sty (g % elems sty) (k.at_ a (g / (1024 * elems sty)) (g % (1024 * elems sty) / elems sty))

/-- R248: one destination element. -/
def State.cvtElem (s : State) (a b : Fin 16) (ty sub j i k : Nat) : Nat × Flags :=
  let sty := b.val % 8
  let rm := s.cur.cvtMode ty sub
  let x := s.cur.groupElem a sty (j * 1024 * elems ty + i * elems ty + k)
  convert ((fmtOf sty (b.val / 8)).decode x) (fmtOf ty (sub % 2)) rm (s.cur.cvtSat ty) (s.rbits rm j i k)

/-- R248: converts a group element by element. -/
def execPcvt (d : Fin 16) (a : Fin 16) (b : Fin 16) (mask : Fin 8) (pw : Fin 4) (ty : Fin 8) (sub : Fin 8) (s : State) : Host.Outcome State Fault Refusal :=
  s.word (.pcvt d a b mask pw ty sub) fun s =>
    let n := cvtPlanes b pw ty
    let m := s.cur.pred mask
    let r := tabulate n fun j => tabulate lanes fun i => laneOf ty fun k => s.cvtElem a b ty sub j i k
    s.landAll (groupLat 6 4 (max (pwPlanes pw) n))
      ((r.zipIdx.map fun (p, j) => Landing.plane (d + j) m (p.map (·.1))) ++ flagLandings m (r.map fun p => p.map (·.2)))

/-! ### Random numbers -/

/-- R250: random bits, or a value in [0, 1), in every enabled lane. -/
def execPrng (d : Fin 16) (mask : Fin 8) (pw : Fin 4) (sub : Fin 8) (s : State) : Host.Outcome State Fault Refusal :=
  s.word (.prng d mask pw sub) fun s => s.planeQuiet 6 (pwPlanes pw) d mask fun j i =>
    let w := s.rbits 4 j i 0
    BitVec.ofNat 32 (if sub.val = 0 then w else (convert (.fin false (w / 256) (-24) false) .f32 0 false 0).1)

end Sys2Proof.Machine
end

