-- ==== Sys2Proof/Machine/PlaneSpecial.lean ====
section
/-! DEFINITION. Special functions on planes (R253, R254). Transcendental values are computed in fixed point with 640 bits
after the point, far more than the rounding of the formats needs (log 8). -/

namespace Sys2Proof.Machine

/-! ### Fixed point -/

/-- Bits after the point. -/
def fixBits : Nat := 640

/-- π, ln 2 and 1/√(2π) in fixed point, truncated. -/
def fixPi : Nat := 14333329926761567455775730701799299831126131522901418329710873694248203755857903894978459978948837038337184470360789102305252273090192709030764248428292776480232102476327552185579501988876367276
def fixLn2 : Nat := 3162442850577000144542819255265044123884198300717798677536341180773118696995660441338367561063358767323571958122307070903190084685977847936741854327993944726832264493303953239866611699627604094
def fixInvSqrt2Pi : Nat := 1820150464190319494203866785703631173704171563122796470233450066561087044295148304852838913590182402037645514259844778733203633839842233661371634110202062154246293456649953713834282166314480533

/-- One in fixed point. -/
def fixOne : Nat := 2 ^ fixBits

def fixMul (a b : Nat) : Nat := a * b / 2 ^ fixBits

/-- The sum of a series: each next term is the last times `x` over `den k`, until it vanishes. -/
def series (x : Nat) (den : Nat → Nat) : Nat → Nat → Nat → Nat
  | 0, _, _ => 0
  | n + 1, k, t => if t = 0 then 0 else t + series x den n (k + 1) (fixMul t x / den k)

/-- e^r for r in [0, ln 2). -/
def expSmall (r : Nat) : Nat := series r (fun k => k) 200 1 fixOne

/-- e^y for a fixed-point y, in fixed point. -/
def fixExp (y : Int) : Nat :=
  let k := y / (fixLn2 : Int)
  let e := expSmall (y - k * fixLn2).toNat
  if 0 ≤ k then e * 2 ^ k.toNat else e / 2 ^ (-k).toNat

/-- ln u for u = m / 2^l in [1, 2): 2 artanh((u − 1)/(u + 1)), by its series in t². -/
def fixLn (m l : Nat) : Nat :=
  let t := (m - 2 ^ l) * fixOne / (m + 2 ^ l)
  let t2 := fixMul t t
  2 * artanh t2 260 1 t
where
  artanh (t2 : Nat) : Nat → Nat → Nat → Nat
    | 0, _, _ => 0
    | n + 1, k, p => if p = 0 then 0 else p / k + artanh t2 n (k + 2) (fixMul p t2)

/-- sin(πz) for z in [0, ½], by its alternating series. -/
def fixSinPi (z : Nat) : Nat :=
  let x := fixMul fixPi z
  let x2 := fixMul x x
  alt x2 120 1 x
where
  alt (x2 : Nat) : Nat → Nat → Nat → Nat
    | 0, _, _ => 0
    | n + 1, k, t => if t = 0 then 0 else t - alt x2 n (k + 2) (fixMul t x2 / ((k + 1) * (k + 2)))

/-- Φ(x) − ½ for x in [0, 16): φ(x) times the sum of x^(2n+1)/(2n+1)!!. -/
def fixPhi (x : Nat) : Nat :=
  let x2 := fixMul x x
  fixMul (fixMul fixInvSqrt2Pi (fixExp (-((x2 / 2 : Nat) : Int)))) (series x2 (fun k => 2 * k + 1) 1200 1 x)

/-- The bits of a square root, from bit `b` down. -/
def isqrt (n : Nat) : Nat → Nat → Nat
  | 0, r => r
  | b + 1, r => isqrt n b (if (r + 2 ^ b) * (r + 2 ^ b) ≤ n then r + 2 ^ b else r)

/-- The square root of a number, rounded down. -/
def natSqrt (n : Nat) : Nat := isqrt n (Nat.log2 n / 2 + 1) 0

/-! ### Functions of a positive finite value m × 2^e -/

/-- A finite value in fixed point; its exponent is at least −640 for every format of R253. -/
def toFix (m : Nat) (e : Int) : Nat := if 0 ≤ e then m * 2 ^ e.toNat * fixOne else m * fixOne / 2 ^ (-e).toNat

/-- A fixed-point magnitude that stands for an irrational value. -/
def ofFix (neg : Bool) (x : Nat) : Num := .fin neg x (-(fixBits : Int)) true

/-- √(m × 2^e). -/
def sqrtN (m : Nat) (e : Int) : Num :=
  let m' := if e % 2 = 0 then m else 2 * m
  let h := (e - e % 2) / 2
  let n := m' * 2 ^ 160
  let r := natSqrt n
  .fin false r (h - 80) (r * r != n)

/-- 1/√(m × 2^e). -/
def rsqN (m : Nat) (e : Int) : Num :=
  let m' := if e % 2 = 0 then m else 2 * m
  let h := (e - e % 2) / 2
  let k := 100 + Nat.log2 m'
  let r := natSqrt (2 ^ (2 * k) / m')
  .fin false r (-h - (k : Int)) (r * r * m' != 2 ^ (2 * k))

/-- 2^x. -/
def exp2N (neg : Bool) (m : Nat) (e : Int) : Num :=
  let big := 10 < e + (Nat.log2 m : Int)
  if big then (if neg then ofFix false 0 else .fin false 1 1000 false)
  else
    let x : Int := (if neg then -1 else 1) * (toFix m e : Int)
    let n := x / (fixOne : Int)
    let f := (x - n * fixOne).toNat
    if f = 0 then .fin false 1 n false
    else .fin false (expSmall (fixMul f fixLn2)) (n - (fixBits : Int)) true

/-- log₂(m × 2^e). -/
def log2N (m : Nat) (e : Int) : Num :=
  let l := Nat.log2 m
  let n := e + (l : Int)
  if m = 2 ^ l then Num.ofInt n
  else
    let x := n * fixOne + ((fixLn m l * fixOne / fixLn2 : Nat) : Int)
    ofFix (x < 0) x.natAbs

/-- A magnitude of at most 1,000, in fixed point: beyond it the functions below have reached their limits. -/
def capped (m : Nat) (e : Int) : Nat := if 9 < e + (Nat.log2 m : Int) then 1000 * fixOne else toFix m e

/-- tanh of a magnitude, from E = e^(2x). -/
def tanhN (neg : Bool) (m : Nat) (e : Int) : Num :=
  let x := fixExp (2 * (min (capped m e) (300 * fixOne) : Nat))
  ofFix neg ((x - fixOne) * fixOne / (x + fixOne))

/-- 1/(1 + e^−x). -/
def sigmN (neg : Bool) (m : Nat) (e : Int) : Num :=
  let x : Int := capped m e
  ofFix false (if neg then fixExp (-x) * fixOne / (fixOne + fixExp (-x)) else fixOne * fixOne / (fixOne + fixExp (-x)))

/-- x Φ(x). From 8 up it differs from x, and from −16 down from −0, by less than any rounding sees. -/
def geluN (neg : Bool) (m : Nat) (e : Int) : Num :=
  let x := toFix m e
  if neg then
    (if 4 ≤ e + (Nat.log2 m : Int) then ofFix true 0
     else .fin true (m * (fixOne / 2 - fixPhi x)) (e - (fixBits : Int)) true)
  else if 3 ≤ e + (Nat.log2 m : Int) then .fin false (m * 2 ^ 64) (e - 64) true
  else .fin false (m * (fixOne / 2 + fixPhi x)) (e - (fixBits : Int)) true

/-- R253: a special function of a value that is not NaN: the exact result, none where it is Invalid, and the flags of the
table. -/
def spfN (sub : Nat) (v : Num) : Option Num × Flags :=
  let zero := v.isZero
  match sub, v with
  | 0, _ => divExact (.fin false 1 0 false) v
  | 1, .fin n m e _ => if zero then (some (.inf n), 2) else if n then (none, 0) else (some (rsqN m e), 0)
  | 1, .inf n => (if n then none else some (.zero false), 0)
  | 2, .fin n m e _ => if zero then (some v, 0) else if n then (none, 0) else (some (sqrtN m e), 0)
  | 2, .inf n => (if n then none else some v, 0)
  | 3, .fin n m e _ => (some (if zero then .fin false 1 0 false else exp2N n m e), 0)
  | 3, .inf n => (some (if n then .zero false else v), 0)
  | 4, .fin n m e _ => if zero then (some (.inf true), 2) else if n then (none, 0) else (some (log2N m e), 0)
  | 4, .inf n => (if n then none else some v, 0)
  | 5, .fin n m e _ => (some (if zero then v else tanhN n m e), 0)
  | 5, .inf n => (some (.fin n 1 0 false), 0)
  | 6, .fin n m e _ => (some (if zero then .fin false 1 (-1) false else sigmN n m e), 0)
  | 6, .inf n => (some (if n then .zero false else .fin false 1 0 false), 0)
  | _, .fin n m e _ => (some (if zero then v else geluN n m e), 0)
  | _, .inf n => (some (if n then .zero true else v), 0)
  | _, .nan _ => (none, 0)

/-- R254: sin(πx) or cos(πx) of a finite value. -/
def trigN (cosine neg : Bool) (m : Nat) (e : Int) : Num :=
  -- |x| mod 2 in fixed point, and its distance from the integers
  let y := if 1 ≤ e then 0 else toFix m e % (2 * fixOne)
  let h := fixOne / 2
  if cosine then
    let z := if fixOne < y then 2 * fixOne - y else y
    if z = h then .zero false
    else if z = 0 then .fin false 1 0 false
    else if z = fixOne then .fin true 1 0 false
    else if z < h then ofFix false (fixSinPi (h - z)) else ofFix true (fixSinPi (z - h))
  else
    let z := y % fixOne
    let s := neg != decide (fixOne ≤ y)
    if z = 0 then .zero neg
    else if z = h then .fin s 1 0 false
    else ofFix s (fixSinPi (if h < z then fixOne - z else z))

/-- One element of a special function: NaN operands by R230, then the exact result rounded once under `rm`. -/
def elemSpecial (ty rm rb : Nat) (ops : List Num) (r : Option Num × Flags) : Nat × Flags :=
  if ops.any Num.isNan then floatOp ops none (fmtOf ty 0) rm rb
  else
    let q := floatOp ops r.1 (fmtOf ty 0) rm rb
    (q.1, q.2 ||| r.2)

/-- R253, R254: a word of the special-function unit. -/
def State.planeSpecial (s : State) (d : Fin 16) (mask : Fin 8) (pw : Fin 4) (ty : Fin 8) (f : Nat → Nat → Nat → Nat × Flags) : Eff :=
  s.planeOut 16 8 (pwPlanes pw) d mask fun j i => laneOf ty fun k => f j i k

/-- R253: the function of sub. -/
def execPspf (d : Fin 16) (a : Fin 16) (mask : Fin 8) (pw : Fin 4) (ty : Fin 8) (sub : Fin 8) (s : State) : Host.Outcome State Fault Refusal :=
  s.word (.pspf d a mask pw ty sub) fun s => s.planeSpecial d mask pw ty fun j i k =>
    let v := (fmtOf ty 0).decode (elemOf ty k (s.cur.at_ a j i))
    elemSpecial ty 0 0 [v] (spfN sub v)

/-- R254: a / b. -/
def execPdiv (d : Fin 16) (a : Fin 16) (b : Fin 16) (mask : Fin 8) (pw : Fin 4) (ty : Fin 8) (sub : Fin 8) (s : State) : Host.Outcome State Fault Refusal :=
  s.word (.pdiv d a b mask pw ty sub) fun s => s.planeSpecial d mask pw ty fun j i k =>
    let v := (fmtOf ty 0).decode (elemOf ty k (s.cur.at_ a j i))
    let u := (fmtOf ty 0).decode (elemOf ty k (s.cur.at_ b j i))
    elemSpecial ty sub (s.rbits sub j i k) [v, u] (divExact v u)

/-- R254: sin(πx) or cos(πx). -/
def execPtrig (d : Fin 16) (a : Fin 16) (mask : Fin 8) (pw : Fin 4) (ty : Fin 8) (sub : Fin 8) (s : State) : Host.Outcome State Fault Refusal :=
  s.word (.ptrig d a mask pw ty sub) fun s => s.planeSpecial d mask pw ty fun j i k =>
    let v := (fmtOf ty 0).decode (elemOf ty k (s.cur.at_ a j i))
    elemSpecial ty 0 0 [v] (match v with
      | .fin n m e _ => (some (trigN (sub.val = 1) n m e), 0)
      | _ => (none, 0))

end Sys2Proof.Machine
end

