-- ==== Sys2Proof/Machine/Reversible.lean ====
section
/-! DEFINITION. The reversible words (R267-R274). -/

namespace Sys2Proof.Machine

/-- A header of a forward word; size, index and escapes are filled at the push. -/
def Header.of (op tag ty var param shift arg : Nat) : Header :=
  { op := op, tag := tag, ty := ty, var := var, param := param, shift := shift, nesc := 0, size := 0, arg := arg, index := 0 }

/-- The result of an undo formula, flags discarded. An operand that is no forward word's result can leave a product of `unscale` or
`unlrelu` that f32 does not hold, for which R269 names no rounding: it rounds to nearest even. DESIGN CHOICE, unsafe (log 63). -/
def undoWord (ops : List Num) (x : Option Num) : Word := BitVec.ofNat 32 (floatOp ops x .f32 0 0).1

/-- R268: is a value NaN or infinite? -/
def Num.special (x : Num) : Bool := x.isNan || x.isInf

/-- R268: one lane of `rvadd` or `rvmul` from its exact result: the remainder is what rounding discarded. -/
def fwdExact (mul : Bool) (a b : Word) : Fwd :=
  let x := Fmt.f32.decode a.toNat
  let z := Fmt.f32.decode b.toNat
  let p := if mul then mulExact x z else sumExact 0 [x, z]
  let r := floatOp [x, z] p .f32 0 0
  let y := Fmt.f32.decode r.1
  let small := y.abs.lt false (.fin false 1 (-100) false)
  let esc := x.special || z.special || y.special || x.isZero || (mul && (z.isZero || small))
  let e := match p with
    | some v => (floatOp [] (sumExact 0 [v, y.negate]) .f32 0 0).1
    | none => 0
  { y := BitVec.ofNat 32 r.1, flags := r.2, esc := esc, rem := if esc then 0 else e }

/-- R268: an `rvadd` or `rvmul` word. -/
def State.rvExact (s : State) (mul : Bool) (lat op : Nat) (d a b : Fin 16) (mask : Fin 8) (tag : Nat) : Eff :=
  let r := tabulate lanes fun i => fwdExact mul (s.cur.at_ a 0 i) (s.cur.at_ b 0 i)
  s.forward lat d a mask (Header.of op tag 0 0 0 0 0) r
    (fixedPart s.cur.bundleNo 4 (fun i => (s.cur.pred mask).getLsbD i) r)

/-- R268: d := a + b, pushing a remainder. -/
def execRvadd (d : Fin 16) (a : Fin 16) (b : Fin 16) (mask : Fin 8) (sub : Fin 8) (s : State) : Host.Outcome State Fault Refusal :=
  s.word (.rvadd d a b mask sub) fun s => s.rvExact false 8 0xA0 d a b mask sub

/-- R268: d := a × b, pushing a remainder. -/
def execRvmul (d : Fin 16) (a : Fin 16) (b : Fin 16) (mask : Fin 8) (sub : Fin 8) (s : State) : Host.Outcome State Fault Refusal :=
  s.word (.rvmul d a b mask sub) fun s => s.rvExact true 10 0xA2 d a b mask sub

/-- A lane of a plane as FP32. -/
def Core.laneF (k : Core) (p : Fin 16) (i : Nat) : Num := Fmt.f32.decode (k.at_ p 0 i).toNat

/-- R268: rebuilds the first operand of `rvadd`. -/
def execUnadd (d : Fin 16) (a : Fin 16) (b : Fin 16) (sub : Fin 8) (s : State) : Host.Outcome State Fault Refusal :=
  s.word (.unadd d a b sub) fun s => s.undo 8 d 0xA0 sub 0 0 0 4096 fun _ e i =>
    let y := s.cur.laneF a i
    let z := s.cur.laneF b i
    undoWord [y, entryRem e i, z] (sumOf 0 [some y, some (entryRem e i), some z.negate])

/-- R268: rebuilds the first operand of `rvmul`. -/
def execUnmul (d : Fin 16) (a : Fin 16) (b : Fin 16) (sub : Fin 8) (s : State) : Host.Outcome State Fault Refusal :=
  s.word (.unmul d a b sub) fun s => s.undo 10 d 0xA2 sub 0 0 0 4096 fun _ e i =>
    let y := s.cur.laneF a i
    let z := s.cur.laneF b i
    undoWord [y, entryRem e i, z] (match sumOf 0 [some y, some (entryRem e i)] with
      | some v => (divExact v z).1
      | none => none)

/-- R269: a × 2^e with a clamped exponent (see `pscale`). -/
def scaled (x : Num) (e : Int) : Num := x.scale (max (-1024) (min 1024 e))

/-- R269: one lane of `rvscale`. -/
def fwdScale (a : Word) (e : Int) : Fwd :=
  let x := Fmt.f32.decode a.toNat
  let r := floatOp [x] (some (scaled x e)) .f32 0 0
  { y := BitVec.ofNat 32 r.1, flags := r.2, esc := x.isNan || r.2 != 0, rem := 0 }

/-- R269: one lane of `rvlrelu`. A NaN with sign 0 keeps its pattern, as R269's y := a says; R60 says that no instruction propagates a
payload. DESIGN CHOICE, unsafe (log 63). -/
def fwdLrelu (a : Word) (k : Nat) : Fwd :=
  if a.msb then fwdScale a (-(k : Int))
  else { y := a, flags := 0, esc := (Fmt.f32.decode a.toNat).isNan, rem := 0 }

/-- R269: d := a × 2^s, keeping the lanes that this loses. -/
def execRvscale (d : Fin 16) (a : Fin 16) (r : Fin 64) (mask : Fin 8) (sub : Fin 8) (s : State) : Host.Outcome State Fault Refusal :=
  s.word (.rvscale d a r mask sub) fun s =>
    s.forward 8 d a mask (Header.of 0xA6 sub 0 0 0 0 (s.cur.rd r).toNat)
      (tabulate lanes fun i => fwdScale (s.cur.at_ a 0 i) (s.cur.rd r).toInt) []

/-- R269: d := a, or a × 2^−k where a is negative. -/
def execRvlrelu (d : Fin 16) (a : Fin 16) (b : Fin 16) (mask : Fin 8) (sub : Fin 8) (s : State) : Host.Outcome State Fault Refusal :=
  s.word (.rvlrelu d a b mask sub) fun s =>
    s.forward 8 d a mask (Header.of 0xA8 sub 0 0 0 b 0)
      (tabulate lanes fun i => fwdLrelu (s.cur.at_ a 0 i) (b.val + 1)) []

/-- R269: undoes `rvscale`. -/
def execUnscale (d : Fin 16) (a : Fin 16) (sub : Fin 8) (s : State) : Host.Outcome State Fault Refusal :=
  s.word (.unscale d a sub) fun s => s.undo 8 d 0xA6 sub 0 0 0 0 fun h _ i =>
    undoWord [s.cur.laneF a i] (some (scaled (s.cur.laneF a i) (-(BitVec.ofNat 32 h.arg).toInt)))

/-- R269: undoes `rvlrelu`. -/
def execUnlrelu (d : Fin 16) (a : Fin 16) (sub : Fin 8) (s : State) : Host.Outcome State Fault Refusal :=
  s.word (.unlrelu d a sub) fun s => s.undo 8 d 0xA8 sub 0 0 0 0 fun h _ i =>
    if (s.cur.at_ a 0 i).msb then undoWord [s.cur.laneF a i] (some (scaled (s.cur.laneF a i) ((h.shift + 1 : Nat) : Int)))
    else s.cur.at_ a 0 i

/-- R270: an element of a lane replaced. -/
def setElem (ty k : Nat) (w : Word) (x : Nat) : Word := packLane ty fun j => if j = k then x else elemOf ty j w

/-- R270: one lane of `rvnarrow`; the remainder is the low half, with the carry bit above it. -/
def fwdNarrow (h : Nat) (a d : Word) : Fwd :=
  let x := Fmt.f32.decode a.toNat
  let r := convert x .bf16 0 false 0
  { y := setElem 1 h d r.1, flags := r.2, esc := x.isNan,
    rem := a.toNat % 2 ^ 16 + (if r.1 = a.toNat / 2 ^ 16 then 0 else 2 ^ 16) }

/-- R270: the carry bitmap; the bits of lanes that took no part are free values (log 14). -/
def carryMap (n : Nat) (m : BitVec 1024) (r : List Fwd) : List Byte :=
  tabulate 128 fun b => BitVec.ofNat 8 (((List.range 8).map fun j =>
    b2n (if m.getLsbD (8 * b + j) then 2 ^ 16 ≤ ((r.map (·.rem)).getD (8 * b + j) 0)
      else (Config.entryByte n (2048 + b)).getLsbD j) * 2 ^ j).sum)

/-- R270: writes the BF16 value of a into element h of d, and keeps the low half. -/
def execRvnarrow (d : Fin 16) (a : Fin 16) (b : Fin 16) (mask : Fin 8) (sub : Fin 8) (s : State) : Host.Outcome State Fault Refusal :=
  s.word (.rvnarrow d a b mask sub) fun s =>
    let m := s.cur.pred mask
    let r := tabulate lanes fun i => fwdNarrow b (s.cur.at_ a 0 i) (s.cur.at_ d 0 i)
    s.forward 8 d a mask (Header.of 0xA4 sub 1 0 b 0 0) r
      (fixedPart s.cur.bundleNo 2 (fun i => m.getLsbD i) r ++ carryMap s.cur.bundleNo m r)

/-- R270: rebuilds the plane that `rvnarrow` read. -/
def execUnnarrow (d : Fin 16) (a : Fin 16) (b : Fin 16) (sub : Fin 8) (s : State) : Host.Outcome State Fault Refusal :=
  s.word (.unnarrow d a b sub) fun s => s.undo 8 d 0xA4 sub 1 0 b 2176 fun _ e i =>
    let y := elemOf 1 b (s.cur.at_ a 0 i)
    let c := b2n ((e.getD (2048 + i / 8) 0).getLsbD (i % 8))
    BitVec.ofNat 32 ((y + 2 ^ 16 - c) % 2 ^ 16 * 2 ^ 16 + leNat ((e.drop (2 * i)).take 2))

/-- R271: one lane of `rvcvt`. -/
def fwdCvt (var e : Nat) (a d : Word) : Fwd :=
  let x := Fmt.f32.decode a.toNat
  let f := fmtOf 3 var
  let r := convert x f 0 false 0
  let y := f.decode r.1
  let esc := x.special || x.isZero || y.special
  { y := setElem 3 e d r.1, flags := r.2, esc := esc,
    rem := if esc then 0 else (floatOp [] (sumExact 0 [x, y.negate]) .f32 0 0).1 }

/-- R271: writes the FP8 value of a into element e of d, and keeps the difference. -/
def execRvcvt (d : Fin 16) (a : Fin 16) (b : Fin 16) (mask : Fin 8) (sub : Fin 8) (s : State) : Host.Outcome State Fault Refusal :=
  s.word (.rvcvt d a b mask sub) fun s =>
    let r := tabulate lanes fun i => fwdCvt (sub.val % 2) b (s.cur.at_ a 0 i) (s.cur.at_ d 0 i)
    s.forward 8 d a mask (Header.of 0xAA (sub.val / 2) 3 (sub.val % 2) b 0 0) r
      (fixedPart s.cur.bundleNo 4
        (fun i => (s.cur.pred mask).getLsbD i && !((r.map (·.esc)).getD i false)) r)

/-- R271: rebuilds the plane that `rvcvt` read. -/
def execUncvt (d : Fin 16) (a : Fin 16) (b : Fin 16) (sub : Fin 8) (s : State) : Host.Outcome State Fault Refusal :=
  s.word (.uncvt d a b sub) fun s => s.undo 8 d 0xAA (sub.val / 2) 3 (sub.val % 2) b 4096 fun _ e i =>
    let y := (fmtOf 3 (sub.val % 2)).decode (elemOf 3 b (s.cur.at_ a 0 i))
    undoWord [y, entryRem e i] (sumOf 0 [some y, some (entryRem e i)])

/-- R272: pushes a marker. -/
def execRvmark (r : Fin 64) (sub : Fin 8) (s : State) : Host.Outcome State Fault Refusal :=
  s.word (.rvmark r sub) fun s => s.pushEntry 8 (Header.of 0xAC sub 0 0 0 0 (s.cur.rd r).toNat) []

/-- R272: pops a marker with the same tag and value. -/
def execUnmark (r : Fin 64) (sub : Fin 8) (s : State) : Host.Outcome State Fault Refusal :=
  s.word (.unmark r sub) fun s => (s.popEntry 0xAC sub 0 0 0 (some (s.cur.rd r).toNat)).map (·.2.2)

/-- R273: marks the oldest entries for spill; with .w it waits until every marked spill has landed. -/
def execRvspill (r : Fin 64) (wt : Bool) (s : State) : Host.Outcome State Fault Refusal :=
  s.word (.rvspill r wt) fun s =>
    let t := s.cur.tail.spillTo ((s.cur.rd r).toNat / 64 * 64) true
    if wt && t.spilling then .error (.tail (.spill ((s.cur.rd r).toNat / 64 * 64))) else .ok (s.setCur { s.cur with tail := t })

/-- R274: what `rvinfo` reads, none while the top entry is not resident. -/
def Tail.info (t : Tail) (q : Nat) : Option Nat :=
  match q with
  | 0 => if t.rsp = 0 then some 0
    else match t.ents with
      | e :: _ => if e.st ≤ 1 then some (leNat ((t.read (t.rsp - 64) 8).drop 4)) else none
      | [] => none
  | 1 => some t.count
  | 2 => some t.resident
  | _ => some t.spilled

/-- R274: a value of the Tailrace, into a scalar. -/
def execRvinfo (r : Fin 64) (sub : Fin 8) (s : State) : Host.Outcome State Fault Refusal :=
  s.word (.rvinfo r sub) fun s =>
    match s.cur.tail.info sub with
    | none => .error (.tail .refill)
    | some v => s.landAll 8 (regLandings r [BitVec.ofNat 32 v])

end Sys2Proof.Machine
end

