-- ==== Sys2Proof/Machine/ScalarInt.lean ====
section
/-! DEFINITION. The scalar integer words (R196-R205). -/

namespace Sys2Proof.Machine

/-- R196: bits of an integer word of width `w`. -/
def bitsOf (w : Width) : Nat := 32 * w.regs

/-- A scalar integer word: the result is computed from the core's registers, lands after `lat` cycles in the registers
from `d`, and enters the latch of the word's pipe (R159, R196). -/
def State.scalarInt (s : State) (lat : Nat) (w : Width) (d : Fin 64) (v : Core → Nat) : Eff :=
  s.putScalar lat w d.val (v s.cur) (some s.bun.pipe)

/-! ### What the operations compute, on natural readings of `n` bits -/

/-- Low `n` bits. -/
def low (n x : Nat) : Nat := x % 2 ^ n

/-- R197: bitwise complement of `n` bits. -/
def cpl (n x : Nat) : Nat := 2 ^ n - 1 - low n x

/-- R197: arithmetic shift right. -/
def sarN (n a b : Nat) : Nat := wrap n (sxt n a / ((2 ^ (b % n) : Nat) : Int))

/-- R197: rotation left. -/
def rotlN (n a b : Nat) : Nat := low n (low n a * 2 ^ (b % n)) + low n a / 2 ^ (n - b % n)

/-- R199: quotient and remainder. -/
def divRem (a b n : Nat) (signed : Bool) : Nat × Nat :=
  if low n b = 0 then (2 ^ n - 1, low n a)
  else if signed then
    if sxt n a = -((2 ^ (n - 1) : Nat) : Int) && sxt n b = -1 then (low n a, 0)
    else (wrap n ((sxt n a).tdiv (sxt n b)), wrap n ((sxt n a).tmod (sxt n b)))
  else (low n a / low n b, low n a % low n b)

/-- R200: the number of bits of a number below 2^n that are needed to write it. -/
def bitLen : Nat → Nat → Nat
  | 0, _ => 0
  | n + 1, x => if x / 2 ^ n % 2 = 1 then n + 1 else bitLen n x

/-- R200: leading zeros. -/
def clzN (n x : Nat) : Nat := n - bitLen n x

/-- R200: one bits. -/
def popcN : Nat → Nat → Nat
  | 0, _ => 0
  | n + 1, x => x % 2 + popcN n (x / 2)

/-- R200: bits in reverse order. -/
def brevN : Nat → Nat → Nat
  | 0, _ => 0
  | n + 1, x => x % 2 * 2 ^ n + brevN n (x / 2)

/-- R201: position and length of a field, and the bits of it inside the register. -/
def fieldPos (b : Nat) : Nat := b % 64
def fieldBits (n b : Nat) : Nat := min (b / 64 % 64) (n - fieldPos b)

/-- R201: field extraction. -/
def bextN (n a b : Nat) (sx : Bool) : Nat :=
  let k := fieldBits n b
  let f := a / 2 ^ fieldPos b % 2 ^ k
  if sx && 0 < k && f.testBit (k - 1) then wrap n ((f : Int) - ((2 ^ k : Nat) : Int)) else f

/-- R201: field insertion. -/
def binsN (n d a b : Nat) : Nat :=
  let k := fieldBits n b
  let p := fieldPos b
  d % 2 ^ p + a % 2 ^ k * 2 ^ p + d / 2 ^ (p + k) * 2 ^ (p + k)

/-- R204: `ext`. -/
def extN (a sub : Nat) : Nat :=
  match sub with
  | 0 => wrap 32 (sxt 8 a)
  | 1 => wrap 32 (sxt 16 a)
  | 2 => low 8 a
  | 3 => low 16 a
  | 4 => wrap 64 (sxt 32 a)
  | _ => low 32 a

/-! ### The words -/

/-- R197: d := a + b, wrapping. -/
def execAdd (d : Fin 64) (a : Fin 64) (b : Fin 64) (w : Width) (s : State) : Host.Outcome State Fault Refusal :=
  s.word (.add d a b w) fun s => s.scalarInt 1 w d fun k => low (bitsOf w) ((k.rdW w a) + (k.rdW w b))

/-- R197: d := a - b, wrapping. -/
def execSub (d : Fin 64) (a : Fin 64) (b : Fin 64) (w : Width) (s : State) : Host.Outcome State Fault Refusal :=
  s.word (.sub d a b w) fun s => s.scalarInt 1 w d fun k => low (bitsOf w) ((k.rdW w a) + 2 ^ bitsOf w - (k.rdW w b))

/-- R197: d := a and b. -/
def execAnd (d : Fin 64) (a : Fin 64) (b : Fin 64) (w : Width) (s : State) : Host.Outcome State Fault Refusal :=
  s.word (.and d a b w) fun s => s.scalarInt 1 w d fun k => (k.rdW w a) &&& (k.rdW w b)

/-- R197: d := a or b. -/
def execOr (d : Fin 64) (a : Fin 64) (b : Fin 64) (w : Width) (s : State) : Host.Outcome State Fault Refusal :=
  s.word (.or d a b w) fun s => s.scalarInt 1 w d fun k => (k.rdW w a) ||| (k.rdW w b)

/-- R197: d := a xor b. -/
def execXor (d : Fin 64) (a : Fin 64) (b : Fin 64) (w : Width) (s : State) : Host.Outcome State Fault Refusal :=
  s.word (.xor d a b w) fun s => s.scalarInt 1 w d fun k => (k.rdW w a) ^^^ (k.rdW w b)

/-- R197: d := a and not b. -/
def execAndn (d : Fin 64) (a : Fin 64) (b : Fin 64) (w : Width) (s : State) : Host.Outcome State Fault Refusal :=
  s.word (.andn d a b w) fun s => s.scalarInt 1 w d fun k => (k.rdW w a) &&& cpl (bitsOf w) (k.rdW w b)

/-- R197: d := a or not b. -/
def execOrn (d : Fin 64) (a : Fin 64) (b : Fin 64) (w : Width) (s : State) : Host.Outcome State Fault Refusal :=
  s.word (.orn d a b w) fun s => s.scalarInt 1 w d fun k => (k.rdW w a) ||| cpl (bitsOf w) (k.rdW w b)

/-- R197: d := a << (b mod n). -/
def execShl (d : Fin 64) (a : Fin 64) (b : Fin 64) (w : Width) (s : State) : Host.Outcome State Fault Refusal :=
  s.word (.shl d a b w) fun s => s.scalarInt 1 w d fun k => low (bitsOf w) ((k.rdW w a) * 2 ^ ((k.rd b).toNat % bitsOf w))

/-- R197: d := a >> (b mod n), zeros enter. -/
def execShr (d : Fin 64) (a : Fin 64) (b : Fin 64) (w : Width) (s : State) : Host.Outcome State Fault Refusal :=
  s.word (.shr d a b w) fun s => s.scalarInt 1 w d fun k => (k.rdW w a) / 2 ^ ((k.rd b).toNat % bitsOf w)

/-- R197: d := a >> (b mod n), the sign bit enters. -/
def execSar (d : Fin 64) (a : Fin 64) (b : Fin 64) (w : Width) (s : State) : Host.Outcome State Fault Refusal :=
  s.word (.sar d a b w) fun s => s.scalarInt 1 w d fun k => sarN (bitsOf w) (k.rdW w a) (k.rd b).toNat

/-- R197: d := a rotated left by (b mod n). -/
def execRotl (d : Fin 64) (a : Fin 64) (b : Fin 64) (w : Width) (s : State) : Host.Outcome State Fault Refusal :=
  s.word (.rotl d a b w) fun s => s.scalarInt 1 w d fun k => rotlN (bitsOf w) (k.rdW w a) (k.rd b).toNat

/-- R197: signed minimum. -/
def execMin (d : Fin 64) (a : Fin 64) (b : Fin 64) (w : Width) (s : State) : Host.Outcome State Fault Refusal :=
  s.word (.min d a b w) fun s => s.scalarInt 1 w d fun k => if sxt (bitsOf w) (k.rdW w a) ≤ sxt (bitsOf w) (k.rdW w b) then (k.rdW w a) else (k.rdW w b)

/-- R197: signed maximum. -/
def execMax (d : Fin 64) (a : Fin 64) (b : Fin 64) (w : Width) (s : State) : Host.Outcome State Fault Refusal :=
  s.word (.max d a b w) fun s => s.scalarInt 1 w d fun k => if sxt (bitsOf w) (k.rdW w a) ≤ sxt (bitsOf w) (k.rdW w b) then (k.rdW w b) else (k.rdW w a)

/-- R197: natural minimum. -/
def execMinn (d : Fin 64) (a : Fin 64) (b : Fin 64) (w : Width) (s : State) : Host.Outcome State Fault Refusal :=
  s.word (.minn d a b w) fun s => s.scalarInt 1 w d fun k => min (k.rdW w a) (k.rdW w b)

/-- R197: natural maximum. -/
def execMaxn (d : Fin 64) (a : Fin 64) (b : Fin 64) (w : Width) (s : State) : Host.Outcome State Fault Refusal :=
  s.word (.maxn d a b w) fun s => s.scalarInt 1 w d fun k => max (k.rdW w a) (k.rdW w b)

/-- R197: d := 1 if a = b, else 0; d is single. -/
def execCeq (d : Fin 64) (a : Fin 64) (b : Fin 64) (w : Width) (s : State) : Host.Outcome State Fault Refusal :=
  s.word (.ceq d a b w) fun s => s.scalarInt 1 .s d fun k => b2n ((k.rdW w a) = (k.rdW w b))

/-- R197: d := 1 if a < b signed, else 0; d is single. -/
def execClt (d : Fin 64) (a : Fin 64) (b : Fin 64) (w : Width) (s : State) : Host.Outcome State Fault Refusal :=
  s.word (.clt d a b w) fun s => s.scalarInt 1 .s d fun k => b2n (sxt (bitsOf w) (k.rdW w a) < sxt (bitsOf w) (k.rdW w b))

/-- R197: d := 1 if a < b natural, else 0; d is single. -/
def execCltn (d : Fin 64) (a : Fin 64) (b : Fin 64) (w : Width) (s : State) : Host.Outcome State Fault Refusal :=
  s.word (.cltn d a b w) fun s => s.scalarInt 1 .s d fun k => b2n ((k.rdW w a) < (k.rdW w b))

/-- R197: d := a if b is not 0; otherwise d is rewritten with its old value. b is single. -/
def execCmov (d : Fin 64) (a : Fin 64) (b : Fin 64) (w : Width) (s : State) : Host.Outcome State Fault Refusal :=
  s.word (.cmov d a b w) fun s => s.scalarInt 1 w d fun k => if k.rd b = 0 then k.rdW w d else (k.rdW w a)

/-- R198: low n bits of a × b, latency 3. -/
def execMul (d : Fin 64) (a : Fin 64) (b : Fin 64) (w : Width) (s : State) : Host.Outcome State Fault Refusal :=
  s.word (.mul d a b w) fun s => s.scalarInt 3 w d fun k => low (bitsOf w) ((k.rdW w a) * (k.rdW w b))

/-- R198: bits [63:32] of the signed product, latency 3. -/
def execMulh (d : Fin 64) (a : Fin 64) (b : Fin 64) (s : State) : Host.Outcome State Fault Refusal :=
  s.word (.mulh d a b) fun s => s.scalarInt 3 .s d fun k => wrap 32 (((k.rd a).toInt * (k.rd b).toInt) / ((2 ^ 32 : Nat) : Int))

/-- R198: bits [63:32] of the natural product, latency 3. -/
def execMulhn (d : Fin 64) (a : Fin 64) (b : Fin 64) (s : State) : Host.Outcome State Fault Refusal :=
  s.word (.mulhn d a b) fun s => s.scalarInt 3 .s d fun k => (k.rd a).toNat * (k.rd b).toNat / 2 ^ 32

/-- R199: signed quotient, latency 18, on the divider. -/
def execDiv (d : Fin 64) (a : Fin 64) (b : Fin 64) (w : Width) (s : State) : Host.Outcome State Fault Refusal :=
  s.word (.div d a b w) fun s => s.scalarInt 18 w d fun k => (divRem (k.rdW w a) (k.rdW w b) (bitsOf w) true).1

/-- R199: natural quotient, latency 18, on the divider. -/
def execDivn (d : Fin 64) (a : Fin 64) (b : Fin 64) (w : Width) (s : State) : Host.Outcome State Fault Refusal :=
  s.word (.divn d a b w) fun s => s.scalarInt 18 w d fun k => (divRem (k.rdW w a) (k.rdW w b) (bitsOf w) false).1

/-- R199: signed remainder, latency 18, on the divider. -/
def execRem (d : Fin 64) (a : Fin 64) (b : Fin 64) (w : Width) (s : State) : Host.Outcome State Fault Refusal :=
  s.word (.rem d a b w) fun s => s.scalarInt 18 w d fun k => (divRem (k.rdW w a) (k.rdW w b) (bitsOf w) true).2

/-- R199: natural remainder, latency 18, on the divider. -/
def execRemn (d : Fin 64) (a : Fin 64) (b : Fin 64) (w : Width) (s : State) : Host.Outcome State Fault Refusal :=
  s.word (.remn d a b w) fun s => s.scalarInt 18 w d fun k => (divRem (k.rdW w a) (k.rdW w b) (bitsOf w) false).2

/-- R200: leading zeros; those of 0 are n. -/
def execClz (d : Fin 64) (a : Fin 64) (w : Width) (s : State) : Host.Outcome State Fault Refusal :=
  s.word (.clz d a w) fun s => s.scalarInt 1 w d fun k => clzN (bitsOf w) (k.rdW w a)

/-- R200: one bits. -/
def execPopc (d : Fin 64) (a : Fin 64) (w : Width) (s : State) : Host.Outcome State Fault Refusal :=
  s.word (.popc d a w) fun s => s.scalarInt 1 w d fun k => popcN (bitsOf w) (k.rdW w a)

/-- R200: the bit order reversed. -/
def execBrev (d : Fin 64) (a : Fin 64) (w : Width) (s : State) : Host.Outcome State Fault Refusal :=
  s.word (.brev d a w) fun s => s.scalarInt 1 w d fun k => brevN (bitsOf w) (k.rdW w a)

/-- R201: extracts a field, with sign extension where sx. -/
def execBext (d : Fin 64) (a : Fin 64) (b : Fin 64) (w : Width) (sx : Bool) (s : State) : Host.Outcome State Fault Refusal :=
  s.word (.bext d a b w sx) fun s => s.scalarInt 1 w d fun k => bextN (bitsOf w) (k.rdW w a) (k.rd b).toNat sx

/-- R201: inserts a field into d. -/
def execBins (d : Fin 64) (a : Fin 64) (b : Fin 64) (w : Width) (s : State) : Host.Outcome State Fault Refusal :=
  s.word (.bins d a b w) fun s => s.scalarInt 1 w d fun k => binsN (bitsOf w) (k.rdW w d) (k.rdW w a) (k.rd b).toNat

/-- R202: d := a + imm. -/
def execAddi (d : Fin 64) (a : Fin 64) (imm : BitVec 11) (s : State) : Host.Outcome State Fault Refusal :=
  s.word (.addi d a imm) fun s => s.scalarInt 1 .s d fun k => ((k.rd a) + (s.imm32 imm)).toNat

/-- R202: d := a and imm. -/
def execAndi (d : Fin 64) (a : Fin 64) (imm : BitVec 11) (s : State) : Host.Outcome State Fault Refusal :=
  s.word (.andi d a imm) fun s => s.scalarInt 1 .s d fun k => ((k.rd a) &&& (s.imm32 imm)).toNat

/-- R202: d := a or imm. -/
def execOri (d : Fin 64) (a : Fin 64) (imm : BitVec 11) (s : State) : Host.Outcome State Fault Refusal :=
  s.word (.ori d a imm) fun s => s.scalarInt 1 .s d fun k => ((k.rd a) ||| (s.imm32 imm)).toNat

/-- R202: d := a xor imm. -/
def execXori (d : Fin 64) (a : Fin 64) (imm : BitVec 11) (s : State) : Host.Outcome State Fault Refusal :=
  s.word (.xori d a imm) fun s => s.scalarInt 1 .s d fun k => ((k.rd a) ^^^ (s.imm32 imm)).toNat

/-- R202: d := a << imm, imm 0-31. -/
def execShli (d : Fin 64) (a : Fin 64) (imm : BitVec 11) (s : State) : Host.Outcome State Fault Refusal :=
  s.word (.shli d a imm) fun s => s.scalarInt 1 .s d fun k => low 32 ((k.rd a).toNat * 2 ^ ((s.imm32 imm).toNat % 32))

/-- R202: d := a >> imm, zeros enter. -/
def execShri (d : Fin 64) (a : Fin 64) (imm : BitVec 11) (s : State) : Host.Outcome State Fault Refusal :=
  s.word (.shri d a imm) fun s => s.scalarInt 1 .s d fun k => (k.rd a).toNat / 2 ^ ((s.imm32 imm).toNat % 32)

/-- R202: d := a >> imm, the sign enters. -/
def execSari (d : Fin 64) (a : Fin 64) (imm : BitVec 11) (s : State) : Host.Outcome State Fault Refusal :=
  s.word (.sari d a imm) fun s => s.scalarInt 1 .s d fun k => sarN 32 (k.rd a).toNat (s.imm32 imm).toNat

/-- R202: d := 1 if a = imm, else 0. -/
def execCeqi (d : Fin 64) (a : Fin 64) (imm : BitVec 11) (s : State) : Host.Outcome State Fault Refusal :=
  s.word (.ceqi d a imm) fun s => s.scalarInt 1 .s d fun k => b2n ((k.rd a) = (s.imm32 imm))

/-- R202: d := 1 if a < imm signed, else 0. -/
def execClti (d : Fin 64) (a : Fin 64) (imm : BitVec 11) (s : State) : Host.Outcome State Fault Refusal :=
  s.word (.clti d a imm) fun s => s.scalarInt 1 .s d fun k => b2n ((k.rd a).toInt < (s.imm32 imm).toInt)

/-- R202: d := 1 if a < imm natural, else 0. -/
def execCltni (d : Fin 64) (a : Fin 64) (imm : BitVec 11) (s : State) : Host.Outcome State Fault Refusal :=
  s.word (.cltni d a imm) fun s => s.scalarInt 1 .s d fun k => b2n ((k.rd a).toNat < (s.imm32 imm).toNat)

/-- R203: writes the effective imm32. -/
def execMovi (d : Fin 64) (imm : BitVec 17) (s : State) : Host.Outcome State Fault Refusal :=
  s.word (.movi d imm) fun s => s.scalarInt 1 .s d fun _ => (s.imm17 imm).toNat

/-- R203: writes imm17 << 15. -/
def execLui (d : Fin 64) (imm : BitVec 17) (s : State) : Host.Outcome State Fault Refusal :=
  s.word (.lui d imm) fun s => s.scalarInt 1 .s d fun _ => imm.toNat * 2 ^ 15

/-- R204: d := d + a × b, low n bits, latency 3. -/
def execMadd (d : Fin 64) (a : Fin 64) (b : Fin 64) (w : Width) (s : State) : Host.Outcome State Fault Refusal :=
  s.word (.madd d a b w) fun s => s.scalarInt 3 w d fun k => low (bitsOf w) (k.rdW w d + (k.rdW w a) * (k.rdW w b))

/-- R204: d := a + (Ext(b) << K), wrapping; zero extension where nat. -/
def execLea (d : Fin 64) (a : Fin 64) (b : Fin 64) (w : Width) (nat : Bool) (sh : Fin 4) (s : State) : Host.Outcome State Fault Refusal :=
  s.word (.lea d a b w nat sh) fun s => s.scalarInt 1 w d fun k => wrap (bitsOf w) (((k.rdW w a) : Int) + (if nat then ((k.rd b).toNat : Int) else (k.rd b).toInt) * ((2 ^ sh.val : Nat) : Int))

/-- R204: d := a, of any width. -/
def execMov (d : Fin 64) (a : Fin 64) (w : Width) (s : State) : Host.Outcome State Fault Refusal :=
  s.word (.mov d a w) fun s => s.scalarInt 1 w d fun k => (k.rdW w a)

/-- R204: sign or zero extension of a narrow value. -/
def execExt (d : Fin 64) (a : Fin 64) (w : Width) (sub : Fin 8) (s : State) : Host.Outcome State Fault Refusal :=
  s.word (.ext d a w sub) fun s => s.scalarInt 1 w d fun k => extN (k.rd a).toNat sub.val

end Sys2Proof.Machine
end

