-- ==== Sys2Proof/Machine/Dispatch.lean ====
section
/-! DEFINITION. One arm per instruction: each calls its meaning. -/

namespace Sys2Proof.Machine

/-- The meaning of an instruction: a word runs on the core whose turn it is, an event is one move of the device. -/
def exec (i : Instr) (s : State) : Host.Outcome State Fault Refusal :=
  match i with
  | .nop => Sys2Proof.Machine.execNop s
  | .add d a b w => Sys2Proof.Machine.execAdd d a b w s
  | .sub d a b w => Sys2Proof.Machine.execSub d a b w s
  | .and d a b w => Sys2Proof.Machine.execAnd d a b w s
  | .or d a b w => Sys2Proof.Machine.execOr d a b w s
  | .xor d a b w => Sys2Proof.Machine.execXor d a b w s
  | .andn d a b w => Sys2Proof.Machine.execAndn d a b w s
  | .orn d a b w => Sys2Proof.Machine.execOrn d a b w s
  | .shl d a b w => Sys2Proof.Machine.execShl d a b w s
  | .shr d a b w => Sys2Proof.Machine.execShr d a b w s
  | .sar d a b w => Sys2Proof.Machine.execSar d a b w s
  | .rotl d a b w => Sys2Proof.Machine.execRotl d a b w s
  | .min d a b w => Sys2Proof.Machine.execMin d a b w s
  | .max d a b w => Sys2Proof.Machine.execMax d a b w s
  | .minn d a b w => Sys2Proof.Machine.execMinn d a b w s
  | .maxn d a b w => Sys2Proof.Machine.execMaxn d a b w s
  | .ceq d a b w => Sys2Proof.Machine.execCeq d a b w s
  | .clt d a b w => Sys2Proof.Machine.execClt d a b w s
  | .cltn d a b w => Sys2Proof.Machine.execCltn d a b w s
  | .cmov d a b w => Sys2Proof.Machine.execCmov d a b w s
  | .mul d a b w => Sys2Proof.Machine.execMul d a b w s
  | .mulh d a b => Sys2Proof.Machine.execMulh d a b s
  | .mulhn d a b => Sys2Proof.Machine.execMulhn d a b s
  | .div d a b w => Sys2Proof.Machine.execDiv d a b w s
  | .divn d a b w => Sys2Proof.Machine.execDivn d a b w s
  | .rem d a b w => Sys2Proof.Machine.execRem d a b w s
  | .remn d a b w => Sys2Proof.Machine.execRemn d a b w s
  | .clz d a w => Sys2Proof.Machine.execClz d a w s
  | .popc d a w => Sys2Proof.Machine.execPopc d a w s
  | .brev d a w => Sys2Proof.Machine.execBrev d a w s
  | .bext d a b w sx => Sys2Proof.Machine.execBext d a b w sx s
  | .bins d a b w => Sys2Proof.Machine.execBins d a b w s
  | .addi d a imm => Sys2Proof.Machine.execAddi d a imm s
  | .andi d a imm => Sys2Proof.Machine.execAndi d a imm s
  | .ori d a imm => Sys2Proof.Machine.execOri d a imm s
  | .xori d a imm => Sys2Proof.Machine.execXori d a imm s
  | .shli d a imm => Sys2Proof.Machine.execShli d a imm s
  | .shri d a imm => Sys2Proof.Machine.execShri d a imm s
  | .sari d a imm => Sys2Proof.Machine.execSari d a imm s
  | .ceqi d a imm => Sys2Proof.Machine.execCeqi d a imm s
  | .clti d a imm => Sys2Proof.Machine.execClti d a imm s
  | .cltni d a imm => Sys2Proof.Machine.execCltni d a imm s
  | .movi d imm => Sys2Proof.Machine.execMovi d imm s
  | .lui d imm => Sys2Proof.Machine.execLui d imm s
  | .madd d a b w => Sys2Proof.Machine.execMadd d a b w s
  | .lea d a b w nat sh => Sys2Proof.Machine.execLea d a b w nat sh s
  | .mov d a w => Sys2Proof.Machine.execMov d a w s
  | .ext d a w sub => Sys2Proof.Machine.execExt d a w sub s
  | .fadd d a b sub => Sys2Proof.Machine.execFadd d a b sub s
  | .fsub d a b sub => Sys2Proof.Machine.execFsub d a b sub s
  | .fmul d a b sub => Sys2Proof.Machine.execFmul d a b sub s
  | .ffma d a b sub => Sys2Proof.Machine.execFfma d a b sub s
  | .fmin d a b => Sys2Proof.Machine.execFmin d a b s
  | .fmax d a b => Sys2Proof.Machine.execFmax d a b s
  | .fcmp d a b sub => Sys2Proof.Machine.execFcmp d a b sub s
  | .fcvt d a b sub => Sys2Proof.Machine.execFcvt d a b sub s
  | .br c off => Sys2Proof.Machine.execBr c off s
  | .jmp off => Sys2Proof.Machine.execJmp off s
  | .call off => Sys2Proof.Machine.execCall off s
  | .ret a => Sys2Proof.Machine.execRet a s
  | .jx a => Sys2Proof.Machine.execJx a s
  | .jxl d a => Sys2Proof.Machine.execJxl d a s
  | .loop c fin lvl => Sys2Proof.Machine.execLoop c fin lvl s
  | .loopi n fin lvl => Sys2Proof.Machine.execLoopi n fin lvl s
  | .brv c off => Sys2Proof.Machine.execBrv c off s
  | .ldl d a b w sh => Sys2Proof.Machine.execLdl d a b w sh s
  | .stl d a b w sh => Sys2Proof.Machine.execStl d a b w sh s
  | .ldg d a b w sh => Sys2Proof.Machine.execLdg d a b w sh s
  | .stg d a b w sh => Sys2Proof.Machine.execStg d a b w sh s
  | .ldm d a b w => Sys2Proof.Machine.execLdm d a b w s
  | .stm d a b w => Sys2Proof.Machine.execStm d a b w s
  | .ldk d a b w sh => Sys2Proof.Machine.execLdk d a b w sh s
  | .ldh h r imm => Sys2Proof.Machine.execLdh h r imm s
  | .sth h r imm => Sys2Proof.Machine.execSth h r imm s
  | .pld d k r mask => Sys2Proof.Machine.execPld d k r mask s
  | .pst d k r mask => Sys2Proof.Machine.execPst d k r mask s
  | .pldh h pl imm => Sys2Proof.Machine.execPldh h pl imm s
  | .psth h pl imm => Sys2Proof.Machine.execPsth h pl imm s
  | .pldg d k r mask => Sys2Proof.Machine.execPldg d k r mask s
  | .pstg d k r mask => Sys2Proof.Machine.execPstg d k r mask s
  | .pgather d a mask g => Sys2Proof.Machine.execPgather d a mask g s
  | .pscatter d a mask g => Sys2Proof.Machine.execPscatter d a mask g s
  | .scope scope => Sys2Proof.Machine.execScope scope s
  | .limm imm => Sys2Proof.Machine.execLimm imm s
  | .padd d a b mask pw ty sub => Sys2Proof.Machine.execPadd d a b mask pw ty sub s
  | .psub d a b mask pw ty sub => Sys2Proof.Machine.execPsub d a b mask pw ty sub s
  | .pmul d a b mask pw ty sub => Sys2Proof.Machine.execPmul d a b mask pw ty sub s
  | .pfma d a b mask pw ty sub => Sys2Proof.Machine.execPfma d a b mask pw ty sub s
  | .pfms d a b mask pw ty sub => Sys2Proof.Machine.execPfms d a b mask pw ty sub s
  | .pmin d a b mask pw ty sub => Sys2Proof.Machine.execPmin d a b mask pw ty sub s
  | .pmax d a b mask pw ty sub => Sys2Proof.Machine.execPmax d a b mask pw ty sub s
  | .pabs d a mask pw ty sub => Sys2Proof.Machine.execPabs d a mask pw ty sub s
  | .pneg d a mask pw ty sub => Sys2Proof.Machine.execPneg d a mask pw ty sub s
  | .pcmp d a b mask ty sub => Sys2Proof.Machine.execPcmp d a b mask ty sub s
  | .psel d a b mask pw => Sys2Proof.Machine.execPsel d a b mask pw s
  | .pcvt d a b mask pw ty sub => Sys2Proof.Machine.execPcvt d a b mask pw ty sub s
  | .pand d a b mask pw => Sys2Proof.Machine.execPand d a b mask pw s
  | .por d a b mask pw => Sys2Proof.Machine.execPor d a b mask pw s
  | .pxor d a b mask pw => Sys2Proof.Machine.execPxor d a b mask pw s
  | .pnot d a mask pw => Sys2Proof.Machine.execPnot d a mask pw s
  | .pshl d a b mask pw ty sub => Sys2Proof.Machine.execPshl d a b mask pw ty sub s
  | .pshr d a b mask pw ty sub => Sys2Proof.Machine.execPshr d a b mask pw ty sub s
  | .psar d a b mask pw ty sub => Sys2Proof.Machine.execPsar d a b mask pw ty sub s
  | .pmov d a mask pw => Sys2Proof.Machine.execPmov d a mask pw s
  | .pbcs d r mask ty sub => Sys2Proof.Machine.execPbcs d r mask ty sub s
  | .pins d r mask ty sub => Sys2Proof.Machine.execPins d r mask ty sub s
  | .pext a r ty sub => Sys2Proof.Machine.execPext a r ty sub s
  | .piota d mask pw ty sub => Sys2Proof.Machine.execPiota d mask pw ty sub s
  | .pmand d a b mask => Sys2Proof.Machine.execPmand d a b mask s
  | .pmor d a b mask => Sys2Proof.Machine.execPmor d a b mask s
  | .pmxor d a b mask => Sys2Proof.Machine.execPmxor d a b mask s
  | .pmnot d a mask => Sys2Proof.Machine.execPmnot d a mask s
  | .pvote d a mask sub => Sys2Proof.Machine.execPvote d a mask sub s
  | .pflag d mask sub => Sys2Proof.Machine.execPflag d mask sub s
  | .prng d mask pw sub => Sys2Proof.Machine.execPrng d mask pw sub s
  | .pscale d a r mask ty sub => Sys2Proof.Machine.execPscale d a r mask ty sub s
  | .pdot2 d a b mask pw ty sub => Sys2Proof.Machine.execPdot2 d a b mask pw ty sub s
  | .pmuls d a r mask ty sub => Sys2Proof.Machine.execPmuls d a r mask ty sub s
  | .pfmas d a r mask ty sub => Sys2Proof.Machine.execPfmas d a r mask ty sub s
  | .pclamp d a b mask pw ty sub => Sys2Proof.Machine.execPclamp d a b mask pw ty sub s
  | .pround d a mask pw ty sub => Sys2Proof.Machine.execPround d a mask pw ty sub s
  | .paddi d a r mask ty sub => Sys2Proof.Machine.execPaddi d a r mask ty sub s
  | .pabsd d a b mask pw ty sub => Sys2Proof.Machine.execPabsd d a b mask pw ty sub s
  | .protRow d a k mask pw => Sys2Proof.Machine.execProtRow d a k mask pw s
  | .protCol d a k mask pw => Sys2Proof.Machine.execProtCol d a k mask pw s
  | .pbcRow d a k mask pw => Sys2Proof.Machine.execPbcRow d a k mask pw s
  | .pbcCol d a k mask pw => Sys2Proof.Machine.execPbcCol d a k mask pw s
  | .psumRow d a mask pw ty sub => Sys2Proof.Machine.execPsumRow d a mask pw ty sub s
  | .psumCol d a mask pw ty sub => Sys2Proof.Machine.execPsumCol d a mask pw ty sub s
  | .predRow d a mask pw ty sub => Sys2Proof.Machine.execPredRow d a mask pw ty sub s
  | .predCol d a mask pw ty sub => Sys2Proof.Machine.execPredCol d a mask pw ty sub s
  | .pspf d a mask pw ty sub => Sys2Proof.Machine.execPspf d a mask pw ty sub s
  | .pdiv d a b mask pw ty sub => Sys2Proof.Machine.execPdiv d a b mask pw ty sub s
  | .ptrig d a mask pw ty sub => Sys2Proof.Machine.execPtrig d a mask pw ty sub s
  | .pxbar d a b mask => Sys2Proof.Machine.execPxbar d a b mask s
  | .pxset d a mask => Sys2Proof.Machine.execPxset d a mask s
  | .pxtr d a mask => Sys2Proof.Machine.execPxtr d a mask s
  | .rvadd d a b mask sub => Sys2Proof.Machine.execRvadd d a b mask sub s
  | .unadd d a b sub => Sys2Proof.Machine.execUnadd d a b sub s
  | .rvmul d a b mask sub => Sys2Proof.Machine.execRvmul d a b mask sub s
  | .unmul d a b sub => Sys2Proof.Machine.execUnmul d a b sub s
  | .rvnarrow d a b mask sub => Sys2Proof.Machine.execRvnarrow d a b mask sub s
  | .unnarrow d a b sub => Sys2Proof.Machine.execUnnarrow d a b sub s
  | .rvscale d a r mask sub => Sys2Proof.Machine.execRvscale d a r mask sub s
  | .unscale d a sub => Sys2Proof.Machine.execUnscale d a sub s
  | .rvlrelu d a b mask sub => Sys2Proof.Machine.execRvlrelu d a b mask sub s
  | .unlrelu d a sub => Sys2Proof.Machine.execUnlrelu d a sub s
  | .rvcvt d a b mask sub => Sys2Proof.Machine.execRvcvt d a b mask sub s
  | .uncvt d a b sub => Sys2Proof.Machine.execUncvt d a b sub s
  | .rvmark r sub => Sys2Proof.Machine.execRvmark r sub s
  | .unmark r sub => Sys2Proof.Machine.execUnmark r sub s
  | .rvspill r wt => Sys2Proof.Machine.execRvspill r wt s
  | .rvinfo r sub => Sys2Proof.Machine.execRvinfo r sub s
  | .tload d a imm => Sys2Proof.Machine.execTload d a imm s
  | .tset d a imm => Sys2Proof.Machine.execTset d a imm s
  | .mma acc a b pf clr ret ta tb => Sys2Proof.Machine.execMma acc a b pf clr ret ta tb s
  | .mmag acc a b pf ix clr ret tb => Sys2Proof.Machine.execMmag acc a b pf ix clr ret tb s
  | .mret h r acc fmt pub clr rm sat => Sys2Proof.Machine.execMret h r acc fmt pub clr rm sat s
  | .mclr acc => Sys2Proof.Machine.execMclr acc s
  | .mld h r acc fmt gen => Sys2Proof.Machine.execMld h r acc fmt gen s
  | .mwait acc => Sys2Proof.Machine.execMwait acc s
  | .mwaitAll => Sys2Proof.Machine.execMwaitAll s
  | .mprof pf => Sys2Proof.Machine.execMprof pf s
  | .flow a ch => Sys2Proof.Machine.execFlow a ch s
  | .fpoll d ch => Sys2Proof.Machine.execFpoll d ch s
  | .fhalt ch => Sys2Proof.Machine.execFhalt ch s
  | .hdef h r dbl => Sys2Proof.Machine.execHdef h r dbl s
  | .hset h tag gen => Sys2Proof.Machine.execHset h tag gen s
  | .await h yld gen => Sys2Proof.Machine.execAwait h yld gen s
  | .hrel h => Sys2Proof.Machine.execHrel h s
  | .hpub h => Sys2Proof.Machine.execHpub h s
  | .wpost a b => Sys2Proof.Machine.execWpost a b s
  | .wpoll d a => Sys2Proof.Machine.execWpoll d a s
  | .wcomm d a sub => Sys2Proof.Machine.execWcomm d a sub s
  | .wbar a => Sys2Proof.Machine.execWbar a s
  | .phase scope => Sys2Proof.Machine.execPhase scope s
  | .fence => Sys2Proof.Machine.execFence s
  | .atom d a b w sp rt => Sys2Proof.Machine.execAtom d a b w sp rt s
  | .cas d a b w sp => Sys2Proof.Machine.execCas d a b w sp s
  | .oatom d a b w sp => Sys2Proof.Machine.execOatom d a b w sp s
  | .oatomP d a b => Sys2Proof.Machine.execOatomP d a b s
  | .bar scope => Sys2Proof.Machine.execBar scope s
  | .ostep d a => Sys2Proof.Machine.execOstep d a s
  | .mbtag a => Sys2Proof.Machine.execMbtag a s
  | .trap imm => Sys2Proof.Machine.execTrap imm s
  | .resume d a b => Sys2Proof.Machine.execResume d a b s
  | .yieldItem => Sys2Proof.Machine.execYieldItem s
  | .endItem => Sys2Proof.Machine.execEndItem s
  | .mfsr d imm => Sys2Proof.Machine.execMfsr d imm s
  | .mtsr d imm => Sys2Proof.Machine.execMtsr d imm s
  | .snap imm => Sys2Proof.Machine.execSnap imm s
  | .halt => Sys2Proof.Machine.execHalt s
  | .sysc d imm => Sys2Proof.Machine.execSysc d imm s
  | .exposedResultLand core => Sys2Proof.Machine.execExposedResultLand core s
  | .hiddenResultLand core q => Sys2Proof.Machine.execHiddenResultLand core q s
  | .governorTick core => Sys2Proof.Machine.execGovernorTick core s
  | .tableWalk core => Sys2Proof.Machine.execTableWalk core s
  | .lateFault core => Sys2Proof.Machine.execLateFault core s
  | .faultEntryWrite vd => Sys2Proof.Machine.execFaultEntryWrite vd s
  | .launchFaultEnd core => Sys2Proof.Machine.execLaunchFaultEnd core s
  | .atomicPerform core q => Sys2Proof.Machine.execAtomicPerform core q s
  | .oatomArrive core => Sys2Proof.Machine.execOatomArrive core s
  | .phaseComplete core => Sys2Proof.Machine.execPhaseComplete core s
  | .barrierComplete core => Sys2Proof.Machine.execBarrierComplete core s
  | .ostepVoteComplete core => Sys2Proof.Machine.execOstepVoteComplete core s
  | .granuleSpill core gran => Sys2Proof.Machine.execGranuleSpill core gran s
  | .granuleRestore core gran => Sys2Proof.Machine.execGranuleRestore core gran s
  | .handleSwap core h => Sys2Proof.Machine.execHandleSwap core h s
  | .flumeRecordFetch core ch => Sys2Proof.Machine.execFlumeRecordFetch core ch s
  | .flumeRecordStart core ch => Sys2Proof.Machine.execFlumeRecordStart core ch s
  | .flumeRecordComplete core ch => Sys2Proof.Machine.execFlumeRecordComplete core ch s
  | .tloadComplete core => Sys2Proof.Machine.execTloadComplete core s
  | .millstoneLatchFill core => Sys2Proof.Machine.execMillstoneLatchFill core s
  | .millstoneWave core => Sys2Proof.Machine.execMillstoneWave core s
  | .millstoneCommandComplete core => Sys2Proof.Machine.execMillstoneCommandComplete core s
  | .tailraceSpillComplete core => Sys2Proof.Machine.execTailraceSpillComplete core s
  | .tailraceRefillComplete core => Sys2Proof.Machine.execTailraceRefillComplete core s
  | .suspendCommit core => Sys2Proof.Machine.execSuspendCommit core s
  | .windlassOpStart vd comm => Sys2Proof.Machine.execWindlassOpStart vd comm s
  | .windlassChunkStart port vd comm => Sys2Proof.Machine.execWindlassChunkStart port vd comm s
  | .windlassOpComplete vd comm => Sys2Proof.Machine.execWindlassOpComplete vd comm s
  | .invalidationStart vd count => Sys2Proof.Machine.execInvalidationStart vd count s
  | .invalidationComplete vd => Sys2Proof.Machine.execInvalidationComplete vd s
  | .bwlimWrite vd v => Sys2Proof.Machine.execBwlimWrite vd v s
  | .limiterTick vd chan => Sys2Proof.Machine.execLimiterTick vd chan s
  | .keyGenerate => Sys2Proof.Machine.execKeyGenerate s
  | .keyLoad => Sys2Proof.Machine.execKeyLoad s
  | .keyZeroise => Sys2Proof.Machine.execKeyZeroise s
  | .keyZeroiseComplete slot => Sys2Proof.Machine.execKeyZeroiseComplete slot s
  | .govctlWrite v => Sys2Proof.Machine.execGovctlWrite v s
  | .qbwlimWrite vd v => Sys2Proof.Machine.execQbwlimWrite vd v s
  | .registerWrite reg v => Sys2Proof.Machine.execRegisterWrite reg v s
  | .kick vd q tail => Sys2Proof.Machine.execKick vd q tail s
  | .hint vd va => Sys2Proof.Machine.execHint vd va s
  | .lstatInv vd => Sys2Proof.Machine.execLstatInv vd s
  | .ccfgWrite vd v => Sys2Proof.Machine.execCcfgWrite vd v s
  | .coalesceWindowClose vd => Sys2Proof.Machine.execCoalesceWindowClose vd s
  | .launchRecordFetch vd q => Sys2Proof.Machine.execLaunchRecordFetch vd q s
  | .preload cluster launch => Sys2Proof.Machine.execPreload cluster launch s
  | .launchStart launch grant => Sys2Proof.Machine.execLaunchStart launch grant s
  | .launchSkip launch => Sys2Proof.Machine.execLaunchSkip launch s
  | .workItemStart core widx entry => Sys2Proof.Machine.execWorkItemStart core widx entry s
  | .continuationResume core entry => Sys2Proof.Machine.execContinuationResume core entry s
  | .launchComplete launch => Sys2Proof.Machine.execLaunchComplete launch s
  | .fqresWrite vd seq mask => Sys2Proof.Machine.execFqresWrite vd seq mask s
  | .parkedRestore vd seq core => Sys2Proof.Machine.execParkedRestore vd seq core s
  | .parkFrameConfigWrite vd cnt v => Sys2Proof.Machine.execParkFrameConfigWrite vd cnt v s
  | .pcreate part => Sys2Proof.Machine.execPcreate part s
  | .pgrant part => Sys2Proof.Machine.execPgrant part s
  | .prevoke part => Sys2Proof.Machine.execPrevoke part s
  | .pdestroy part => Sys2Proof.Machine.execPdestroy part s
  | .vdcreate part => Sys2Proof.Machine.execVdcreate part s
  | .vdsched part => Sys2Proof.Machine.execVdsched part s
  | .vdstop part => Sys2Proof.Machine.execVdstop part s
  | .vddestroy part => Sys2Proof.Machine.execVddestroy part s
  | .gjoin part => Sys2Proof.Machine.execGjoin part s
  | .gretire part => Sys2Proof.Machine.execGretire part s
  | .slotw part => Sys2Proof.Machine.execSlotw part s
  | .bfillw part => Sys2Proof.Machine.execBfillw part s
  | .ccreate part => Sys2Proof.Machine.execCcreate part s
  | .cdestroy part => Sys2Proof.Machine.execCdestroy part s
  | .slotRowExpire part => Sys2Proof.Machine.execSlotRowExpire part s
  | .quantumExpire gang => Sys2Proof.Machine.execQuantumExpire gang s
  | .slot part row epoch backfill => Sys2Proof.Machine.execSlot part row epoch backfill s
  | .prepare gang epoch => Sys2Proof.Machine.execPrepare gang epoch s
  | .refuse gang epoch dev reason => Sys2Proof.Machine.execRefuse gang epoch dev reason s
  | .report gang epoch dev sent received => Sys2Proof.Machine.execReport gang epoch dev sent received s
  | .query gang epoch => Sys2Proof.Machine.execQuery gang epoch s
  | .capture gang epoch => Sys2Proof.Machine.execCapture gang epoch s
  | .commit gang epoch => Sys2Proof.Machine.execCommit gang epoch s
  | .abort gang epoch => Sys2Proof.Machine.execAbort gang epoch s
  | .doneMessage gang epoch dev => Sys2Proof.Machine.execDoneMessage gang epoch dev s
  | .resumeMessage gang => Sys2Proof.Machine.execResumeMessage gang s
  | .rollback gang => Sys2Proof.Machine.execRollback gang s
  | .barrierArrival gang dev word => Sys2Proof.Machine.execBarrierArrival gang dev word s
  | .barrierRelease gang dev word => Sys2Proof.Machine.execBarrierRelease gang dev word s
  | .ostepFlag gang dev flag => Sys2Proof.Machine.execOstepFlag gang dev flag s
  | .ostepResult gang result => Sys2Proof.Machine.execOstepResult gang result s
  | .snapshotTrigger vd => Sys2Proof.Machine.execSnapshotTrigger vd s
  | .votePollTick gang => Sys2Proof.Machine.execVotePollTick gang s
  | .voteRetry gang => Sys2Proof.Machine.execVoteRetry gang s
  | .chunksDrained gang => Sys2Proof.Machine.execChunksDrained gang s
  | .clusterSettled gang cluster => Sys2Proof.Machine.execClusterSettled gang cluster s
  | .restoreDone gang => Sys2Proof.Machine.execRestoreDone gang s
  | .memberSilentTimeout gang dev => Sys2Proof.Machine.execMemberSilentTimeout gang dev s
  | .checkpointTimer gang => Sys2Proof.Machine.execCheckpointTimer gang s
  | .undoLogThreshold gang => Sys2Proof.Machine.execUndoLogThreshold gang s
  | .mirrorComplete gang => Sys2Proof.Machine.execMirrorComplete gang s
  | .uncorrectableError site => Sys2Proof.Machine.execUncorrectableError site s
  | .quijaPacketReceive port pkt => Sys2Proof.Machine.execQuijaPacketReceive port pkt s
  | .linkReplay port => Sys2Proof.Machine.execLinkReplay port s
  | .linkRetrainTimeout port => Sys2Proof.Machine.execLinkRetrainTimeout port s
  | .seustRetrainTimeout => Sys2Proof.Machine.execSeustRetrainTimeout s
  | .mrd func tag off => Sys2Proof.Machine.execMrd func tag off s
  | .mwr func tag off v => Sys2Proof.Machine.execMwr func tag off v s
  | .hrd func tag vd va len => Sys2Proof.Machine.execHrd func tag vd va len s
  | .hwr func tag vd va data => Sys2Proof.Machine.execHwr func tag vd va data s
  | .dbgHalt vd => Sys2Proof.Machine.execDbgHalt vd s
  | .dbgRun vd => Sys2Proof.Machine.execDbgRun vd s
  | .dbgStep vd => Sys2Proof.Machine.execDbgStep vd s
  | .dbgRunMillstone vd core => Sys2Proof.Machine.execDbgRunMillstone vd core s
  | .dbgDump vd core => Sys2Proof.Machine.execDbgDump vd core s
  | .dbgLoad vd core => Sys2Proof.Machine.execDbgLoad vd core s
  | .snstatFire vd => Sys2Proof.Machine.execSnstatFire vd s
  | .thermalThrottle tj => Sys2Proof.Machine.execThermalThrottle tj s
  | .thermalHold tj => Sys2Proof.Machine.execThermalHold tj s
  | .thermalHoldEnd tj => Sys2Proof.Machine.execThermalHoldEnd tj s
  | .thermalHoldTimeout => Sys2Proof.Machine.execThermalHoldTimeout s
  | .thermtrip => Sys2Proof.Machine.execThermtrip s
  | .bringUp ok => Sys2Proof.Machine.execBringUp ok s
  | .pwrokDeassert => Sys2Proof.Machine.execPwrokDeassert s
  | .deviceReset => Sys2Proof.Machine.execDeviceReset s
  | .thermalThrottleEnd tj => Sys2Proof.Machine.execThermalThrottleEnd tj s
  | .quijaLinkUp port => Sys2Proof.Machine.execQuijaLinkUp port s
  | .portRetrain port => Sys2Proof.Machine.execPortRetrain port s
  | .seustLinkUp => Sys2Proof.Machine.execSeustLinkUp s
  | .seustLinkRetrain => Sys2Proof.Machine.execSeustLinkRetrain s
  | .rstNAssert => Sys2Proof.Machine.execRstNAssert s
  | .seustMalformedPacket readable header flits => Sys2Proof.Machine.execSeustMalformedPacket readable header flits s

end Sys2Proof.Machine
end

