-- ==== Sys2Proof/Machine/Bundle.lean ====
section
/-! DEFINITION. Bundles: fetching and checking them, issuing one on a core or a flight, and a core's cycle. -/

namespace Sys2Proof.Machine

/-- The instruction of a word, where its opcode and fields name one: its operands may still be illegal, which raises IENC once the word
does not stall (R147). -/
def decoded (w : Word) : Option Instr :=
  match decodeOp (w.toNat / 2 ^ 23 % 256) (w.toNat % 2 ^ 23) with
  | .ok i => some i
  | .error _ => none

/-- R147, R154: the instruction that a word would be with the fields that its format has beside the registers set so that its definition
accepts them, for a word that is none as it stands: the registers on which its bundle waits before IENC is raised. The spec does not say
what such a word names. DEDUCED, safe (log 71). -/
def named (w : Word) : Option Instr :=
  let op := w.toNat / 2 ^ 23 % 256
  let f := w.toNat % 2 ^ 23
  let keeps : List Nat := [2 ^ 5, 2 ^ 7, 2 ^ 9, 2 ^ 11, 2 ^ 17]
  if (decoded w).isSome then none
  else keeps.findSome? fun k => (List.range 32).findSome? fun v =>
    match decodeOp op (f / k * k + v) with
    | .ok i => some i
    | .error _ => none

/-! ### The rules of a bundle -/

/-- Words of a class in a bundle. -/
def countSlot (c : Slot) (ws : List Instr) : Nat := (ws.filter fun i => slot i = c).length

/-- R150: the class limits. -/
def slotsOk (ws : List Instr) : Bool :=
  ([Slot.si, .ct, .sf, .ld, .st, .pl, .rv, .xb, .mx, .en, .sy, .sc].all fun c => countSlot c ws ≤ slotLimit c)
  && countSlot .si ws + countSlot .ct ws ≤ 2
  && countSlot .pl ws + countSlot .rv ws ≤ 2

/-- Is the word a `limm`? -/
def isLimm : Instr → Option (BitVec 23)
  | .limm l => some l
  | _ => none

/-- R151, R152: every `limm` is followed by a word that accepts it. -/
def limmsOk : List Instr → Bool
  | [] => true
  | i :: rest =>
    (match isLimm i, rest with
      | none, _ => true
      | some l, j :: _ => limmOk l j
      | some _, [] => false) && limmsOk rest

/-- R151: a scope prefix only as the first word. -/
def scopeFirst : List Instr → Bool
  | [] => true
  | _ :: rest => rest.all fun i => slot i != .sc

/-- R169: no word names a register that an earlier word names as a destination. -/
def hazardFree : List Instr → Bool
  | [] => true
  | i :: rest =>
    (rest.all fun j => (dests i).all fun r => !(sources j).contains r && !(dests j).contains r) && hazardFree rest

/-- R150-R152, R169: the rules of a bundle that its words alone decide. -/
def bundleOk (ws : List Instr) : Bool := slotsOk ws && scopeFirst ws && limmsOk ws && hazardFree ws

/-- R218: a bundle that holds a control word stands at the end of the innermost active loop. -/
def loopEndClash (k : Core) (start : Nat) (ws : List Instr) : Bool :=
  0 < k.depth && (ws.any fun i => slot i = .ct) && (Map.get { start := 0, fin := 0, cnt := 0 : LoopSet } k.loops (k.depth - 1)).fin = start

/-! ### Issue -/

/-- A word of a bundle with its number, the extension before it (R152), its scalar pipe (R151) and the number of drawing words
before it (R234). -/
structure Placed where
  idx : Nat
  i : Instr
  ext : Option (BitVec 23)
  pipe : Nat
  draws : Nat

/-- Places the words of a bundle. -/
def placeWords (frm : Nat) (idx : Nat) (ext : Option (BitVec 23)) (pipe draws : Nat) : List (Option Instr) → List Placed
  | [] => []
  | none :: t => placeWords frm (idx + 1) none pipe draws t
  | some i :: t =>
    let p := if slot i = .si || slot i = .ct then pipe + 1 else pipe
    let d := if drawsBits frm i then draws + 1 else draws
    { idx := idx, i := i, ext := ext, pipe := pipe, draws := draws } :: placeWords frm (idx + 1) (isLimm i) p d t

/-- In which order the words of a bundle are taken: what reads counters first, then loads (R171), then the rest in word order, and last
the words that end or suspend (R210, R278, R323). An `await` stands among these, for it counts what the bundle's words do to the stack
(R278), and no other word of its bundle changes whether its condition holds. -/
def rank : Instr → Nat
  | .await _ _ _ => 5
  | .ldh _ _ _ => 3
  | .pldh _ _ _ => 3
  | .mfsr _ _ => 1
  | .rvinfo _ _ => 1
  | i => match slot i with
    | .ld => 2
    | .ct => 5
    | .sy => (match i with | .phase _ => 4 | .bar _ => 4 | .ostep _ _ => 4 | _ => 3)
    | _ => 3

/-- The words in that order. -/
def ordered (ps : List Placed) : List Placed :=
  (List.range 6).flatMap fun n => ps.filter fun p => rank p.i = n

/-- R340, R436: may the word act in place of its bundle: a yielding `await`, a `trap` under TSTOP, a `halt` with no debugger? -/
def State.replaces (s : State) : Instr → Bool
  | .await _ y _ => y
  | .trap _ => true
  | .halt => !(s.vd (s.coreVd s.turn)).dbgEn
  | _ => false

/-- What the words of a bundle come to: the state they leave, how each went, and the mode in which one that acts in place of the bundle
puts the core. -/
structure Run where
  state : State
  marks : List (Nat × Mark)
  replaced : Option Mode

/-- Runs the words one after another. A word that does not take effect, or that acts in place of the bundle, leaves only its unit
taken. -/
def State.runWords (s : State) : List Placed → Run
  | [] => ⟨s, [], none⟩
  | p :: ps =>
    let a := { s with bun := { s.bun with ext := p.ext, pipe := p.pipe, draws := p.draws } }
    match exec p.i a with
    | .next t =>
      let acts := t.mark = .ok && s.replaces p.i && t.cur.mode != .running
      let a' := if t.mark = .ok && !acts then t else (match s.claimUnit p.i with | .ok u => u | .error _ => s)
      let r := a'.runWords ps
      ⟨r.state, (p.idx, t.mark) :: r.marks, if acts then some t.cur.mode else r.replaced⟩
    | _ => s.runWords ps

/-- R147: each word of a bundle by itself, as the state before the bundle finds it. -/
def State.runAlone (s : State) : List Placed → Run
  | [] => ⟨s, [], none⟩
  | p :: ps =>
    let a := s.runWords [p]
    let r := s.runAlone ps
    ⟨s, a.marks ++ r.marks, a.replaced.orElse fun _ => r.replaced⟩

/-- Has a word of the run raised IENC? -/
def Run.illegal (r : Run) : Bool := r.marks.any fun x => match x.2 with | .trap t => t.cls = 1 | _ => false

/-- R423: which fault a bundle raises: IENC, then ISCH, then that of the lowest-numbered word. -/
def chooseTrap (static : Bool) (ms : List (Nat × Mark)) : Option Trap :=
  let traps := ms.filterMap fun (n, m) => match m with | .trap t => some (n, t) | _ => none
  if !static || traps.any (fun x => x.2.cls = 1) then some { cls := 1 }
  else if traps.any (fun x => x.2.cls = 2) then some { cls := 2 }
  else (List.range 8).findSome? fun n => (traps.find? fun x => x.1 = n).map (·.2)

/-- What became of an attempt to issue a bundle: it is held, it faults, a word of it has put the core in another mode in its place, or it
has issued. -/
inductive Issue where
  | held (m : Mark)
  | fault (t : Trap)
  | replaced (md : Mode)
  | ok (s : State)

/-- R153: the scope of the bundle's prefix, else core. -/
def prefixScope : List Instr → Nat
  | .scope sc :: _ => sc.val
  | _ => 0

/-- R147, R339, R340, R423, R436: the verdict on a bundle's words: a stall holds it; else a word acts in its place; else it waits for
stores of its core to land; else it raises a fault; else it freezes for granules; else it issues. -/
def Run.verdict (r : Run) (static : Bool) : Issue :=
  if r.marks.any (fun x => x.2 = .stall) then .held .stall
  else match r.marks.find? (fun x => x.2.stalls), r.replaced with
    | some x, _ => .held x.2
    | none, some md => .replaced md
    | none, none =>
      if r.marks.any (fun x => x.2 = .tick) then .held .tick
      else match chooseTrap static r.marks with
        | some x => .fault x
        | none =>
          if r.marks.any (fun x => x.2.frozen) then .held (.freeze (r.marks.flatMap fun x => x.2.granules)) else .ok r.state

/-- The bundle's context before any word of it runs. -/
def State.openBundle (s : State) (start len : Nat) (is : List Instr) : State :=
  { s with bun := { start := start, len := len, scope := prefixScope is, ext := none, pipe := 0, draws := 0, words := is,
                    next := none, before := some s.cur } }

/-- R147, R189: how words that no instruction reads would be held. -/
def State.strayMarks (s : State) (stray : List Instr) : List (Nat × Mark) :=
  stray.filterMap fun i => match exec i s with
    | .next t => if t.mark.stalls then some (8, t.mark) else none
    | _ => none

/-- R150-R152, R169, R218: does every word of a bundle decode, and do the bundle's words keep the rules of a bundle? -/
def State.bundleFits (s : State) (start : Nat) (ws : List (Option Instr)) : Bool :=
  let is := ws.filterMap id
  is.length = ws.length && bundleOk is && !loopEndClash s.cur start is

/-- The words of a bundle in the order in which they are taken. -/
def State.orderedWords (s : State) (ws : List (Option Instr)) : List Placed := ordered (placeWords (s.cur.fctl.toNat % 8) 0 none 0 0 ws)

/-- R147: tries to issue the words of a bundle on the core whose turn it is. A word that does not decode is `none`; `stray` holds what
such words name, on which the bundle waits before it raises IENC. An illegal bundle waits for what each of its words finds busy before the
bundle, and not for its other words, which take no effect. -/
def State.tryIssue (s : State) (start : Nat) (ws : List (Option Instr)) (stray : List Instr) : Issue :=
  let o := s.openBundle start ws.length (ws.filterMap id)
  let ps := s.orderedWords ws
  let r := o.runWords ps
  let good := s.bundleFits start ws && !r.illegal
  let r := if good then r else o.runAlone ps
  { r with marks := r.marks ++ o.strayMarks stray }.verdict good

/-- R218: the next bundle after one at `x` of `len` words with no taken transfer, and the loops left. -/
def loopNext (loops : Map LoopSet) (x len : Nat) : Nat → Map LoopSet × Nat × Nat
  | 0 => (loops, 0, x + len)
  | d + 1 =>
    let l := Map.get { start := 0, fin := 0, cnt := 0 : LoopSet } loops d
    if l.fin = x then
      let l' := { l with cnt := l.cnt - 1 }
      if l'.cnt != 0 then (Map.put loops d l', d + 1, l.start)
      else loopNext (Map.put loops d l') x len d
    else (loops, d + 1, x + len)

/-- R234: the counter's advance by the drawing words of a bundle, unless an `mtsr` of the bundle writes it. -/
def Core.advanceRng (k : Core) (is : List Instr) : Core :=
  let n := (is.filter (drawsBits (k.fctl.toNat % 8))).length
  if n = 0 || is.any (fun i => (dests i).contains (.sr 0x21)) then k
  else
    let l : InFlight := { at_ := k.sched, due := k.sched + 1, what := .sysreg 0x21 ((k.rngctr + BitVec.ofNat 32 n).zeroExtend 64) }
    { k with inflight := k.inflight ++ [l] }

/-- R170: where an explicit write of a flag plane lands after flags of its own bundle, the flags of the lanes it writes are ORed again at
its landing. -/
def Core.keepFlags (k : Core) : Core :=
  let own := k.inflight.filter fun f => f.at_ = k.sched
  { k with inflight := k.inflight ++ own.flatMap fun f =>
      match f.what with
      | .pred q m _ => own.filterMap fun g =>
          match g.what with
          | .flags r v => if r = q && g.due < f.due then some { f with what := .flags q (v &&& m) } else none
          | _ => none
      | _ => [] }

/-- R215, R376: the loop sets and D that a member of a flight other than the lead takes: as they were once the lead had issued the bundle. -/
def State.leadLoops (s : State) (k : Core) (skew : Nat) : Option (Map LoopSet × Nat) :=
  if k.fpos = 0 then none else (s.core k.lead).loopTrail[k.fpos * skew - 1]?

/-- After a bundle of `len` words at `start` has taken effect: where control goes (R210, R218), the counters, and the end of what its core
readers counted. -/
def State.afterIssue (s : State) (c start len : Nat) (is : List Instr) (w : Nat) : State :=
  let k := (((s.core c).readsDone is).advanceRng is).keepFlags
  let r : Map LoopSet × Nat × Nat := match s.bun.next with
    | some t => (k.loops, k.depth, t)
    | none => loopNext k.loops start len k.depth
  let l := (s.leadLoops k (s.job c).skew).getD (r.1, r.2.1)
  let k := { k with loops := l.1, depth := l.2, pc := r.2.2, bundleNo := k.bundleNo + 1, readyAt := none }
  s.setCore c (k.charge k.wall w)

/-- R340, R436: a word has acted in place of the bundle at `start`: the core is in its new mode, before the bundle, and nothing else has
changed. -/
def State.stayAt (s : State) (c start : Nat) (md : Mode) : State :=
  let s := if md = .halted then s.haltCore c else s
  s.setCore c { s.core c with mode := md, pc := start, readyAt := none }

/-! ### A core's cycle -/

/-- R136, R137: every swap that can happen does. -/
def Core.swapAll (k : Core) : Core :=
  { k with handles := k.handles.map fun e => (e.1, if e.2.canSwap then e.2.swap else e.2) }

/-- R137, R168, R195: a core cycle ends so on a core: it is counted, as a frozen one too where it is one, and the swaps that can happen take
effect. -/
def State.countCycle (s : State) (c : Nat) (m : Mark) : State :=
  let k := (s.core c).swapAll
  s.setCore c { k with
    wall := k.wall + 1, cycle := k.cycle + 1, freeze := if m.frozen then k.freeze + 1 else k.freeze, stalled := m.stalls, cause := m.cause }

/-- R375: the members of the flight that core `c` leads, lead first. -/
def State.members (s : State) (c : Nat) : List Nat := (List.range (s.core c).flen).map (c + ·)

/-- R376: the bundle that a member is due to issue: the lead's own next one, or the one the lead issued `p × skew` flight
cycles ago. An entry of the trail is an address plus 1. -/
def State.duePc (s : State) (c m : Nat) : Option Nat :=
  let lead := s.core c
  let k := s.core m
  if k.barrier.isSome then none
  else if m = c then (if lead.mode = .running then some lead.pc else none)
  else
    match lead.trail.getD (k.fpos * (s.job c).skew - 1) 0 with
    | 0 => none
    | a + 1 => if k.mode = .running then some a else none

/-- One member's bundle: what an attempt to issue it gives. A chain of more than eight words, or one that leaves the image, raises IENC once
its words do not stall (R147). One that the Governor holds back is ready since this cycle at the latest
(R191). -/
def State.memberIssue (s : State) (m pc : Nat) : Issue :=
  let s := { s with turn := m }
  match (s.job m).fetchBundle m pc with
  | none =>
    let ws := (s.job m).chainPart m 8 pc
    s.tryIssue pc (ws.map decoded ++ [none]) (ws.filterMap named)
  | some ws =>
    let is := ws.map decoded
    let good := is.filterMap id
    let w := (good.map weight).sum
    match s.tryIssue pc is (ws.filterMap named) with
    | .ok t => if s.bundleAllowed (s.core m) w then .ok (t.afterIssue m pc ws.length good w) else .held (.freeze [])
    | r => r

/-- R191: the weight of the bundle at an address. -/
def State.weightAt (s : State) (m pc : Nat) : Nat :=
  match (s.job m).fetchBundle m pc with
  | none => 0
  | some ws => ((ws.filterMap decoded).map weight).sum

/-- What a flight's cycle comes to after its members' attempts, in order of position: held, with the member and its bundle; a fault;
halted by a member that follows; or the state, with whether a bundle has issued. -/
inductive FlightResult where
  | held (m : Mark) (who pc : Nat)
  | fault (who : Nat) (t : Trap)
  | halted
  | ok (s : State) (issued : Bool)

/-- R191: the next bundle of a core is no candidate for the Governor while it cannot issue. -/
def State.unready (s : State) (m : Nat) : State := s.setCore m { s.core m with readyAt := none }

/-- R339, R376: every member's due bundle, in order; the first hold found holds the flight, else the first fault is raised. The wait of an
`hpub` of the lead for its stores holds nothing but its own bundle. -/
def State.flightTry (s : State) (c : Nat) (bad : Option (Nat × Trap)) (issued : Bool) : List Nat → FlightResult
  | [] => match bad with
    | none => .ok s issued
    | some (m, t) => .fault m t
  | m :: ms =>
    match s.duePc c m with
    | none => s.flightTry c bad issued ms
    | some pc =>
      match s.memberIssue m pc with
      | .held x => if x = .tick && m = c && !ms.isEmpty then (s.unready m).flightTry c bad issued ms else .held x m pc
      | .fault t => s.flightTry c (bad.orElse fun _ => some (m, t)) issued ms
      | .replaced md => if m = c then (s.stayAt m pc md).flightTry c bad issued ms else .halted
      | .ok t => t.flightTry c bad true ms

/-- R351: a schedule cycle of a core that waits at a barrier word lands nothing: what is due lands after the stall. -/
def State.schedHeld (s : State) (m : Nat) : State :=
  if (s.core m).barrier.isSome then s.setCore m { s.core m with sched := (s.core m).sched + 1 } else s.schedStep m

/-- Schedule cycles of several cores. -/
def State.schedAll (s : State) : List Nat → State
  | [] => s
  | m :: ms => (s.schedHeld m).schedAll ms

/-- Core cycles of several cores. -/
def State.countAll (s : State) (x : Mark) : List Nat → State
  | [] => s
  | m :: ms => (s.countCycle m x).countAll x ms

/-- R127, R191, R275, R276: what a hold of member `m` leaves: a bundle that the Governor holds back is ready since this cycle at the
latest, one that freezes for granules touches them, and one that stalls for the Tailrace sets it to work. -/
def State.noteHold (s : State) (m pc : Nat) : Mark → State
  | .freeze [] =>
    let k := s.core m
    s.setCore m { k with readyAt := some (k.readyAt.getD (k.wall, s.weightAt m pc)) }
  | .freeze gs => (s.want (s.coreGid m) gs).unready m
  | .tail d => (s.demandTail m d).unready m
  | _ => s.unready m

/-- R183, R376: one core cycle of a core that leads itself or a flight. The result's mark says how it went. The schedule counter stands
still where a word has acted in place of the lead's bundle and no other member has issued; a cycle in which the lead's bundle does not
issue leaves an empty entry for the others. -/
def State.issueCycle (s : State) (c : Nat) : State :=
  let ms := s.members c
  let start := s.duePc c c
  match s.flightTry c none false ms with
  | .held x m pc =>
    let s := s.noteHold m pc x
    let s := if x = .tick then s.schedAll ms else s
    { s.countAll x ms with mark := x, bun := Bundle.reset, turn := c }
  | .fault m t => { (s.raise m t).countAll .ok ms with mark := .trap t, bun := Bundle.reset, turn := c }
  | .halted =>
    let k := s.core c
    let s := if k.mode = .running then s.haltCore c else s
    { s.countAll .stall ms with mark := .stall, bun := Bundle.reset, turn := c }
  | .ok t issued =>
    let t := if start.isSome && !issued && (t.core c).mode != .running then t
      else
        let entry := match start with
          | some a => if (t.core c).bundleNo = (s.core c).bundleNo then 0 else a + 1
          | none => 0
        let k := t.core c
        let n := (ms.length - 1) * (t.job c).skew
        (t.setCore c { k with trail := (entry :: k.trail).take n, loopTrail := ((k.loops, k.depth) :: k.loopTrail).take n }).schedAll ms
    { t.countAll .ok ms with mark := .ok, bun := Bundle.reset, turn := c }

/-- R376, R432: has a member of the flight met a fault, or does one wait in place, so that the flight issues nothing? -/
def State.flightStopped (s : State) (c : Nat) : Bool :=
  (s.members c).any fun m =>
    match (s.core m).mode with
    | .faulted => true
    | .waiting _ => true
    | .parking => (s.core m).trap.any fun t => t.cls != 0
    | _ => false

/-- R183, R372: one cycle of a flight in which no bundle is due: schedule cycles pass only while the flight suspends. -/
def State.emptyCycle (s : State) (c : Nat) : State :=
  let ms := s.members c
  let lands := match (s.core c).mode with
    | .suspending _ _ _ => ms.any fun m => !(s.core m).inflight.isEmpty
    | _ => false
  if lands then { (s.schedAll ms).countAll .ok ms with mark := .ok } else { s.countAll .stall ms with mark := .stall }

/-- One core cycle of core `c`, which leads itself or a flight (R183, R372, R376). -/
def State.runCycle (s : State) (c : Nat) : State :=
  if (s.core c).mode = .idle then { s.countAll .stall [c] with mark := .stall }
  else if (s.core c).mode = .halted || s.flightStopped c then { s.countAll .stall (s.members c) with mark := .stall }
  else if (s.duePc c c).isSome || (s.core c).trail.any (· != 0) then s.issueCycle c
  else s.emptyCycle c

/-- One core cycle of core `c` as time passes: a held core issues nothing. -/
def State.coreCycle (s : State) (c : Nat) : State :=
  if s.holdsCore c then { s.countAll .stall (s.members c) with mark := .stall } else s.runCycle c

end Sys2Proof.Machine
end

