-- ==== Sys2Proof/Machine/Pending.lean ====
section
/-! DEFINITION. What the device does of its own while nothing outside it acts: the order in which the step tries its events (log 2). -/

namespace Sys2Proof.Machine

/-- A move of the device: an event with its operands. -/
abbrev Move := State → Host.Outcome State Fault Refusal

/-- The first move of a list that changes the state. -/
def State.firstMove (s : State) : List Move → Option State
  | [] => none
  | f :: fs =>
    match f s with
    | .next t => if t = s then s.firstMove fs else some t
    | _ => s.firstMove fs

/-- Moves that spill or restore the granules at which touches wait (R127, R128). -/
def State.granuleMoves (s : State) : List Move :=
  s.touches.flatMap fun e => [execGranuleSpill (e.1 / 32) (e.1 % 32), execGranuleRestore (e.1 / 32) (e.1 % 32)]

/-- Moves of a channel. -/
def channelMoves (c : Nat) (ch : Fin 2) : List Move :=
  [execFlumeRecordComplete c ch, execFlumeRecordStart c ch, execFlumeRecordFetch c ch]

/-- Moves of a core, its queues and its engines. -/
def State.coreMoves (s : State) (c : Nat) : List Move :=
  [execTailraceRefillComplete c, execTailraceSpillComplete c, execHiddenResultLand c .g, execHiddenResultLand c .m,
   execAtomicPerform c .g, execAtomicPerform c .m, execTloadComplete c, execTableWalk c, execOatomArrive c, execLateFault c,
   execLaunchFaultEnd c, execFaultEntryWrite (s.coreVd c)]
    ++ [execMillstoneLatchFill c, execMillstoneWave c, execMillstoneCommandComplete c]
    ++ channelMoves c 0 ++ channelMoves c 1
    ++ (List.finRange 64).map (execHandleSwap c)
    ++ [execPhaseComplete c, execBarrierComplete c, execOstepVoteComplete c, execSuspendCommit c]
    ++ s.granuleMoves

/-- The lowest numbers below `n` that are not in use. -/
def freeEntry (x : Launch) : Nat := ((List.range (x.pool.length + 1)).find? fun e => !Map.has x.pool e).getD 0

/-- Moves that give an idle core work (R371, R428). -/
def State.workMoves (s : State) (c : Nat) : List Move :=
  let x := s.job c
  let v := s.coreVd c
  if (s.core c).job.isNone || (s.core c).mode != .idle then []
  else
    ((s.vd v).fq.map fun e => execParkedRestore v e.seq c) ++ (x.suspended.map fun e => execContinuationResume c e.1)
      ++ ((s.unstarted x).map fun w => execWorkItemStart c w (freeEntry x))

/-- Moves of an idle core: the spills of its last continuation, its channels, and what gives it work. -/
def State.idleMoves (s : State) (c : Nat) : List Move :=
  if (s.core c).job.isNone || (s.core c).mode != .idle then []
  else execTailraceSpillComplete c :: channelMoves c 0 ++ channelMoves c 1 ++ s.workMoves c

/-- R386: the first idle clusters that a launch may be granted. -/
def State.firstGrant (s : State) (x : Launch) : List Nat :=
  let held := (s.vdPart x.vd).clusters
  let idle := held.filter fun c => (s.cluster c).launch.isNone
  if x.clustersF = 0 then held else idle.take x.clustersF

/-- Moves of the Sluice for a launch (R378, R385, R390). -/
def State.launchMoves (s : State) (l : Nat) : List Move :=
  [execLaunchSkip l, execLaunchComplete l, execLaunchStart l (s.firstGrant (s.launch l))]

/-- Moves of the Windlass for a communicator. -/
def commMoves (v n : Nat) : List Move :=
  [execWindlassOpComplete v n, execWindlassOpStart v n] ++ (List.range 36).map fun p => execWindlassChunkStart p v n

/-- Moves of the Sluice, the Windlass and the invalidations of a virtual device. -/
def State.vdMoves (s : State) (v : Nat) : List Move :=
  let x := s.vd v
  let queues := (List.range 64).filter fun q => x.qHead q != x.qTail q
  queues.map (execLaunchRecordFetch v) ++ x.comms.flatMap (fun e => commMoves v e.1) ++ [execInvalidationComplete v]

/-- Moves of a gang that no message from outside brings (R411). -/
def State.gangMoves (s : State) (g : Nat) : List Move :=
  [execChunksDrained g] ++ (s.clusters.map fun e => execClusterSettled g e.1) ++ [execRestoreDone g, execUndoLogThreshold g]
    ++ (if s.pwait.isSome then [execVoteRetry g] else [])

/-- R417, R420: a stop that waits goes on. -/
def State.stopMove (s : State) : Host.Outcome State Fault Refusal := s.move State.resumeStop

/-- Moves of the device beside those of the core whose turn it is. -/
def State.deviceMoves (s : State) : List Move :=
  s.cores.flatMap (fun e => s.idleMoves e.1) ++ s.vds.flatMap (fun e => s.vdMoves e.1) ++ s.launches.flatMap (fun e => s.launchMoves e.1)
    ++ s.gangs.flatMap (fun e => s.gangMoves e.1) ++ [State.stopMove] ++ s.slots.map fun e => execKeyZeroiseComplete e.1

/-- The core whose turn comes next: the next that runs a continuation and leads itself or a flight. -/
def State.nextTurn (s : State) : Nat :=
  let runs := (s.cores.filter fun e => e.2.mode != .idle && e.2.fpos = 0).map (·.1)
  (runs.find? (s.turn < ·)).getD (runs.headD s.turn)

/-- R168: a core cycle passes on the cores of launches that have no continuation. -/
def State.idleCycle (s : State) : State :=
  { s with cores := s.cores.map fun e =>
      if e.2.mode = .idle && e.2.job.isSome then (e.1, { e.2 with wall := e.2.wall + 1, cycle := e.2.cycle + 1 }) else e }

/-- The turn passes on; once it comes round, the cores without a continuation have had a cycle too. -/
def State.passTurn (s : State) : State :=
  let n := s.nextTurn
  if n ≤ s.turn then { s.idleCycle with turn := n } else { s with turn := n }

/-- A core cycle of the core whose turn it is; where it issues nothing, a move of the core, or else of the device, is made. -/
def State.runTurn (s : State) : State :=
  let t := s.newCycle.coreCycle s.turn
  if t.mark.holds then
    let u := { t with mark := .ok }
    ((u.firstMove (u.coreMoves s.turn)).getD ((u.firstMove u.deviceMoves).getD t)).passTurn
  else t.passTurn

/-- Each list of moves makes one of them, if any changes the state. -/
def State.eachMove (s : State) : List (List Move) → State
  | [] => s
  | fs :: rest => ((s.firstMove fs).getD s).eachMove rest

/-- R137, R446: with the first core of a step, before its bundle, every channel and every communicator of the launch advances by one of its
events, and the engines stand still again. -/
def State.stepEngines (s : State) (v : Nat) : State :=
  if !(s.vd v).stepping then s
  else
    let t := s.eachMove ((s.coresOf v).flatMap (fun c => [channelMoves c 0, channelMoves c 1]) ++ (s.vd v).comms.map fun e => commMoves v e.1)
    t.setVd v { t.vd v with stepping := false }

/-- R446: a core cycle of a core that the debugger holds; one that `trap` or `halt` stopped is held again after it. STALL is set where
it issued nothing. -/
def State.debugCycle (s : State) (c : Nat) : State :=
  let v := s.coreVd c
  let s := s.newCycle.stepEngines v
  let k := s.core c
  let t := if k.mode = .halted then (s.setCore c { k with mode := .running }).runCycle c else s.runCycle c
  let j := t.core c
  let t := if k.mode = .halted && j.mode = .running then t.setCore c { j with mode := .halted } else t
  if t.mark = .ok then t else t.setVd v { t.vd v with dbgStall := true }

end Sys2Proof.Machine
end

