-- ==== Sys2Proof/Machine/Loading.lean ====
section
/-! DEFINITION. What the step does with an entry of the agenda (log 2), and a device on which a launch runs a given word (log 3). -/

namespace Sys2Proof.Machine

/-- What stands first in the agenda happens. -/
def State.serve (s : State) (a : Agent) : Host.Outcome State Fault Refusal :=
  match a with
  | .event i => exec i s
  | .core c => .next (s.newCycle.coreCycle c)
  | .debugCore c => .next (s.debugCycle c)
  | .elapse n => .next { s.newCycle with now := s.now + n }
  | .power => .next { s.powerUp with mark := .ok }
  | .tlb b => .next { s with useTlb := b }

/-- R361: a launch record with LID 0 and the default resources, whose code image has 16 words. -/
def bareRecord : List DWord := 0 :: 0 :: 16 :: List.replicate 29 0

/-- A launch that runs on cluster 0, with a word at the start of its image. -/
def bareLaunch (w : Word) : Launch :=
  { Launch.reset with words := bareRecord, state := .running, clusters := [0], code := [(0, [(0, w)])], items := [(0, 3)], pool := [(0, 0)] }

/-- A partition with cluster 0, and a gang of one that runs. -/
def barePart : Part := { Part.reset with clusters := [0] }

/-- R403: the gang of one of virtual device 0 in partition 1. -/
def bareGang : Gang := { Gang.new 1 0 0 [0] 0 0 0 0 0 with vote := .run }

/-- The device, ready, with a continuation of a launch on core 0 whose next bundle is the word (log 3). -/
def State.placeWord (s : State) (w : Word) : State :=
  { s with
    agenda := [], turn := 0, ready := true, parts := Map.put s.parts 1 barePart, gangs := Map.put s.gangs 65536 bareGang,
    vds := Map.put s.vds 0 { VDev.reset with part := 1, gid := 65536, saveArea := some (0, 0), run := true },
    launches := Map.put s.launches 0 (bareLaunch w), nextLaunch := s.nextLaunch + 1,
    clusters := Map.put s.clusters 0 { Cluster.reset with launch := some 0 },
    cores := Map.put s.cores 0 { Core.reset with mode := .running, job := some 0 },
    granules := (List.range 32).foldl (fun m g => Map.put m g { gid := 65536, pin := 0 }) s.granules }

end Sys2Proof.Machine
end

