-- ==== Sys2Proof/Machine/Step.lean ====
section
/-! DEFINITION. One step of the device: what stands first in the agenda, else bring-up, else the core whose turn it is (log 2), and the
placing of a word where the next step fetches it (log 3). -/

namespace Sys2Proof.Machine

/-- One step. -/
def step (s : State) : Host.Outcome State Fault Refusal :=
  match s.agenda with
  | a :: rest => { s with agenda := rest }.serve a
  | [] => if s.ready then .next s.runTurn else execBringUp true s

/-- The state in which the next step fetches and runs the word of `nbits` bits. -/
def State.withFetchWord (s : State) (nbits w : Nat) : State := s.placeWord (BitVec.ofNat 32 (w % 2 ^ nbits))

end Sys2Proof.Machine
end

