-- ==== Sys2Proof/Safety.lean ====
section
/-! DEFINITION. The words in which the statements are made: what a well-kept state is, what it is for an instruction to land results,
to act, to move the device, or to raise a fault, and values as the spec's tables name them. -/

namespace Sys2Proof.Machine

/-- The two memories are in canonical form: strictly rising addresses, and no byte listed that an unlisted address reads as. -/
def State.canonical (s : State) : Bool := Memory.wf s.gmem && Memory.wf s.pmem

/-- R184, R185: results of a bundle that issues now are in flight with latency `lat`. -/
def Core.fly (k : Core) (lat : Nat) (ls : List Landing) : Core :=
  { k with inflight := k.inflight ++ ls.map fun l => { at_ := k.sched, due := k.sched + lat, what := l } }

/-- R184, R185: the results of a word are in flight on the core whose turn it is. -/
def State.flying (s : State) (lat : Nat) (ls : List Landing) : State := if ls.isEmpty then s else s.setCur (s.cur.fly lat ls)

/-- R185: no result lands in the cycle and the register of one of an earlier bundle. -/
def State.clear (s : State) (lat : Nat) (ls : List Landing) : Bool := ls.all fun l => !s.cur.collides (s.cur.sched + lat) l

/-- R210: the bundle goes on at a target. -/
def State.jumping (s : State) (a : Nat) : State := { s with bun := { s.bun with next := some a } }

/-- R432: an access as it enters its queue, under the bundle's scope. -/
def State.stamped (s : State) (x : Access) : Access :=
  { x with order := s.cur.issueNo, at_ := s.cur.sched, bundle := s.cur.bundleNo, scope := s.bun.scope }

/-- R40: the core's M or G queue with one more access. -/
def Core.enqueue (k : Core) (x : Access) : Core :=
  { k with issueNo := k.issueNo + 1, mq := if x.m then k.mq ++ [x] else k.mq, gq := if x.m then k.gq else k.gq ++ [x] }

/-- R432: an access is pending on the core whose turn it is. -/
def State.queued (s : State) (x : Access) : State := s.setCur (s.cur.enqueue (s.stamped x))

/-- R224, R432: there is room for the access: a scoreboard entry and, for a store, a line of the store queue for each block that has
none, 512 in all. -/
def State.roomFor (s : State) (x : Access) : Prop :=
  s.cur.gq.length + s.cur.mq.length < 16 ∧
    (x.op = .store ∨ x.op = .planeStore →
      (s.stamped x).newLines s.cur.sqAhead = [] ∨ s.cur.sqAhead.length + ((s.stamped x).newLines s.cur.sqAhead).length ≤ 512)

/-- R220, R363: `n` bytes of the own slice at a slice offset lie inside what the launch may reach, aligned to `unit`. -/
def State.inSlice (s : State) (a n unit : Nat) : Prop :=
  a % unit = 0 ∧ a + n ≤ min Config.sliceBytes ((s.job s.turn).gran * Config.granuleBytes)

/-- R127: the granules of `n` bytes of the own slice belong to the gang, or may be taken. -/
def State.ownsSlice (s : State) (a n : Nat) : Prop :=
  s.granuleOk (s.coreGid s.turn) (gAddr s.turn a / Config.granuleBytes) = true ∧
    s.granuleOk (s.coreGid s.turn) ((gAddr s.turn a + n - 1) / Config.granuleBytes) = true

/-- R127: the state in which the gang holds those granules. -/
def State.holding (s : State) (a n : Nat) : State :=
  (s.takeGranule (s.coreGid s.turn) (gAddr s.turn a / Config.granuleBytes)).takeGranule (s.coreGid s.turn)
    ((gAddr s.turn a + n - 1) / Config.granuleBytes)

/-- R261, R276: an entry of `n` bytes fits the launch's stack and the ring, and would overwrite no popped entry whose spill is in
flight. -/
def State.mayPush (s : State) (n : Nat) : Prop :=
  s.cur.tail.rsp + n ≤ (s.job s.turn).rsDepth ∧ s.cur.tail.resident + n ≤ 131072 ∧ ∀ e ∈ s.cur.tail.flight, s.cur.tail.rsp + n ≤ e.1

/-- R263, R266: the state in which an entry of `n` bytes has its space on the stack, and its header in the ring. -/
def State.pushed (s : State) (h : Header) (n : Nat) : State :=
  let t := s.cur.tail
  s.setCur { s.cur with tail := Tail.afterPush { t with
    rsp := t.rsp + n, count := t.count + 1,
    ring := ringWrite t.ring (t.rsp + n - 64) { h with size := n / 64, index := t.count }.bytes,
    ents := { base := t.rsp, size := n, st := 0 } :: t.ents } }

/-- R263: the header of the top entry. -/
def Tail.header (t : Tail) : Header := Header.ofBytes (t.read (t.rsp - 64) 64)

/-- R263: the bytes of the top entry, as its header gives its size. -/
def Tail.bytes (t : Tail) : List Byte := t.read (t.rsp - 64 * t.header.size) (64 * t.header.size)

/-- R265: the top entry is the one that a pop names. -/
def Tail.topIs (t : Tail) (op tag ty var param : Nat) : Prop :=
  t.header.op = op ∧ t.header.tag = tag ∧ t.header.ty = ty ∧ t.header.var = var ∧ t.header.param = param

/-- R265, R266: the top entry is in the ring, and has landed, or not yet. -/
def Core.topReady (k : Core) (landed : Bool) : Prop :=
  0 < k.tail.rsp ∧ ∃ e, k.tail.ents.head? = some e ∧ e.st < 2 ∧
    k.entryFlying e.base = !landed

/-- R265: the stack has a top entry, and it is in the ring. -/
def Core.topHere (k : Core) : Prop := 0 < k.tail.rsp ∧ ∃ e, k.tail.ents.head? = some e ∧ e.st < 2

/-- R265, R275: the stack without its top entry; a spill of it in flight still lands. -/
def Tail.less (t : Tail) : Tail :=
  { t with
    rsp := t.rsp - 64 * t.header.size, count := t.count - 1, ents := t.ents.tail,
    flight := match t.ents.head? with
      | some e => if e.st = 1 then t.flight ++ [(e.base, t.spb + e.base, t.read e.base e.size)] else t.flight
      | none => t.flight }

/-- R265, R274, R275: the state without the top entry; the count is that of the entry then on top. -/
def State.popped (s : State) : State :=
  let t := s.cur.tail.less
  s.setCur { s.cur with tail := s.afterPop s.turn { t with count := t.recount } }

end Sys2Proof.Machine

namespace Sys2Proof.Claims
open Sys2Proof.Machine

/-- From every state in which the word passes the checks that every word passes at issue (R147, R186, R189) and in which `ok` holds of
the state with its unit taken, the word answers a next state: where its results collide with none (R185), what `g` makes of that state,
with the results `ls` in flight for `lat` cycles, and where one of them would land in the cycle and the place of one of an earlier bundle
(R185, R423), that of an ISCH fault. -/
def Takes (i : Instr) (ok : State → Prop) (g : State → State) (lat : Nat) (ls : State → List Landing) : Prop :=
  ∀ s t, s.gate i = .ok t → ok t →
    ((g t).clear lat (ls t) = true → exec i s = .next { (g t).flying lat (ls t) with mark := .ok }) ∧
    ((g t).clear lat (ls t) = false → exec i s = .next { s.raise s.turn { cls := 2 } with mark := .trap { cls := 2 } })

/-- The word answers a next state in which its results are in flight, and nothing else has changed. -/
def Lands (i : Instr) (lat : Nat) (ls : State → List Landing) : Prop := Takes i (fun _ => True) id lat ls

/-- Where `ok` holds, the word answers the next state that `f` gives, with no result in flight. -/
def Acts (i : Instr) (ok : State → Prop) (f : State → State) : Prop :=
  ∀ s t, s.gate i = .ok t → ok t → exec i s = .next { f t with mark := .ok }

/-- Where `bad` holds, the word raises the fault at issue: the next state is that of the fault (R424, R425), from the state in which
the word was tried. -/
def Traps (i : Instr) (bad : State → Prop) (x : State → Trap) : Prop :=
  ∀ s t, s.gate i = .ok t → bad t → exec i s = .next { s.raise s.turn (x t) with mark := .trap (x t) }

/-- Where `busy` holds, the word stalls: nothing of the state changes but the mark. -/
def Stalls (i : Instr) (busy : State → Prop) : Prop :=
  ∀ s t, s.gate i = .ok t → busy t → exec i s = .next { s with mark := .stall }

/-- Where `busy` holds, the word stalls, and asks the Tailrace for a spill or a refill meanwhile. -/
def Asks (i : Instr) (busy : State → Prop) (d : State → Demand) : Prop :=
  ∀ s t, s.gate i = .ok t → busy t → exec i s = .next { s with mark := .tail (d t) }

/-- Where `ok` holds, the event answers the next state that `f` gives. -/
def Moves (i : Instr) (ok : State → Prop) (f : State → State) : Prop := ∀ s, ok s → exec i s = .next { f s with mark := .ok }

/-- Where `off` holds, the event changes nothing. -/
def Rests (i : Instr) (off : State → Prop) : Prop := ∀ s, off s → exec i s = .next { s with mark := .ok }

/-- R160, R196: a scalar source as the n-bit pattern that a word of width `w` reads. -/
def val (w : Width) (k : Core) (r : Nat) : BitVec (bitsOf w) := BitVec.ofNat _ (k.rdW w r)

/-- R159, R160, R196: what lands of a scalar integer result: the registers of its width, and the latch of the pipe. -/
def scalarLands (t : State) (w : Width) (d v : Nat) : List Landing :=
  regLandings d (splitWords w.regs v) ++ [.latch t.bun.pipe (BitVec.ofNat 32 v)]

/-- A scalar integer word that writes the value `v` of width `w` to `d` with a latency. -/
def Computes (i : Instr) (lat : Nat) (w : Width) (d : Fin 64) (v : State → Nat) : Prop :=
  Lands i lat fun t => scalarLands t w d (v t)

/-- R206: a scalar-float word that writes `v` to `d`, and to the latch bsf. -/
def Floats (i : Instr) (d : Fin 64) (v : Core → Nat) : Prop :=
  Lands i 4 fun t => regLandings d (splitWords 1 (v t.cur)) ++ [.latch 2 (BitVec.ofNat 32 (v t.cur))]

/-- A truth value as a number (R197). -/
def truth (p : Prop) [Decidable p] : Nat := if p then 1 else 0

/-- R228, R232: what lands of `n` planes from `d` under a mask, and the flags that the enabled lanes raise. -/
def planeLands (m : BitVec 1024) (n : Nat) (d : Fin 16) (f : Nat → Nat → Word × Flags) : List Landing :=
  let r := tabulate n fun j => tabulate lanes (f j)
  (r.zipIdx.map fun (p, j) => Landing.plane (d + j) m (p.map (·.1))) ++ flagLandings m (r.map fun p => p.map (·.2))

/-- R228: what lands of `n` planes from `d` under a mask, without flags. -/
def quietLands (m : BitVec 1024) (n : Nat) (d : Fin 16) (f : Nat → Nat → Word) : List Landing :=
  tabulate n fun j => Landing.plane (d + j) m (tabulate lanes (f j))

/-- R228, R229: a plane word with latency `lat` and interval `c` per plane, on a group of `pw`. -/
def Planes (i : Instr) (lat c : Nat) (pw : Fin 4) (d : Fin 16) (mask : Fin 8) (f : State → Nat → Nat → Word × Flags) : Prop :=
  Lands i (lat + c * (pwPlanes pw - 1)) fun t => planeLands (t.cur.pred mask) (pwPlanes pw) d (f t)

/-- A plane word that raises no flag. -/
def Quiet (i : Instr) (lat : Nat) (pw : Fin 4) (d : Fin 16) (mask : Fin 8) (f : State → Nat → Nat → Word) : Prop :=
  Lands i (lat + 4 * (pwPlanes pw - 1)) fun t => quietLands (t.cur.pred mask) (pwPlanes pw) d (f t)

/-- R264, R266: a forward word whose lanes give `lane`: it pushes an entry with the fixed part `fixed`, the escaped words of plane a,
and the two bitmaps, and its results and the entry land after `lat` cycles. -/
def Forwards (i : Instr) (lat : Nat) (d a : Fin 16) (mask : Fin 8) (h : State → Header) (lane_ : State → Nat → Fwd)
    (fixed : State → BitVec 1024 → List Fwd → List Byte) : Prop :=
  let m (t : State) : BitVec 1024 := t.cur.pred mask
  let r (t : State) : List Fwd := tabulate 1024 (lane_ t)
  let esc (t : State) : BitVec 1024 := laneMask fun i => (m t).getLsbD i && (lane_ t i).esc
  let list (t : State) : List Nat := (List.range 1024).filter fun i => (esc t).getLsbD i
  let body (t : State) : List Byte :=
    fixed t (m t) (r t) ++ pad64 ((list t).flatMap fun i => leBytes 4 (t.cur.at_ a 0 i).toNat) ++
      leBytes 128 (m t).toNat ++ leBytes 128 (esc t).toNat
  let z (t : State) : Nat := (body t).length + 64
  Takes i (fun t => t.mayPush (z t)) (fun t => t.pushed { h t with nesc := (list t).length } (z t)) lat
      (fun t => .tail t.cur.tail.rsp (body t) :: .plane d (m t) ((r t).map (·.y)) :: flagLandings (m t) [(r t).map (·.flags)]) ∧
    Traps i (fun t => (t.job t.turn).rsDepth < t.cur.tail.rsp + z t) (fun _ => { cls := 13 }) ∧
    Asks i (fun t => t.cur.tail.rsp + z t ≤ (t.job t.turn).rsDepth ∧ 131072 < t.cur.tail.resident + z t)
      (fun t => .spill (131072 - z t)) ∧
    Stalls i (fun t => t.cur.tail.rsp + z t ≤ (t.job t.turn).rsDepth ∧ t.cur.tail.resident + z t ≤ 131072 ∧
      ∃ e ∈ t.cur.tail.flight, e.1 < t.cur.tail.rsp + z t)

/-- R265, R266, R268: an undo word. The lanes of ENA are rebuilt: an escaped lane takes its word of the list, which stands after the
fixed part of `fixed` bytes in the order of the lanes, and every other lane what `f` gives from the header and the entry. -/
def Undoes (i : Instr) (lat : Nat) (d : Fin 16) (op tag ty var param fixed : Nat)
    (f : State → Header → List Byte → Nat → Word) : Prop :=
  let top (t : State) : Prop := t.cur.tail.topIs op tag ty var param
  let b (t : State) : List Byte := t.cur.tail.bytes
  let ena (t : State) (j : Nat) : Bool := (entryEna (b t)).getLsbD j
  let esc (t : State) (j : Nat) : Bool := ena t j && (entryEsc (b t)).getLsbD j
  let nth (t : State) (j : Nat) : Nat := ((List.range j).filter fun q => esc t q).length
  let list (t : State) : List Word := wordsOf (((b t).drop fixed).take ((b t).length - fixed - 320))
  Takes i (fun t => t.cur.topReady true ∧ top t) State.popped lat
      (fun t => [.plane d (entryEna (b t)) (tabulate 1024 fun j =>
        if esc t j then (list t).getD (nth t j) 0 else if ena t j then f t t.cur.tail.header (b t) j else 0)]) ∧
    Traps i (fun t => t.cur.tail.rsp = 0) (fun _ => { cls := 12 }) ∧
    Traps i (fun t => t.cur.topReady false) (fun _ => { cls := 2 }) ∧
    Traps i (fun t => t.cur.topReady true ∧ ¬ top t) (fun _ => { cls := 11 }) ∧
    Asks i (fun t => 0 < t.cur.tail.rsp ∧ t.cur.tail.ents = []) (fun _ => .refill) ∧
    Stalls i (fun t => 0 < t.cur.tail.rsp ∧ ∃ e, t.cur.tail.ents.head? = some e ∧ 2 ≤ e.st)

/-- A word that sends an access to its queue, and waits while its core has sixteen accesses pending. -/
def Sends (i : Instr) (ok : State → Prop) (x : State → Access) : Prop :=
  Acts i (fun t => ok t ∧ t.roomFor (x t)) (fun t => t.queued (x t)) ∧
    Stalls i (fun t => ok t ∧ 16 ≤ t.cur.gq.length + t.cur.mq.length)

/-- R220, R227, R235: at issue an access of `n` bytes raises an alignment fault where its address is not a multiple of `n`, and else a
window fault where it ends beyond `last`; either fault names the address. -/
def Rejects (i : Instr) (a : State → Nat) (n : Nat) (last : State → Nat) : Prop :=
  Traps i (fun t => a t % n ≠ 0) (fun t => { cls := 4, addr := a t }) ∧
    Traps i (fun t => a t % n = 0 ∧ last t < a t + n) (fun t => { cls := 3, addr := a t })

/-- R224: a store that passes its checks, and for which the store queue has no line left, raises the phase-overflow fault at issue. -/
def Overflows (i : Instr) (ok : State → Prop) (x : State → Access) : Prop :=
  Traps i (fun t => ok t ∧ t.cur.gq.length + t.cur.mq.length < 16 ∧ (t.stamped (x t)).newLines t.cur.sqAhead ≠ [] ∧
    512 < t.cur.sqAhead.length + ((t.stamped (x t)).newLines t.cur.sqAhead).length) (fun t => { cls := 14, addr := (x t).addr })

end Sys2Proof.Claims
end

