-- ==== Sys2Proof/Certificates/Slice0/Obligations.lean ====
section
/-! DEFINITION. The statements for the provers. Each says which rules of the spec it follows; "the word passes its checks" is the
hypothesis `s.gate i = .ok t`, whose meaning `ChecksBeforeAWord` states. Events that are not words act on the device at once. -/

section Statements
open Sys2Proof Sys2Proof.Machine Sys2Proof.Claims

/-! ### Encoding -/

/-- R143-R167: words written out from the spec's encodings decode to the instructions they stand for. R148, R157: a word whose opcode is
a dash of the map, or 0xF0 to 0xFF, is no instruction. R5, R143: bytes are decoded as little-endian words, one after another, each with
its chain bit. -/
def Obligations.DecodingIsRight : Prop :=
  (decodeWord 0x00000000 = .ok .nop ∧ decodeWord 0x80000000 = .ok .nop ∧
   decodeWord 0x16A8A0EA = .ok (.lea 20 20 7 .d false 2) ∧
   decodeWord 0x1B922001 = .ok (.fcvt 9 4 0 1) ∧
   decodeWord 0x23862841 = .ok (.ldh 3 5 0x41) ∧
   decodeWord 0x70000042 = .ok (.trap 0x42) ∧
   decodeWord 0x7406000C = .ok (.sysc 3 12) ∧
   decodeWord 0x708828C0 = .ok (.resume 4 5 6) ∧
   decodeWord 0x73800000 = .ok .halt ∧
   decodeWord 0x73000007 = .ok (.snap 7) ∧
   decodeWord 0x5AD00000 = .ok (.mclr 5) ∧
   decodeWord 0x5BB00000 = .ok (.mwait 3) ∧
   decodeWord 0x5B800040 = .ok .mwaitAll) ∧
  (∀ w : BitVec 32,
     let op := w.toNat / 2 ^ 23 % 256
     (0x49 ≤ op ∧ op ≤ 0x4F ∨ 0x5A ≤ op ∧ op ≤ 0x5F ∨ 0x87 ≤ op ∧ op ≤ 0x8F ∨ op = 0x9B ∨ op = 0x9F ∨ 0xB9 ≤ op ∧ op ≤ 0xBF ∨
       0xCC ≤ op ∧ op ≤ 0xCF ∨ 0xD8 ≤ op ∧ op ≤ 0xDF ∨ 0xE9 ≤ op) → decodeWord w = .error .reservedOpcode) ∧
  (∀ (w : BitVec 32) (rest : List Byte) (i : Instr), decodeWord w = .ok i →
     decodeBytes (bytesOfWord w ++ rest) = .ok (w.getLsbD 31, i, rest))

/-- R143-R167: no bit of an encoding is dropped: every well-formed instruction that has a word is read back from its word. -/
def Obligations.EncodedInstructionDecodes : Prop :=
  ∀ (i : Instr) (w : BitVec 32), i.wf = true → encode i = some w → decodeWord w = .ok i

/-- R143, R154: one instruction has one word: what decodes is encoded as the word itself with its chain bit clear. -/
def Obligations.DecodedWordEncodes : Prop :=
  ∀ (i : Instr) (w : BitVec 32), decodeWord w = .ok i → encode i = some (w &&& 0x7FFFFFFF)

/-! ### The checks of a word, and how it may end -/

/-- R147, R152, R154, R157, R186, R189, R363: a word passes its checks exactly when its core is running and no register on which it waits
is busy, both as they are before the bundle, its operands are legal and within the launch's resources, a `limm` before it is one that
it accepts, and an instance of its unit is free, which it then occupies.
R147, R189, R423: a word of any kind that fails its checks has no effect of its own: it stalls, or the fault is raised, but that a word
with a stall of its own stalls first, and asks the Tailrace for what it waits for.
R147, R154: operands, resources or a `limm` that fail are an encoding fault (class 1). R186, R187: a word whose unit has no free instance
is a schedule fault (class 2).
R185: results collide where one of them would land in the cycle and the register of a result of an earlier bundle, as a destination a
scalar, plane, predicate or system register being meant; R159, R232: latches and flags that land together do not collide. What a word that
collides comes to is said by `Takes`. -/
def Obligations.ChecksBeforeAWord : Prop :=
  (∀ (s t : State) (i : Instr), s.gate i = .ok t ↔
     (s.prior.mode = .running ∧ (∀ r ∈ waitsOn i, s.prior.busy r = false) ∧ i.wf = true ∧ resourceOk (s.job s.turn) i = true ∧
       extOk i s.bun.ext = true ∧
       ((unitOf i = none ∧ t = s) ∨
         ∃ u n j, unitOf i = some (u, n) ∧ j ∈ unitIds u ∧ Map.get 0 s.cur.units j ≤ s.cur.sched ∧
           (∀ k ∈ unitIds u, Map.get 0 s.cur.units k ≤ s.cur.sched → j ≤ k) ∧
           t = s.setCur { s.cur with units := Map.put s.cur.units j (s.cur.sched + n) }))) ∧
  (∀ (i : Instr) (s : State), (encode i).isSome = true →
     (s.gate i = .error .stall → exec i s = .next { s with mark := .stall }) ∧
     (∀ x, s.gate i = .error (.trap x) →
       exec i s = .next { s.raise s.turn x with mark := .trap x } ∨ exec i s = .next { s with mark := .stall } ∨
         ∃ d, exec i s = .next { s with mark := .tail d }) ∧
     (∀ e, s.gate i = .error e → e = .stall ∨ ∃ x, e = .trap x)) ∧
  (∀ (s : State) (i : Instr),
     let waits : Prop := s.prior.mode ≠ .running ∨ ∃ r ∈ waitsOn i, s.prior.busy r = true
     let formOk : Prop := i.wf = true ∧ resourceOk (s.job s.turn) i = true ∧ extOk i s.bun.ext = true
     (waits → s.gate i = .error .stall) ∧
     (¬ waits → ¬ formOk → s.gate i = .error (.trap { cls := 1 })) ∧
     (¬ waits → formOk → ∀ u n, unitOf i = some (u, n) → (∀ j ∈ unitIds u, s.cur.sched < Map.get 0 s.cur.units j) →
       s.gate i = .error (.trap { cls := 2 }))) ∧
  (∀ (s : State) (lat : Nat) (ls : List Landing), s.clear lat ls = false ↔
     ∃ l ∈ ls, ∃ r, l.dest = some r ∧ ∃ f ∈ s.cur.inflight, f.due = s.cur.sched + lat ∧ f.at_ ≠ s.cur.sched ∧ f.what.dest = some r) ∧
  (∀ (r p q n i : Nat) (v keep : Word) (m w : BitVec 1024) (vs : List Word) (x : DWord),
     (Landing.reg r v).dest = some (.s r) ∧ (Landing.plane p m vs).dest = some (.p p) ∧ (Landing.part p i keep v).dest = some (.p p) ∧
     (Landing.pred q m w).dest = some (.q q) ∧ (Landing.sysreg n x).dest = some (.sr n))

/-- Every instruction answers a next state in every state, and no event stalls or raises a fault at issue: its mark is `ok`. What a word and
an event do is said by the statements about each; that an event which is not enabled changes nothing is the model's choice (log 55, DESIGN
CHOICE), on which the `Rests` clauses of the statements about events rest. -/
def Obligations.EveryInstructionAnswers : Prop :=
  ∀ (i : Instr) (s : State), ∃ t, exec i s = .next t ∧ (encode i = none → t.mark = .ok)

/-! ### Scalar words -/

/-- R197: the two-source operations, on n-bit patterns, where b of a shift and of `cmov` is single. R198: the low n bits of a product, and the high halves of the signed and the natural 64-bit product. R200, R201: leading zeros, one bits, bit reversal; field extraction and insertion, with the position in b[5:0], the length in
b[11:6], and the field cut at the register's top.
R152, R202, R203: the operations with an immediate. Without `limm` imm is the sign-extended field of the word; with one it is the
`limm` bits above the field.
R204: multiply and add, address arithmetic, moves of any width, and the extension of narrow values. -/
def Obligations.IntegerWords : Prop :=
  (∀ (d a b : Fin 64) (w : Width),
     let x (t : State) := val w t.cur a
     let y (t : State) := val w t.cur b
     let k (t : State) := (t.cur.rd b).toNat % bitsOf w
     Computes (.add d a b w) 1 w d (fun t => (x t + y t).toNat) ∧
     Computes (.sub d a b w) 1 w d (fun t => (x t - y t).toNat) ∧
     Computes (.and d a b w) 1 w d (fun t => (x t &&& y t).toNat) ∧
     Computes (.or d a b w) 1 w d (fun t => (x t ||| y t).toNat) ∧
     Computes (.xor d a b w) 1 w d (fun t => (x t ^^^ y t).toNat) ∧
     Computes (.andn d a b w) 1 w d (fun t => (x t &&& ~~~y t).toNat) ∧
     Computes (.orn d a b w) 1 w d (fun t => (x t ||| ~~~y t).toNat) ∧
     Computes (.shl d a b w) 1 w d (fun t => (x t <<< k t).toNat) ∧
     Computes (.shr d a b w) 1 w d (fun t => (x t >>> k t).toNat) ∧
     Computes (.sar d a b w) 1 w d (fun t => ((x t).sshiftRight (k t)).toNat) ∧
     Computes (.rotl d a b w) 1 w d (fun t => ((x t).rotateLeft (k t)).toNat) ∧
     Computes (.min d a b w) 1 w d (fun t => (if (x t).sle (y t) then x t else y t).toNat) ∧
     Computes (.max d a b w) 1 w d (fun t => (if (x t).sle (y t) then y t else x t).toNat) ∧
     Computes (.minn d a b w) 1 w d (fun t => (if x t ≤ y t then x t else y t).toNat) ∧
     Computes (.maxn d a b w) 1 w d (fun t => (if x t ≤ y t then y t else x t).toNat) ∧
     Computes (.ceq d a b w) 1 .s d (fun t => truth (x t = y t)) ∧
     Computes (.clt d a b w) 1 .s d (fun t => truth ((x t).slt (y t) = true)) ∧
     Computes (.cltn d a b w) 1 .s d (fun t => truth (x t < y t)) ∧
     Computes (.cmov d a b w) 1 w d (fun t => (if t.cur.rd b = 0 then val w t.cur d else x t).toNat)) ∧
  (∀ (d a b : Fin 64) (w : Width),
     Computes (.mul d a b w) 3 w d (fun t => (val w t.cur a * val w t.cur b).toNat) ∧
     Computes (.mulh d a b) 3 .s d
       (fun t => (((t.cur.rd a).signExtend 64 * (t.cur.rd b).signExtend 64).extractLsb' 32 32).toNat) ∧
     Computes (.mulhn d a b) 3 .s d
       (fun t => (((t.cur.rd a).zeroExtend 64 * (t.cur.rd b).zeroExtend 64).extractLsb' 32 32).toNat)) ∧
  (∀ (d a b : Fin 64) (w : Width) (sx : Bool),
     let n := bitsOf w
     let x (t : State) := val w t.cur a
     let pos (t : State) := (t.cur.rd b).toNat % 64
     let k (t : State) := min ((t.cur.rd b).toNat / 64 % 64) (n - pos t)
     Computes (.clz d a w) 1 w d (fun t => n - ((List.range n).filter fun j => (List.range n).any fun i => j ≤ i && (x t).getLsbD i).length) ∧
     Computes (.popc d a w) 1 w d (fun t => ((List.range n).filter fun j => (x t).getLsbD j).length) ∧
     Computes (.brev d a w) 1 w d (fun t => (x t).reverse.toNat) ∧
     Computes (.bext d a b w sx) 1 w d (fun t =>
       let f := (x t).extractLsb' (pos t) (k t)
       (if sx then f.signExtend n else f.zeroExtend n).toNat) ∧
     Computes (.bins d a b w) 1 w d (fun t =>
       let m := BitVec.ofNat n (2 ^ k t - 1)
       ((val w t.cur d &&& ~~~(m <<< pos t)) ||| ((x t &&& m) <<< pos t)).toNat)) ∧
  ((∀ (d a : Fin 64) (imm : BitVec 11),
     let x (t : State) := t.cur.rd a
     let y (t : State) : Word := match t.bun.ext with
       | none => imm.signExtend 32
       | some l => l.extractLsb' 0 21 ++ imm
     Computes (.addi d a imm) 1 .s d (fun t => (x t + y t).toNat) ∧
     Computes (.andi d a imm) 1 .s d (fun t => (x t &&& y t).toNat) ∧
     Computes (.ori d a imm) 1 .s d (fun t => (x t ||| y t).toNat) ∧
     Computes (.xori d a imm) 1 .s d (fun t => (x t ^^^ y t).toNat) ∧
     Computes (.shli d a imm) 1 .s d (fun t => (x t <<< (y t).toNat).toNat) ∧
     Computes (.shri d a imm) 1 .s d (fun t => (x t >>> (y t).toNat).toNat) ∧
     Computes (.sari d a imm) 1 .s d (fun t => ((x t).sshiftRight (y t).toNat).toNat) ∧
     Computes (.ceqi d a imm) 1 .s d (fun t => truth (x t = y t)) ∧
     Computes (.clti d a imm) 1 .s d (fun t => truth ((x t).slt (y t) = true)) ∧
     Computes (.cltni d a imm) 1 .s d (fun t => truth (x t < y t))) ∧
   (∀ (d : Fin 64) (imm : BitVec 17),
     Computes (.movi d imm) 1 .s d (fun t => (match t.bun.ext with
       | none => imm.signExtend 32
       | some l => l.extractLsb' 0 15 ++ imm : Word).toNat) ∧
     Computes (.lui d imm) 1 .s d (fun _ => (imm.zeroExtend 32 <<< 15).toNat))) ∧
  ((∀ (d a b : Fin 64) (w : Width) (nat : Bool) (sh : Fin 4),
     Computes (.madd d a b w) 3 w d (fun t => (val w t.cur d + val w t.cur a * val w t.cur b).toNat) ∧
     Computes (.lea d a b w nat sh) 1 w d (fun t =>
       (val w t.cur a + ((if nat then (t.cur.rd b).zeroExtend (bitsOf w) else (t.cur.rd b).signExtend (bitsOf w)) <<< sh.val)).toNat) ∧
     Computes (.mov d a w) 1 w d (fun t => (val w t.cur a).toNat)) ∧
   (∀ (d a : Fin 64) (w : Width),
     Computes (.ext d a w 0) 1 w d (fun t => (((t.cur.rd a).extractLsb' 0 8).signExtend 32).toNat) ∧
     Computes (.ext d a w 1) 1 w d (fun t => (((t.cur.rd a).extractLsb' 0 16).signExtend 32).toNat) ∧
     Computes (.ext d a w 2) 1 w d (fun t => (((t.cur.rd a).extractLsb' 0 8).zeroExtend 32).toNat) ∧
     Computes (.ext d a w 3) 1 w d (fun t => (((t.cur.rd a).extractLsb' 0 16).zeroExtend 32).toNat) ∧
     Computes (.ext d a w 4) 1 w d (fun t => ((t.cur.rd a).signExtend 64).toNat) ∧
     Computes (.ext d a w 5) 1 w d (fun t => ((t.cur.rd a).zeroExtend 64).toNat)))

/-- R199: quotients and remainders toward zero; by zero they are all ones and the dividend, and a signed overflow wraps. The four words
have the opcodes 0x17 to 0x1A, take the single divider for 18 cycles, and never trap. -/
def Obligations.DivideWords : Prop :=
  ∀ (d a b : Fin 64) (w : Width),
    let x (t : State) := val w t.cur a
    let y (t : State) := val w t.cur b
    Computes (.div d a b w) 18 w d (fun t => (if y t = 0 then BitVec.allOnes _ else (x t).sdiv (y t)).toNat) ∧
    Computes (.divn d a b w) 18 w d (fun t => (if y t = 0 then BitVec.allOnes _ else x t / y t).toNat) ∧
    Computes (.rem d a b w) 18 w d (fun t => (if y t = 0 then x t else (x t).srem (y t)).toNat) ∧
    Computes (.remn d a b w) 18 w d (fun t => (if y t = 0 then x t else x t % y t).toNat) ∧
    (unitIds .divider).length = 1 ∧
    ∀ i n, (i, n) ∈ [(Instr.div d a b w, 0x17), (.divn d a b w, 0x18), (.rem d a b w, 0x19), (.remn d a b w, 0x1A)] →
      unitOf i = some (.divider, 18) ∧ (encode i).map (fun x => (x.extractLsb' 23 8).toNat) = some n

/-- R206-R209: the scalar-float words: one rounding of the exact value, four cycles, into d and the latch bsf. R206: every NaN that the arithmetic of a scalar-float word gives is the canonical one. -/
def Obligations.ScalarFloatWords : Prop :=
  (∀ (d a b : Fin 64) (rm : Fin 8),
     Floats (.fadd d a b rm) d (fun k => fround [k.rdF a, k.rdF b] (sumExact rm [k.rdF a, k.rdF b]) rm) ∧
     Floats (.fsub d a b rm) d (fun k => fround [k.rdF a, k.rdF b] (sumExact rm [k.rdF a, (k.rdF b).negate]) rm) ∧
     Floats (.fmul d a b rm) d (fun k => fround [k.rdF a, k.rdF b] (mulExact (k.rdF a) (k.rdF b)) rm) ∧
     Floats (.ffma d a b rm) d
       (fun k => fround [k.rdF a, k.rdF b, k.rdF d] (sumOf rm [mulExact (k.rdF a) (k.rdF b), some (k.rdF d)]) rm) ∧
     Floats (.fmin d a b) d (fun k => if (k.rdF a).isNan ∨ (k.rdF b).isNan then 0x7FC00000
       else if (k.rdF b).lt true (k.rdF a) then (k.rd b).toNat else (k.rd a).toNat) ∧
     Floats (.fmax d a b) d (fun k => if (k.rdF a).isNan ∨ (k.rdF b).isNan then 0x7FC00000
       else if (k.rdF a).lt true (k.rdF b) then (k.rd b).toNat else (k.rd a).toNat) ∧
     Floats (.fcmp d a b rm) d (fun k => truth (fcmpN rm (k.rdF a) (k.rdF b) = true)) ∧
     Floats (.fcvt d a b rm) d (fun k => fcvtN b rm (k.rd a))) ∧
  (∀ (ops : List Machine.Num) (x : Option Machine.Num) (rm : Nat), (Fmt.f32.decode (fround ops x rm)).isNan = true → fround ops x rm = 0x7FC00000)

/-- R158, R184, R185: a result in flight is in its register from the schedule cycle in which it is due, a write of s0 is discarded, and
no other register, and nothing outside the core, changes.
R163, R228: what lands of a plane: a lane that the mask enables takes the new value, every other keeps its old one; no other plane
changes, and nothing outside the core.
R241: an element that lands in one lane of a plane replaces the kept bits' complement in that lane alone.
R221, R347: a store that lands writes exactly its bytes: every byte of the G space outside them, and all of device memory, reads as
before. R235-R237: of a masked plane store or a scatter, the lanes are written one after another, so that of lanes with one address the last
stands. R226, R339: so does a store through a handle.
R159: a latch takes its value. R165, R232: a predicate takes the enabled lanes of its value, and a flag plane is ORed with the flags.
R205: a system register takes what is written to it, cut to its width. R255, R256: a crossbar slot takes a pattern. R287, R289: a tensor
register takes a descriptor. R259, R266: an entry of the Tailrace is in the ring, and no other byte of the ring changes. -/
def Obligations.ResultsLand : Prop :=
  ((∀ (s : State) (c r : Nat) (v : Word), 0 < r → r < 56 →
     ((s.land c (.reg r v)).core c).rd r = v ∧
     (∀ q, q ≠ r → ((s.land c (.reg r v)).core c).rd q = (s.core c).rd q) ∧
     ∃ k, s.land c (.reg r v) = s.setCore c k) ∧
   (∀ k : Core, k.rd 0 = 0) ∧
   (∀ ws : List Word, regLandings 0 ws = []) ∧
   (∀ (d : Nat) (ws : List Word), d ≠ 0 → regLandings d ws = (ws.zipIdx).map fun e => .reg (d + e.2) e.1) ∧
   ∀ (s : State) (c : Nat), s.landDue c =
     (s.setCore c { s.core c with inflight := (s.core c).inflight.filter fun f => (s.core c).sched < f.due }).landList c (s.core c).due) ∧
  (∀ (s : State) (c p q i : Nat) (m : BitVec 1024) (v : List Word), i < 1024 →
     let t := s.land c (.plane p m v)
     lane ((t.core c).plane p) i = (if m.getLsbD i then lane v i else lane ((s.core c).plane p) i) ∧
     (q ≠ p → (t.core c).plane q = (s.core c).plane q) ∧ ∃ k, t = s.setCore c k) ∧
  (∀ (s : State) (c p q i l : Nat) (keep v : Word), i < 1024 →
     let t := s.land c (.part p l keep v)
     lane ((t.core c).plane p) i =
       (if i = l then (lane ((s.core c).plane p) i &&& keep) ||| v else lane ((s.core c).plane p) i) ∧
     (q ≠ p → (t.core c).plane q = (s.core c).plane q) ∧ ∃ k, t = s.setCore c k) ∧
  (∀ (s : State) (c a x : Nat) (v : List Byte), s.canonical = true →
     let t := s.land c (.slice a v)
     (∀ i b, v[i]? = some b → Map.get 0 t.gmem (c * 2097152 + a + i) = b) ∧
     (x < c * 2097152 + a ∨ c * 2097152 + a + v.length ≤ x → Map.get 0 t.gmem x = Map.get 0 s.gmem x) ∧
     t.pmem = s.pmem ∧ t.cores = s.cores ∧ t.canonical = true) ∧
  (∀ (s : State) (c a x j : Nat) (w : Word) (b : Byte) (pre post : List (Nat × Word)), s.canonical = true →
     let v := pre ++ (a, w) :: post
     let t := s.land c (.lanes v)
     ((leBytes 4 w.toNat)[j]? = some b → (∀ e ∈ post, a + j < e.1 ∨ e.1 + 4 ≤ a + j) → Map.get 0 t.gmem (c * 2097152 + a + j) = b) ∧
     ((∀ e ∈ v, x < c * 2097152 + e.1 ∨ c * 2097152 + e.1 + 4 ≤ x) → Map.get 0 t.gmem x = Map.get 0 s.gmem x) ∧
     t.pmem = s.pmem ∧ t.cores = s.cores ∧ t.canonical = true) ∧
  (∀ (s : State) (c h a x : Nat) (v : List Byte), s.canonical = true → v.length % 4 = 0 →
     let t := s.land c (.bank h a v)
     (∀ i b, v[i]? = some b → Map.get 0 t.gmem (c * 2097152 + a + i) = b) ∧
     (x < c * 2097152 + a ∨ c * 2097152 + a + v.length ≤ x → Map.get 0 t.gmem x = Map.get 0 s.gmem x) ∧
     t.pmem = s.pmem ∧ t.cores = s.cores ∧ t.canonical = true) ∧
  (∀ (s : State) (c n : Nat) (v : Word), n < 5 →
     let t := s.land c (.latch n v)
     (t.core c).rd (56 + n) = v ∧ (∀ r, r ≠ 56 + n → (t.core c).rd r = (s.core c).rd r) ∧ ∃ k, t = s.setCore c k) ∧
  (∀ (s : State) (c q p i : Nat) (m v : BitVec 1024), q ≠ 0 →
     let t := s.land c (.pred q m v)
     let u := s.land c (.flags q v)
     ((t.core c).pred q).getLsbD i = (if m.getLsbD i then v.getLsbD i else ((s.core c).pred q).getLsbD i) ∧
     (p ≠ q → (t.core c).pred p = (s.core c).pred p) ∧ (∃ k, t = s.setCore c k) ∧
     ((u.core c).pred q).getLsbD i = (((s.core c).pred q).getLsbD i || v.getLsbD i) ∧
     (p ≠ q → (u.core c).pred p = (s.core c).pred p) ∧ ∃ k, u = s.setCore c k) ∧
  (∀ (s : State) (c n : Nat) (v : DWord),
     let t (n : Nat) : State := s.land c (.sysreg n v)
     let lo : Word := v.truncate 32
     t 0x10 = s.setCore c { s.core c with mbtag := lo } ∧ t 0x11 = s.setCore c { s.core c with ostep := lo } ∧
     t 0x20 = s.setCore c { s.core c with rngkey := v } ∧ t 0x21 = s.setCore c { s.core c with rngctr := lo } ∧
     t 0x22 = s.setCore c { s.core c with fctl := lo &&& 15 } ∧
     t 0x31 = s.setCore c { s.core c with tail := { (s.core c).tail with rsbase := lo } } ∧
     (∃ hi lw, t 0x32 = s.setCore c { s.core c with tail := { (s.core c).tail with high := hi, low := lw } }) ∧
     (n ∉ [0x10, 0x11, 0x20, 0x21, 0x22, 0x31, 0x32] → t n = s.setCore c (s.core c))) ∧
  (∀ (s : State) (c n p : Nat) (en : BitVec 1024) (dst : List Nat) (coll : Bool) (x : TReg),
     let t := s.land c (.xslot n en dst coll)
     let u := s.land c (.treg n x)
     (t.core c).xslot n = { en := en, dst := dst, coll := coll } ∧ (p ≠ n → (t.core c).xslot p = (s.core c).xslot p) ∧
     (∃ k, t = s.setCore c k) ∧
     (u.core c).treg n = x ∧ (p ≠ n → (u.core c).treg p = (s.core c).treg p) ∧ ∃ k, u = s.setCore c k) ∧
  (∀ (s : State) (c base off : Nat) (v : List Byte), v.length ≤ 131072 →
     let t := s.land c (.tail base v)
     (∀ i b, v[i]? = some b → (t.core c).tail.read (base + i) 1 = [b]) ∧
     ((∀ i, i < v.length → (base + i) % 131072 ≠ off % 131072) → (t.core c).tail.read off 1 = (s.core c).tail.read off 1) ∧
     ∃ r, t = s.setCore c { s.core c with tail := { (s.core c).tail with ring := r } })

/-! ### Control -/

/-- R155, R211: `br` is taken where c is not 0 and `brv` where c is 0; the target is the word offset from the bundle's start, modulo
2⁴⁸. A member of a flight that is not its lead takes no transfer of its own (R376). `br s0` is never taken, `brv s0` always. -/
def Obligations.ConditionalBranches : Prop :=
  ∀ (c : Fin 64) (off : BitVec 17),
    let target (t : State) : Nat := match t.bun.ext with
      | none => (((t.bun.start : Int) + off.toInt) % 2 ^ 48).toNat
      | some l => (((t.bun.start : Int) + (l ++ off).toInt) % 2 ^ 48).toNat
    let jump (t : State) : State := t.jumping (target t)
    Acts (.br c off) (fun t => t.cur.fpos = 0 ∧ t.cur.rd c ≠ 0) jump ∧
    Acts (.br c off) (fun t => t.cur.fpos ≠ 0 ∨ t.cur.rd c = 0) id ∧
    Acts (.brv c off) (fun t => t.cur.fpos = 0 ∧ t.cur.rd c = 0) jump ∧
    Acts (.brv c off) (fun t => t.cur.fpos ≠ 0 ∨ t.cur.rd c ≠ 0) id ∧
    Acts (.br 0 off) (fun _ => True) id ∧
    Acts (.brv 0 off) (fun t => t.cur.fpos = 0) jump ∧
    encode (.br c off) = some (0#1 ++ 0x38#8 ++ BitVec.ofNat 6 c ++ off) ∧
    encode (.brv c off) = some (0#1 ++ 0x3F#8 ++ BitVec.ofNat 6 c ++ off)

/-- R155, R212, R213: `jmp`, `call`, `ret`, `jx` and `jx.l` are always taken; `call` writes the address of the bundle that follows into
s54 and s55, and `jx.l` into the pair d, after one cycle.
R216, R217: a loop with a count that is not 0 opens loop set L, the depth being at least L, and goes on with the next bundle; with a
count of 0 the machine goes on after the loop's end bundle. -/
def Obligations.JumpsAndLoops : Prop :=
  (∀ (d a : Fin 64) (off : BitVec 23),
     let target (t : State) : Nat := match t.bun.ext with
       | none => (((t.bun.start : Int) + off.toInt) % 2 ^ 48).toNat
       | some l => (((t.bun.start : Int) + (l ++ off).toInt) % 2 ^ 48).toNat
     let after (t : State) : Nat := (t.bun.start + t.bun.len) % 2 ^ 48
     let pair (t : State) : Nat := (t.cur.rd a).toNat + 2 ^ 32 * (t.cur.rd (a + 1)).toNat
     let goes (f : State → Nat) (t : State) : State := t.jumping (f t)
     let link (r : Nat) (t : State) : List Landing :=
       [.reg r (BitVec.ofNat 32 (after t)), .reg (r + 1) (BitVec.ofNat 32 (after t / 2 ^ 32)),
        .latch t.bun.pipe (BitVec.ofNat 32 (after t))]
     let leads (t : State) : Prop := t.cur.fpos = 0
     Acts (.jmp off) leads (goes target) ∧
     Takes (.call off) leads (goes target) 1 (link 54) ∧
     Acts (.ret a) leads (goes pair) ∧
     Acts (.jx a) leads (goes pair) ∧
     Takes (.jxl d a) leads (goes pair) 1 (link d)) ∧
  ∀ (c : Fin 64) (n : Fin 1024) (fin : Fin 2048) (lvl : Fin 4),
    let body (t : State) : Nat := t.bun.start + t.bun.len
    let last (t : State) : Nat := t.bun.start + fin.val
    let fits (t : State) : Prop := t.cur.fpos = 0 ∧ lvl.val ≤ t.cur.depth ∧ body t ≤ last t
    let opened (k : Nat) (t : State) : State :=
      (t.setCur { t.cur with
        depth := lvl + 1,
        loops := Map.put t.cur.loops lvl { start := body t, fin := last t, cnt := BitVec.ofNat 32 k } }).jumping (body t)
    let skipped (ws : List Word) (t : State) : State :=
      (t.setCur { t.cur with depth := lvl }).jumping (last t + ws.length)
    (∀ k, k ≠ 0 → Acts (.loop c fin lvl) (fun t => fits t ∧ (t.cur.rd c).toNat = k) (opened k)) ∧
    (n.val ≠ 0 → Acts (.loopi n fin lvl) fits (opened n)) ∧
    (∀ ws, Acts (.loop c fin lvl) (fun t => fits t ∧ t.cur.rd c = 0 ∧ (t.job t.turn).fetchBundle t.turn (last t) = some ws)
      (skipped ws)) ∧
    (∀ ws, Acts (.loopi 0 fin lvl) (fun t => fits t ∧ (t.job t.turn).fetchBundle t.turn (last t) = some ws) (skipped ws)) ∧
    Traps (.loop c fin lvl) (fun t => t.cur.fpos = 0 ∧ (t.cur.depth < lvl.val ∨ last t < body t)) (fun _ => { cls := 1 }) ∧
    Traps (.loopi n fin lvl) (fun t => t.cur.fpos = 0 ∧ (t.cur.depth < lvl.val ∨ last t < body t)) (fun _ => { cls := 1 })

/-- R218: after a bundle that takes no transfer, the innermost active loop whose end it is goes round again until its count is used up;
then the loop closes, and the loop around it is asked in turn. A transfer leaves every loop active. A bundle that holds a control word and
ends the innermost active loop is an encoding fault, unless a word of it, by itself in the state before the bundle, stalls, waits or acts in
its place (R147).
R215, R376: a member of a flight that is not its lead takes the loop sets and the depth that the lead had once it had issued the bundle. -/
def Obligations.LoopEndGoesRound : Prop :=
  ∀ (loops : Map LoopSet) (x len d : Nat) (l : LoopSet),
    Map.get { start := 0, fin := 0, cnt := 0 : LoopSet } loops d = l →
    (l.fin ≠ x → loopNext loops x len (d + 1) = (loops, d + 1, x + len)) ∧
    (l.fin = x → l.cnt ≠ 1 → loopNext loops x len (d + 1) = (Map.put loops d { l with cnt := l.cnt - 1 }, d + 1, l.start)) ∧
    (l.fin = x → l.cnt = 1 → loopNext loops x len (d + 1) = loopNext (Map.put loops d { l with cnt := 0 }) x len d) ∧
    loopNext loops x len 0 = (loops, 0, x + len) ∧
    (∀ (s : State) (c w : Nat) (is : List Instr) (e : Map LoopSet × Nat), (s.core c).fpos ≠ 0 →
      (s.core (s.core c).lead).loopTrail[(s.core c).fpos * (s.job c).skew - 1]? = some e →
      let k := (s.afterIssue c x len is w).core c
      (k.loops, k.depth) = e) ∧
    (∀ (s : State) (c w : Nat) (is : List Instr), (s.core c).fpos = 0 →
      let k := (s.afterIssue c x len is w).core c
      (s.bun.next = none → (k.loops, k.depth, k.pc) = loopNext (s.core c).loops x len (s.core c).depth) ∧
      (∀ a, s.bun.next = some a → (k.loops, k.depth, k.pc) = ((s.core c).loops, (s.core c).depth, a))) ∧
    (∀ (s : State) (ws : List (Option Instr)) (i : Instr), some i ∈ ws → slot i = .ct → s.cur.depth = d + 1 → s.cur.loops = loops →
      l.fin = x → ∀ stray,
      let o := s.openBundle x ws.length (ws.filterMap id)
      let ps := s.orderedWords ws
      let ms := (ps.flatMap fun p => (o.runWords [p]).marks) ++ o.strayMarks stray
      ((∃ m ∈ ms, m.2 = .stall) → s.tryIssue x ws stray = .held .stall) ∧
      ((∀ m ∈ ms, m.2.stalls = false ∧ m.2 ≠ .tick) → (∀ p ∈ ps, (o.runWords [p]).replaced = none) →
        s.tryIssue x ws stray = .fault { cls := 1 })) ∧
    (∀ (o t : State) (p : Placed), exec p.i { o with bun := { o.bun with ext := p.ext, pipe := p.pipe, draws := p.draws } } = .next t →
      (o.runWords [p]).marks = [(p.idx, t.mark)] ∧ (t.mark ≠ .ok ∨ o.replaces p.i = false → (o.runWords [p]).replaced = none))

/-! ### System words -/

/-- R146, R152, R308: `nop`, `limm` and `mwait` of an idle tile have no effect; so has `mwait.all` while both command sets are empty.
R167, R205: `mfsr` reads a system register as it stands at issue, in its width, and `mtsr` writes one, each after one cycle.
R260: a write of the Tailrace base while the stack is not empty, as it is before the bundle, is a spill-region fault.
R260: sr.rslim reads back its clamped values: 192 ≤ HIGH ≤ 2048 and LOW ≤ HIGH − 128. -/
def Obligations.SystemWords : Prop :=
  (Acts .nop (fun _ => True) id ∧ (∀ l, Acts (.limm l) (fun _ => True) id) ∧ (∀ a, Acts (.mwait a) (fun _ => True) id) ∧
   Acts .mwaitAll (fun t => t.cur.mill.active = none ∧ t.cur.mill.shadow = none) id ∧
   Stalls .mwaitAll (fun t => t.cur.mill.active ≠ none ∨ t.cur.mill.shadow ≠ none)) ∧
  (∀ (d : Fin 64) (n : BitVec 17),
     let w : Width := if sysregBits n.toNat = 64 then .d else .s
     Computes (.mfsr d n) 1 w d (fun t => t.cur.sysreg t.turn n.toNat) ∧
     Takes (.mtsr d n) (fun t => n.toNat ≠ 0x31 ∨ t.prior.tail.rsp = 0) id 1
       (fun t => [.sysreg n.toNat (BitVec.ofNat 64 (t.cur.rdW w d))]) ∧
     (∀ k c, Core.sysreg k c 0 = c ∧ k.sysreg c 1 = k.lid ∧ k.sysreg c 2 = k.widx ∧ k.sysreg c 3 = k.fpos ∧ k.sysreg c 4 = k.flen ∧
       k.sysreg c 0x10 = k.mbtag.toNat ∧ k.sysreg c 0x11 = k.ostep.toNat ∧ k.sysreg c 0x20 = k.rngkey.toNat ∧
       k.sysreg c 0x21 = k.rngctr.toNat ∧ k.sysreg c 0x22 = k.fctl.toNat ∧ k.sysreg c 0x30 = k.tail.rsp ∧
       k.sysreg c 0x31 = k.tail.rsbase.toNat ∧ k.sysreg c 0x32 = k.tail.low * 2 ^ 16 + k.tail.high ∧ k.sysreg c 0x40 = k.tok.toNat ∧
       k.sysreg c 0x41 = k.scb.toNat ∧ k.sysreg c 0x50 = k.freeze.toNat ∧ k.sysreg c 0x51 = k.cycle.toNat)) ∧
  (∀ d : Fin 64, Traps (.mtsr d 0x31) (fun t => t.prior.tail.rsp ≠ 0) (fun _ => { cls := 13 })) ∧
  (∀ (k : Core) (v : DWord),
     192 ≤ (k.setSysreg 0x32 v).tail.high ∧ (k.setSysreg 0x32 v).tail.high ≤ 2048 ∧
     (k.setSysreg 0x32 v).tail.low + 128 ≤ (k.setSysreg 0x32 v).tail.high ∧
     (192 ≤ v.toNat % 65536 → v.toNat % 65536 ≤ 2048 → (k.setSysreg 0x32 v).tail.high = v.toNat % 65536) ∧
     (k.setSysreg 0x32 v).tail.rsbase = k.tail.rsbase ∧ (k.setSysreg 0x32 v).sregs = k.sregs)

/-- R278, R372: `yield` and `end` suspend the continuation at the next bundle, where its Tailrace is empty, and are a continuation-state
fault where it is not.
R372: what a suspension that succeeds leaves: of `yield`, the pool entry with the program counter, s1 to s12, ST and HW 0 and the rest
as it was, the entry among the suspended ones, and a core without a continuation. -/
def Obligations.Suspension : Prop :=
  (let empty (t : State) : Prop := t.cur.tail.rsp = 0
   Acts .yieldItem empty (fun t => t.setCur { t.cur with mode := .suspending 1 0 false }) ∧
   Acts .endItem empty (fun t => t.setCur { t.cur with mode := .suspending 0 0 false }) ∧
   Traps .yieldItem (fun t => ¬ empty t) (fun _ => { cls := 15 }) ∧
   Traps .endItem (fun t => ¬ empty t) (fun _ => { cls := 15 })) ∧
  (∀ (s : State) (c l : Nat) (b : List Byte) (r t : State), (s.core c).job = some l →
     let k := s.core c
     let x := s.launch l
     let w := k.pc % 2 ^ 48 + leNat (b.take 8) / 2 ^ 52 % 2 ^ 11 * 2 ^ 52
     s.poolRead x.vd (x.cpool + 64 * k.entry) = .ok (b, r) →
     r.poolWrite x.vd (x.cpool + 64 * k.entry) (leBytes 8 w ++ (b.drop 8).take 8 ++
       (tabulate 12 fun i => k.rd (i + 1)).flatMap fun w => leBytes 4 w.toNat) = .ok t →
     let u := s.suspendNow c 1 0 false [c]
     (u.core c).mode = .idle ∧ (u.core c).job = (t.core c).job ∧ (u.launch l).suspended = (t.launch l).suspended ++ [(k.entry, c, false)] ∧
     u.gmem = t.gmem ∧ u.pmem = t.pmem ∧ ∀ d, d ≠ c → u.core d = t.core d)

/-- R436, R437, R445: `trap` raises a program trap with its code, or halts the core where the virtual device stops on traps; `halt`
halts the core where a debugger is attached, and else acts as `trap 0`; `sysc` parks the continuation with its code and argument. A core
that enters the halted state starts DBGSTAT.STEPS anew, unless its virtual device was halted already: its launch by the debugger, or a core
of it. -/
def Obligations.TrapsHaltsAndSystemCalls : Prop :=
  ∀ (imm : BitVec 17) (d : Fin 64),
    let vd (t : State) : VDev := t.vd (t.coreVd t.turn)
    let halted (t : State) : State :=
      let u := if t.debugHalted (t.coreVd t.turn) then t else t.setVd (t.coreVd t.turn) { vd t with dbgSteps := 0, dbgStall := false }
      u.setCur { t.cur with mode := .halted }
    (∀ (t : State) (v : Nat), t.debugHalted v = true ↔
      (t.vd v).halted = true ∨ ∃ e ∈ t.cores, e.2.mode = .halted ∧ ∃ l, e.2.job = some l ∧ t.launchVd l = v) ∧
    Traps (.trap imm) (fun t => (vd t).tstop = false) (fun _ => { cls := 19, code := imm.toNat }) ∧
    Acts (.trap imm) (fun t => (vd t).tstop = true) halted ∧
    Acts .halt (fun t => (vd t).dbgEn = true ∧ t.cur.fpos = 0) halted ∧
    Traps .halt (fun t => (vd t).dbgEn = false ∧ (vd t).tstop = false) (fun _ => { cls := 19 }) ∧
    Acts .halt (fun t => (vd t).dbgEn = false ∧ (vd t).tstop = true) halted ∧
    Acts (.sysc d imm) (fun _ => True)
      (fun t => t.beginPark t.turn { cls := 0, addr := (t.cur.rd d).toNat, kind := 7, code := imm.toNat, reg := d })

/-- R438: `resume d, a, b` resolves the unresolved entry of its own virtual device whose sequence number is a, with mask b[15:0] and
value d, as a write of FQRVAL and FQRES would; with DRES 0 it raises a protection fault; where a names no unresolved entry it has no
effect.
R428: what a resolution leaves: an entry with a park frame, or of a virtual device that does not run, holds the mask and the value until it is
restored; an entry without a frame is gone, and its channel or its Windlass operation goes on, or its core takes back the parked context,
with the value in the register of a `sysc`. -/
def Obligations.ResumeResolvesAnEntry : Prop :=
  ∀ d a b : Fin 64,
    let v (t : State) : Nat := t.coreVd t.turn
    let names (t : State) (e : FqEntry) : Bool := e.seq % 2 ^ 32 = (t.cur.rd a).toNat && e.kind != 8 && e.resolved.isNone
    Acts (.resume d a b) (fun t => (t.vd (v t)).fqDres = true)
      (fun t => t.resolve (v t) (t.cur.rd a).toNat ((t.cur.rd b).extractLsb' 0 16).toNat (t.cur.rd d)) ∧
    (∀ (s : State) (mask : BitVec 16), exec (.fqresWrite (v s) (s.cur.rd a) mask) s =
      .next { s.resolve (v s) (s.cur.rd a).toNat mask.toNat (s.vd (v s)).fqRval with mark := .ok }) ∧
    Traps (.resume d a b) (fun t => (t.vd (v t)).fqDres = false) (fun _ => { cls := 6 }) ∧
    Acts (.resume d a b) (fun t => (t.vd (v t)).fqDres = true ∧ ∀ e ∈ (t.vd (v t)).fq, names t e = false) id ∧
    (∀ (s : State) (u seq mask : Nat) (val : Word) (e : FqEntry),
      let found := (s.vd u).fq.find? fun f => f.seq % 2 ^ 32 = seq && f.kind != 8 && f.resolved.isNone
      let t := s.resolve u seq mask val
      (found = none → t = s) ∧
      (found = some e → e.frame ≠ 0xFFFF ∨ (s.vd u).run = false → t = s.setVd u { s.vd u with
        fq := (s.vd u).fq.map fun f => if f.seq = e.seq then { f with resolved := some (mask, val) } else f }) ∧
      (found = some e → e.frame = 0xFFFF → (s.vd u).run = true →
        let ch := (s.core e.core).channel e.channel
        (t.vd u).fq = ((s.vd u).fq.filter fun f => f.seq != e.seq) ∧ t.gmem = s.gmem ∧ t.pmem = s.pmem ∧
        (e.kind = 4 → e.parked = [] → ch.parkedSeq = e.seq →
          t.core e.core = (s.core e.core).setChannel e.channel { ch with state := 1, parkedSeq := 0 }) ∧
        (e.kind = 5 → e.parked = [] →
          (Map.get Comm.reset (t.vd u).comms e.comm).queue = (Map.get Comm.reset (s.vd u).comms e.comm).queue.map fun o =>
            if o.held = e.seq then { o with held := 0 } else o) ∧
        (∀ c k, e.parked = [(c, k)] →
          let y := (s.unpark c c c k mask).core c
          t.core c = if e.kind = 7 ∧ e.dreg ≠ 0 then { y with sregs := Map.put y.sregs e.dreg val } else y)))

/-- R439, R448: `snap` fires the snapshot trigger with TAG = imm where SNCTL.SNAP is 1 and the registers are not latched, and has no
other effect: it never stalls. -/
def Obligations.SnapFiresTheTrigger : Prop :=
  ∀ imm : BitVec 17,
    let v (t : State) : Nat := t.coreVd t.turn
    (∀ s : State, s.prior.mode = .running → s.gate (.snap imm) ≠ .error .stall) ∧
    Acts (.snap imm) (fun t => (t.vd (v t)).snCtl.getLsbD 0 = false) id ∧
    Acts (.snap imm) (fun t => (t.vd (v t)).snCtl.getLsbD 0 = true) (fun t => t.fireSnapshot (v t) imm.toNat 1) ∧
    (∀ (s : State) (u tag src : Nat), (s.vd u).latched = true → s.fireSnapshot u tag src = s) ∧
    (∀ (s : State) (u tag src : Nat), (s.vd u).latched = false →
      ((s.fireSnapshot u tag src).vd u).latched = true ∧
      ((s.fireSnapshot u tag src).vd u).snTag = BitVec.ofNat 17 tag ∧
      ((s.fireSnapshot u tag src).vd u).snSrc = BitVec.ofNat 3 src ∧
      W1c.latched u ∈ (s.fireSnapshot u tag src).fresh ∧
      (s.fireSnapshot u tag src).cores = s.cores ∧ (s.fireSnapshot u tag src).gmem = s.gmem ∧
      (s.fireSnapshot u tag src).pmem = s.pmem)

/-! ### Taking a fault, parking, and the return -/

/-- R424, R425: a fault that ends its launch stops the core, lands what is in flight on it, and marks the launch as ending with the core, in a
flight its lead, and the fault that came first; translation not present parks the core instead, which issues nothing until it is resolved.
R448: either fires the snapshot trigger where SNCTL.FAULT is 1 and the registers are not latched, with the fault's class as its tag, and
changes nothing else by it. -/
def Obligations.TakingAFault : Prop :=
  ∀ (s : State) (c l : Nat) (x : Trap), (s.core c).job = some l →
    (x.cls ≠ 5 →
      let t := s.raise c x
      let u := s.drainFlight c 64
      let y := (u.vd (s.launch l).vd)
      (t.core c) = { u.core c with mode := .faulted, trap := some x, barrier := none } ∧
      ((∀ f ∈ (s.core c).inflight, f.due ≤ (s.core c).sched + 64) → (t.core c).inflight = []) ∧
      t.gmem = u.gmem ∧ t.pmem = u.pmem ∧
      (t.core c).job = some l ∧ (t.core c).pc = (s.core c).pc ∧
      (t.launch l).state = .ending ∧
      (t.launch l).fault = (match (s.launch l).fault with | some f => some f | none => some (c - (s.core c).fpos, x)) ∧
      (∀ d, d ≠ c → t.core d = s.core d) ∧ (∀ m, m ≠ l → t.launch m = s.launch m) ∧
      (y.snCtl.getLsbD 2 = false ∨ y.latched = true → t.vds = u.vds ∧ t.out = u.out) ∧
      (y.snCtl.getLsbD 2 = true → y.latched = false → (t.vd (s.launch l).vd).latched = true ∧
        (t.vd (s.launch l).vd).snTag = BitVec.ofNat 17 x.cls ∧ (t.vd (s.launch l).vd).snSrc = 3)) ∧
    (x.cls = 5 →
      let p := s.setCore c { s.core c with
        mode := .parking, trap := some x, after := if (s.core c).mode = .parking then (s.core c).after else (s.core c).mode }
      s.raise c x = if (s.vd (s.coreVd c)).snCtl.getLsbD 2 then p.fireSnapshot (s.coreVd c) 5 3 else p)

/-- R428, R434: the return from a park: the core takes back the saved program counter, registers and position, its results in flight land
after the same remaining time, the queues hold exactly the saved accesses whose bit of the mask is 1, in their order, to be replayed, every
other one is cancelled, and the handles and the Flume channels stay with the core. R275: so do the spills of entries popped there
before that are still in flight. -/
def Obligations.ReturnFromAPark : Prop :=
  ∀ (s : State) (c frm lead mask : Nat) (saved : Core),
    let t := s.unpark c frm lead saved mask
    let k := t.core c
    let replayed (m : Bool) : List Access :=
      (saved.board.zipIdx.filter fun e => e.1.m = m && mask.testBit e.2).map fun e => { e.1 with faulted := false, replay := true }
    k.mode = saved.after ∧ k.pc = saved.pc ∧ k.sregs = saved.sregs ∧ k.planes = saved.planes ∧ k.preds = saved.preds ∧
    k.loops = saved.loops ∧ k.depth = saved.depth ∧ k.widx = saved.widx ∧ k.trap = none ∧ k.lead = lead ∧ k.board = [] ∧
    k.tail = { saved.tail with flight := saved.tail.flight ++ (s.core c).tail.flight } ∧
    k.sched = max saved.sched (s.core c).sched ∧ k.handles = (s.core c).handles ∧ k.flume = (s.core c).flume ∧ k.sq = (s.core c).sq ∧
    k.inflight.map (·.what) = saved.inflight.map (·.what) ∧
    (∀ x ∈ saved.inflight, saved.sched ≤ x.due → ∃ y ∈ k.inflight, y.what = x.what ∧ y.due - k.sched = x.due - saved.sched) ∧
    k.gq = replayed false ∧ k.mq = replayed true ∧
    (∀ d, d ≠ c → d ≠ frm → t.core d = s.core d) ∧ (∀ d, d ≠ c → ∃ a, t.core d = { s.core d with away := a }) ∧
    t.gmem = s.gmem ∧ t.pmem = s.pmem

/-- R423: of the faults of one bundle, an encoding fault comes first, then a schedule fault, then that of the lowest-numbered word. -/
def Obligations.OneFaultOfABundle : Prop :=
  ∀ (static : Bool) (ms : List (Nat × Mark)),
    (static = false → chooseTrap static ms = some { cls := 1 }) ∧
    (∀ n x, (n, Mark.trap x) ∈ ms → x.cls = 1 → chooseTrap static ms = some { cls := 1 }) ∧
    (∀ n x, static = true → (∀ m y, (m, Mark.trap y) ∈ ms → y.cls ≠ 1) → (n, Mark.trap x) ∈ ms → x.cls = 2 →
      chooseTrap static ms = some { cls := 2 }) ∧
    (∀ n x, static = true → (∀ m y, (m, Mark.trap y) ∈ ms → y.cls ≠ 1 ∧ y.cls ≠ 2 ∧ n ≤ m ∧ (m = n → y = x)) →
      (n, Mark.trap x) ∈ ms → n < 8 → chooseTrap static ms = some x) ∧
    ((∀ m y, (m, Mark.trap y) ∉ ms) → chooseTrap true ms = none)

/-! ### Loads and stores -/

/-- R219, R221: the local loads and stores: at base plus scaled index, aligned and inside the slice, on granules that the gang holds or
may take. A load reads the slice as it is at issue and lands three cycles later; a store is written two cycles later.
R220, R363: a local access whose address is not a multiple of its size is an alignment fault, and one that ends beyond what the
launch may reach of the slice a window fault; the fault names the address. -/
def Obligations.LocalLoadsAndStores : Prop :=
  (∀ (d a b : Fin 64) (w : Width) (sh : Fin 4),
     let n := 4 * w.regs
     let at_ (t : State) : Nat := (t.cur.rd a).toNat + (t.cur.rd b).toNat * 2 ^ sh.val
     let ok (t : State) : Prop := t.inSlice (at_ t) n n ∧ t.ownsSlice (at_ t) n
     let got (t : State) : Nat := leNat (t.gRead (t.turn * 2097152 + at_ t) n)
     Takes (.ldl d a b w sh) ok (fun t => t.holding (at_ t) n) 3
       (fun t => regLandings d (splitWords w.regs (got t)) ++ [.latch 3 (BitVec.ofNat 32 (got t))]) ∧
     Takes (.stl d a b w sh) ok (fun t => t.holding (at_ t) n) 2 (fun t => [.slice (at_ t) (leBytes n (t.cur.rdW w d))])) ∧
  (∀ (d a b : Fin 64) (w : Width) (sh : Fin 4),
     let n := 4 * w.regs
     let at_ (t : State) : Nat := (t.cur.rd a).toNat + (t.cur.rd b).toNat * 2 ^ sh.val
     let odd (t : State) : Prop := at_ t % n ≠ 0
     let out (t : State) : Prop := at_ t % n = 0 ∧ min 2097152 ((t.job t.turn).gran * 65536) < at_ t + n
     Traps (.ldl d a b w sh) odd (fun t => { cls := 4, addr := at_ t }) ∧ Traps (.stl d a b w sh) odd (fun t => { cls := 4, addr := at_ t }) ∧
     Traps (.ldl d a b w sh) out (fun t => { cls := 3, addr := at_ t }) ∧ Traps (.stl d a b w sh) out (fun t => { cls := 3, addr := at_ t }))

/-- R219, R222, R223, R227: an access of the G or the M space passes its alignment and window checks at issue and enters its queue, with
a store's data, where there is room, and waits while its core has sixteen accesses pending; a load from the constant window reads it at
once and lands three cycles later. R220, R224: the alignment, window and phase-overflow faults at issue. That older stores on their way to
the store queue count as held there is the model's choice (log 69, DESIGN CHOICE). -/
def Obligations.RemoteLoadsAndStores : Prop :=
  ∀ (d a b : Fin 64) (w : Width) (sh : Fin 4),
    let n := 4 * w.regs
    let at_ (t : State) : Nat := (t.cur.rd a).toNat + (t.cur.rd b).toNat * 2 ^ sh.val
    let far (t : State) : Nat := (t.cur.rd a).toNat + (t.cur.rd b).toNat * 2 ^ 32
    let inG (t : State) : Prop := at_ t % n = 0 ∧ at_ t + n ≤ 0xA0000000
    let inM (t : State) : Prop := far t % n = 0 ∧ far t + n ≤ ((t.vd (t.coreVd t.turn)).lastPg.toNat + 1) * 4096
    let load (m : Bool) (p : State → Nat) (t : State) : Access := { Access.base .load m (p t) n with reg := d, width := w.regs }
    let store (m : Bool) (p : State → Nat) (t : State) : Access :=
      { Access.base .store m (p t) n with reg := d, width := w.regs, data := leBytes n (t.cur.rdW w d) }
    let got (t : State) : Nat := leNat (Map.getList 0 (t.job t.turn).kwin (at_ t) n)
    Sends (.ldg d a b w sh) inG (load false at_) ∧ Sends (.stg d a b w sh) inG (store false at_) ∧
    Sends (.ldm d a b w) inM (load true far) ∧ Sends (.stm d a b w) inM (store true far) ∧
    (let endM (t : State) : Nat := ((t.vd (t.coreVd t.turn)).lastPg.toNat + 1) * 4096
     Rejects (.ldg d a b w sh) at_ n (fun _ => 0xA0000000) ∧ Rejects (.stg d a b w sh) at_ n (fun _ => 0xA0000000) ∧
     Rejects (.ldm d a b w) far n endM ∧ Rejects (.stm d a b w) far n endM ∧ Rejects (.ldk d a b w sh) at_ n (fun _ => 65536) ∧
     Overflows (.stg d a b w sh) inG (store false at_) ∧ Overflows (.stm d a b w) inM (store true far)) ∧
    Takes (.ldk d a b w sh) (fun t => at_ t % n = 0 ∧ at_ t + n ≤ 65536) id 3
      (fun t => regLandings d (splitWords w.regs (got t)) ++ [.latch 4 (BitVec.ofNat 32 (got t))])

/-- R135, R136, R226: loads and stores through a handle. A load waits for the generation that its word names; a store makes an empty
handle filling. The offset is the immediate without its low two bits, inside the visible bank. An undefined handle, or a store to one that
drains, is a handle-state violation, and an offset outside the bank, or beyond what the launch may reach of the slice, a window fault. A
load counts as a reader of the handle until the end of its cycle.
That a store to a draining handle raises the handle-state violation whatever its offset (log 61, DESIGN CHOICE), and that the words after a
load in its bundle find it counted, and the swaps of its cycle do not (log 47, DESIGN CHOICE), are the model's choices. -/
def Obligations.HandleLoadsAndStores : Prop :=
  ∀ (h r : Fin 64) (imm : BitVec 11),
    let x (t : State) : Handle := t.cur.handle h
    let off (t : State) : Int := ((t.imm32 imm) &&& 0xFFFFFFFC).toInt
    let at_ (t : State) : Nat := (x t).visible + (off t).toNat
    let ok (t : State) : Prop := (t.prior.handle h).mretBusy = 0 ∧ (x t).defd = true ∧ 0 ≤ off t ∧ off t + 4 ≤ (x t).bankSize ∧
      t.inSlice (at_ t) 4 1 ∧ t.ownsSlice (at_ t) 4
    let ready (t : State) : Prop := ((x t).state = 2 ∨ (x t).state = 3) ∧ (x t).gen = (t.imm32 imm).getLsbD 0 ∧ (x t).shs ≠ 2 ∧ (x t).rdr < 255
    let filling (t : State) : Handle := if (x t).state = 0 then { x t with state := 1 } else x t
    let got (t : State) : Nat := leNat (t.gRead (t.turn * 2097152 + at_ t) 4)
    let free (t : State) : Prop := (t.prior.handle h).mretBusy = 0
    let outside (t : State) : Prop := off t < 0 ∨ (x t).bankSize < off t + 4
    let past (t : State) : Prop := ¬ outside t ∧ min 2097152 ((t.job t.turn).gran * 65536) < at_ t + 4
    Traps (.ldh h r imm) (fun t => free t ∧ (x t).defd = false) (fun _ => { cls := 16, addr := h }) ∧
    Traps (.ldh h r imm) (fun t => free t ∧ (x t).defd = true ∧ ready t ∧ outside t) (fun _ => { cls := 3 }) ∧
    Traps (.ldh h r imm) (fun t => free t ∧ (x t).defd = true ∧ ready t ∧ past t) (fun t => { cls := 3, addr := at_ t }) ∧
    Traps (.sth h r imm) (fun t => free t ∧ (x t).defd = true ∧ (x t).state ≠ 3 ∧ outside t) (fun _ => { cls := 3 }) ∧
    Traps (.sth h r imm) (fun t => free t ∧ (x t).defd = true ∧ (x t).state ≠ 3 ∧ past t) (fun t => { cls := 3, addr := at_ t }) ∧
    (∀ k : Core,
      let y := (k.readsDone [.ldh h r imm]).handle h
      y.rdr = (k.handle h).rdr - 1 ∧
      y.state = if (k.handle h).state = 3 ∧ (k.handle h).rdr - 1 = 0 ∧ (k.handle h).releases = 0 then 0 else (k.handle h).state) ∧
    Takes (.ldh h r imm) (fun t => ok t ∧ ready t)
      (fun t => let u := t.holding (at_ t) 4; u.setCur (u.cur.setHandle h { x t with rdr := (x t).rdr + 1 })) 3
      (fun t => regLandings r [BitVec.ofNat 32 (got t)] ++ [.latch 3 (BitVec.ofNat 32 (got t))]) ∧
    Stalls (.ldh h r imm) (fun t => (t.prior.handle h).mretBusy ≠ 0 ∨ (x t).defd = true ∧ ¬ ready t) ∧
    Takes (.sth h r imm) (fun t => ok t ∧ (x t).state ≠ 3)
      (fun t => let u := t.holding (at_ t) 4; u.setCur (u.cur.setHandle h (filling t))) 2
      (fun t => [.bank h (at_ t) (leBytes 4 (t.cur.rd r).toNat)]) ∧
    Stalls (.sth h r imm) (fun t => (t.prior.handle h).mretBusy ≠ 0) ∧
    Traps (.sth h r imm) (fun t => (t.prior.handle h).mretBusy = 0 ∧ ((x t).defd = false ∨ (x t).state = 3)) (fun _ => { cls := 16, addr := h })

/-- R48, R52: what is written to device memory under a key is read back under that key; every other byte reads under that key as before,
and a byte of another line reads as before under any key. The bytes of a line that were never written under the key stay the free values
they were. -/
def Obligations.MemoryReadsBackUnderItsKey : Prop :=
  ∀ (s : State) (key pa : Nat) (b : Byte),
    (s.paSet key pa b).paByte key pa = b ∧
    (∀ x, x ≠ pa → (s.paSet key pa b).paByte key x = s.paByte key x) ∧
    (∀ k x, x / 64 ≠ pa / 64 → (s.paSet key pa b).paByte k x = s.paByte k x) ∧
    (s.paSet key pa b).gmem = s.gmem ∧ (s.paSet key pa b).cores = s.cores

/-- R235-R237: plane loads and stores of the slice, by address, through a handle, and lane by lane. The lanes that the mask disables are
not written, and of an image only the enabled lanes are stored. R220, R224, R363: the alignment, window and phase-overflow faults at issue,
those of a gather or scatter, and of the G space its protection faults too, as its first failing lane gives them. R135, R136: the handle-state
violations and window faults of the words through a handle.
That older stores on their way to the store queue count as held there (log 69, DESIGN CHOICE), that the words after a `pldh` in its bundle find
it counted (log 47, DESIGN CHOICE), and that a store to a draining handle is a violation whatever its offset (log 61, DESIGN CHOICE), are the
model's choices. -/
def Obligations.PlaneLoadsAndStores : Prop :=
  (∀ (d k : Fin 16) (r : Fin 64) (mask : Fin 8),
    let at_ (t : State) : Nat := (t.cur.rd r).toNat + k.val * 4096
    let ok (t : State) : Prop := t.inSlice (at_ t) 4096 4096 ∧ t.ownsSlice (at_ t) 4096
    let m (t : State) : BitVec 1024 := t.cur.pred mask
    let far (t : State) : Nat := at_ t % 2 ^ 32
    Takes (.pld d k r mask) ok (fun t => t.holding (at_ t) 4096) 8 (fun t => [.plane d (m t) (tabulate 1024 fun i =>
      if (m t).getLsbD i then BitVec.ofNat 32 (leNat (t.gRead (t.turn * 2097152 + at_ t + 4 * i) 4)) else 0)]) ∧
    Takes (.pst d k r mask) ok (fun t => t.holding (at_ t) 4096) 8 (fun t => [.lanes
      (((List.range 1024).filter fun i => (m t).getLsbD i).map fun i => (at_ t + 4 * i, lane (t.cur.plane d) i))]) ∧
    Sends (.pldg d k r mask) (fun t => far t % 4096 = 0 ∧ far t + 4096 ≤ 0xA0000000)
      (fun t => { Access.base .planeLoad false (far t) 4096 with reg := d, lanes := imageLanes (m t) (far t) }) ∧
    Sends (.pstg d k r mask) (fun t => far t % 4096 = 0 ∧ far t + 4096 ≤ 0xA0000000)
      (fun t => { Access.base .planeStore false (far t) 4096 with
        reg := d, lanes := imageLanes (m t) (far t), data := laneBytes (t.cur.plane d) (imageLanes (m t) (far t)) }) ∧
    (let reach (t : State) : Nat := min 2097152 ((t.job t.turn).gran * 65536)
     Rejects (.pld d k r mask) at_ 4096 reach ∧ Rejects (.pst d k r mask) at_ 4096 reach ∧
     Rejects (.pldg d k r mask) far 4096 (fun _ => 0xA0000000) ∧ Rejects (.pstg d k r mask) far 4096 (fun _ => 0xA0000000) ∧
     Overflows (.pstg d k r mask) (fun t => far t % 4096 = 0 ∧ far t + 4096 ≤ 0xA0000000)
       (fun t => { Access.base .planeStore false (far t) 4096 with
         reg := d, lanes := imageLanes (m t) (far t), data := laneBytes (t.cur.plane d) (imageLanes (m t) (far t)) }))) ∧
  (∀ (h : Fin 64) (p : Fin 16) (imm : BitVec 11),
    let x (t : State) : Handle := t.cur.handle h
    let off (t : State) : Int := (t.imm32 imm).toInt / 2 * 4096
    let at_ (t : State) : Nat := (x t).visible + (off t).toNat
    let ok (t : State) : Prop := (t.prior.handle h).mretBusy = 0 ∧ (x t).defd = true ∧ 0 ≤ off t ∧ off t + 4096 ≤ (x t).bankSize ∧
      t.inSlice (at_ t) 4096 1 ∧ t.ownsSlice (at_ t) 4096
    let ready (t : State) : Prop := ((x t).state = 2 ∨ (x t).state = 3) ∧ (x t).gen = (t.imm32 imm).getLsbD 0 ∧ (x t).shs ≠ 2 ∧ (x t).rdr < 255
    let free (t : State) : Prop := (t.prior.handle h).mretBusy = 0
    let outside (t : State) : Prop := off t < 0 ∨ (x t).bankSize < off t + 4096
    let past (t : State) : Prop := ¬ outside t ∧ min 2097152 ((t.job t.turn).gran * 65536) < at_ t + 4096
    Traps (.pldh h p imm) (fun t => free t ∧ (x t).defd = false) (fun _ => { cls := 16, addr := h }) ∧
    Traps (.psth h p imm) (fun t => free t ∧ ((x t).defd = false ∨ (x t).state = 3)) (fun _ => { cls := 16, addr := h }) ∧
    Stalls (.pldh h p imm) (fun t => ¬ free t ∨ (x t).defd = true ∧ ¬ ready t) ∧ Stalls (.psth h p imm) (fun t => ¬ free t) ∧
    Traps (.pldh h p imm) (fun t => free t ∧ (x t).defd = true ∧ ready t ∧ outside t) (fun _ => { cls := 3 }) ∧
    Traps (.pldh h p imm) (fun t => free t ∧ (x t).defd = true ∧ ready t ∧ past t) (fun t => { cls := 3, addr := at_ t }) ∧
    Traps (.psth h p imm) (fun t => free t ∧ (x t).defd = true ∧ (x t).state ≠ 3 ∧ outside t) (fun _ => { cls := 3 }) ∧
    Traps (.psth h p imm) (fun t => free t ∧ (x t).defd = true ∧ (x t).state ≠ 3 ∧ past t) (fun t => { cls := 3, addr := at_ t }) ∧
    Takes (.pldh h p imm) (fun t => ok t ∧ ready t)
      (fun t => let u := t.holding (at_ t) 4096; u.setCur (u.cur.setHandle h { x t with rdr := (x t).rdr + 1 })) 8
      (fun t => [.plane p (BitVec.allOnes 1024) (tabulate 1024 fun i =>
        BitVec.ofNat 32 (leNat (t.gRead (t.turn * 2097152 + at_ t + 4 * i) 4)))]) ∧
    Takes (.psth h p imm) (fun t => ok t ∧ (x t).state ≠ 3)
      (fun t => let u := t.holding (at_ t) 4096
        u.setCur (u.cur.setHandle h (if (x t).state = 0 then { x t with state := 1 } else x t))) 8
      (fun t => [.bank h (at_ t) ((List.range 1024).flatMap fun i => leBytes 4 (lane (t.cur.plane p) i).toNat)])) ∧
  (∀ (d a : Fin 16) (mask : Fin 8),
    let ls (t : State) : List (Nat × Nat) := t.cur.gatherLanes a mask
    let first (t : State) : Nat := ((ls t).headD (0, 0)).2
    let m (t : State) : BitVec 1024 := t.cur.pred mask
    (∀ u : State → State, Takes (.pgather d a mask false)
      (fun t => t.gatherCheck (ls t) false = none ∧ t.touchLanes (ls t) = .ok (u t) ∧ (u t).gmem = t.gmem ∧ (u t).cores = t.cores ∧
        (u t).turn = t.turn) u 8
      (fun t => [.plane d (m t) (tabulate 1024 fun i => if (m t).getLsbD i then
        BitVec.ofNat 32 (leNat (t.gRead (t.turn * 2097152 + (lane (t.cur.plane a) i).toNat) 4)) else 0)])) ∧
    (∀ u : State → State, Takes (.pscatter d a mask false)
      (fun t => t.gatherCheck (ls t) false = none ∧ t.touchLanes (ls t) = .ok (u t) ∧ (u t).cores = t.cores ∧ (u t).turn = t.turn) u 8
      (fun t => [.lanes ((ls t).map fun e => (e.2, lane (t.cur.plane d) e.1))])) ∧
    Sends (.pgather d a mask true) (fun t => t.gatherCheck (ls t) true = none)
      (fun t => { Access.base .planeLoad false (first t) 4 with reg := d, lanes := ls t }) ∧
    Sends (.pscatter d a mask true) (fun t => t.gatherCheck (ls t) true = none)
      (fun t => { Access.base .planeStore false (first t) 4 with
        reg := d, lanes := ls t, data := laneBytes (t.cur.plane d) (ls t) }) ∧
    (∀ g x, Traps (.pgather d a mask g) (fun t => t.gatherCheck (ls t) g = some x) (fun _ => x) ∧
      Traps (.pscatter d a mask g) (fun t => t.gatherCheck (ls t) g = some x) (fun _ => x)) ∧
    (∀ (s : State) (pre post : List (Nat × Nat)) (i x : Nat) (g : Bool), s.gatherCheck pre g = none →
      (x % 4 ≠ 0 → s.gatherCheck (pre ++ (i, x) :: post) g = some { cls := 4, addr := x }) ∧
      (x % 4 = 0 → (if g then 0xA0000000 else min 2097152 ((s.job s.turn).gran * 65536)) < x + 4 →
        s.gatherCheck (pre ++ (i, x) :: post) g = some { cls := 3, addr := x }) ∧
      (x % 4 = 0 → x + 4 ≤ 0xA0000000 → g = true → (s.vdPart (s.coreVd s.turn)).clusters.contains (x / 33554432) = false →
        s.gatherCheck (pre ++ (i, x) :: post) g = some { cls := 6, addr := x })) ∧
    Overflows (.pscatter d a mask true) (fun t => t.gatherCheck (ls t) true = none)
      (fun t => { Access.base .planeStore false (first t) 4 with
        reg := d, lanes := ls t, data := laneBytes (t.cur.plane d) (ls t) }))

/-! ### Planes -/

/-- R228-R232, R238-R241: the arithmetic words, element by element: one rounding of the exact value for a float type, the exact value
wrapped or saturated for an integer type, and the flags that the enabled lanes raise. That `pabsd` of equal values gives +0 in every
rounding mode is the model's choice (log 63, DESIGN CHOICE). -/
def Obligations.PlaneArithmeticWords : Prop :=
  ∀ (d a b : Fin 16) (r : Fin 64) (mask : Fin 8) (pw : Fin 4) (ty sub : Fin 8),
    let x (t : State) (j i k : Nat) : Nat := elemOf ty k (t.cur.at_ a j i)
    let y (t : State) (j i k : Nat) : Nat := elemOf ty k (t.cur.at_ b j i)
    let z (t : State) (j i k : Nat) : Nat := elemOf ty k (t.cur.at_ d j i)
    let e (t : State) (_ _ k : Nat) : Nat := elemOf ty k (packLane ty fun _ => (t.cur.rd r).toNat)
    let go (ff : List Machine.Num → Option Machine.Num) (fi : List Int → Int)
        (ops : State → Nat → Nat → Nat → List Nat) (t : State) (j i : Nat) : Word × Flags :=
      laneOf ty fun k => elemArith ty sub (t.rbits sub j i k) ff fi (ops t j i k)
    Planes (.padd d a b mask pw ty sub) 6 4 pw d mask (go (addN sub) add2 fun t j i k => [x t j i k, y t j i k]) ∧
    Planes (.psub d a b mask pw ty sub) 6 4 pw d mask (go (subN sub) sub2 fun t j i k => [x t j i k, y t j i k]) ∧
    Planes (.pmul d a b mask pw ty sub) 8 4 pw d mask (go mulN mul2 fun t j i k => [x t j i k, y t j i k]) ∧
    Planes (.pabsd d a b mask pw ty sub) 6 4 pw d mask
      (go (fun l => (subN sub l).map Num.abs) (fun l => ((sub2 l).natAbs : Int)) fun t j i k => [x t j i k, y t j i k]) ∧
    Planes (.pfma d a b mask pw ty sub) 8 4 pw d mask (go (fmaN sub) fma3 fun t j i k => [x t j i k, y t j i k, z t j i k]) ∧
    Planes (.pfms d a b mask pw ty sub) 8 4 pw d mask (go (fmsN sub) fms3 fun t j i k => [x t j i k, y t j i k, z t j i k]) ∧
    Planes (.pmuls d a r mask ty sub) 8 4 0 d mask (go mulN mul2 fun t j i k => [x t j i k, e t j i k]) ∧
    Planes (.pfmas d a r mask ty sub) 8 4 0 d mask (go (fmaN sub) fma3 fun t j i k => [x t j i k, e t j i k, z t j i k]) ∧
    Planes (.paddi d a r mask ty sub) 6 4 0 d mask
      (go (fun _ => none) (fun l => l.headD 0 + (BitVec.ofNat 6 r.val).toInt) fun t j i k => [x t j i k]) ∧
    Planes (.pscale d a r mask ty sub) 6 4 0 d mask (fun t j i => laneOf ty fun k =>
      elemArith ty sub (t.rbits sub j i k) (fun l => l.head?.map (Num.scale (max (-1024) (min 1024 (t.cur.rd r).toInt)))) (fun _ => 0)
        [x t j i k]) ∧
    Planes (.pmin d a b mask pw ty sub) 6 4 pw d mask (fun t j i => laneOf ty fun k => elemPick false ty sub (x t j i k) (y t j i k)) ∧
    Planes (.pmax d a b mask pw ty sub) 6 4 pw d mask (fun t j i => laneOf ty fun k => elemPick true ty sub (x t j i k) (y t j i k)) ∧
    Planes (.pclamp d a b mask pw ty sub) 6 4 pw d mask
      (fun t j i => laneOf ty fun k => elemClamp ty sub (z t j i k) (x t j i k) (y t j i k)) ∧
    Planes (.pabs d a mask pw ty sub) 6 4 pw d mask (fun t j i => laneOf ty fun k => elemSign false ty sub (x t j i k)) ∧
    Planes (.pneg d a mask pw ty sub) 6 4 pw d mask (fun t j i => laneOf ty fun k => elemSign true ty sub (x t j i k)) ∧
    Planes (.pround d a mask pw ty sub) 6 4 pw d mask (fun t j i => laneOf ty fun k => elemRound ty sub (x t j i k)) ∧
    Planes (.pdot2 d a b mask pw ty sub) 8 4 pw d mask (fun t j i =>
      laneDot2 ty sub (t.rbits (if ty.val = 6 then 0 else sub) j i 0) (t.cur.at_ d j i) (t.cur.at_ a j i) (t.cur.at_ b j i)) ∧
    Quiet (.pbcs d r mask ty sub) 6 0 d mask (fun t _ _ => packLane ty fun _ => (t.cur.rd r).toNat) ∧
    Lands (.pins d r mask ty sub) 6 (fun t =>
      let n := (t.cur.rd (r + 1)).toNat % (1024 * elems ty)
      let on := (t.cur.pred mask).getLsbD (n / elems ty)
      [.part d (n / elems ty) (packLane ty fun k => if on = true ∧ k = n % elems ty then 0 else 2 ^ 32 - 1)
        (packLane ty fun k => if on = true ∧ k = n % elems ty then (t.cur.rd r).toNat else 0)]) ∧
    Lands (.pext a r ty sub) 6 (fun t =>
      let n := (t.cur.rd (r + 1)).toNat % (1024 * elems ty)
      let v := x t 0 (n / elems ty) (n % elems ty)
      regLandings r [BitVec.ofInt 32 (if 6 ≤ ty.val then intElem ty sub v else (v : Int))])

/-- R164, R231: integer elements. Of 32 bits, an element is the lane; the exact result wraps modulo 2³², or is clamped to the type's range
where the word saturates.
R163, R164: an element written into a lane is read back, and the elements of a lane make up the lane. -/
def Obligations.ElementsOfALane : Prop :=
  (∀ (x y : Word) (sub : Fin 8) (rb : Nat),
     let signed (ff : List Machine.Num → Option Machine.Num) (fi : List Int → Int) : Word :=
       (laneOf 4 fun k => elemArith 4 sub rb ff fi [elemOf 4 k x, elemOf 4 k y]).1
     let natural (ff : List Machine.Num → Option Machine.Num) (fi : List Int → Int) : Word :=
       (laneOf 5 fun k => elemArith 5 sub rb ff fi [elemOf 5 k x, elemOf 5 k y]).1
     (sub.val % 2 = 0 → signed (addN 0) add2 = x + y ∧ signed (subN 0) sub2 = x - y ∧ signed mulN mul2 = x * y ∧
       natural (addN 0) add2 = x + y ∧ natural (subN 0) sub2 = x - y ∧ natural mulN mul2 = x * y) ∧
     (sub.val % 2 = 1 →
       signed (addN 0) add2 = BitVec.ofInt 32 (max (-2147483648) (min 2147483647 (x.toInt + y.toInt))) ∧
       signed (subN 0) sub2 = BitVec.ofInt 32 (max (-2147483648) (min 2147483647 (x.toInt - y.toInt))) ∧
       natural (addN 0) add2 = BitVec.ofNat 32 (min 4294967295 (x.toNat + y.toNat)) ∧
       natural (subN 0) sub2 = BitVec.ofNat 32 (x.toNat - y.toNat) ∧
       natural mulN mul2 = BitVec.ofNat 32 (min 4294967295 (x.toNat * y.toNat)))) ∧
  (∀ ty : Fin 8, (∀ (f : Nat → Nat) (k : Nat), k < elems ty → elemOf ty k (packLane ty f) = f k % 2 ^ elemBits ty) ∧
     (∀ w : Word, packLane ty (fun k => elemOf ty k w) = w))

/-- R242: bitwise words, moves, element shifts by the count modulo the width, and element numbers. -/
def Obligations.PlaneBitWords : Prop :=
  ∀ (d a b : Fin 16) (mask : Fin 8) (pw : Fin 4) (ty sub : Fin 8),
    let x (t : State) (j i : Nat) : Word := t.cur.at_ a j i
    let y (t : State) (j i : Nat) : Word := t.cur.at_ b j i
    let n := elemBits ty
    let e (w : Word) (k : Nat) : BitVec n := BitVec.ofNat n (elemOf ty k w)
    let by_ (t : State) (j i k : Nat) : Nat := elemOf ty k (y t j i) % n
    Quiet (.pand d a b mask pw) 6 pw d mask (fun t j i => x t j i &&& y t j i) ∧
    Quiet (.por d a b mask pw) 6 pw d mask (fun t j i => x t j i ||| y t j i) ∧
    Quiet (.pxor d a b mask pw) 6 pw d mask (fun t j i => x t j i ^^^ y t j i) ∧
    Quiet (.pnot d a mask pw) 6 pw d mask (fun t j i => ~~~(x t j i)) ∧
    Quiet (.pmov d a mask pw) 6 pw d mask x ∧
    Quiet (.pshl d a b mask pw ty sub) 6 pw d mask (fun t j i => packLane ty fun k => (e (x t j i) k <<< by_ t j i k).toNat) ∧
    Quiet (.pshr d a b mask pw ty sub) 6 pw d mask (fun t j i => packLane ty fun k => (e (x t j i) k >>> by_ t j i k).toNat) ∧
    Quiet (.psar d a b mask pw ty sub) 6 pw d mask (fun t j i => packLane ty fun k => ((e (x t j i) k).sshiftRight (by_ t j i k)).toNat) ∧
    Quiet (.piota d mask pw ty sub) 6 pw d mask (fun _ _ i => packLane ty fun k => i * elems ty + k)

/-- R243-R247: comparisons, selection, predicate logic, votes and flag planes. A predicate result is written in the enabled lanes; a vote
reads only them. -/
def Obligations.PredicateWords : Prop :=
  ∀ (d a b : Fin 16) (mask : Fin 8) (pw : Fin 4) (ty sub : Fin 8),
    let m (t : State) : BitVec 1024 := t.cur.pred mask
    let x (t : State) : BitVec 1024 := t.cur.pred a
    let y (t : State) : BitVec 1024 := t.cur.pred b
    let c (t : State) (i : Nat) : Bool × Flags := cmpLane ty sub (t.cur.at_ a 0 i) (t.cur.at_ b 0 i)
    Lands (.pcmp d a b mask ty sub) 6 (fun t => .pred d (m t) (laneMask fun i => (c t i).1) ::
      flagLandings (m t) [tabulate 1024 fun i => (c t i).2]) ∧
    Lands (.psel d a b mask pw) (6 + 4 * (pwPlanes pw - 1)) (fun t => tabulate (pwPlanes pw) fun j =>
      .plane (d + j) (m t &&& y t) (tabulate 1024 (t.cur.at_ a j))) ∧
    Lands (.pmand d a b mask) 6 (fun t => [.pred d (m t) (x t &&& y t)]) ∧
    Lands (.pmor d a b mask) 6 (fun t => [.pred d (m t) (x t ||| y t)]) ∧
    Lands (.pmxor d a b mask) 6 (fun t => [.pred d (m t) (x t ^^^ y t)]) ∧
    Lands (.pmnot d a mask) 6 (fun t => [.pred d (m t) (~~~(x t))]) ∧
    Lands (.pvote d a mask 0) 14 (fun t => [.pred d (BitVec.allOnes 1024) (if x t &&& m t ≠ 0 then BitVec.allOnes 1024 else 0)]) ∧
    Lands (.pvote d a mask 1) 14 (fun t => [.pred d (BitVec.allOnes 1024) (if x t &&& m t = m t then BitVec.allOnes 1024 else 0)]) ∧
    Lands (.pvote d a mask 2) 14 (fun t => [.pred d (BitVec.allOnes 1024) (if x t &&& m t = 0 then BitVec.allOnes 1024 else 0)]) ∧
    Lands (.pvote d a mask 4) 14 (fun t => regLandings d [BitVec.ofNat 32 (truth (x t &&& m t ≠ 0))]) ∧
    Lands (.pvote d a mask 5) 14 (fun t => regLandings d [BitVec.ofNat 32 (truth (x t &&& m t = m t))]) ∧
    Lands (.pvote d a mask 6) 14 (fun t => regLandings d
      [BitVec.ofNat 32 ((List.range 1024).filter fun i => (x t &&& m t).getLsbD i).length]) ∧
    Lands (.pflag d mask 0) 6 (fun t => [.pred d (m t) 0]) ∧
    Lands (.pflag d mask 1) 6 (fun t => [.pred d (m t)
      (t.cur.pred 8 ||| t.cur.pred 9 ||| t.cur.pred 10 ||| t.cur.pred 11 ||| t.cur.pred 12)]) ∧
    Lands (.pflag d mask 2) 6 (fun t => [8, 9, 10, 11, 12].map fun q => .pred q (m t) 0)

/-- R248-R250: conversion of a group, element by element, through Convert with the rounding that the word or sr.fctl names; and random
words, or random values in [0, 1), for the enabled lanes.
R68, R234: the draws of a word depend on the key, the lane, the work item, the launch and the counter alone, so that one word draws
the same bits on every core and in every run.
R234: a word of a bundle draws with the counter advanced by the drawing words before it; a bundle advances sr.rngctr by the number of its
drawing words, one cycle later, unless an `mtsr` of it writes the register; `prng` draws, and a word that rounds under RS. -/
def Obligations.ConversionAndRandomWords : Prop :=
  (∀ (d a b : Fin 16) (mask : Fin 8) (pw : Fin 4) (ty sub : Fin 8),
     let n := cvtPlanes b pw ty
     Lands (.pcvt d a b mask pw ty sub) (6 + 4 * (max (pwPlanes pw) n - 1)) (fun t =>
       planeLands (t.cur.pred mask) n d fun j i => laneOf ty fun k => t.cvtElem a b ty sub j i k) ∧
     Quiet (.prng d mask pw 0) 6 pw d mask (fun t j i =>
       BitVec.ofNat 32 (philox t.cur.rngkey (j * 1024 + i) t.cur.widx t.cur.lid (t.cur.rngctr.toNat + t.bun.draws) 0)) ∧
     (sub ≠ 0 → Quiet (.prng d mask pw sub) 6 pw d mask (fun t j i =>
       let w := philox t.cur.rngkey (j * 1024 + i) t.cur.widx t.cur.lid (t.cur.rngctr.toNat + t.bun.draws) 0
       BitVec.ofNat 32 (convert (.fin false (w / 256) (-24) false) .f32 0 false 0).1))) ∧
  (∀ (s t : State) (j i k : Nat), s.cur.rngkey = t.cur.rngkey → s.cur.widx = t.cur.widx → s.cur.lid = t.cur.lid →
     s.cur.rngctr.toNat + s.bun.draws = t.cur.rngctr.toNat + t.bun.draws → s.rbits 4 j i k = t.rbits 4 j i k ∧ s.rbits 4 j i k < 2 ^ 32) ∧
  (∀ (s : State) (c x len w : Nat) (is : List Instr),
     let k := s.core c
     let u := (s.afterIssue c x len is w).core c
     let n := (is.filter (drawsBits (k.fctl.toNat % 8))).length
     let l : InFlight :=
       { at_ := k.sched, due := k.sched + 1, what := .sysreg 0x21 ((k.rngctr + BitVec.ofNat 32 n).zeroExtend 64) }
     (n ≠ 0 → (∀ i ∈ is, Res.sr 0x21 ∉ dests i) → l ∈ u.inflight) ∧
     (n = 0 ∨ (∃ i ∈ is, Res.sr 0x21 ∈ dests i) → ∀ f ∈ u.inflight, (∃ v, f.what = .sysreg 0x21 v) → f ∈ k.inflight)) ∧
  (∀ (frm n : Nat) (is : List Instr) (i : Instr), is[n]? = some i →
     ∃ p ∈ placeWords frm 0 none 0 0 (is.map some), p.idx = n ∧ p.i = i ∧ p.draws = ((is.take n).filter (drawsBits frm)).length) ∧
  (∀ (d a b : Fin 16) (r : Fin 64) (mask : Fin 8) (pw : Fin 4) (ty sub : Fin 8) (frm : Nat),
     drawsBits frm (.prng d mask pw sub) = true ∧
     (ty.val ≤ 2 → ∀ i, i ∈ [Instr.padd d a b mask pw ty sub, .psub d a b mask pw ty sub, .pmul d a b mask pw ty sub,
         .pfma d a b mask pw ty sub, .pfms d a b mask pw ty sub, .pabsd d a b mask pw ty sub, .pdot2 d a b mask pw ty sub,
         .pmuls d a r mask ty sub, .pfmas d a r mask ty sub, .pscale d a r mask ty sub, .psumRow d a mask pw ty sub,
         .psumCol d a mask pw ty sub, .pdiv d a b mask pw ty sub] → drawsBits frm i = decide (sub = 4)))

/-- R251, R252: rotation and broadcast along rows (of 64 lanes) and columns (of 16), and the sums and extremes of the enabled lanes of
each row and column, in every lane of it.
R253, R254: the special-function words: functions of one value, quotients, and sine and cosine, each rounded once.
That under stochastic rounding the sum of a row or column is rounded in each of its lanes with that lane's own draw is the model's choice
(log 76, DESIGN CHOICE); the series by which `spfN` and `trigN` find the nearest value (log 8, DEDUCED), and the flags of an extreme (log 59,
DEDUCED), are its readings. -/
def Obligations.AxisAndSpecialFunctionWords : Prop :=
  (∀ (d a : Fin 16) (k : Fin 128) (mask : Fin 8) (pw : Fin 4) (ty sub : Fin 8),
     let x (t : State) (j row col : Nat) : Word := t.cur.at_ a j (row * 64 + col)
     let grp (row : Bool) (t : State) (j i e : Nat) : List Nat := t.cur.contrib a mask row ty j (if row then i / 64 else i % 64) e
     let sums (row : Bool) (t : State) (j i : Nat) : Word × Flags :=
       laneOf ty fun e => sumFinish ty sub (t.rbits sub j i e) (sumReduce ty sub (grp row t j i e))
     let tops (row : Bool) (t : State) (j i : Nat) : Word × Flags := laneOf ty fun e => extreme ty sub (grp row t j i e)
     Quiet (.protRow d a k mask pw) 6 pw d mask (fun t j i => x t j (i / 64) ((i % 64 + k) % 64)) ∧
     Quiet (.protCol d a k mask pw) 10 pw d mask (fun t j i => x t j ((i / 64 + k) % 16) (i % 64)) ∧
     Quiet (.pbcRow d a k mask pw) 6 pw d mask (fun t j i => x t j (i / 64) k) ∧
     Quiet (.pbcCol d a k mask pw) 10 pw d mask (fun t j i => x t j k (i % 64)) ∧
     Planes (.psumRow d a mask pw ty sub) 9 4 pw d mask (sums true) ∧ Planes (.psumCol d a mask pw ty sub) 14 4 pw d mask (sums false) ∧
     Planes (.predRow d a mask pw ty sub) 9 4 pw d mask (tops true) ∧ Planes (.predCol d a mask pw ty sub) 14 4 pw d mask (tops false)) ∧
  (∀ (d a b : Fin 16) (mask : Fin 8) (pw : Fin 4) (ty sub : Fin 8),
     let x (t : State) (j i k : Nat) : Machine.Num := (fmtOf ty 0).decode (elemOf ty k (t.cur.at_ a j i))
     let y (t : State) (j i k : Nat) : Machine.Num := (fmtOf ty 0).decode (elemOf ty k (t.cur.at_ b j i))
     Planes (.pspf d a mask pw ty sub) 16 8 pw d mask (fun t j i => laneOf ty fun k =>
       elemSpecial ty 0 0 [x t j i k] (spfN sub (x t j i k))) ∧
     Planes (.pdiv d a b mask pw ty sub) 16 8 pw d mask (fun t j i => laneOf ty fun k =>
       elemSpecial ty sub (t.rbits sub j i k) [x t j i k, y t j i k] (divExact (x t j i k) (y t j i k))) ∧
     Planes (.ptrig d a mask pw ty sub) 16 8 pw d mask (fun t j i => laneOf ty fun k =>
       elemSpecial ty 0 0 [x t j i k] (match x t j i k with
         | .fin n m e _ => (some (trigN (sub.val = 1) n m e), 0)
         | _ => (none, 0))))

/-! ### Crossbar and reversible words -/

/-- R256-R258: `pxset` loads a pattern and finds whether two enabled lanes share a destination; `pxbar` sends each enabled lane of the
pattern to its destination and is a schedule fault on a pattern with that collision; `pxtr` transposes the blocks of 16 × 16. That an enabled
lane that no source routes to takes back, at the landing, what d held at the issue is the model's choice (log 84, DESIGN CHOICE). -/
def Obligations.CrossbarWords : Prop :=
  ∀ (d a b : Fin 16) (mask : Fin 8),
    let en (t : State) (i : Nat) : Bool := (t.cur.pred mask).getLsbD i && (t.cur.at_ a 0 i).getLsbD 31
    let dst (t : State) (i : Nat) : Nat := ((t.cur.at_ a 0 i).extractLsb' 0 10).toNat
    let slot (t : State) : XSlot := t.cur.xslot b
    let from_ (t : State) (i : Nat) : Option Nat :=
      (List.range 1024).find? fun l => (slot t).en.getLsbD l && (slot t).dst.getD l 0 = i
    Lands (.pxset d a mask) 6 (fun t => [.xslot d (laneMask (en t)) (tabulate 1024 (dst t))
      ((List.range 1024).any fun j => (List.range j).any fun i => en t i && en t j && dst t i = dst t j)]) ∧
    Takes (.pxbar d a b mask) (fun t => (slot t).coll = false) id 6 (fun t => [.plane d (t.cur.pred mask) (tabulate 1024 fun i =>
      match from_ t i with
      | some l => t.cur.at_ a 0 l
      | none => t.cur.at_ d 0 i)]) ∧
    Traps (.pxbar d a b mask) (fun t => (slot t).coll = true) (fun _ => { cls := 2 }) ∧
    Quiet (.pxtr d a mask) 6 0 d mask (fun t _ i =>
      let row := i / 64
      let col := i % 64
      t.cur.at_ a 0 (col % 16 * 64 + (col / 16 * 16 + row)))

/-- R262-R264, R266-R271: the forward words: what each lane gives, whether it is escaped, and what the entry keeps of it. That `rvlrelu` of
a NaN with sign 0 keeps its bits is the model's choice (log 63, DESIGN CHOICE). -/
def Obligations.ForwardWords : Prop :=
  ∀ (d a b : Fin 16) (r : Fin 64) (mask sub : Fin 8),
    let x (t : State) (i : Nat) : Machine.Num := Fmt.f32.decode (t.cur.at_ a 0 i).toNat
    let z (t : State) (i : Nat) : Machine.Num := Fmt.f32.decode (t.cur.at_ b 0 i).toNat
    let f32 (n : Nat) : Machine.Num := Fmt.f32.decode n
    let special (v : Machine.Num) : Bool := v.isNan || v.isInf
    let diff (p : Option Machine.Num) (y : Machine.Num) : Nat := match p with
      | some v => (floatOp [] (sumExact 0 [v, y.negate]) .f32 0 0).1
      | none => 0
    let exact (p : Option Machine.Num) (ops : List Machine.Num) (esc : Machine.Num → Bool) : Fwd :=
      let y := floatOp ops p .f32 0 0
      { y := BitVec.ofNat 32 y.1, flags := y.2, esc := esc (f32 y.1), rem := if esc (f32 y.1) then 0 else diff p (f32 y.1) }
    let tiny (v : Machine.Num) : Bool := v.abs.lt false (.fin false 1 (-100) false)
    let scaled (v : Machine.Num) (e : Int) : Fwd :=
      let y := floatOp [v] (some (v.scale (max (-1024) (min 1024 e)))) .f32 0 0
      { y := BitVec.ofNat 32 y.1, flags := y.2, esc := v.isNan || y.2 != 0, rem := 0 }
    let some_ (n : Nat) (t : State) (m : BitVec 1024) (l : List Fwd) : List Byte := fixedPart t.cur.bundleNo n (fun i => m.getLsbD i) l
    Forwards (.rvadd d a b mask sub) 8 d a mask (fun _ => Header.of 0xA0 sub 0 0 0 0 0)
      (fun t i => exact (sumExact 0 [x t i, z t i]) [x t i, z t i] fun y =>
        special (x t i) || special (z t i) || special y || (x t i).isZero) (some_ 4) ∧
    Forwards (.rvmul d a b mask sub) 10 d a mask (fun _ => Header.of 0xA2 sub 0 0 0 0 0)
      (fun t i => exact (mulExact (x t i) (z t i)) [x t i, z t i] fun y =>
        special (x t i) || special (z t i) || special y || (x t i).isZero || (z t i).isZero || tiny y) (some_ 4) ∧
    Forwards (.rvscale d a r mask sub) 8 d a mask (fun t => Header.of 0xA6 sub 0 0 0 0 (t.cur.rd r).toNat)
      (fun t i => scaled (x t i) (t.cur.rd r).toInt) (fun _ _ _ => []) ∧
    Forwards (.rvlrelu d a b mask sub) 8 d a mask (fun _ => Header.of 0xA8 sub 0 0 0 b 0)
      (fun t i => if (t.cur.at_ a 0 i).msb then scaled (x t i) (-((b.val : Int) + 1))
        else { y := t.cur.at_ a 0 i, flags := 0, esc := (x t i).isNan, rem := 0 }) (fun _ _ _ => []) ∧
    Forwards (.rvnarrow d a b mask sub) 8 d a mask (fun _ => Header.of 0xA4 sub 1 0 b 0 0)
      (fun t i =>
        let y := convert (x t i) .bf16 0 false 0
        let w := (t.cur.at_ a 0 i).toNat
        { y := packLane 1 fun j => if j = b.val then y.1 else elemOf 1 j (t.cur.at_ d 0 i), flags := y.2, esc := (x t i).isNan,
          rem := w % 65536 + 65536 * truth (y.1 ≠ w / 65536) })
      (fun t m l => some_ 2 t m l ++ carryMap t.cur.bundleNo m l) ∧
    Forwards (.rvcvt d a b mask sub) 8 d a mask (fun _ => Header.of 0xAA (sub.val / 2) 3 (sub.val % 2) b 0 0)
      (fun t i =>
        let f := if sub.val % 2 = 0 then Fmt.e4m3 else Fmt.e5m2
        let y := convert (x t i) f 0 false 0
        let esc := special (x t i) || (x t i).isZero || special (f.decode y.1)
        { y := packLane 3 fun j => if j = b.val then y.1 else elemOf 3 j (t.cur.at_ d 0 i), flags := y.2, esc := esc,
          rem := if esc then 0 else diff (some (x t i)) (f.decode y.1) })
      (fun t m l => fixedPart t.cur.bundleNo 4 (fun i => m.getLsbD i && !((l.map (·.esc)).getD i false)) l)

/-- R264, R265, R267-R271: the undo words: the formulas that rebuild a lane from the entry, and the three faults of a pop. That a product of
`unscale` or `unlrelu` which f32 does not hold is rounded to nearest even is the model's choice (log 63, DESIGN CHOICE). -/
def Obligations.UndoWords : Prop :=
  ∀ (d a b : Fin 16) (sub : Fin 8),
    let f32 (n : Nat) : Machine.Num := Fmt.f32.decode n
    let x (t : State) (i : Nat) : Machine.Num := f32 (t.cur.at_ a 0 i).toNat
    let z (t : State) (i : Nat) : Machine.Num := f32 (t.cur.at_ b 0 i).toNat
    let rem (e : List Byte) (i : Nat) : Machine.Num := f32 (leNat ((e.drop (4 * i)).take 4))
    let round (ops : List Machine.Num) (p : Option Machine.Num) : Word := BitVec.ofNat 32 (floatOp ops p .f32 0 0).1
    let by_ (v : Machine.Num) (e : Int) : Word := round [v] (some (v.scale (max (-1024) (min 1024 e))))
    let fp8 : Fmt := if sub.val % 2 = 0 then .e4m3 else .e5m2
    Undoes (.unadd d a b sub) 8 d 0xA0 sub 0 0 0 4096 (fun t _ e i =>
      round [x t i, rem e i, z t i] (sumOf 0 [some (x t i), some (rem e i), some (z t i).negate])) ∧
    Undoes (.unmul d a b sub) 10 d 0xA2 sub 0 0 0 4096 (fun t _ e i =>
      round [x t i, rem e i, z t i] (match sumOf 0 [some (x t i), some (rem e i)] with
        | some v => (divExact v (z t i)).1
        | none => none)) ∧
    Undoes (.unscale d a sub) 8 d 0xA6 sub 0 0 0 0 (fun t h _ i => by_ (x t i) (-(BitVec.ofNat 32 h.arg).toInt)) ∧
    Undoes (.unlrelu d a sub) 8 d 0xA8 sub 0 0 0 0 (fun t h _ i =>
      if (t.cur.at_ a 0 i).msb then by_ (x t i) ((h.shift : Int) + 1) else t.cur.at_ a 0 i) ∧
    Undoes (.unnarrow d a b sub) 8 d 0xA4 sub 1 0 b 2176 (fun t _ e i =>
      let c := ((e.getD (2048 + i / 8) 0).extractLsb' (i % 8) 1).toNat
      let low := leNat ((e.drop (2 * i)).take 2)
      BitVec.ofNat 32 ((elemOf 1 b (t.cur.at_ a 0 i) + 65536 - c) % 65536 * 65536 + low)) ∧
    Undoes (.uncvt d a b sub) 8 d 0xAA (sub.val / 2) 3 (sub.val % 2) b 4096 (fun t _ e i =>
      let y := fp8.decode (elemOf 3 b (t.cur.at_ a 0 i))
      round [y, rem e i] (sumOf 0 [some y, some (rem e i)]))

/-- R270: for every f32 value that is not NaN, the BF16 pattern of `rvnarrow` is the high half or one more, and `unnarrow` rebuilds the
value from the pattern, the carry bit and the low half, bit by bit. -/
def Obligations.NarrowIsUndoneExactly : Prop :=
  ∀ (a d : Word) (h : Nat), h < 2 → (Fmt.f32.decode a.toNat).isNan = false →
    let r := fwdNarrow h a d
    let y := elemOf 1 h r.y
    r.esc = false ∧ (y = a.toNat / 65536 ∨ y = a.toNat / 65536 + 1) ∧ elemOf 1 (1 - h) r.y = elemOf 1 (1 - h) d ∧
    (y + 65536 - r.rem / 65536) % 65536 * 65536 + r.rem % 65536 = a.toNat

/-- R263, R272-R274: markers, explicit spilling, and what `rvinfo` reads. A header is read back from its bytes as it was written;
`rvspill` moves neither sr.rsp nor an entry. That the push of `rvmark` lands at once, so that `unmark` may follow in the next cycle, is
read from R266 by inference, beside R267's latency of 8 (log 59, DEDUCED). -/
def Obligations.TailraceWords : Prop :=
  (∀ h : Header, h.op < 256 → h.tag < 8 → h.ty < 8 → h.var < 2 → h.param < 4 → h.shift < 16 → h.nesc < 2048 → h.size < 65536 →
    h.arg < 2 ^ 32 → h.index < 2 ^ 32 → Header.ofBytes h.bytes = h ∧ h.bytes.length = 64) ∧
  (∀ (t : Tail) (lim : Nat) (top : Bool), (t.spillTo lim top).rsp = t.rsp ∧ (t.spillTo lim top).ring = t.ring ∧
    (t.spillTo lim top).ents.map (fun e => (e.base, e.size)) = t.ents.map fun e => (e.base, e.size)) ∧
  ∀ (r : Fin 64) (sub : Fin 8),
    let value (t : State) : Nat := (t.cur.rd r).toNat
    let mark (t : State) : Header := Header.of 0xAC sub 0 0 0 0 (value t)
    let top (t : State) : Prop := t.cur.tail.topIs 0xAC sub 0 0 0
    let marked (t : State) : Tail := t.cur.tail.spillTo (value t / 64 * 64) true
    let info (q : Fin 8) (v : State → Nat) : Prop :=
      Takes (.rvinfo r q) (fun _ => True) id 8 (fun t => regLandings r [BitVec.ofNat 32 (v t)])
    Acts (.rvmark r sub) (fun t => t.mayPush 64) (fun t => t.pushed (mark t) 64) ∧
    Traps (.rvmark r sub) (fun t => (t.job t.turn).rsDepth < t.cur.tail.rsp + 64) (fun _ => { cls := 13 }) ∧
    Asks (.rvmark r sub) (fun t => t.cur.tail.rsp + 64 ≤ (t.job t.turn).rsDepth ∧ 131072 < t.cur.tail.resident + 64)
      (fun _ => .spill (131072 - 64)) ∧
    Acts (.unmark r sub) (fun t => t.cur.topHere ∧ top t ∧ t.cur.tail.header.arg = value t) State.popped ∧
    Traps (.unmark r sub) (fun t => t.cur.topHere ∧ ¬ (top t ∧ t.cur.tail.header.arg = value t)) (fun _ => { cls := 11 }) ∧
    Traps (.unmark r sub) (fun t => t.cur.tail.rsp = 0) (fun _ => { cls := 12 }) ∧
    Asks (.unmark r sub) (fun t => 0 < t.cur.tail.rsp ∧ t.cur.tail.ents = []) (fun _ => .refill) ∧
    Acts (.rvspill r false) (fun _ => True) (fun t => t.setCur { t.cur with tail := marked t }) ∧
    Acts (.rvspill r true) (fun t => (marked t).flight = [] ∧ ∀ e ∈ (marked t).ents, e.st ≠ 1)
      (fun t => t.setCur { t.cur with tail := marked t }) ∧
    Asks (.rvspill r true) (fun t => (marked t).flight ≠ [] ∨ ∃ e ∈ (marked t).ents, e.st = 1)
      (fun t => .spill (value t / 64 * 64)) ∧
    Takes (.rvinfo r 0) (fun t => t.cur.tail.rsp = 0 ∨ ∃ e, t.cur.tail.ents.head? = some e ∧ e.st ≤ 1) id 8
      (fun t => regLandings r [BitVec.ofNat 32
        (if t.cur.tail.rsp = 0 then 0 else leNat (t.cur.tail.read (t.cur.tail.rsp - 64 + 4) 4))]) ∧
    Asks (.rvinfo r 0) (fun t => 0 < t.cur.tail.rsp ∧ ∀ e, t.cur.tail.ents.head? = some e → 1 < e.st) (fun _ => .refill) ∧
    info 1 (fun t => t.cur.tail.count) ∧ info 2 (fun t => (t.cur.tail.ents.map (·.size)).sum) ∧
    info 3 (fun t => t.cur.tail.rsp - (t.cur.tail.ents.map (·.size)).sum)

/-! ### Matrix words, synchronization, engines -/

/-- R282-R284, R289, R293-R296, R302-R309: the matrix words enter a command set with a snapshot of the core where their operands pass
the checks, with the handles they read claimed; `mprof` prepares the group of an idle Millstone; `tset` writes one part of a view.
R136, R293, R294, R310: a product waits for a free command set, its accumulator and the readers' condition of its handles, then raises the
profile fault, then the layout fault, then the faults of its registers at their use, R135, R422: then the window fault of its elements.
R304-R306: `mret` and `mld` wait for a free command set, for an `mret` on the handle and for its state, and raise the handle-state violation
of an undefined handle and the window fault of the tile's image.
That the checks of A come before those of B and the elements' after both (log 78, DESIGN CHOICE), that of several failing versions the lowest
one's fault is raised (log 82, DESIGN CHOICE), and that an undefined handle comes before an offset that is no multiple of 256 (log 61, DESIGN
CHOICE), are the model's choices. -/
def Obligations.MatrixWords : Prop :=
  ∀ (acc fmt : Fin 8) (a b p : Fin 16) (h r e : Fin 64) (prof : Fin 32) (rm lf : Fin 4) (gen clr ret ta tb sat yes : Bool) (n : BitVec 11),
    let room (t : State) : Prop := t.cur.mill.shadow = none
    let enter (x : Cmd) (t : State) : State := t.setCur { t.cur with mill := match t.cur.mill.active with
      | none => { t.cur.mill with active := some x }
      | some _ => { t.cur.mill with shadow := some x } }
    let product (op : MOp) (ix : State → List Word) (t : State) : Cmd :=
      { t.cur.command op acc with
        a := t.withCodebook t.turn (t.cur.treg a), b := t.withCodebook t.turn (t.cur.treg b), ix := ix t,
        readers := (t.withCodebook t.turn (t.cur.treg a)).named ++ (t.withCodebook t.turn (t.cur.treg b)).named }
    let idle (t : State) : Prop := room t ∧ t.cur.accFree acc clr = true ∧ t.cur.handlesReady [t.cur.treg a, t.cur.treg b] = true
    let checked (op : MOp) (ix : State → List Word) (t : State) : Prop := idle t ∧ prof.val < 8 ∧
      ({ t.cur.command op acc with a := t.cur.treg a, b := t.cur.treg b, ix := ix t }).layoutOk prof = true ∧
      t.cur.handleCheck (t.cur.treg a) = none ∧ t.cur.handleCheck (t.cur.treg b) = none ∧
      t.elementsOk t.turn (product op ix t).a (product op ix t).placesA = true ∧
      t.elementsOk t.turn (product op ix t).b (product op ix t).placesB = true
    let issued (op : MOp) (ix : State → List Word) (t : State) : State :=
      enter (product op ix t) (t.claimAll t.turn (product op ix t).readers)
    let rows (t : State) : List Word := tabulate 1024 fun i => lane (t.cur.plane p) i
    let hd (t : State) : Handle := t.cur.handle h
    let off (t : State) : Nat := (t.cur.rd r).toNat
    let free (t : State) : Prop := room t ∧ (hd t).mretBusy = 0 ∧ (hd t).defd = true
    let fillable (t : State) : Prop := if (hd t).dbl then (hd t).shs ≠ 2 else (hd t).state ≠ 2 ∧ (hd t).state ≠ 3
    let filling (t : State) : Handle :=
      if (hd t).dbl then { hd t with shs := 1, stag := 0, fillers := (hd t).fillers + 1, mretBusy := 1 }
      else { hd t with state := 1, vtag := 0, fillers := (hd t).fillers + 1, mretBusy := 1 }
    let ready (t : State) : Prop := ((hd t).state = 2 ∨ (hd t).state = 3) ∧ (hd t).gen = gen ∧ (hd t).shs ≠ 2 ∧ (hd t).rdr < 255
    let none_ (_ : State) : List Word := []
    let mul := MOp.mma prof clr ret ta tb false
    let gather := MOp.mma prof clr ret false tb true
    Acts (.mma acc a b prof clr ret ta tb) (checked mul none_) (issued mul none_) ∧
    Acts (.mmag acc a b prof p clr ret tb) (checked gather rows) (issued gather rows) ∧
    (∀ i op ix, (i = .mma acc a b prof clr ret ta tb ∧ op = mul ∧ ix = none_) ∨ (i = .mmag acc a b prof p clr ret tb ∧ op = gather ∧ ix = rows) →
      let fit (t : State) : Prop :=
        idle t ∧ prof.val < 8 ∧ ({ t.cur.command op acc with a := t.cur.treg a, b := t.cur.treg b, ix := ix t }).layoutOk prof = true
      Stalls i (fun t => ¬ idle t) ∧
      Traps i (fun t => idle t ∧ 8 ≤ prof.val) (fun _ => { cls := 10 }) ∧
      Traps i (fun t => idle t ∧ prof.val < 8 ∧ ¬ fit t) (fun _ => { cls := 8 }) ∧
      Traps i (fun t => idle t ∧ prof.val < 8 ∧ ((t.cur.treg a).loaded = false ∨ (t.cur.treg b).loaded = false)) (fun _ => { cls := 8 }) ∧
      (∀ x, Traps i (fun t => fit t ∧ t.cur.handleCheck (t.cur.treg a) = some x) (fun _ => x) ∧
        Traps i (fun t => fit t ∧ t.cur.handleCheck (t.cur.treg a) = none ∧ t.cur.handleCheck (t.cur.treg b) = some x) (fun _ => x)) ∧
      Traps i (fun t => fit t ∧ t.cur.handleCheck (t.cur.treg a) = none ∧ t.cur.handleCheck (t.cur.treg b) = none ∧
        ¬ (t.elementsOk t.turn (product op ix t).a (product op ix t).placesA = true ∧
          t.elementsOk t.turn (product op ix t).b (product op ix t).placesB = true)) (fun _ => { cls := 3 })) ∧
    (∀ (k : Core) (v : TReg),
      let x := k.handle v.handle
      (v.loaded = false ∨ v.space ≠ 3 → k.handleCheck v = none ∧ v.named = []) ∧
      (v.loaded = true → v.space = 3 → v.named = [v.handle] ∧
        (x.defd = false → k.handleCheck v = some { cls := 16, addr := v.handle }) ∧
        (x.defd = true → x.vtag ≠ v.swz → k.handleCheck v = some { cls := 9 }) ∧
        (x.defd = true → x.vtag = v.swz → k.handleCheck v = v.regionFault k.handles))) ∧
    (∀ (v : TReg) (hs : Map Handle) (n : Nat),
      let at_ (n : Nat) : Handle := Map.get Handle.reset hs (v.handleAt n)
      let sound (n : Nat) : Prop := (at_ n).defd = true ∧ (v.bs = true → v.scbase + (n + 1) * v.scaleBytes ≤ (at_ n).bankSize) ∧
        (v.fmt = 12 → v.cbbase + (n + 1) * 4096 ≤ (at_ n).bankSize)
      (v.bs = false → v.fmt ≠ 12 → v.regionFault hs = none) ∧
      ((∀ m < v.versions, sound m) → v.regionFault hs = none) ∧
      (v.bs = true ∨ v.fmt = 12 → n < v.versions → (∀ m < n, sound m) → ¬ sound n →
        v.regionFault hs = some (if (at_ n).defd then { cls := 8 } else { cls := 16, addr := v.handleAt n }))) ∧
    (∀ (k : Core) (vs : List TReg), k.handlesReady vs = true ↔
      ∀ v ∈ vs, v.loaded = true → v.space = 3 → (k.handle v.handle).defd = true →
        let x := k.handle v.handle
        (x.state = 2 ∨ x.state = 3) ∧ x.gen = v.eg ∧ x.shs ≠ 2 ∧ x.rdr < 255 ∧ x.mretBusy = 0 ∧
        x.rdr + (vs.flatMap TReg.named).count v.handle ≤ 255) ∧
    Stalls (.mret h r acc fmt yes clr rm sat) (fun t => (hd t).mretBusy ≠ 0 ∨ ¬ room t) ∧
    Traps (.mret h r acc fmt yes clr rm sat) (fun t => room t ∧ (hd t).mretBusy = 0 ∧ (hd t).defd = false) (fun _ => { cls := 16, addr := h }) ∧
    Stalls (.mret h r acc fmt yes clr rm sat) (fun t => free t ∧ ¬ fillable t) ∧
    Traps (.mret h r acc fmt yes clr rm sat)
      (fun t => free t ∧ fillable t ∧ t.tileFits (hd t) (hd t).fillBank (off t) (retBytes fmt) = false) (fun _ => { cls := 3 }) ∧
    Stalls (.mld h r acc lf gen) (fun t => (hd t).mretBusy ≠ 0 ∨ ¬ room t) ∧
    Traps (.mld h r acc lf gen) (fun t => room t ∧ (hd t).mretBusy = 0 ∧ (hd t).defd = false) (fun _ => { cls := 16, addr := h }) ∧
    Stalls (.mld h r acc lf gen) (fun t => free t ∧ ¬ ready t) ∧
    Traps (.mld h r acc lf gen)
      (fun t => free t ∧ ready t ∧ t.tileFits (hd t) (hd t).visible (off t) (loadBytes lf) = false) (fun _ => { cls := 3 }) ∧
    (∀ (t : State) (x : Handle) (bank o size : Nat), t.tileFits x bank o size = true ↔
      o % 256 = 0 ∧ o + 16384 * size ≤ x.bankSize ∧ bank + o + 16384 * size ≤ min 2097152 ((t.job t.turn).gran * 65536)) ∧
    Acts (.mret h r acc fmt yes clr rm sat)
      (fun t => free t ∧ fillable t ∧ t.tileFits (hd t) (hd t).fillBank (off t) (retBytes fmt) = true)
      (fun t => enter { t.cur.command (.mret h fmt rm yes clr sat) acc with off := off t, bank := (hd t).fillBank }
        (t.setCur (t.cur.setHandle h (filling t)))) ∧
    Acts (.mld h r acc lf gen)
      (fun t => free t ∧ ready t ∧ t.tileFits (hd t) (hd t).visible (off t) (loadBytes lf) = true)
      (fun t => enter { t.cur.command (.mld h lf) acc with off := off t, bank := (hd t).visible, readers := [h.val] }
        (t.setCur (t.cur.setHandle h { hd t with rdr := (hd t).rdr + 1, engineReads := (hd t).engineReads + 1 }))) ∧
    Acts (.mclr acc) room (fun t => enter (t.cur.command .mclr acc) t) ∧
    Stalls (.mclr acc) (fun t => ¬ room t) ∧
    Acts (.mprof prof) (fun t => prof.val < 8 ∧ t.cur.mill.active = none ∧ t.cur.mill.shadow = none)
      (fun t => t.setCur { t.cur with mill := { t.cur.mill with group := [0, 1, 2, 3, 1, 0, 1, 2].getD prof 0 } }) ∧
    Acts (.mprof prof) (fun t => prof.val < 8 ∧ (t.cur.mill.active ≠ none ∨ t.cur.mill.shadow ≠ none)) id ∧
    Traps (.mprof prof) (fun _ => 8 ≤ prof.val) (fun _ => { cls := 10 }) ∧
    Lands (.tset e h n) 1 (fun t =>
      let x := t.cur.rd h
      let y := t.cur.rd (h + 1)
      let v := t.cur.treg e
      [.treg e (if n = 0 then { v with row0 := x.toNat, col0 := y.toNat } else if n = 1 then { v with i2 := x.toNat, i3 := y.toNat }
        else if n = 2 then { v with wr := x.toNat, wc := y.toNat } else if n = 3 then { v with rs := x, cs := y }
        else { v with eg := x.getLsbD 0 })]) ∧
    Sends (.tload e h n) (fun t => ((t.cur.rd h) + t.imm32 n).toNat < (t.vd (t.coreVd t.turn)).tidCount.toNat) (fun t =>
      let x := t.vd (t.coreVd t.turn)
      { Access.base .tload true (x.tidBase.toNat * 128 + ((t.cur.rd h) + t.imm32 n).toNat * 128) 128 with
        reg := e, data := leBytes 4 t.cur.mbtag.toNat, data2 := leBytes 9 ((x.lastPg.toNat + 1) * 4096) }) ∧
    Traps (.tload e h n) (fun t => (t.vd (t.coreVd t.turn)).tidCount.toNat ≤ ((t.cur.rd h) + t.imm32 n).toNat) (fun _ => { cls := 3 })

/-- R153, R321, R323, R327-R330, R333, R334, R369: the words of scope, phase, barrier and step vote, the fence, the immediate atomics and
the ordered updates, with the faults of a scope and those of an address at issue.
R328: what each atomic operation makes of the old value and the operand, on n-bit patterns.
That of the two faults of a scope the protection fault comes first is read by inference (log 28, DEDUCED). -/
def Obligations.SynchronizationWords : Prop :=
  (∀ (sc : Fin 8) (d a b : Fin 64) (op : Fin 64) (w : Width) (m ret : Bool) (p q : Fin 16),
     let gang (t : State) : Bool := (t.vd (t.coreVd t.turn)).gscope
     let level (t : State) : Nat := (t.job t.turn).levScope 0
     let may (t : State) : Prop := (sc.val = 4 → gang t = true) ∧ sc.val ≤ level t
     let at_ (i : Instr) (kind scope : Nat) (flag : State → Bool) (r : Nat) (t : State) : State :=
       t.setCur { t.cur with barrier := some { kind := kind, scope := scope, flag := flag t, d := r, word := t.fetched i } }
     let early (t : State) : Prop := ∀ x ∈ t.prior.gq ++ t.prior.mq, x.op ≠ .load ∧ x.op ≠ .planeLoad ∧ x.op ≠ .cas ∧ ∀ o r, x.op ≠ .atom o r
     let n := 4 * w.regs
     let addr (t : State) : Nat := if m then t.cur.rdW .d a else (t.cur.rd a).toNat
     let inSpace (t : State) : Prop := addr t % n = 0 ∧
       addr t + n ≤ if m then ((t.vd (t.coreVd t.turn)).lastPg.toNat + 1) * 4096 else 0xA0000000
     let update (t : State) (m wide : Bool) (o x v l : Nat) : OUpdate :=
       { vd := t.coreVd t.turn, launch := t.cur.job.getD 0, m := m, addr := x, wide := wide, op := o, operand := v,
         core := t.turn, lane := l, seq := t.cur.oseq.toNat, scope := t.bun.scope, place := 0 }
     let send (us : State → List OUpdate) (t : State) : State :=
       { (t.setCur { t.cur with oseq := t.cur.oseq + 1 }) with held := t.held ++ us t }
     let one (t : State) : List OUpdate := [update t m (w = .d) b (addr t) (t.cur.rdW w d) 0]
     let many (t : State) : List OUpdate := ((List.range 1024).filter fun l => lane (t.cur.plane p) l ≠ 0xFFFFFFFF).map fun l =>
       update t false false op (lane (t.cur.plane p) l).toNat (lane (t.cur.plane q) l).toNat l
     Acts (.scope sc) may id ∧ Acts (.phase sc) may (at_ (.phase sc) 0 sc (fun _ => false) 0) ∧
     Acts (.bar sc) may (at_ (.bar sc) 1 sc (fun _ => false) 0) ∧
     (∀ i, i = .scope sc ∨ i = .phase sc ∨ i = .bar sc →
       Traps i (fun t => sc = 4 ∧ gang t = false) (fun _ => { cls := 6 }) ∧
       Traps i (fun t => (sc = 4 → gang t = true) ∧ level t < sc.val) (fun _ => { cls := 15 })) ∧
     Acts (.ostep d a) (fun _ => True) (at_ (.ostep d a) 2 4 (fun t => t.cur.rd a ≠ 0) d) ∧
     Lands (.mbtag a) 1 (fun t => [.sysreg 0x10 ((t.cur.rd a).zeroExtend 64)]) ∧
     Acts .fence early id ∧ Stalls .fence (fun t => ¬ early t) ∧
     Sends (.atom d a b w m ret) inSpace (fun t => { Access.base (.atom b ret) m (addr t) n with
       reg := d, width := w.regs, data := leBytes n (t.cur.rdW w d) }) ∧
     Sends (.cas d a b w m) inSpace (fun t => { Access.base .cas m (addr t) n with
       reg := d, width := w.regs, data := leBytes n (t.cur.rdW w d), data2 := leBytes n (t.cur.rdW w b) }) ∧
     (let last (t : State) : Nat := if m then ((t.vd (t.coreVd t.turn)).lastPg.toNat + 1) * 4096 else 0xA0000000
      Rejects (.atom d a b w m ret) addr n last ∧ Rejects (.cas d a b w m) addr n last) ∧
     Acts (.oatom d a b w m) (fun t => t.updateFault m (addr t) n = none) (send one) ∧
     Acts (.oatomP q p op) (fun t => ∀ u ∈ many t, t.updateFault false u.addr 4 = none) (send many)) ∧
  (∀ (n : Nat) (old v : BitVec n), 0 < n →
     let new (op : Nat) : BitVec n := BitVec.ofNat n (atomNew op n old.toNat v.toNat)
     new 0 = old + v ∧ new 1 = (old &&& v) ∧ new 2 = (old ||| v) ∧ new 3 = (old ^^^ v) ∧
     new 4 = (if v.slt old then v else old) ∧ new 5 = (if old.slt v then v else old) ∧
     new 6 = (if v < old then v else old) ∧ new 7 = (if old < v then v else old) ∧ new 8 = v ∧
     (∀ op, op < 9 → atomNew op n old.toNat v.toNat < 2 ^ n))

/-- R90, R117, R335-R337: `flow` latches a chain with a snapshot of the core, into the active set of an idle or halted channel and else
into the shadow set; `fpoll` reads the status word; `fhalt` drops the chains and the records that have not started. R341, R342, R346: the
communicator words. -/
def Obligations.FlumeAndWindlassWords : Prop :=
  (∀ (d a : Fin 64) (ch : Fin 2),
    let x (t : State) : Channel := t.cur.channel ch
    let chain (t : State) : Chain := { ptr := BitVec.ofNat 64 (t.cur.rdW .d a), snap := t.cur.snapshot, issued := t.cur.sched }
    let loads (t : State) : Prop := ∃ n < 16, t.prior.busy (.t n) = true
    let put (y : State → Channel) (t : State) : State := t.setCur (t.cur.setChannel ch (y t))
    Acts (.flow a ch) (fun t => (x t).shadow = none ∧ ¬ loads t ∧ ((x t).state = 0 ∨ (x t).state = 4))
      (put fun t => { x t with state := 1, active := some (chain t), next := some (chain t).ptr }) ∧
    Acts (.flow a ch) (fun t => (x t).shadow = none ∧ ¬ loads t ∧ (x t).state ≠ 0 ∧ (x t).state ≠ 4)
      (put fun t => { x t with shadow := some (chain t) }) ∧
    Stalls (.flow a ch) (fun t => (x t).shadow ≠ none ∨ loads t) ∧
    Lands (.fpoll d ch) 1 (fun t => regLandings d (splitWords 2
      ((x t).done.toNat * 2 ^ 32 + (x t).state * 2 ^ 29 + truth ((x t).shadow ≠ none) * 2 ^ 28 + (x t).stat * 2 ^ 24))) ∧
    Acts (.fhalt ch) (fun t => (x t).state ≠ 5 ∧ (x t).recs = []) (put fun t =>
      { x t with state := 4, active := none, shadow := none, next := none, parkedSeq := 0 }) ∧
    Acts (.fhalt ch) (fun t => (x t).state = 5) id ∧
    (∀ s t, s.gate (.fhalt ch) = .ok t → (x t).state ≠ 5 → ∃ u, exec (.fhalt ch) s = .next u ∧
      let y := (u.core t.turn).channel ch
      y.recs = (x t).recs.filter (·.started) ∧ y.active = none ∧ y.shadow = none ∧ y.next = none ∧
      y.state = if y.recs = [] then 4 else 1)) ∧
  (∀ (d a b : Fin 64) (sub : Fin 8),
    let v (t : State) : Nat := t.coreVd t.turn
    let n (t : State) : Nat := (t.cur.rd a).toNat
    let names (m : Comm) (t : State) : Prop := (t.vd (v t)).comms.lookup (n t) = some m
    let none_ (t : State) : Prop := (t.vd (v t)).comms.lookup (n t) = none
    let post (m : Comm) (bar : Bool) (ptr : State → Nat) (t : State) : State :=
      let y := { m with posted := m.posted + 1, queue := m.queue ++ [t.operation m bar (ptr t)] }
      t.setVd (v t) { t.vd (v t) with comms := Map.put (t.vd (v t)).comms (n t) y }
    (∀ m, Acts (.wpost a b) (fun t => names m t ∧ m.queue.length < 8) (post m false fun t => t.cur.rdW .d b) ∧
      Acts (.wbar a) (fun t => names m t ∧ m.queue.length < 8) (post m true fun _ => 0) ∧
      Stalls (.wpost a b) (fun t => names m t ∧ 8 ≤ m.queue.length) ∧ Stalls (.wbar a) (fun t => names m t ∧ 8 ≤ m.queue.length) ∧
      Takes (.wpoll d a) (names m) id 1 (fun t => regLandings d (splitWords 2 (m.status (t.cur.job.getD 0)))) ∧
      Takes (.wcomm d a sub) (names m) id 1 (fun t => regLandings d [BitVec.ofNat 32
        (if sub = 0 then m.rank else if sub = 1 then m.size else if sub = 2 then m.prio else m.quota)])) ∧
    Takes (.wcomm d a sub) none_ id 1 (fun _ => regLandings d [0]) ∧
    (∀ i, i = .wpost a b ∨ i = .wbar a ∨ i = .wpoll d a → Traps i none_ (fun _ => { cls := 6 })))

/-- R136, R338-R340: the handle words: what each makes of a handle that is in the state it asks for, and where it waits or faults. R134,
R338, R363: a region that breaks its rules, or passes what the launch may reach, is a window fault of `hdef`. R339: `hpub` waits, while the
schedule counter advances, for the stores of earlier bundles to the handle. R278: a yielding `await` with a Tailrace entry is a
continuation-state fault.
That the window fault of `hdef` comes before the violation of a handle in use is the model's choice (log 61, DESIGN CHOICE). -/
def Obligations.HandleWords : Prop :=
  ∀ (h r : Fin 64) (dbl gen y : Bool) (tag : Fin 4),
   let x (t : State) : Handle := t.cur.handle h
   let free (t : State) : Prop := (t.prior.handle h).mretBusy = 0
   let put (z : State → Handle) (t : State) : State := t.setCur (t.cur.setHandle h (z t))
   let base (t : State) : Nat := (t.cur.rd r).toNat
   let size (t : State) : Nat := (t.cur.rd (r + 1)).toNat
   let low (t : State) : Nat := base t % 2097152
   let fits (t : State) : Prop := base t % 256 = 0 ∧ size t % 256 = 0 ∧ 0 < size t ∧ size t ≤ 2097152 ∧
     low t + size t * (if dbl then 2 else 1) ≤ min 2097152 ((t.job t.turn).gran * 65536)
   let quiet (t : State) : Prop := (x t).defd = false ∨ (x t).rdr = 0 ∧ (x t).fillers = 0 ∧ (x t).engineReads = 0
   let readied (t : State) : Prop := ((x t).state = 2 ∨ (x t).state = 3) ∧ (x t).gen = gen ∧ (x t).shs ≠ 2
   let fault (i : Instr) (bad : State → Prop) : Prop := Traps i (fun t => free t ∧ bad t) (fun _ => { cls := 16, addr := h })
   Acts (.hdef h r dbl) (fun t => free t ∧ fits t ∧ quiet t)
     (put fun t => { Handle.reset with defd := true, base := low t / 256, size := size t / 256 - 1, dbl := dbl }) ∧
   Traps (.hdef h r dbl) (fun t => free t ∧ ¬ fits t) (fun t => { cls := 3, addr := base t }) ∧
   (∀ i, i ∈ [Instr.hdef h r dbl, .hset h tag gen, .await h y gen, .hrel h, .hpub h] → Stalls i (fun t => ¬ free t)) ∧
   fault (.hdef h r dbl) (fun t => fits t ∧ ¬ quiet t) ∧
   Acts (.hset h tag gen) (fun t => free t ∧ (x t).defd = true ∧ (x t).state = 0 ∧ (x t).shs = 0 ∧ (x t).rdr = 0)
     (put fun t => { x t with gen := gen, vtag := tag }) ∧
   fault (.hset h tag gen) (fun t => (x t).defd = false ∨ (x t).state ≠ 0 ∨ (x t).shs ≠ 0 ∨ (x t).rdr ≠ 0) ∧
   Acts (.await h y gen) (fun t => free t ∧ (x t).defd = true ∧ readied t) id ∧
   Stalls (.await h false gen) (fun t => free t ∧ (x t).defd = true ∧ ¬ readied t) ∧
   Acts (.await h true gen) (fun t => free t ∧ (x t).defd = true ∧ ¬ readied t ∧ t.follows = false ∧ t.cur.tail.rsp = 0)
     (fun t => t.setCur { t.cur with mode := .suspending 2 h gen }) ∧
   Stalls (.await h true gen) (fun t => free t ∧ (x t).defd = true ∧ ¬ readied t ∧ t.follows = true) ∧
   Traps (.await h true gen) (fun t => free t ∧ (x t).defd = true ∧ ¬ readied t ∧ t.follows = false ∧ t.cur.tail.rsp ≠ 0) (fun _ => { cls := 15 }) ∧
   fault (.await h y gen) (fun t => (x t).defd = false) ∧
   Acts (.hrel h) (fun t => free t ∧ (x t).defd = true ∧ ((x t).state = 2 ∨ (x t).state = 3))
     (fun t => let k := t.cur.setHandle h { x t with state := if (x t).rdr = 0 then 0 else 3 }
       t.setCur ((k.setChannel 0 ((k.channel 0).released h)).setChannel 1 ((k.channel 1).released h))) ∧
   fault (.hrel h) (fun t => (x t).defd = false ∨ (x t).state ≠ 2 ∧ (x t).state ≠ 3) ∧
   Acts (.hpub h) (fun t => free t ∧ (x t).defd = true ∧ (t.prior.handle h).fillers = 0 ∧ t.cur.storing h = false ∧
       if (x t).dbl then (x t).shs = 1 else (x t).state = 0 ∨ (x t).state = 1)
     (put fun t => if (x t).dbl then { x t with shs := 2 } else { x t with state := 2, gen := !(x t).gen }) ∧
   Stalls (.hpub h) (fun t => free t ∧ (x t).defd = true ∧ (t.prior.handle h).fillers ≠ 0) ∧
   (∀ s t : State, s.gate (.hpub h) = .ok t → free t → (x t).defd = true → (t.prior.handle h).fillers = 0 → t.cur.storing h = true →
     exec (.hpub h) s = .next { s with mark := .tick }) ∧
   (∀ k : Core, k.storing h = true ↔ ∃ f ∈ k.inflight, f.at_ < k.sched ∧ ∃ a v, f.what = .bank h a v) ∧
   fault (.hpub h) (fun t => (x t).defd = false) ∧
   fault (.hpub h) (fun t => (x t).defd = true ∧ (t.prior.handle h).fillers = 0 ∧ t.cur.storing h = false ∧
       ¬ (if (x t).dbl then (x t).shs = 1 else (x t).state = 0 ∨ (x t).state = 1))

/-! ### Events of the cores -/

/-- R35-R43, R185, R188, R223, R288, R329-R331, R432: the events of a core's queues: results land, the oldest access of a queue is
performed once its checks pass, an ordered update reaches its unit, an access faults late.
R127: the granules that an access touches are then the gang's; where the tags do not settle the touch, it waits.
R188, R223, R225: the oldest load of the G queue, once its checks pass, lands what memory holds with the core's own queued stores over
it, and leaves the queue. R171: bytes that a store of its own bundle has overwritten are taken as they were before the bundle.
R30, R46, R288: a tensor load beyond the window, as it stood at its issue, touches no entry of the table and meets a window fault. R224: a
store for which the queue has no line meets a phase-overflow fault, once the older ones on their way, which may free a line, have entered (log
69, DESIGN CHOICE).
Here and in every statement about events below, that an event which is not due changes nothing (`Rests`) is the model's choice (log 55,
DESIGN CHOICE). -/
def Obligations.QueueEvents : Prop :=
  (∀ (c : Nat) (x : Access) (t : Trap) (u : OUpdate) (new : State) (reg : TReg) (a b : Nat) (lf : Leaf),
     let gid (s : State) : Nat := s.coreGid c
     let gHead (s : State) : Prop := (s.core c).gq.head? = some x ∧ x.m = false ∧ s.headPasses c x = true
     let free (s : State) : Prop := s.granulesOk (gid s) x.granules = true
     let mHead (s : State) : Prop := (s.core c).mq.head? = some x ∧ x.faulted = false
     let pop (s : State) : State := s.setCore c { s.core c with gq := (s.core c).gq.tail }
     let popM (s : State) : State := s.setCore c { s.core c with mq := (s.core c).mq.tail }
     let enter (s : State) : State := s.setCore c { s.core c with sq := x.enter (s.core c).sq }
     let old (s : State) : Nat := leNat (s.gRead x.addr x.size)
     Moves (.exposedResultLand c) (fun _ => True) (fun s => s.landDue c) ∧
     Moves (.hiddenResultLand c .g) (fun s => gHead s ∧ (x.op = .store ∨ x.op = .planeStore) ∧ s.landsLater c x = false)
       (fun s => pop (enter s)) ∧
     Moves (.hiddenResultLand c .g) (fun s => gHead s ∧ x.op = .planeLoad ∧ s.landsLater c x = false ∧ free s) (fun s =>
       let w := (s.takeAll (gid s) x.granules).landOver c fun r => r = .p x.reg
       pop (w.setCore c { w.core c with
         planes := Map.put (w.core c).planes x.reg (w.lanesRead c ((w.core c).plane x.reg) x) })) ∧
     Moves (.hiddenResultLand c .g) (fun s => gHead s ∧ x.lands = true ∧ s.landsLater c x = false ∧ ¬ free s)
       (fun s => s.want (gid s) x.granules) ∧
     Rests (.hiddenResultLand c .g) (fun s => gHead s ∧ s.landsLater c x = true) ∧
     Moves (.tableWalk c) (fun s => mHead s ∧ x.op = .load ∧ s.translate (s.coreVd c) x.addr .read = .ok (a, b, lf))
       (fun s => s.noteLeaf (s.coreVd c) x.addr lf .read) ∧
     Moves (.tableWalk c) (fun s => mHead s ∧ x.m = true ∧ x.op = .store ∧ s.translate (s.coreVd c) x.addr .write = .ok (a, b, lf) ∧
         x.overflows (s.core c).sq = false)
       (fun s => popM (enter (s.noteLeaf (s.coreVd c) x.addr lf .write))) ∧
     (∀ op, Moves (.atomicPerform c .g) (fun s => gHead s ∧ x.op = .atom op false ∧ free s) (fun s =>
       let w := s.takeAll (gid s) x.granules
       pop (w.gStore (gid s) x.addr (leBytes x.size (atomNew op (8 * x.size) (old w) (leNat x.data)))))) ∧
     Moves (.atomicPerform c .g) (fun s => gHead s ∧ x.op = .cas ∧ free s) (fun s =>
       let w := s.takeAll (gid s) x.granules
       let v := w.gStore (gid s) x.addr (leBytes x.size (if old w = leNat x.data then leNat x.data2 else old w))
       v.setCore c { v.core c with gq := { x with op := .returned, data := leBytes x.size (old w) } :: (v.core c).gq.tail }) ∧
     Moves (.tloadComplete c) (fun s => mHead s ∧ x.op = .tload ∧ s.tensorLoad c x = .ok (reg, new) ∧
         s.granulesOk (gid s) (reg.codebookGranules c) = true)
       (fun s =>
         let w := new.takeAll (gid s) (reg.codebookGranules c)
         w.setCore c { w.core c with mq := (w.core c).mq.tail, tregs := Map.put (w.core c).tregs x.reg reg }) ∧
     Moves (.lateFault c) (fun s => s.oldestFault c = some (x, t) ∧ x.m = false ∧ (s.core c).mode = .running) (fun s =>
       (s.setCore c { s.core c with gq := { x with faulted := true } :: (s.core c).gq.tail }).raise c t) ∧
     Moves (.oatomArrive c) (fun s => s.held.find? (fun w => w.core = c && w.place = 0) = some u ∧
         (s.held.filter fun w => w.place = 1 && s.lineOf w = s.lineOf u).length < 16)
       (fun s => { s with held := placeUpdate c 1 s.held }) ∧
     Moves (.tableWalk c) (fun s => mHead s ∧ x.op = .tload ∧ x.addr + 128 ≤ leNat x.data2 ∧
         s.translate (s.coreVd c) x.addr .read = .ok (a, b, lf))
       (fun s => s.noteLeaf (s.coreVd c) x.addr lf .read) ∧
     Rests (.tableWalk c) (fun s => mHead s ∧ x.op = .tload ∧ leNat x.data2 < x.addr + 128) ∧
     (∀ s : State, x.op = .tload → leNat x.data2 < x.addr + 128 → s.headFault c x = some { cls := 3, addr := x.addr, kind := 6 }) ∧
     (∀ s : State, x.op = .store ∨ x.op = .planeStore → x.newLines (s.core c).sq ≠ [] →
       512 < (s.core c).sq.length + (x.newLines (s.core c).sq).length →
       s.headPasses c x = false ∧
       ((∀ y ∈ (s.core c).gq ++ (s.core c).mq, y.order < x.order → y.op ≠ .store ∧ y.op ≠ .planeStore) →
         s.headFault c x = some { cls := 14, addr := x.addr, kind := 1 })) ∧
     Rests (.tableWalk c) (fun s => (s.core c).mq = []) ∧ Rests (.tloadComplete c) (fun s => (s.core c).mq = []) ∧
     (∀ q, Rests (.atomicPerform c q) (fun s => (s.core c).gq = [] ∧ (s.core c).mq = []) ∧
       Rests (.hiddenResultLand c q) (fun s => (s.core c).gq = [] ∧ (s.core c).mq = [])) ∧
     Rests (.lateFault c) (fun s => (s.core c).gq = [] ∧ (s.core c).mq = []) ∧
     Rests (.oatomArrive c) (fun s => ∀ w ∈ s.held, w.core ≠ c)) ∧
  (∀ (s : State) (c : Nat) (x : Access) (rest : List Access), (s.core c).gq = x :: rest → x.op = .load → x.m = false →
     s.headPasses c x = true → s.landsLater c x = false → s.granulesOk (s.coreGid c) x.granules = true →
       let u := s.takeAll (s.coreGid c) x.granules
       let got := leNat (forward (u.core c).sq false x.addr (x.asBefore x.addr (u.gRead x.addr x.size)))
       exec (.hiddenResultLand c .g) s =
         .next { (let w := u.landHidden c x.reg x.width got; w.setCore c { w.core c with gq := (w.core c).gq.tail }) with mark := .ok } ∧
       ((s.core c).inflight = [] → 0 < x.reg → x.width = 1 → ∀ t, exec (.hiddenResultLand c .g) s = .next t →
         (t.core c).gq = rest ∧ Map.get 0 (t.core c).sregs x.reg = BitVec.ofNat 32 got))

/-- R127-R130, R136, R323-R326, R332, R333, R372: a phase, a barrier and a step vote of a gang of one complete once every core of the
scope instance that still has work has arrived, with every access and update that it sent performed, and no context of the launch is out in
the save area, a phase once what comes before its release has happened. R351: the local stores of a core that waits there land as it
leaves, and not before. Granules are spilled and restored whole when a gang's touch waits at them; R50, R394: where the slot's key is gone or
its partition does not own the area, the access meets the fault in a launch of the gang; R137: the swaps of double-banked handles end a core's
cycle, and happen by themselves on a core that issues nothing; a suspending continuation leaves its core.
That a context out in the save area holds all of its launch back is read from R351 and R357 by inference (log 41, DEDUCED); in which launch a
fault of the save area falls, and that the granule is free and zero all the same (log 70, DESIGN CHOICE), and that stores which several cores
hold are released core after core (log 80, DESIGN CHOICE), are the model's choices. -/
def Obligations.PhaseAndGranuleEvents : Prop :=
  ∀ (c l : Nat) (h : Fin 64) (b : Barrier) (g : Gang),
    let cs (s : State) : List Nat := (s.launch l).scopeInst b.scope c
    let v (s : State) : Nat := (s.launch l).vd
    let at_ (kind : Nat) (s : State) : Prop := (s.core c).barrier = some b ∧ (s.core c).job = some l ∧ b.kind = kind
    let all (s : State) : Prop := s.taken l = false ∧ ∀ d ∈ cs s, s.arrived l d b = true ∧ s.quietCore d = true
    let gran (n : Nat) : Nat := 32 * c + n % 32
    let alone (s : State) : Prop := s.gangs.lookup (s.vd (v s)).gid = some g ∧ g.members.length ≤ 1
    let flag (s : State) : Bool := (cs s).any fun d => ((s.core d).barrier.map (·.flag)).getD false
    let sole (s : State) : Prop := ∀ x, s.gangs.lookup (s.coreGid c) = some x → ∀ e ∈ x.arrivals, e.1 = s.devnum.toNat
    Moves (.phaseComplete c) (fun s => at_ 0 s ∧ all s ∧ b.scope ≠ 4 ∧ s.settleFirst (v s) b.scope (cs s) = none)
      (fun s => ((s.releaseAll (v s) b.scope (cs s)).closeUpdates (v s) b.scope (cs s)).leavePhase (cs s)) ∧
    (∀ t, Moves (.phaseComplete c) (fun s => at_ 0 s ∧ all s ∧ s.settleFirst (v s) b.scope (cs s) = some t) (fun _ => t)) ∧
    Rests (.phaseComplete c) (fun s => (s.core c).barrier = none ∧ sole s ∨
      at_ 0 s ∧ (s.taken l = true ∨ ∃ d ∈ cs s, s.arrived l d b = false ∨ s.quietCore d = false)) ∧
    (∀ s : State,
      s.leavePhase [c] = (s.setCore c { s.core c with barrier := none, phaseCount := (s.core c).phaseCount + 1, oseq := 0 }).landDue c ∧
      s.leaveBar [c] = (s.setCore c { s.core c with barrier := none }).landDue c ∧
      ((s.core c).barrier = some b → s.schedAll [c] = s.setCore c { s.core c with sched := (s.core c).sched + 1 }) ∧
      ((s.core c).barrier = none → s.schedAll [c] = s.schedStep c)) ∧
    Moves (.barrierComplete c) (fun s => at_ 1 s ∧ all s ∧ b.scope ≠ 4) (fun s => s.leaveBar (cs s)) ∧
    Rests (.barrierComplete c)
      (fun s => (s.core c).barrier = none ∨
        at_ 1 s ∧ (s.taken l = true ∨ ∃ d ∈ cs s, s.arrived l d b = false ∨ s.quietCore d = false)) ∧
    Moves (.ostepVoteComplete c) (fun s => at_ 2 s ∧ alone s ∧ s.taken l = false ∧ ∀ d ∈ cs s, s.arrived l d b = true) (fun s =>
      let step := if flag s then g.ostep else g.ostep + 1
      let t : State := { s with
        gangs := Map.put s.gangs (s.vd (v s)).gid { g with ostep := step },
        cores := s.cores.map fun e => (e.1, if s.coreVd e.1 = g.vd && e.2.job.isSome then { e.2 with ostep := step } else e.2) }
      (t.setLaunch l { t.launch l with votes := (t.launch l).votes + 1 }).leaveVote step (!flag s) (cs s)) ∧
    Rests (.ostepVoteComplete c) (fun s => at_ 2 s ∧ (s.taken l = true ∨ ∃ d ∈ cs s, s.arrived l d b = false)) ∧
    (∀ n gid,
      let owned (s : State) : Prop := s.touches.lookup (gran n) = some gid ∧ (s.granule (gran n)).gid ≠ 0 ∧
        (s.granule (gran n)).gid ≠ gid ∧ (s.granule (gran n)).pin = 0 ∧ s.landsIn (gran n) = false ∧
        s.gangs.lookup (s.granule (gran n)).gid = some g
      let free (t : State) : State := { t.zeroGranule (gran n) with granules := Map.put t.granules (gran n) Granule.reset }
      let then_ (u : State) : State :=
        if u.spillBit gid (gran n) then u
        else
          let w := u.takeGranule gid (gran n)
          { w with touches := Map.erase w.touches (gran n) }
      Moves (.granuleSpill c n) (fun s => owned s ∧ g.retired = false ∧ s.slotFault g (gran n) = none) (fun s =>
        then_ (free ((s.setSpillBit (s.granule (gran n)).gid (gran n) true).saveWrite g.part g.key (s.spillSlot g (gran n))
          (s.gRead (gran n * 65536) 65536)))) ∧
      Moves (.granuleSpill c n) (fun s => owned s ∧ g.retired = true) (fun s => then_ (free s)) ∧
      (∀ cls, Moves (.granuleSpill c n) (fun s => owned s ∧ g.retired = false ∧ s.slotFault g (gran n) = some cls) (fun s =>
        then_ ((free s).saveTrap (s.granule (gran n)).gid (gran n / 32) cls (s.spillSlot g (gran n)))))) ∧
    (∀ (s : State) (gid cls addr : Nat), s.gangs.lookup gid = some g →
      ((s.core c).job = some l → s.launchVd l = g.vd → (s.launch l).state = .running →
        s.saveTrap gid c cls addr = s.takeFault c { cls := cls, addr := addr }) ∧
      ((∀ d m, (s.core d).job = some m → s.launchVd m = g.vd → (s.launch m).state ≠ .running) → s.saveTrap gid c cls addr = s)) ∧
    (∀ n, Rests (.granuleSpill c n) (fun s => s.touches.lookup (gran n) = none ∨ (s.granule (gran n)).gid = 0 ∨
      (s.granule (gran n)).pin ≠ 0)) ∧
    (∀ n gid cls, Moves (.granuleRestore c n) (fun s => s.touches.lookup (gran n) = some gid ∧ s.gangs.lookup gid = some g ∧
        (s.granule (gran n)).gid = 0 ∧ s.spillBit gid (gran n) = true ∧ s.slotFault g (gran n) = some cls) (fun s =>
      let t := s.saveTrap gid (gran n / 32) cls (s.spillSlot g (gran n))
      { t with touches := Map.erase t.touches (gran n) })) ∧
    (∀ n gid, Moves (.granuleRestore c n) (fun s => s.touches.lookup (gran n) = some gid ∧ s.gangs.lookup gid = some g ∧
        (s.granule (gran n)).gid = 0 ∧ s.spillBit gid (gran n) = true ∧ s.slotFault g (gran n) = none) (fun s =>
      let t := ((s.setSpillBit gid (gran n) false).zeroGranule (gran n)).gWrite (gran n * 65536)
        (s.paRead g.key (s.spillSlot g (gran n)) 65536)
      { t with granules := Map.put t.granules (gran n) { gid := gid, pin := 0 }, touches := Map.erase t.touches (gran n) })) ∧
    (∀ n, Rests (.granuleRestore c n) (fun s => s.touches.lookup (gran n) = none ∨ (s.granule (gran n)).gid ≠ 0)) ∧
    Moves (.handleSwap c h) (fun s => let x := (s.core c).handle h; (s.core c).mode ≠ .running ∧ x.dbl = true ∧ x.shs = 2 ∧ x.rdr = 0 ∧ x.fillers = 0) (fun s =>
      let x := (s.core c).handle h
      s.setCore c ((s.core c).setHandle h { x with vis := !x.vis, state := 2, gen := !x.gen, vtag := x.stag, shs := 0 })) ∧
    (∀ k : Core,
      let x := k.handle h
      k.swapAll.handle h = if x.dbl = true ∧ x.shs = 2 ∧ x.rdr = 0 ∧ x.fillers = 0 then
        { x with vis := !x.vis, state := 2, gen := !x.gen, vtag := x.stag, shs := 0 } else x) ∧
    Rests (.handleSwap c h) (fun s => let x := (s.core c).handle h; (s.core c).mode = .running ∨ x.dbl = false ∨ x.shs ≠ 2 ∨ x.rdr ≠ 0 ∨ x.fillers ≠ 0) ∧
    (∀ kind gen, Moves (.suspendCommit c) (fun s => (s.core c).mode = .suspending kind h gen ∧ (∀ m ∈ s.crew c, (s.core m).calm = true) ∧
        ∀ n ∈ (s.core c).trail, n = 0) (fun s => s.suspendNow c kind h gen (s.crew c))) ∧
    Rests (.suspendCommit c) (fun s => (s.core c).mode = .running)

/-! ### Events of the engines -/

/-- R90-R118: the Flume reads and checks the next record of a chain, whose granule stays pinned; starts it once its handles are claimed,
its gather list and codebooks are there, its extent passes its checks as one and its granules are there; and completes it in order.
R129: each granule that a record claims is pinned once, from then on. R93, R117: a channel whose next record waits for an earlier one or for a
handle, or whose oldest waits for its release, reads as waiting, also after another record completes.
That a record which fills a handle waits for an earlier record that publishes it is read from R111 and R450 by inference (log 72, DEDUCED);
that of a source and a destination which both fail the checks of their regions the source's fault is raised is the model's choice (log 82,
DESIGN CHOICE). -/
def Obligations.FlumeEvents : Prop :=
  ∀ (c : Nat) (ch : Fin 2) (x : FlumeRec) (y : FlumeRec) (u : State),
   let k (s : State) : Channel := (s.core c).channel ch
   let free (s : State) : Prop := s.flumeStops c = false
   let acc : EAcc := recAcc x.ptr.toNat 0 128
   let gs (s : State) : List Nat := s.engineGranules c [acc]
   let read (s : State) : State :=
     (((s.takeAll (s.coreGid c) (gs s)).engineNote (s.coreVd c) .read (pagesOf [acc])).chargeLines (s.coreVd c) (mLines [acc]))
   let first (s : State) : Prop := (k s).recs.find? (fun r => !r.started) = some x
   let alive (s : State) : Prop := first s ∧ free s ∧ x.words ≠ [] ∧ ((k s).state = 1 ∨ (k s).state = 2)
   let started (s : State) : Prop := alive s ∧
     (k s).awaits x = false ∧ (x.usesSlice && !(s.core c).storesLanded x.issued) = false
   let closing (s : State) : State :=
     let t := s.engineStore (s.coreVd c) x.writes
     (if x.ckm = 0 then t else t.recWrite c x.ptr.toNat 0x60 (leBytes 4 x.crc)).writeCtrl c x false 0
   Moves (.flumeRecordFetch c ch) (fun s => (k s).toFetch = some x ∧ free s ∧ recordPtrOk x.ptr.toNat = true ∧
       (locSpace x.ptr.toNat = 2 → (s.core c).storesLanded x.issued = true) ∧ s.engineCheck c .read [acc] = none ∧
       s.granulesOk (s.coreGid c) (gs s) = true ∧ y = x.withWords ((read s).engineRead c acc) ∧ y.own = true ∧
       y.check ((read s).vd ((read s).coreVd c)).gscope (((read s).job c).levScope 0) = 0)
     (fun s => ((read s).pin (gs s)).updChannel c ch fun z => z.fetched { y with pins := gs s }) ∧
   Moves (.flumeRecordFetch c ch) (fun s => (k s).toFetch = some x ∧ free s ∧ recordPtrOk x.ptr.toNat = false)
     (fun s => (s.updChannel c ch fun z => { z with state := 5, stat := 0 }).takeFault c { cls := 17, addr := x.ptr.toNat, kind := 4 }) ∧
   Rests (.flumeRecordFetch c ch) (fun s => (k s).toFetch = none ∨ ¬ free s) ∧
   Moves (.flumeRecordStart c ch) (fun s => started s ∧ s.claimHandles c x = .done u y ∧ u.startCheck c y = none ∧
       u.listFault c y = none ∧
       (u.waitRecord c ch 1 y).granulesOk (u.coreGid c) (u.engineGranules c (y.listAccs ++ y.cbAccs)) = true)
     (fun _ =>
       let gs := u.engineGranules c (y.listAccs ++ y.cbAccs)
       let p := ((u.waitRecord c ch 1 y).takeAll (u.coreGid c) gs).pinFor y gs
       p.1.openExtent c ch p.2) ∧
   (∀ (s : State) (gs : List Nat) (g : Nat),
     ((s.pinFor x gs).1.granule g).pin = (s.granule g).pin + (if g ∈ gs ∧ g ∉ x.pins then 1 else 0) ∧
     ((s.pinFor x gs).1.granule g).gid = (s.granule g).gid ∧
     (g ∈ (s.pinFor x gs).2.pins ↔ g ∈ x.pins ∨ g ∈ gs)) ∧
   (∀ (s : State) (st : Nat),
     let z := (s.waitRecord c ch st x).core c
     (z.channel ch).state = (if s.headWaits c ch = true then 2 else st) ∧ (z.channel ch).recs = replaceUnstarted x (k s).recs ∧
     (s.headWaits c ch = true ↔ ∃ r, (k s).recs.head? = some r ∧ r.closing = true ∧ s.releaseFree c r = false)) ∧
   (∀ t : Trap,
     Moves (.flumeRecordStart c ch) (fun s => started s ∧ s.claimHandles c x = .done u y ∧
         (u.startCheck c y = some t ∨ u.startCheck c y = none ∧ u.listFault c y = some t)) (fun _ => u.recordFault c ch y t) ∧
     Moves (.flumeRecordStart c ch) (fun s => started s ∧ s.claimHandles c x = .fault t) (fun s => s.recordFault c ch x t)) ∧
   (∀ s : State,
     let list := s.gatherList c x
     let reads := x.listAccs ++ x.cbAccs ++ x.srcAccs list ++ x.ocpAccs list
     let gs := s.engineGranules c (reads ++ x.dstAccs)
     let w := s.waitRecord c ch 1 x
     s.extentCheck c reads x.dstAccs = none → w.granulesOk (s.coreGid c) gs = true →
       s.openExtent c ch x = (w.takeAll (s.coreGid c) gs).beginStream c ch x list gs) ∧
   Moves (.flumeRecordStart c ch) (fun s => started s ∧ s.claimHandles c x = .wait u y) (fun _ => u.waitRecord c ch 2 y) ∧
   Moves (.flumeRecordStart c ch) (fun s => alive s ∧
       (x.wait = true ∧ (k s).recs.head?.any (·.started) = true ∨ (k s).publishesFirst x = true))
     (fun s => s.waitRecord c ch 2 x) ∧
   Moves (.flumeRecordStart c ch) (fun s => alive s ∧ (k s).awaits x = false ∧ x.usesSlice = true ∧ (s.core c).storesLanded x.issued = false)
     (fun s => s.waitRecord c ch 1 x) ∧
   Moves (.flumeRecordComplete c ch) (fun s => (k s).recs.head? = some x ∧ x.started = true ∧ (k s).state ≠ 5 ∧ free s ∧
       s.closeFault c x = none ∧ x.mismatch = false ∧ s.releaseFree c x = false)
     (fun s => s.updChannel c ch fun z => { z with
       state := if z.state = 1 then 2 else z.state, recs := { x with closing := true } :: z.recs.tail }) ∧
   (∀ s : State, (k s).recs.tail.find? (fun r => !r.started && !r.words.isEmpty) = some x → x.wait = true →
     (k s).recs.tail.head?.any (·.started) = true → s.stillWaits c ch = true) ∧
   (∀ z : Channel, z.state = 2 → z.active ≠ none → z.recs.head? = some x → x.last = false →
     (z.advance true).state = 2 ∧ (z.advance false).state = 1 ∧ (z.advance true).recs = z.recs.tail ∧
     (z.advance true).done = z.done + 1) ∧
   Rests (.flumeRecordStart c ch) (fun s => (∀ r ∈ (k s).recs, r.started = true) ∨ ¬ free s) ∧
   Moves (.flumeRecordComplete c ch) (fun s => (k s).recs.head? = some x ∧ x.started = true ∧ (k s).state ≠ 5 ∧ free s ∧
       s.closeFault c x = none ∧ x.mismatch = false ∧ s.releaseFree c x = true ∧ (closing s).completeHandles c x = some u)
     (fun _ => (u.unpin x.pins).updChannel c ch (·.advance (u.stillWaits c ch))) ∧
   Rests (.flumeRecordComplete c ch) (fun s => (k s).recs = [] ∨ ¬ free s)

/-- R282-R319: the Millstone fills its latch, runs waves that the Governor allows, and completes its commands in order; the sums of a chain
that goes on stay in the array. R129: the granules that a fill reads, and a return writes, are pinned meanwhile. R315: a Millstone that is asked
to stop samples the request at once where it is idle, and at a wave's completion where it is busy, and then stops at its next retirement.
R275, R277: the Tailrace's spills and refills complete, and a spill that its writes fault is a spill-region
fault, and so is, R263, a refill whose header is rejected. That the spill of an entry which has been popped lands before any other, and which
bytes it takes, is read from R275 by inference (log 22, DEDUCED). -/
def Obligations.MillstoneAndTailraceEvents : Prop :=
  (∀ (c : Nat) (x : Cmd),
    let m (s : State) : Mill := (s.core c).mill
    let active (s : State) : Prop := (m s).active = some x ∧ s.holdsMill c = false
    let gs (s : State) : List Nat := s.engineGranules c x.reads
    let go (s : State) : Bool := s.waveAllowed (s.core c) x.waveCount.2
    let ends (s : State) : Prop := active s ∧ x.ran = true ∧ (m s).again = []
    let next (t : State) (d : Nat) : State :=
      (t.setCore c { t.core c with tok := (t.core c).tok + 1, mill := (t.core c).mill.next x d }).millServed c
    Moves (.millstoneLatchFill c) (fun s => active s ∧ x.latched = false ∧ x.isReader = true ∧
        (x.usesSlice = true → (s.core c).storesLanded x.issued = true) ∧
        s.engineCheck c .read x.reads = none ∧ ∀ g ∈ gs s, s.granuleOk (s.coreGid c) g = true)
      (fun s =>
        let t := s.takeAll (s.coreGid c) (gs s)
        let u := (t.pin (gs s)).unclaimAll c x.readers
        (u.setCore c { u.core c with mill := { (u.core c).mill with active := some (t.fillLatch c x) } }).unpin (gs s)) ∧
    (∀ (m : Mill) (d : Nat),
      (m.active = none → m.ask = { m with held := true, asked := false }) ∧ (m.active ≠ none → m.ask = { m with asked := true }) ∧
      m.sample = { m with held := m.held || m.asked, asked := false } ∧
      (m.continues x d = false → m.held = true → (m.next x d).active = none ∧ (m.next x d).shadow = m.shadow) ∧
      (m.continues x d = true ∨ m.held = false → (m.next x d).active = m.shadow ∧ (m.next x d).shadow = none)) ∧
    Moves (.millstoneWave c) (fun s => active s ∧ x.latched = true ∧ x.waves < x.waveCount.1 ∧ go s = true)
      (fun s => s.setCore c { (s.core c).charge (s.core c).waveCycle x.waveCount.2 with
        mill := { (m s).sample with
          active := some { x with waves := x.waves + 1 }, waveReady := none,
          replay := if (m s).again.isEmpty && (m s).replay.any (· ≤ x.waves + 1) then none else (m s).replay } }) ∧
    Moves (.millstoneWave c) (fun s => active s ∧ x.latched = true ∧ x.waves < x.waveCount.1 ∧ go s = false)
      (fun s => s.setCore c { s.core c with
        mill := { m s with waveReady := some ((m s).waveReady.getD ((s.core c).waveCycle, x.waveCount.2)) } }) ∧
    Moves (.millstoneCommandComplete c) (fun s => ends s ∧ x.op = .mclr) (fun s =>
      next (s.setCore c { s.core c with tiles := Map.put (s.core c).tiles x.acc [] }) (s.job c).rdepth) ∧
    (∀ pf clr ret ta tb ix,
      let sums (s : State) : List Word := x.productTile pf clr ((m s).sums.getD ((s.core c).tile x.acc))
      Moves (.millstoneCommandComplete c)
        (fun s => ends s ∧ x.op = .mma pf clr ret ta tb ix ∧ (m s).continues x (s.job c).rdepth = false)
        (fun s => next (s.setCore c { s.core c with
          tiles := Map.put (s.core c).tiles x.acc (sums s), mill := { m s with sums := none } }) (s.job c).rdepth) ∧
      Moves (.millstoneCommandComplete c)
        (fun s => ends s ∧ x.op = .mma pf clr ret ta tb ix ∧ (m s).continues x (s.job c).rdepth = true)
        (fun s => next (s.setCore c { s.core c with mill := { m s with sums := some (sums s) } }) (s.job c).rdepth)) ∧
    Rests (.millstoneCommandComplete c) (fun s => (m s).active = none) ∧ Rests (.millstoneWave c) (fun s => (m s).active = none) ∧
    Rests (.millstoneLatchFill c) (fun s => (m s).active = none)) ∧
  (∀ (c : Nat) (e f : TailEnt) (older : List TailEnt) (bs : List Byte) (rest : List (Nat × Nat × List Byte)) (b va : Nat) (u : State),
    let t (s : State) : Tail := (s.core c).tail
    Moves (.tailraceSpillComplete c) (fun s => (t s).flight = [] ∧ (t s).ents.reverse.find? (·.st = 1) = some e ∧
        s.mWriteExtent (s.coreVd c) ((t s).spb + e.base) ((s.core c).entryBytes e) .write = .ok u)
      (fun s => u.setCore c { u.core c with tail := { t s with ents := spilledEnts e.base (t s).ents } }) ∧
    Moves (.tailraceSpillComplete c) (fun s => (t s).flight = (b, va, bs) :: rest ∧ s.mWriteExtent (s.coreVd c) va bs .write = .ok u)
      (fun s => u.setCore c { u.core c with tail := { t s with flight := rest } }) ∧
    (∀ x, Moves (.tailraceSpillComplete c) (fun s => (s.core c).mode ≠ .faulted ∧ (t s).flight = [] ∧
        (t s).ents.reverse.find? (·.st = 1) = some e ∧
        s.mWriteExtent (s.coreVd c) ((t s).spb + e.base) ((s.core c).entryBytes e) .write = .error x)
      (fun s => (s.setCore c { s.core c with tail := { t s with
          ents := (t s).ents.map fun d => if d.base = e.base then { d with st := 0 } else d } }).takeFault c
        { cls := 13, addr := x.addr, kind := 1 })) ∧
    Rests (.tailraceSpillComplete c) (fun s => (t s).flight = [] ∧ ∀ d ∈ (t s).ents, d.st ≠ 1) ∧
    Moves (.tailraceRefillComplete c) (fun s => (t s).ents.dropWhile (·.st < 2) = e :: older ∧
        s.refillHeader c (t s) (e.base + e.size) = f ∧ f.st = 2 ∧
        s.mReadExtent (s.coreVd c) ((t s).spb + f.base) f.size .read = .ok (bs, u))
      (fun s =>
        let v : Tail := { t s with
          ring := ringWrite (t s).ring f.base bs,
          ents := (t s).ents.takeWhile (·.st < 2) ++ { f with st := 0 } :: (if f.size = e.size then older else []) }
        u.setCore c { u.core c with tail := { v with count := v.recount } }) ∧
    Moves (.tailraceRefillComplete c) (fun s => (t s).ents.dropWhile (·.st < 2) = e :: older ∧
        s.refillHeader c (t s) (e.base + e.size) = f ∧ f.st = 3 ∧ (s.core c).mode ≠ .faulted)
      (fun s => (s.setCore c { s.core c with tail := { t s with ents := (t s).ents.filter (·.st < 2) } }).takeFault c
        { cls := 13, addr := (t s).spb + f.base }) ∧
    Rests (.tailraceRefillComplete c) (fun s => ∀ d ∈ (t s).ents, d.st < 2))

/-! ### Events of faults, registers, the host and the links -/

/-- R359, R425-R429, R434: the fault queue takes the entry of the first waiter once it has room, and the flight parks; the context of a
faulting core is saved once its accesses, spills and refills have ended, and its launch ends once no faulting core is left and the granules of its held stores are there; a resolved continuation is restored on an idle core.
R50, R54: frames under a key that is gone, or that the partition does not own, fault instead.
R443, R445-R448: the debugger halts, steps, dumps, loads and releases a launch, and the snapshot triggers fire.
That HALTED is so read, that a halt without a launch has no effect, and how a step moves the engines and a Millstone (log 35, DEDUCED), that a
step's core cycles come next in the agenda (log 2, DESIGN CHOICE), and what a load takes from the frame and what beside it, with the granules
that it touches and pins (log 11, DESIGN CHOICE), are the model's readings and choices. -/
def Obligations.FaultAndDebugEvents : Prop :=
  ((∀ (v c m n : Nat) (t : Trap),
     let first (w : Waiter) (s : State) : Prop := (s.vd v).fqRoom = true ∧ (s.coresOf v).findSome? s.waiter = some w
     Moves (.faultEntryWrite v) (fun s => first (.flight c m t) s ∧ ∀ i ∈ s.crew c, (s.core i).flightFits = true)
       (fun s => s.parkFlight c m t) ∧
     Moves (.faultEntryWrite v) (first (.channel c n t)) (fun s => s.parkChannel v c n t) ∧
     Rests (.faultEntryWrite v) (fun s => (s.vd v).fqRoom = false ∨ ∀ d ∈ s.coresOf v, s.waiter d = none)) ∧
   (∀ (c l : Nat),
     let ending (s : State) : Prop := (s.core c).job = some l ∧ (s.launch l).state = .ending
     Moves (.launchFaultEnd c) (fun s => ending s ∧ (s.core c).mode = .faulted ∧ (s.core c).boardReady = true ∧
         (s.core c).tail.still = true ∧ (s.endCore l c).endReady l = false) (fun s => s.endCore l c) ∧
     (let free (s : State) : Prop := s.granulesOk (s.vd (s.launch l).vd).gid (s.endGranules l) = true
      let close (s : State) : State := (s.takeAll (s.vd (s.launch l).vd).gid (s.endGranules l)).endLaunch l
      Moves (.launchFaultEnd c) (fun s => ending s ∧ (s.core c).mode = .faulted ∧ (s.core c).boardReady = true ∧
          (s.core c).tail.still = true ∧ (s.endCore l c).endReady l = true ∧ free (s.endCore l c)) (fun s => close (s.endCore l c)) ∧
      Moves (.launchFaultEnd c) (fun s => ending s ∧ (s.core c).mode ≠ .faulted ∧ s.endReady l = true ∧ free s) close ∧
      Moves (.launchFaultEnd c) (fun s => ending s ∧ (s.core c).mode ≠ .faulted ∧ s.endReady l = true ∧ ¬ free s)
        (fun s => s.want (s.vd (s.launch l).vd).gid (s.endGranules l))) ∧
     Rests (.launchFaultEnd c) (fun s => (s.core c).job = none)) ∧
   (∀ (v seq c mask : Nat) (val : Word) (e : FqEntry),
     Moves (.parkedRestore v seq c)
       (fun s => (s.vd v).fq.find? (s.restorable v c) = some e ∧ e.resolved = some (mask, val) ∧ e.seq = seq ∧
         s.frameFault v e.frame = none ∧ s.granulesOk (s.vd v).gid (e.storeGranules c) = true)
       (fun s =>
         let w := s.takeAll (s.vd v).gid (e.storeGranules c)
         (w.setVd v ((w.vd v).unframe e)).unparkAll c c e mask val (w.reloadAll v e.launch e.frame e.parked)) ∧
     (∀ t, Moves (.parkedRestore v seq c)
       (fun s => (s.vd v).fq.find? (s.restorable v c) = some e ∧ e.resolved = some (mask, val) ∧ e.seq = seq ∧
         s.frameFault v e.frame = some t)
       (fun s => ((s.setVd v ((s.vd v).unframe e)).unparkAll c c e mask val e.parked).takeFault c t)) ∧
     Rests (.parkedRestore v seq c) (fun s => (s.vd v).fq = [])) ∧
   (∀ (v : Nat) (w : DWord),
     let free (s : State) : Prop := (s.vd v).frames = [] ∧ ∀ e ∈ s.launches, e.2.vd = v → e.2.live = false
     Moves (.parkFrameConfigWrite v true w) free (fun s => s.setVd v { s.vd v with pfCount := w.extractLsb' 0 16 }) ∧
     Moves (.parkFrameConfigWrite v false w) free (fun s => s.setVd v { s.vd v with pfBase := w.extractLsb' 20 44 }) ∧
     (∀ b, Rests (.parkFrameConfigWrite v b w) (fun s => (s.vd v).frames ≠ [])))) ∧
  ∀ (v c pa : Nat),
   let mine (s : State) : List Nat := s.coresOf v
   let held (s : State) : Prop := s.debugHalted v = true
   let serves (s : State) : Prop := (s.core c).job.isSome = true ∧ s.coreVd c = v
   Moves (.dbgHalt v) (fun s => mine s ≠ []) (fun s => s.setVd v { s.vd v with
     halted := true, stepping := false, dbgMill := none, dbgSteps := 0, dbgStall := false }) ∧
   Moves (.dbgRun v) (fun _ => True)
     (fun s => (s.setVd v { s.vd v with halted := false, stepping := false, dbgMill := none }).unhalt (mine s)) ∧
   Moves (.dbgStep v) held (fun s =>
     let t := s.setVd v { s.vd v with dbgSteps := (s.vd v).dbgSteps + 1, dbgStall := false, stepping := (s.vd v).halted }
     let cs := if t.stepLeads v = [] then (t.coresOf v).take 1 else t.stepLeads v
     { t with agenda := cs.map .debugCore ++ t.agenda }) ∧
   Rests (.dbgStep v) (fun s => ¬ held s) ∧
   Moves (.dbgRunMillstone v c) (fun s => held s ∧ serves s ∧ (s.core c).mill.active ≠ none)
     (fun s => s.setVd v { s.vd v with dbgMill := some c }) ∧
   (∀ t, Moves (.dbgDump v c) (fun s => held s ∧ serves s ∧ (s.faultFrame v).bind (s.frameFault v) = some t) (fun s => s.takeFault c t)) ∧
   Moves (.dbgDump v c) (fun s => held s ∧ serves s ∧ (s.faultFrame v).bind (s.frameFault v) = none)
     (fun s => s.fillFaultFrame v c 3 ({ s.core c with pc := s.nextPc c } : Core).captured) ∧
   (∀ i t, Moves (.dbgLoad v c) (fun s => held s ∧ serves s ∧ s.faultFrame v = some i ∧ s.frameFault v i = some t) (fun s => s.takeFault c t)) ∧
   (∀ i, Moves (.dbgLoad v c) (fun s => held s ∧ serves s ∧ s.faultFrame v = some i ∧ s.frameFault v i = none ∧ s.frameAt v i = some pa)
     (fun s => s.putFrame c (s.loadFrame (s.saveKey v) pa (s.job c) ((s.vd v).dump.getD (s.core c)) (s.core c)))) ∧
   (∀ (s : State) (k : Core),
     let gs := k.storeGranules c ++ k.pinned
     let t := s.settleNow (s.coreGid c) gs
     let u := t.takeAll (s.coreGid c) gs
     s.putFrame c k = if t.granulesOk (s.coreGid c) gs then ((u.unpin (u.core c).pinned).pin k.pinned).setCore c k
       else t.want (s.coreGid c) gs) ∧
   Rests (.dbgLoad v c) (fun s => ¬ held s ∨ ¬ serves s ∨ s.faultFrame v = none) ∧
   Moves (.snstatFire v) (fun s => (s.vd v).snCtl.getLsbD 1 = true) (fun s => s.fireSnapshot v 0 2) ∧
   Rests (.snstatFire v) (fun s => (s.vd v).snCtl.getLsbD 1 = false) ∧
   Moves (.snapshotTrigger v) (fun s => (s.vd v).snCtl.getLsbD 3 = true) (fun s => s.fireSnapshot v 0 4) ∧
   Rests (.snapshotTrigger v) (fun s => (s.vd v).snCtl.getLsbD 3 = false)

/-- R7, R45, R46, R78, R194, R331, R380, R400, R402, R426, R445, R448, R478, R480, R486: a write of each register of the management window
sets its fields; a bit that is cleared by a 1 is cleared, but for one that the device has set in the same cycle; a register that the device
has not is not written. GOVCTL keeps a limit of at least 256; the bandwidth limiters refuse a rate without a burst and refill each cycle.
What one cycle is here, and that the order of the agenda says which event comes first in it, are the model's choices (logs 2 and 81, DESIGN
CHOICE). -/
def Obligations.RegisterEvents : Prop :=
  (∀ (v : DWord) (d : Nat),
    let set (f : State → VDev → VDev) (s : State) : State := s.setVd d (f s (s.vd d))
    let always (_ : State) : Prop := True
    let keep (s : State) (w : W1c) (b : Bool) (clear : Nat) : Bool := b && (!v.getLsbD clear || s.fresh.contains w)
    (Moves (.registerWrite (.mtroot d) v) always (set fun _ x => { x with root := v.extractLsb' 12 28, trEn := v.getLsbD 0 }) ∧
     Moves (.registerWrite (.mwlim d) v) always (set fun _ x => { x with lastPg := v.extractLsb' 12 52 }) ∧
     Moves (.registerWrite (.mtinva d) v) always (set fun _ x => { x with invPage := v.extractLsb' 12 52 }) ∧
     Moves (.registerWrite (.mtistat d) v) always
       (set fun s x => { x with bwref := keep s (.bwref d) x.bwref 2, ovf := keep s (.ovf d) x.ovf 1 }) ∧
     Moves (.registerWrite (.tidbase d) v) always (set fun _ x => { x with tidBase := v.extractLsb' 7 57 }) ∧
     Moves (.registerWrite (.tidn d) v) always (set fun _ x => { x with tidCount := v.extractLsb' 0 16 }) ∧
     Moves (.registerWrite (.olbase d) v) always (set fun _ x => { x with olBase := v.extractLsb' 12 52 }) ∧
     Moves (.registerWrite (.olsize d) v) always (set fun _ x => { x with olCount := v.extractLsb' 0 20 })) ∧
    (Moves (.registerWrite (.fqbase d) v) always (set fun _ x => { x with fqBase := v.extractLsb' 12 52 }) ∧
     Moves (.registerWrite (.fqctl d) v) always
       (set fun s x => { x with
         fqLost := keep s (.fqLost d) x.fqLost 7, fqDres := v.getLsbD 6, fqIe := v.getLsbD 5, fqEn := v.getLsbD 4, fqLog := v.extractLsb' 0 4 }) ∧
     Moves (.registerWrite (.fqhead d) v) always (set fun _ x => { x with fqHead := v.extractLsb' 0 32 }) ∧
     Moves (.registerWrite (.fqrval d) v) always (set fun _ x => { x with fqRval := v.extractLsb' 0 32 }) ∧
     Moves (.registerWrite (.vdpol d) v) always (set fun _ x => { x with gscope := v.getLsbD 0 }) ∧
     Moves (.registerWrite (.vdstat d) v) always (set fun s x => { x with qRaised := keep s (.qRaised d) x.qRaised 2 }) ∧
     Moves (.registerWrite (.dbgctl d) v) always (set fun _ x => { x with tstop := v.getLsbD 1, dbgEn := v.getLsbD 0 }) ∧
     Moves (.registerWrite (.snctl d) v) always (set fun _ x => { x with snCtl := v.extractLsb' 0 5 }) ∧
     Moves (.registerWrite (.snstat d) v) always (set fun s x => { x with latched := keep s (.latched d) x.latched 0 }) ∧
     Moves (.registerWrite (.lstat d) v) always
       (set fun s x => { x with cerr := keep s (.cerr d) x.cerr 1, qovf := keep s (.qovf d) x.qovf 0 })) ∧
    (∀ q : Nat,
      Moves (.registerWrite (.qcfg d q) v) (fun _ => q < 64)
        (set fun _ x => { x with
          qcfgBase := Map.put x.qcfgBase q (v.extractLsb' 12 52), qcfgLog := Map.put x.qcfgLog q (v.extractLsb' 8 4),
          qcfgEn := Map.put x.qcfgEn q (v.getLsbD 0) }) ∧
      Rests (.registerWrite (.qcfg d q) v) (fun _ => 64 ≤ q) ∧
      Moves (.registerWrite (.qpctl q) v) (fun _ => q < 36)
        (fun s => let p := s.port q
          s.setPort q { p with
            pmd := if p.en then p.pmd else v.getLsbD 1, en := v.getLsbD 0, up := p.up && v.getLsbD 0, retraining := p.retraining && v.getLsbD 0 }) ∧
      Rests (.registerWrite (.qpctl q) v) (fun _ => 36 ≤ q) ∧
      Moves (.registerWrite (.kdata q) v) (fun _ => q < 8) (fun s => { s with kdata := Map.put s.kdata q v }) ∧
      Rests (.registerWrite (.kdata q) v) (fun _ => 8 ≤ q) ∧
      Moves (.registerWrite (.parg q) v) (fun _ => q < 4) (fun s => { s with parg := Map.put s.parg q v }) ∧
      Rests (.registerWrite (.parg q) v) (fun _ => 4 ≤ q)) ∧
    Moves (.registerWrite .ksel v) always (fun s => { s with ksel := v.extractLsb' 0 12 }) ∧
    Moves (.registerWrite .kstat v) always (fun s => { s with kerr := keep s .kerr s.kerr 2 }) ∧
    Moves (.registerWrite .thstat v) always (fun s => { s with holds := keep s .holds s.holds 18 }) ∧
    Moves (.registerWrite .devctl v) always (fun s => { s with
      devnum := if s.qen then s.devnum else v.extractLsb' 32 11, qen := v.getLsbD 1,
      ports := if v.getLsbD 1 then s.ports else s.ports.map fun e => (e.1, { e.2 with up := false, retraining := false }) }) ∧
    (∀ s : State, v.getLsbD 0 = true → exec .deviceReset s = .next (s.windowWrite 0x08 v)) ∧
    Moves (.govctlWrite v) always (fun s => { s with
      govEn := v.getLsbD 31, govLimit := BitVec.ofNat 20 (max 256 (v.extractLsb' 0 20).toNat),
      govRaised := keep s .govRaised s.govRaised 30 || decide ((v.extractLsb' 0 20).toNat < 256),
      fresh := if (v.extractLsb' 0 20).toNat < 256 then .govRaised :: s.fresh else s.fresh })) ∧
  (∀ (s : State) (w : W1c), w ∈ (s.w1cSet w).fresh ∧ s.newCycle.fresh = []) ∧
  (∀ (d b : Nat) (w : DWord),
    let rate : BitVec 20 := w.extractLsb' 24 20
    let burst : BitVec 16 := w.extractLsb' 0 16
    let good : Prop := rate = 0 ∨ burst ≠ 0
    Moves (.bwlimWrite d w) (fun _ => good)
      (fun s => s.setVd d { s.vd d with bwRate := rate, bwBurst := burst, accs := (s.vd d).accs.filter fun e => 512 ≤ e.1 }) ∧
    Moves (.bwlimWrite d w) (fun _ => ¬ good) (fun s => (s.setVd d { s.vd d with bwref := true }).w1cSet (.bwref d)) ∧
    Moves (.qbwlimWrite d w) (fun _ => good)
      (fun s => s.setVd d { s.vd d with qRate := rate, qBurst := burst, accs := (s.vd d).accs.filter fun e => e.1 < 512 }) ∧
    Rests (.qbwlimWrite d w) (fun _ => ¬ good) ∧
    Moves (.limiterTick d b) (fun s => b < 512 ∧ (s.vd d).bwRate ≠ 0)
      (fun s => s.setVd d ((s.vd d).bucket b (s.vd d).bwBurst.toNat (min (s.vd d).bwRate.toNat 655360))) ∧
    Rests (.limiterTick d b) (fun s => b < 512 ∧ (s.vd d).bwRate = 0) ∧
    (let ports (s : State) : Nat := (s.vdPart d).ports.length
     Moves (.limiterTick d b) (fun s => 512 ≤ b ∧ (s.vd d).qRate ≠ 0 ∧ ports s ≠ 0)
       (fun s => s.setVd d ((s.vd d).bucket b (s.vd d).qBurst.toNat (min (s.vd d).qRate.toNat 115200 * 512 / ports s))) ∧
     Rests (.limiterTick d b) (fun s => 512 ≤ b ∧ ((s.vd d).qRate = 0 ∨ ports s = 0))) ∧
    (∀ (x : VDev) (cap refill : Nat),
      let full := cap * 64 * 16384
      let r := admitted (min (Map.get full x.accs b + refill) full) (Map.get [] x.requests b)
      Map.get full (x.bucket b cap refill).accs b = r.1 ∧ Map.get [] (x.bucket b cap refill).requests b = r.2))

/-- R47, R53-R56: key commands fill, load and zeroise the selected slot; invalidations are held, at most eight, and complete in order. -/
def Obligations.KeyAndInvalidationEvents : Prop :=
  (∀ n : Nat,
    let slot (s : State) : KeySlot := s.slot s.ksel.toNat
    let empty (s : State) : Prop := s.ksel ≠ 0 ∧ (slot s).state = 0
    let fill (k1 k2 : State → BitVec 256) (mat : State → Config.KeyMat) (s : State) : State := { s with
      kdata := [], slots := Map.put s.slots s.ksel.toNat { state := 1, k1 := k1 s, k2 := k2 s, mat := mat s } }
    let refused (s : State) : State := { s with kerr := true, fresh := .kerr :: s.fresh, kdata := [] }
    Moves .keyGenerate empty (fun s => { fill (fun s => Config.entropy s.draws) (fun s => Config.entropy (s.draws + 1)) (fun s => .drawn s.draws) s with
      draws := s.draws + 2 }) ∧
    Moves .keyGenerate (fun s => ¬ empty s) refused ∧
    Moves .keyLoad (fun s => empty s ∧ s.keyFrom 0 ≠ s.keyFrom 4) (fill (·.keyFrom 0) (·.keyFrom 4) fun s => .loaded (s.keyFrom 0) (s.keyFrom 4)) ∧
    Moves .keyLoad (fun s => ¬ (empty s ∧ s.keyFrom 0 ≠ s.keyFrom 4)) refused ∧
    Moves .keyZeroise (fun s => s.ksel ≠ 0 ∧ (slot s).state = 1)
      (fun s => { s with kdata := [], slots := Map.put s.slots s.ksel.toNat { slot s with state := 2 } }) ∧
    Moves .keyZeroise (fun s => ¬ (s.ksel ≠ 0 ∧ (slot s).state = 1)) refused ∧
    Moves (.keyZeroiseComplete n) (fun s => (s.slot n).state = 2)
      (fun s => { s with slots := Map.put s.slots n { state := 0, k1 := 0, k2 := 0, mat := .empty } }) ∧
    Rests (.keyZeroiseComplete n) (fun s => (s.slot n).state ≠ 2)) ∧
  (∀ (v : Nat) (count : BitVec 52) (p k : Nat) (rest : List (Nat × Nat)),
    Moves (.invalidationStart v count) (fun s => (s.vd v).pendingInv.length < 8)
      (fun s => s.setVd v { s.vd v with pendingInv := (s.vd v).pendingInv ++ [((s.vd v).invPage.toNat, count.toNat)] }) ∧
    Moves (.invalidationStart v count) (fun s => 8 ≤ (s.vd v).pendingInv.length)
      (fun s => (s.setVd v { s.vd v with ovf := true }).w1cSet (.ovf v)) ∧
    Moves (.invalidationComplete v) (fun s => (s.vd v).pendingInv = (p, k) :: rest ∧ s.usesRange v (removedRanges v (invRange p k) s.tlb) = false)
      (fun s => { s with tlb := s.tlb.filter fun t => !(t.vd = v && meets (invRange p k) t.va t.size) }.setVd v
        { s.vd v with pendingInv := rest, invDone := (s.vd v).invDone + 1 }) ∧
    Rests (.invalidationComplete v) (fun s => (s.vd v).pendingInv = [] ∨
      (s.vd v).pendingInv = (p, k) :: rest ∧ s.usesRange v (removedRanges v (invRange p k) s.tlb) = true)) ∧
  (∀ (s : State) (v : Nat) (r : Nat × Nat) (rs : List (Nat × Nat)) (e : Nat × Core) (x : Access) (tail : List Access),
    e ∈ s.cores → s.coreVd e.1 = v → e.2.job.isSome = true → e.2.mq = x :: tail → x.faulted = false → x.op ≠ .returned →
    r ∈ rs → x.addr < r.2 → r.1 < x.addr + (if x.op = .tload then 128 else x.size) → s.usesRange v rs = true)

/-- R31, R34, R45, R475-R479, R482, R485, R486: requests of the host are refused with a status or performed and answered, one whose TAG is
still outstanding with status 3; their ACKs leave in order when the cycle ends; a malformed packet is answered where it names a function and
a TAG. The Seust link and the Quija ports come up, retrain and go down, and what waits at a port that is down takes another route.
That a TAG is outstanding until the ACK leaves at the end of the cycle, the VD field of a request from a function above 0 and its status 3
(log 38), and that UP reads 0 while a port retrains (log 46), are the model's readings. -/
def Obligations.HostAndLinkEvents : Prop :=
  (∀ (f tag vd len : Nat) (a v : DWord) (data b : List Byte) (t : State) (p : Nat) (header : DWord) (e : Nat),
    let taken (s : State) : Prop := s.seustUp = true ∧ f ≤ 256 ∧ tag < 4096 ∧ s.outstanding f tag = false
    let again (s : State) : Prop := s.seustUp = true ∧ f ≤ 256 ∧ tag < 4096 ∧ s.outstanding f tag = true
    let unheard (s : State) : Prop := s.seustUp = false ∨ 256 < f ∨ 4096 ≤ tag
    let one (s : State) : State := s.oweSeust f 1
    let many (s : State) : State := s.oweSeust f (requestFlits data.length)
    let dev := if f = 0 then vd else f - 1
    let able (n : Nat) (s : State) : Prop := taken s ∧ spaceMalformed f vd a.toNat n = false ∧ (s.vd dev).trEn = true
    let refused (n : Nat) (s : State) : Prop := taken s ∧ spaceMalformed f vd a.toNat n = true
    let off (n : Nat) (s : State) : Prop := taken s ∧ spaceMalformed f vd a.toNat n = false ∧ (s.vd dev).trEn = false
    (Moves (.mrd f tag a) (fun s => taken s ∧ windowRefusal f a.toNat = none)
       (fun s => (one s).ack f tag 0 (leBytes 8 ((one s).windowRead a.toNat).toNat)) ∧
     Moves (.mrd f tag a) (fun s => taken s ∧ windowRefusal f a.toNat = some e) (fun s => (one s).ack f tag e []) ∧
     Moves (.mrd f tag a) again (fun s => (one s).ack f tag 3 []) ∧
     Moves (.mwr f tag a v) (fun s => taken s ∧ windowRefusal f a.toNat = none)
       (fun s => ((one s).windowWrite a.toNat v).ack f tag 0 []) ∧
     Moves (.mwr f tag a v) (fun s => taken s ∧ windowRefusal f a.toNat = some e) (fun s => (one s).ack f tag e []) ∧
     Moves (.mwr f tag a v) again (fun s => (one s).ack f tag 3 []) ∧
     Moves (.hrd f tag vd a len) (fun s => able len s ∧ (one s).mReadExtent dev a.toNat len .hostRead = .ok (b, t))
       (fun _ => t.ack f tag 0 b) ∧
     (∀ x, Moves (.hrd f tag vd a len) (fun s => able len s ∧ (one s).mReadExtent dev a.toNat len .hostRead = .error x)
       (fun s => (one s).ack f tag 2 [])) ∧
     Moves (.hrd f tag vd a len) (refused len) (fun s => (one s).ack f tag 3 []) ∧
     Moves (.hrd f tag vd a len) (off len) (fun s => (one s).ack f tag 2 []) ∧
     Moves (.hrd f tag vd a len) again (fun s => (one s).ack f tag 3 []) ∧
     Moves (.hwr f tag vd a data) (fun s => able data.length s ∧ (many s).mWriteExtent dev a.toNat data .hostWrite = .ok t)
       (fun _ => t.ack f tag 0 []) ∧
     (∀ x, Moves (.hwr f tag vd a data) (fun s => able data.length s ∧ (many s).mWriteExtent dev a.toNat data .hostWrite = .error x)
       (fun s => (many s).ack f tag 2 [])) ∧
     Moves (.hwr f tag vd a data) (refused data.length) (fun s => (many s).ack f tag 3 []) ∧
     Moves (.hwr f tag vd a data) (off data.length) (fun s => (many s).ack f tag 2 []) ∧
     Moves (.hwr f tag vd a data) again (fun s => (many s).ack f tag 3 []) ∧
     Rests (.mrd f tag a) unheard ∧ Rests (.mwr f tag a v) unheard ∧ Rests (.hrd f tag vd a len) unheard ∧
     Rests (.hwr f tag vd a data) unheard) ∧
    (let func := fld header.toNat 57 49
     let name := fld header.toNat 48 37
     let heard (s : State) : Prop := s.seustUp = true ∧ func ≤ 256
     let bad (s : State) : Prop := seustMalformed header.toNat = true ∨ s.outstanding func name = true
     Moves (.seustMalformedPacket true header len) (fun s => heard s ∧ bad s) (fun s => (s.oweSeust func len).ack func name 3 []) ∧
     (∀ readable, Rests (.seustMalformedPacket readable header len) (fun s => ¬ heard s ∨ ¬ bad s ∨ readable = false))) ∧
    Moves .seustLinkUp (fun s => 6 ≤ s.bootStep)
      (fun s => { s with seustUp := true, seustRetraining := false, out := s.ints.reverse ++ s.out, ints := [] }) ∧
    Rests .seustLinkUp (fun s => s.bootStep < 6) ∧
    Moves .seustLinkRetrain (fun s => s.seustUp = true) (fun s => { s with seustUp := false, seustRetraining := true }) ∧
    Rests .seustLinkRetrain (fun s => s.seustUp = false) ∧
    Moves .seustRetrainTimeout (fun _ => True) (fun s => { s with seustRetraining := false }) ∧
    Moves (.linkReplay p) (fun _ => p < 36) (fun s => s.setPort p { s.port p with replay := min 4294967295 ((s.port p).replay + 1) }) ∧
    Moves (.portRetrain p) (fun s => (s.port p).up = true) (fun s => s.setPort p { s.port p with up := false, retraining := true }) ∧
    Rests (.portRetrain p) (fun s => (s.port p).up = false) ∧
    Moves (.linkRetrainTimeout p) (fun s => (s.port p).retraining = true)
      (fun s => (s.setPort p { s.port p with up := false, retraining := false }).reroute p) ∧
    Rests (.linkRetrainTimeout p) (fun s => (s.port p).retraining = false) ∧
    Moves (.quijaLinkUp p) (fun s => p < 36 ∧ s.qen = true ∧ (s.port p).en = true)
      (fun s => (s.setPort p { s.port p with up := true, retraining := false }).rerouteAll
        ((List.range 36).filter fun q => !(s.port q).retraining)) ∧
    Rests (.quijaLinkUp p) (fun s => s.qen = false ∨ (s.port p).en = false)) ∧
  (∀ (s : State) (p q : Nat), s.portUp p = false →
    (∀ (v n : Nat) (m : Comm), (s.vds.lookup v).bind (·.comms.lookup n) = some m →
      ((s.reroute p).vds.lookup v).bind (·.comms.lookup n) =
        some { m with owed := m.owed.map fun o => (if o.1 = [p] then portsOf m.mask else o.1, o.2) }) ∧
    (((s.parts.find? fun e => e.2.ports.contains p).bind fun e => e.2.ports.find? s.portUp) = some q →
      ((s.reroute p).port p).sysWait = [] ∧ ((s.reroute p).port q).sysWait = (s.port q).sysWait ++ (s.port p).sysWait) ∧
    (((s.parts.find? fun e => e.2.ports.contains p).bind fun e => e.2.ports.find? s.portUp) = none → (s.reroute p).ports = s.ports)) ∧
  (∀ (s : State) (p : Nat), s.portUp p = true → s.reroute p = s) ∧
  (∀ (s : State) (ps : List Nat), s.rerouteAll ps = ps.foldl State.reroute s) ∧
  (∀ f off : Nat, windowRefusal f off = none ↔ off % 8 = 0 ∧ (f = 0 ∨ off / 4096 = 512 + (f - 1))) ∧
  (∀ (s : State) (f tag : Nat),
    let acks (l : List Output) : List Output := l.filterMap fun o => match o with
      | .ack f t st d _ => some (.ack f t st d 0)
      | _ => none
    (s.seustUp = true → s.newCycle.acks = [] ∧ acks s.newCycle.out.reverse = acks s.out.reverse ++ acks s.acks) ∧
    (s.seustUp = false → s.newCycle.acks = s.acks) ∧
    (s.outstanding f tag = true ↔ ∃ st d n, Output.ack f tag st d n ∈ s.acks)) ∧
  (∀ h : Nat,
    let kind := fld h 63 60
    let len := fld h 36 24
    seustMalformed h = true ↔ 4 ≤ kind ∨ 256 < fld h 57 49 ∨ fld h 15 0 ≠ 0 ∨
      (kind ≤ 1 ∧ (len ≠ 8 ∨ fld h 23 16 ≠ 0)) ∨
      (2 ≤ kind ∧ (len < 16 ∨ 4096 < len ∨ len % 16 ≠ 0 ∨ fld h 23 16 ≠ 0 ∧ fld h 57 49 ≠ 0)))

/-- R191, R195: a tick of the Governor brings a core's next cycle. A bundle that could issue in it starts, and its weight is charged,
where the charges of the 64 cycles up to this one, those of a wave that goes before it, and its own weight do not pass the limit, or where
the Governor is off; else the core freezes: nothing issues, the schedule counter stands still, sr.freeze counts the cycle, and the
bundle stays ready since the first such cycle. -/
def Obligations.GovernorTickChargesOrFreezes : Prop :=
  ∀ (s u : State) (c : Nat) (ws : List Word),
    let n : State := ({ s with mark := .ok } : State).newCycle
    let k := n.core c
    let is := ws.filterMap decoded
    let w := (is.map weight).sum
    let t : State := { s with agenda := .core c :: s.agenda, mark := .ok }
    let limit := if n.throt then max (n.govLimit.toNat / 2) 256 else n.govLimit.toNat
    let charged := ((k.charges.filter fun e => k.wall < e.1 + 64).map (·.2)).sum
    let starts : Prop := n.govEn = false ∨ charged + (k.olderWave + w) ≤ limit
    let v := u.afterIssue c k.pc ws.length is w
    let after (m : Mark) (x : State) : State := { x.countCycle c m with mark := m, bun := Bundle.reset, turn := c }
    let started := after .ok ((v.setCore c { v.core c with trail := [], loopTrail := [] }).schedHeld c)
    let froze := after (.freeze []) (n.setCore c { k with readyAt := some (k.readyAt.getD (k.wall, w)) })
    exec (.governorTick c) s = .next t ∧
    (k.mode = .running → k.flen = 1 → k.barrier = none → n.holdsCore c = false → (n.job c).fetchBundle c k.pc = some ws →
      ({ n with turn := c } : State).tryIssue k.pc (ws.map decoded) (ws.filterMap named) = .ok u →
      (starts → step t = .next started ∧
        ((v.core c).charges = ((u.core c).wall, w) :: (u.core c).charges.filter fun e => (u.core c).wall < e.1 + 64)) ∧
      (¬ starts → step t = .next froze ∧
        (froze.core c).freeze = k.freeze + 1 ∧ (froze.core c).sched = k.sched ∧ (froze.core c).pc = k.pc ∧
        (froze.core c).wall = k.wall + 1))

/-- R443, R488, R489: what each temperature does: above 105 °C the limit in force is halved, down to 256; at 115 °C every core and
Millstone, the Flume and the Windlass are held too, and a member refuses PREPARE with reason 2; below 100 °C a hold ends, and at 105 °C
the throttle; a hold of 10 ms fails the device. ALERT_N is asserted while a throttle or a hold is in force. That a hold stops the Flume
and the Windlass is read from R445 by inference (log 37, DEDUCED). -/
def Obligations.TemperatureEvents : Prop :=
  ∀ (s : State) (tj : BitVec 16),
    let c (n : Nat) : Nat := 16 * n
    let read : State := { s with tj := tj, mark := .ok }
    (c 105 < tj.toNat → tj.toNat < c 115 → ∃ t, exec (.thermalThrottle tj) s = .next t ∧ t = { read with throt := true } ∧
      t.governorLimit = max (s.govLimit.toNat / 2) 256 ∧ t.alert = true) ∧
    (c 115 ≤ tj.toNat → tj.toNat < c 125 → ∃ t, exec (.thermalHold tj) s = .next t ∧ t = { read with throt := true, hold := true, holds := true, fresh := .holds :: s.fresh } ∧
      (∀ n, t.holdsCore n = true ∧ t.holdsMill n = true ∧ t.holdsFlume n = true ∧ t.windlassRuns n = false) ∧ t.alert = true ∧
      ∀ g : Gang, t.refusal g = some 2) ∧
    (tj.toNat < c 100 → ∃ t, exec (.thermalHoldEnd tj) s = .next t ∧ t = { read with throt := false, hold := false } ∧
      t.governorLimit = s.govLimit.toNat ∧ t.alert = false) ∧
    (tj.toNat ≤ c 105 → ∃ t, exec (.thermalThrottleEnd tj) s = .next t ∧
      t = { read with throt := false, hold := s.hold && c 100 ≤ tj.toNat } ∧ t.governorLimit = s.govLimit.toNat ∧
      t.alert = (s.hold && c 100 ≤ tj.toNat)) ∧
    (s.hold = true → exec .thermalHoldTimeout s = .next { s.deviceFails with mark := .ok }) ∧
    (s.hold = false → exec .thermalHoldTimeout s = .next { s with mark := .ok })

/-- R8, R14, R480, R487-R490: the resets end every launch without a record and leave every register, SRAM and key slot as after reset; a
thermal trip and the loss of PWROK take the power away, and device memory with it; with PWROK asserted and RST_N released the seven steps
of bring-up make the device ready again. That a device reset and RST_N leave the bytes of device memory is read from R480 by inference
(log 36, DEDUCED). -/
def Obligations.ResetsAndBringUp : Prop :=
  (∀ s : State,
    let gone (t : State) : Prop := t.cores = [] ∧ t.gmem = [] ∧ t.granules = [] ∧ t.launches = [] ∧ t.vds = [] ∧ t.parts = [] ∧
      t.gangs = [] ∧ t.held = [] ∧ t.tlb = [] ∧ t.ready = false ∧ t.seustUp = false ∧ t.bootStep = 0 ∧
      t.out = s.out ∧ (∀ n, (t.slot n).state = 0) ∧ t.windowRead 0x10 = 0
    let cleared : State := { State.reset with
      agenda := s.agenda, turn := s.turn, out := s.out, now := s.now, draws := s.draws, useTlb := s.useTlb, colds := s.colds,
      pmem := s.pmem, lines := s.lines, pwrok := s.pwrok, powered := s.powered, rst := s.rst, thermtrip := s.thermtrip, mark := .ok }
    let lost : State := { cleared with pmem := [], lines := [], colds := s.colds + 1, powered := false }
    let ends (i : Instr) (boot : Nat) (t : State) : Prop := exec i s = .next t ∧ gone t ∧ t.nextBoot = boot
    ends .deviceReset 2 { cleared with warm := true } ∧
    ends .rstNAssert 1 { cleared with rst := true } ∧
    ends .thermtrip 1 { lost with thermtrip := true } ∧
    ends .pwrokDeassert 1 { lost with pwrok := false }) ∧
  (∀ (s : State) (ok : Bool), s.pwrok = false ∨ s.powered = false ∨ s.rst = true →
    exec (.bringUp ok) s = .next { s with mark := .ok }) ∧
  (∀ s : State, s.ready = false → s.bootFail = false → s.pwrok = true → s.powered = true → s.rst = false →
    (∃ t, exec (.bringUp false) s = .next t ∧ t.bootFail = true ∧ t.bootStep = s.bootStep ∧ t.ready = false ∧
      ∀ ok, ∃ u, exec (.bringUp ok) t = .next u ∧ u.bootStep = s.bootStep ∧ u.ready = false) ∧
    ∃ t, exec (.bringUp true) s = .next t ∧ t.bootStep = s.nextBoot ∧ t.warm = false ∧ t.pmem = s.pmem ∧
      (s.nextBoot = 3 → t.gmem = [] ∧ t.granules = [] ∧ t.cores = []) ∧
      (s.nextBoot = 5 → (t.slot 0).state = 1 ∧ ∀ n, n ≠ 0 → (t.slot n).state = 0) ∧
      (s.nextBoot = 6 → t.seustUp = true) ∧ (t.ready = true ↔ s.nextBoot = 7))

/-! ### Events of the Sluice and the Windlass -/

/-- R361-R393, R409: a doorbell write moves a tail or is refused; the next record of a queue is read, checked and entered; a launch with a
failed predecessor is skipped; banks are loaded and dropped; a chosen launch starts on idle clusters; idle cores take new items and
resume suspended ones; a launch completes; interrupts are coalesced.
R371, R378: what a new item finds: the pool entry written, and on each core of its flight the entry's program counter, the item, the
launch's first scalars, and nothing of an earlier continuation.
R323, R351, R368: a wave phase completes once each core of its instance has arrived and is quiet.
That wave phases are performed as an item starts (log 42, DEDUCED), that a queue rests while translation is off (log 44, DEDUCED), which
launch of a partition is chosen and stands (log 56, DEDUCED), and that held stores of several cores settle core after core (log 80, DESIGN
CHOICE), are the model's readings and choices. -/
def Obligations.SluiceEvents : Prop :=
  ((∀ (v l c e w : Nat) (q : Fin 64) (tail : Word) (a x : DWord) (b r : List Byte) (t u : State),
     let vd (s : State) : VDev := s.vd v
     let entry (s : State) : Nat := (Map.get 0 (vd s).qcfgBase q).toNat * 4096 + ((vd s).qHead q).toNat % (vd s).queueSize q * 8
     let noted (s : State) : VDev := { vd s with dbellTail := Map.put (vd s).dbellTail q tail }
     let y (s : State) : Launch := s.launch l
     Moves (.kick v q tail) (fun s => (vd s).kickRefused q tail = true) (fun s => (s.setVd v { vd s with qovf := true }).w1cSet (.qovf v)) ∧
     Moves (.kick v q tail) (fun s => (vd s).kickRefused q tail = false ∧ (noted s).scheduled = true) (fun s => s.setVd v (noted s)) ∧
     Moves (.kick v q tail) (fun s => (vd s).kickRefused q tail = false ∧ (noted s).scheduled = false)
       (fun s => s.setVd v { noted s with pend := (vd s).pend ||| (1#64 <<< q.val) }) ∧
     Moves (.launchRecordFetch v q) (fun s => (vd s).mayFetch q = true ∧ s.mReadChecked v (entry s) 8 = .ok (b, t) ∧
         t.mReadChecked v (leNat b) 256 = .ok (r, u)) (fun s =>
       ((u.setVd v ((u.vd v).consume q)).enterRecord
         { Launch.reset with vd := v, queue := q, index := ((vd s).qHead q).toNat, va := leNat b, words := recordWords r }).markReady) ∧
     (∀ x, Moves (.launchRecordFetch v q) (fun s => (vd s).mayFetch q = true ∧ s.mReadChecked v (entry s) 8 = .error x) (fun s =>
       ((s.setVd v ((vd s).consume q)).enter
         { Launch.reset with vd := v, queue := q, index := ((vd s).qHead q).toNat, va := 0, status := 3 }).markReady) ∧
      Moves (.launchRecordFetch v q) (fun s => (vd s).mayFetch q = true ∧ s.mReadChecked v (entry s) 8 = .ok (b, t) ∧
         t.mReadChecked v (leNat b) 256 = .error x) (fun s =>
       ((t.setVd v ((t.vd v).consume q)).enter
         { Launch.reset with vd := v, queue := q, index := ((vd s).qHead q).toNat, va := leNat b, status := 3 }).markReady)) ∧
     Rests (.launchRecordFetch v q) (fun s => (vd s).mayFetch q = false) ∧
     Moves (.launchSkip l) (fun s => (y s).state = .waiting ∧ (y s).status = 0 ∧ (y s).ready.isSome = true ∧ (y s).failedPred = true ∧
         (y s).runf = false) (fun s => s.setLaunch l { y s with status := 2 }) ∧
     Rests (.launchSkip l) (fun s => (y s).failedPred = false ∨ (y s).runf = true) ∧
     Moves (.preload c l) (fun s => (s.cluster c).standby = none ∧ s.waiting.contains l = true ∧
         (s.vdPart (y s).vd).clusters.contains c = true ∧ (y s).ready.isSome = true ∧ s.resident c (y s) = none)
       (fun s => s.preloadBank c (y s) (some l)) ∧
     Rests (.preload c l) (fun s => (s.cluster c).standby ≠ none) ∧
     Moves (.hint v a) (fun _ => True) (fun s => s.setVd v { vd s with hint := some a.toNat }) ∧
     Moves (.lstatInv v) (fun _ => True) (fun s => { s with clusters := s.clusters.map fun (i, k) =>
       (i, { k with active := k.active.filter fun z => !(z.vd = v : Bool), standby := k.standby.filter fun z => !(z.vd = v : Bool) }) }) ∧
     Moves (.launchComplete l) (fun s => (y s).state = .waiting ∧ (y s).status ≠ 0 ∧ s.eligible l = true ∧ Map.has s.launches l = true)
       (fun s => s.finish l) ∧
     Moves (.launchComplete l) (fun s => (y s).state = .running ∧ s.ended l = true ∧ s.settleFirst (y s).vd 4 (y s).cores = none)
       (fun s => ((s.settle (y s).vd 4 (y s).cores).finish l).answerGang (s.vd (y s).vd).gid) ∧
     Moves (.launchComplete l) (fun s => (y s).state = .running ∧ s.ended l = true ∧ s.settleFirst (y s).vd 4 (y s).cores = some t)
       (fun _ => t) ∧
     Moves (.launchComplete l) (fun s => (y s).state = .ending ∧ (y s).status = 1) (fun s => s.finish l) ∧
     Moves (.launchComplete l) (fun s => (y s).state = .ending ∧ (y s).status ≠ 1 ∧ s.coresOn l = [] ∧
         s.granulesOk (s.vd (y s).vd).gid (s.endGranules l) = true)
       (fun s => (s.takeAll (s.vd (y s).vd).gid (s.endGranules l)).endLaunch l) ∧
     Moves (.launchComplete l) (fun s => (y s).state = .ending ∧ (y s).status ≠ 1 ∧ s.coresOn l = [] ∧
         s.granulesOk (s.vd (y s).vd).gid (s.endGranules l) = false)
       (fun s => s.want (s.vd (y s).vd).gid (s.endGranules l)) ∧
     Rests (.launchComplete l) (fun s => (y s).state = .complete ∨ (y s).state = .running ∧ s.ended l = false) ∧
     Moves (.ccfgWrite v x) (fun _ => True) (fun s => s.setVd v { vd s with
       ie := x.getLsbD 16, win := x.extractLsb' 0 16, window := (vd s).window && x.getLsbD 16 }) ∧
     (let shut (s : State) : State := s.setVd v { vd s with window := false, windowFq := false }
      let fq (s : State) : DWord := (vd s).fqTail.zeroExtend 64
      Moves (.coalesceWindowClose v) (fun s => (vd s).window = true ∧ (vd s).windowFq = false) (fun s => (shut s).sendInt v 0 (vd s).cseq) ∧
      Moves (.coalesceWindowClose v) (fun s => (vd s).window = false ∧ (vd s).windowFq = true) (fun s => (shut s).sendInt v 1 (fq s)) ∧
      Moves (.coalesceWindowClose v) (fun s => (vd s).window = true ∧ (vd s).windowFq = true)
        (fun s => ((shut s).sendInt v 0 (vd s).cseq).sendInt v 1 (fq s))) ∧
     (∀ grant : List Nat, Moves (.launchStart l grant) (fun s =>
         let t := s.choose (s.vd (y s).vd).part
         (y s).state ≠ .discarded ∧ t.standing (s.vd (y s).vd).part = some l ∧ t.grantOk (t.launch l) (sortNats grant) = true ∧ t.twinRuns (t.launch l) = false)
       (fun s =>
         let p := (s.vd (y s).vd).part
         let t := s.choose p
         { t with parts := Map.put t.parts p { Map.get Part.reset t.parts p with granted := none } }.startOn l (sortNats grant)) ∧
       Moves (.launchStart l grant) (fun s => (y s).state = .discarded ∧ s.mayRestart l = true) (fun s => s.restartLaunch l) ∧
       Rests (.launchStart l grant) (fun s => (y s).state = .discarded ∧ (s.vd (y s).vd).dispatches = false)) ∧
     (let may (s : State) : Prop := (s.core c).job = some l ∧ s.idleCrew l c = true ∧ s.preferred (y s) c = false ∧
        s.lowestItem (y s) c w = true ∧ e < (y s).cpoolN ∧ Map.has (y s).pool e = false
      let waves (s : State) : Except State State := s.passWaves l w ((y s).wavesFrom c 0 ((y s).groups w) false (y s).cores)
      Moves (.workItemStart c w e) (fun s => may s ∧ waves s = .ok t) (fun _ => t.beginItem l c w e) ∧
      Moves (.workItemStart c w e) (fun s => may s ∧ waves s = .error t) (fun _ => t)) ∧
     Rests (.workItemStart c w e) (fun s => (s.core c).job = none) ∧
     Moves (.continuationResume c e) (fun s => (s.core c).job = some l ∧ s.idleCrew l c = true ∧ s.lowestReady (y s) c e = true ∧
         s.poolRead (y s).vd ((y s).entryVa e) = .ok (b, t) ∧ poolMalformed b = false ∧
         t.poolWrite (y s).vd ((y s).entryVa e) (poolState b 1) = .ok u)
       (fun s => (u.setLaunch l ((u.launch l).take e c)).board (y s) c e (leNat (b.take 8) % 2 ^ 48) (Map.get 0 (y s).pool e)
         (wordsOf (b.drop 16))) ∧
     Moves (.continuationResume c e) (fun s => (s.core c).job = some l ∧ s.idleCrew l c = true ∧ s.lowestReady (y s) c e = true ∧
         s.poolRead (y s).vd ((y s).entryVa e) = .ok (b, t) ∧ poolMalformed b = true)
       (fun s => t.takeFault c { cls := 15, addr := (y s).entryVa e }) ∧
     Rests (.continuationResume c e) (fun s => (s.core c).job = none))) ∧
  (∀ (s t : State) (l w : Nat) (a : WaveAt) (cs : List Nat),
     let x := s.launch l
     let key := x.waveKey w a cs
     let there (c : Nat) : Prop := s.quietCore c = true ∧
       ((∃ b, (s.core c).barrier = some b ∧ b.kind = 0 ∧ b.scope = a.g.scope) ∨
        ((s.core c).barrier = none ∧ (s.core c).mode = .idle ∧ s.leftOn l c = false))
     let ripe : Prop := x.wavePhases.contains key = false ∧ s.taken l = false ∧ (∀ c ∈ cs, there c) ∧ s.settleFirst x.vd a.g.scope cs = none
     (x.wavePhases.contains key = true → s.wavePhase l w a cs = .ok s) ∧
     (x.wavePhases.contains key = false → (s.taken l = true ∨ ∃ c ∈ cs, ¬ there c) → s.wavePhase l w a cs = .error s) ∧
     (ripe → s.gangGate x.vd { lid := s.gangLid l, kind := 0, scope := a.g.scope } = .wait t → s.wavePhase l w a cs = .error t) ∧
     (ripe → s.gangGate x.vd { lid := s.gangLid l, kind := 0, scope := a.g.scope } = .complete t →
       let u := (t.settle x.vd a.g.scope cs).leavePhase cs
       s.wavePhase l w a cs = .ok (u.setLaunch l { u.launch l with wavePhases := key :: (u.launch l).wavePhases }))) ∧
  (∀ (s : State) (x : Launch) (c e pc w i : Nat) (cs : List Word), x.flightLen = 1 →
     let t := s.board x c e pc w cs
     let k := t.core c
     k.mode = .running ∧ k.entry = e ∧ k.pc = pc ∧ k.widx = w ∧ k.fpos = 0 ∧ k.flen = 1 ∧ k.planes = [] ∧ k.tiles = [] ∧ k.preds = [] ∧
     k.loops = [] ∧ k.depth = 0 ∧ k.inflight = [] ∧ k.gq = [] ∧ k.mq = [] ∧ k.handles = (s.core c).handles ∧ k.flume = (s.core c).flume ∧
     (i < cs.length → i < 12 → k.rd (i + 1) = cs.getD i 0) ∧ (∀ d, d ≠ c → t.core d = s.core d) ∧ t.gmem = s.gmem ∧ t.pmem = s.pmem)

/-- R342-R346, R411, R413, R471, R482-R485: the first operation of a communicator starts once its descriptor is read and good, and a barrier
then owes one chunk on each of its links to each other rank; a port's chosen communicator sends a chunk where the receiver's quota has
room, in alternation with the system class, and the credits due at the port ride in its flits that are not the first of a packet; an
operation completes when its parts have arrived, fails where a peer's differs, and a fault of its writes is its own. Of arriving flits the
malformed ones are dropped and counted, the others bring their credits, and a packet that they make whole is for the peer's mirror, captured,
delivered, or goes no further.
R343: an integer sum is the fold of the ranks' values in ascending order, and the sum of one rank is that rank's value. That every rank
sends to every other directly (log 16, DESIGN CHOICE), how a failure is told and that a returned credit names its communicator (log 65,
DESIGN CHOICE), what a packet carries beside its flits and that one of which a flit is missing is lost (log 1, DESIGN CHOICE), and the form of
a mirror's packets (log 67, DESIGN CHOICE), are the model's choices. -/
def Obligations.WindlassEvents : Prop :=
  (∀ (v n port q i : Nat) (m : Comm) (o : WOp) (g : Gang) (p : Packet) (flits : List Flit) (note : PacketNote),
     let has (s : State) : Prop := (s.vd v).comms.lookup n = some m ∧ m.queue.head? = some o
     let runs (s : State) : Prop := s.windlassRuns v = true
     let starts (s : State) : Prop := has s ∧ o.started = false ∧ o.held = 0 ∧ runs s ∧ (s.launch o.launch).state = .running
     let put (m' : Comm) (s : State) : State := s.setVd v { s.vd v with comms := Map.put (s.vd v).comms n m' }
     let first (o' : WOp) : Comm := { m with queue := o' :: m.queue.tail }
     let live (s : State) : Prop := s.portUp port = true
     let opened (src : List Byte) (s : State) : State :=
       (put { first { o with started := true, head := some o.headOf, source := src } with owed := m.owed ++ s.barPackets v n m o } s).returnCredits
         v n (· = o.index)
     Moves (.windlassOpStart v n) (fun s => starts s ∧ m.failed = true) (fun s => s.failOp v n m o 0) ∧
     Moves (.windlassOpStart v n) (fun s => starts s ∧ m.failed = false ∧ o.bar = true) (opened []) ∧
     Moves (.windlassOpStart v n) (fun s => starts s ∧ m.failed = false ∧ o.bar = false) (fun s => s.readOp v n m o) ∧
     (∀ s : State, let src := o.srcAccs m.rank m.size
       let dst := o.dstAccs m.size
       let gs := s.engineGranules o.core (src ++ dst)
       s.extentCheck o.core src dst = none → s.awaitsStores o src = false → s.granulesOk (s.vd v).gid gs = true →
       let t := (((s.takeAll (s.vd v).gid gs).engineNote v .read (pagesOf src)).chargeLines v (mLines src)).engineNote v .write (pagesOf dst)
       t.gmem = s.gmem ∧ s.runOp v n m o = opened (src.flatMap (t.engineRead o.core)) t) ∧
     Rests (.windlassOpStart v n) (fun s => (s.vd v).comms.lookup n = none) ∧
     (∀ s : State, (∀ e ∈ s.barPackets v n m o, o.bar = true ∧ e.2.payload = [] ∧ ∃ link, e.1 = [link] ∧ m.mask.testBit link = true) ∧
       (o.bar = true → (s.barPackets v n m o).length = ((List.range 36).filter m.mask.testBit).length * m.peers.length)) ∧
     (∀ s : State, (∀ e ∈ m.owed, e.1.contains port = false) → m.queue.head? = some o → o.started = true → o.held = 0 →
       m.mask.testBit port = true → (o.plan m)[o.sent]? = some (q, i) →
         s.nextChunk port v n m = some (s.packets v n m o q i, first { o with sent := o.sent + 1 })) ∧
     (∀ (s : State) (l : List Nat), m.owed.find? (·.1.contains port) = some (l, p) →
       s.nextChunk port v n m = some ([p], { m with owed := m.owed.erase (l, p) })) ∧
     (∀ ps y, Moves (.windlassChunkStart port v n) (fun s => s.sysDue port = false ∧ (s.vd v).comms.lookup n = some m ∧
         s.gangOf v = some g ∧ live s ∧ s.wantsPort port v n m = true ∧ s.portChoice port (32 * v + n) m.prio = true ∧
         s.nextChunk port v n m = some (ps, y)) (fun s =>
       let t := put { y with used := Map.modify 0 m.used port (· + (ps.map packetFlits).sum) } s
       let u := t.setGang (s.vd v).gid (g.countSent (n % 15) ps.length)
       let c := if (s.vd v).qRate = 0 then u else u.setVd v ((u.vd v).chargeFlits port ps)
       (c.setPort port { c.port port with served := 32 * v + n, sysLast := false }).emit port ps)) ∧
     (∀ ps rest, Moves (.windlassChunkStart port v n) (fun s => s.sysDue port = true ∧ (s.port port).sysWait = ps :: rest) (fun s =>
       (s.setPort port { s.port port with
         sysWait := rest, sysUsed := (s.port port).sysUsed + (ps.map packetFlits).sum, sysLast := true }).emit port ps)) ∧
     (∀ (s : State) (ps : List Packet),
       let due := (s.port port).creditsDue
       let room := (ps.map fun x => packetFlits x - 1).sum
       ∃ sent : List Packet, (s.emit port ps).out = (sent.map (Output.packet port)).reverse ++ s.out ∧
         sent.map (fun x => { x with credits := [] }) = ps.map (fun x => { x with credits := [] }) ∧
         sent.flatMap (·.credits) = due.take room ∧ ((s.emit port ps).port port).creditsDue = due.drop room) ∧
     Rests (.windlassChunkStart port v n) (fun s => ¬ live s) ∧
     (let gs (s : State) : List Nat := s.engineGranules o.core (o.dstAccs m.size ++ if o.bar then [] else [recAcc o.ptr.toNat 0 8])
      Moves (.windlassOpComplete v n) (fun s => has s ∧ o.started = true ∧ o.held = 0 ∧ runs s ∧ (s.launch o.launch).state = .running ∧
          m.disagrees o = false ∧ (o.plan m).length ≤ o.sent ∧ m.arrived o = true ∧ s.finishFault v m o = none ∧
          s.granulesOk (s.vd v).gid (gs s) = true) (fun s => (s.takeAll (s.vd v).gid (gs s)).completeOp v n m o)) ∧
     Rests (.windlassOpComplete v n) (fun s => (s.vd v).comms.lookup n = none) ∧
     (let ready (s : State) : Prop := has s ∧ o.started = true ∧ o.held = 0 ∧ runs s ∧ (s.launch o.launch).state = .running
      Moves (.windlassOpComplete v n) (fun s => ready s ∧ m.disagrees o = true ∧ o.bar = true) (fun s => s.failOp v n m o 0) ∧
      Moves (.windlassOpComplete v n) (fun s => ready s ∧ m.disagrees o = true ∧ o.bar = false) (fun s => s.statOp v n m o 2) ∧
      (∀ x, Moves (.windlassOpComplete v n) (fun s => ready s ∧ m.disagrees o = false ∧ (o.plan m).length ≤ o.sent ∧ m.arrived o = true ∧
         s.finishFault v m o = some x) (fun s => s.faultOp v n m o x)) ∧
      (m.disagrees o = true ↔ ∃ x ∈ m.parts, x.index = o.index ∧ x.head ≠ o.headOf)) ∧
     (let bad : Nat := (flits.filter frameMalformed).length
      let taken (s : State) : State :=
        (if bad = 0 then s else s.setPort port { s.port port with drop := min 65535 ((s.port port).drop + bad) }).takeCredits port
          (creditsOf flits note.owners)
      let whole (s : State) : Prop := live s ∧ packetFrom flits note = some p
      let mine (s : State) : Prop := whole s ∧ s.gangs.lookup p.gang = some g ∧ p.comm ≠ 32 ∧ p.dst = s.devnum.toNat ∧ g.retired = false
      Moves (.quijaPacketReceive port { flits := flits, note := note }) (fun s => mine s ∧ (g.countReceived p.vc).captures = true)
        (fun s => ((taken s).capture p.gang (g.countReceived p.vc) p).consumed (some port) p) ∧
      Moves (.quijaPacketReceive port { flits := flits, note := note }) (fun s => mine s ∧ (g.countReceived p.vc).captures = false)
        (fun s => ((taken s).setGang p.gang (g.countReceived p.vc)).deliver (some port) (g.countReceived p.vc) p) ∧
      Moves (.quijaPacketReceive port { flits := flits, note := note }) (fun s => whole s ∧ p.comm = 32 ∧ p.dst = s.devnum.toNat)
        (fun s => ((taken s).storeMirror p).consumed (some port) p) ∧
      Moves (.quijaPacketReceive port { flits := flits, note := note }) (fun s => whole s ∧ (p.dst ≠ s.devnum.toNat ∨
          p.comm ≠ 32 ∧ (s.gangs.lookup p.gang = none ∨ s.gangs.lookup p.gang = some g ∧ g.retired = true)))
        (fun s => (taken s).consumed (some port) p) ∧
      Moves (.quijaPacketReceive port { flits := flits, note := note }) (fun s => live s ∧ packetFrom flits note = none) taken ∧
      Rests (.quijaPacketReceive port { flits := flits, note := note }) (fun s => ¬ live s))) ∧
  (∀ f : Flit,
    let w := f.frame.toNat
    (w.testBit 59 = true → (frameMalformed f = true ↔ 32 < fld w 57 52 ∨ 4096 < fld w 29 17 ∨ w.testBit 0 = true)) ∧
    (w.testBit 59 = false → (frameMalformed f = true ↔ fld w 57 52 ≠ 0 ∨ fld w 31 0 ≠ 0))) ∧
  ((∀ (dt : Nat) (x : Nat) (xs : List Nat), 2 ≤ dt →
     reduceElem 0 dt (x :: xs) = xs.foldl (fun a b => (a + b) % 2 ^ 32) x) ∧
   (∀ (xs : List Nat), (∀ x ∈ xs, x < 2 ^ 32) → xs ≠ [] → reduceElem 0 2 xs = xs.sum % 2 ^ 32 ∧ reduceElem 2 3 xs = xs.foldl max 0) ∧
   (∀ (x y : Nat), reduceElem 0 0 [x, y] = addRne x y) ∧
   (∀ x : BitVec 32, reduceElem 1 2 [x.toNat] = x.toNat ∧ reduceElem 2 2 [x.toNat, x.toNat] = x.toNat))

/-! ### Partitions and gangs -/

/-- R394-R406, R408, R416, R418-R421: each command of the partition control block does what it says where its arguments are good, and ends
with code 0; where one of the checks named here fails, it ends with that check's code and changes nothing else, but that a quantum
below 100 is raised to 100 with code 6. Read by inference are that BFILLW takes any gang id (log 39, DEDUCED), and that VDCREATE sets every
register of the virtual device to its reset value, gives it the gang of one numbered 65,536 + vd, and does without a save area where its
argument is 0 (log 40, DEDUCED), and that a member list in granules of another partition is refused (log 68, DEDUCED); that VDDESTROY frees
that gang's granules (log 75, DESIGN CHOICE), how a gang takes a mirror as it joins (log 67, DESIGN CHOICE), and the codes of a PCREATE of a
partition that exists, of a VDCREATE on a kick page of another, of a GRETIRE of a gang that is not here, and of a VDSTOP of a virtual device
that is stopped or stopping (log 88, DESIGN CHOICE) are the model's choices. -/
def Obligations.PartitionCommands : Prop :=
  ∀ (p : Nat) (x : Cap) (g : Gang) (m : Comm),
    let arg (s : State) (i : Nat) : Nat := (Map.get 0 s.parg i).toNat
    let inArg (s : State) (i hi lo : Nat) : Nat := arg s i / 2 ^ lo % 2 ^ (hi + 1 - lo)
    let free (s : State) : Prop := s.pbusy = false ∧ 0 < p ∧ p ≤ 255
    let runs (a b c d : Nat) (s : State) : Prop := free s ∧ Map.has s.parts p = true ∧ s.argsWithin a b c d = true
    let on (s : State) : State := { s with pcmdPart := p }
    let ends (n : Nat) (s : State) : State := { s with pcode := n, pseq := s.pseq + 1, pbusy := false, pwait := none }
    let does (f : State → State) (s : State) : State := ends 0 (f (on s))
    let fails (n : Nat) (s : State) : State := ends n (on s)
    let own (s : State) (v : Nat) : Prop := (s.vd v).part = p
    let cap (s : State) : Prop := caps.find? (·.typ = arg s 0) = some x
    let put (f : Part → Part) (s : State) : State := s.setPart p (f (s.part p))
    let vd (s : State) : Nat := arg s 0
    let busy : State → Prop := fun s => s.pbusy = true
    let gid (s : State) : Nat := inArg s 0 15 0
    let joiner (s : State) : Gang := Gang.new p (inArg s 0 45 38) (inArg s 0 26 16) (s.memberList (arg s 3) (inArg s 0 37 27 + 1))
      (arg s 1) (inArg s 2 11 0) (inArg s 2 27 12) (inArg s 2 43 28) (inArg s 2 59 44)
    let placed (s : State) (key sump : Nat) : Prop := arg s 1 % 2 ^ 21 = 0 ∧ arg s 1 + (s.part p).saveSize sump ≤ 2 ^ 40 ∧
      ownsRange (s.part p) (arg s 1) ((s.part p).saveSize sump) = true ∧ (s.part p).keys.contains key = true
    Moves (.pcreate p) (fun s => free s ∧ Map.has s.parts p = false ∧ s.argsWithin 0 0 0 0 = true) (does fun s => s.setPart p Part.reset) ∧
    Moves (.pcreate p) (runs 0 0 0 0) (fails 3) ∧
    Moves (.pdestroy p) (fun s => runs 0 0 0 0 s ∧ s.vdsOf p = [] ∧ s.gangsOf p = [])
      (does fun s => { s with parts := Map.erase s.parts p }) ∧
    Moves (.pdestroy p) (fun s => runs 0 0 0 0 s ∧ s.vdsOf p ≠ []) (fails 3) ∧
    Moves (.pgrant p) (fun s => runs 0xFF all64 all64 0 s ∧ cap s ∧ x.typ ≠ 7 ∧ x.grantBad (s.part p) (arg s 1) (arg s 2) = false ∧
        s.allotmentShort x (s.part p) (arg s 2) = false ∧ s.unitsFree x.typ (arg s 1) (arg s 2) = true)
      (does fun s => put (fun y => y.grant x.typ (arg s 1) (arg s 2)) s) ∧
    Moves (.pgrant p) (fun s => runs 0xFF all64 all64 0 s ∧ caps.find? (·.typ = arg s 0) = none) (fails 1) ∧
    Moves (.prevoke p) (fun s => runs 0xFF all64 all64 0 s ∧ cap s ∧ x.allotment = false ∧ arg s 2 ≠ 0 ∧ x.first ≤ arg s 1 ∧
        arg s 1 + arg s 2 ≤ x.first + x.count ∧ (∀ i < arg s 2, ((s.part p).units x.typ).contains (arg s 1 + i) = true) ∧
        s.inUse p x.typ (arg s 1) (arg s 2) = false)
      (does fun s => put (fun y => y.revoke x.typ (arg s 1) (arg s 2)) s) ∧
    (let given (s : State) : Prop := runs 0xFF all64 0xFFF 0 s ∧ (s.part p).kickPages.contains (vd s) = true ∧ (s.vd (vd s)).part = 0
     let device (area : Option (Nat × Nat)) (run : Bool) (s : State) : State := s.setVd (vd s)
       { VDev.reset with part := p, gid := 65536 + vd s, kickPage := vd s, saveArea := area, run := run }
     Moves (.vdcreate p) (fun s => given s ∧ arg s 1 = 0) (does (device none false)) ∧
     Moves (.vdcreate p) (fun s => given s ∧ arg s 1 ≠ 0 ∧ placed s (arg s 2) 0 ∧ (s.slot (arg s 2)).state = 1) (does fun s =>
       let g : Gang := { Gang.new p (vd s) 0 [s.devnum.toNat] (arg s 1) (arg s 2) 0 0 0 with vote := .run }
       ((((device (some (arg s 1, arg s 2)) true s).setGang (65536 + vd s) g).clearSpillMap p (arg s 2) (arg s 1)).writeHeader (65536 + vd s))) ∧
     Moves (.vdcreate p) (fun s => given s ∧ arg s 1 ≠ 0 ∧ ¬ placed s (arg s 2) 0) (fails 2) ∧
     Moves (.vdcreate p) (fun s => given s ∧ arg s 1 ≠ 0 ∧ placed s (arg s 2) 0 ∧ (s.slot (arg s 2)).state ≠ 1) (fails 4) ∧
     Moves (.vdcreate p) (fun s => runs 0xFF all64 0xFFF 0 s ∧ (s.part p).kickPages.contains (vd s) = false) (fails 2) ∧
     Moves (.vdcreate p) (fun s => runs 0xFF all64 0xFFF 0 s ∧ (s.part p).kickPages.contains (vd s) = true ∧ (s.vd (vd s)).part ≠ 0)
       (fails 3)) ∧
    Moves (.vdsched p) (fun s => runs 0xFF 0xFF 0xFFFFF 0 s ∧ own s (vd s) ∧ 100 ≤ arg s 2) (does fun s => s.setVd (vd s)
      { s.vd (vd s) with weight := BitVec.ofNat 8 (arg s 1), quant := BitVec.ofNat 20 (arg s 2) }) ∧
    Moves (.vdsched p) (fun s => runs 0xFF 0xFF 0xFFFFF 0 s ∧ own s (vd s) ∧ arg s 2 = 0) (fails 5) ∧
    Moves (.vdsched p) (fun s => runs 0xFF 0xFF 0xFFFFF 0 s ∧ own s (vd s) ∧ 0 < arg s 2 ∧ arg s 2 < 100) (fun s =>
      ends 6 (((on s).setVd (vd s) { s.vd (vd s) with weight := BitVec.ofNat 8 (arg s 1), quant := 100, qRaised := true }).w1cSet (.qRaised (vd s)))) ∧
    Moves (.vddestroy p) (fun s => runs 0xFF 0 0 0 s ∧ own s (vd s) ∧ (s.vd (vd s)).stopped = true ∧ (s.vd (vd s)).joined = false)
      (does fun s => { s.freeTagged (65536 + vd s) with vds := Map.erase s.vds (vd s), gangs := Map.erase s.gangs (65536 + vd s) }) ∧
    Moves (.vddestroy p) (fun s => runs 0xFF 0 0 0 s ∧ own s (vd s) ∧ (s.vd (vd s)).stopped = false) (fails 3) ∧
    Moves (.vdstop p) (fun s => runs 0xFF all64 1 0 s ∧ own s (vd s) ∧ (s.vd (vd s)).stopped = false ∧ (s.vd (vd s)).stopping = false ∧
        arg s 1 + reportSize (s.vd (vd s)).pages ≤ 2 ^ 40 ∧ ownsRange (s.part p) (arg s 1) (reportSize (s.vd (vd s)).pages) = true)
      (fun s => State.resumeStop { (on s).setVd (vd s) { s.vd (vd s) with stopping := true } with
        pbusy := true, pwait := some { vd := vd s, pa := arg s 1, clear := decide (arg s 2 = 1), pages := (s.vd (vd s)).pages } }) ∧
    Moves (.vdstop p) (fun s => runs 0xFF all64 1 0 s ∧ own s (vd s) ∧ ((s.vd (vd s)).stopped = true ∨ (s.vd (vd s)).stopping = true))
      (fails 3) ∧
    (let asked (s : State) : Prop := runs (2 ^ 46 - 1) all64 (2 ^ 60 - 1) all64 s
     let n (s : State) : Nat := inArg s 0 37 27 + 1
     let formed (s : State) : Prop := gid s ≠ 0 ∧ 16 ≤ (joiner s).sumpSize ∧ 10 ≤ (joiner s).pdl ∧ (joiner s).tdrain ≠ 0 ∧
       arg s 3 + 2 * n s ≤ 2 ^ 40
     let idle (s : State) : Prop := (s.vd (joiner s).vd).joined = false ∧ s.vdBusy (joiner s).vd = false ∧
       ∀ e ∈ s.gangs, e.1 = gid s → e.2.retired = true
     let area (s : State) : Prop := placed s (joiner s).key (joiner s).sumpSize
     let loaded (s : State) : Prop := (s.slot (joiner s).key).state = 1
     let room (s : State) : Prop := ((s.gangsOf p).map fun e => e.2.sumpSize).sum + (joiner s).sumpSize ≤ (s.part p).sump
     let foreign (s : State) : Prop := s.foreignRange p (arg s 3) (2 * n s) = true
     let listed (s : State) : Prop := (joiner s).rank < n s ∧ (joiner s).members.getD (joiner s).rank 0 = s.devnum.toNat ∧
       rising (joiner s).members = true
     let ready (s : State) : Prop := asked s ∧ own s (joiner s).vd ∧ formed s ∧ idle s ∧ area s ∧ loaded s
     Moves (.gjoin p) (fun s => ready s ∧ room s ∧ ¬ foreign s ∧ listed s) (does fun s => s.joinGang (joiner s).vd (gid s) (joiner s)) ∧
     Moves (.gjoin p) (fun s => asked s ∧ ¬ own s (joiner s).vd) (fails 2) ∧
     Moves (.gjoin p) (fun s => asked s ∧ own s (joiner s).vd ∧ ¬ formed s) (fails 1) ∧
     Moves (.gjoin p) (fun s => asked s ∧ own s (joiner s).vd ∧ formed s ∧ ¬ idle s) (fails 3) ∧
     Moves (.gjoin p) (fun s => asked s ∧ own s (joiner s).vd ∧ formed s ∧ idle s ∧ ¬ area s) (fails 2) ∧
     Moves (.gjoin p) (fun s => asked s ∧ own s (joiner s).vd ∧ formed s ∧ idle s ∧ area s ∧ ¬ loaded s) (fails 4) ∧
     Moves (.gjoin p) (fun s => ready s ∧ ¬ room s) (fails 4) ∧
     Moves (.gjoin p) (fun s => ready s ∧ room s ∧ foreign s) (fails 2) ∧
     Moves (.gjoin p) (fun s => ready s ∧ room s ∧ ¬ foreign s ∧ ¬ listed s) (fails 1)) ∧
    (let named (s : State) : Prop := runs 0xFFFF 0 0 0 s ∧ s.gangs.lookup (arg s 0) = some g ∧ g.part = p ∧ g.retired = false
     let quiet (s : State) : Prop := (s.vd g.vd).run = false ∧ g.vote ≠ .resuming ∧ (s.part p).names (arg s 0) = false ∧ (s.vd g.vd).comms = []
     Moves (.gretire p) (fun s => named s ∧ quiet s) (does fun s => (((s.setGang (arg s 0) { g with
         retired := true, saved := [], heldOut := [], sump := [], ckpt := none, undo := [], mirroring := false, hostLines := [] }).setVd g.vd
       { s.vd g.vd with gid := 65536 + g.vd, joined := false, saveArea := none }).dropClusters g.vd)) ∧
     Moves (.gretire p) (fun s => named s ∧ ¬ quiet s) (fails 3)) ∧
    Moves (.gretire p) (fun s => runs 0xFFFF 0 0 0 s ∧ s.gangs.lookup (arg s 0) = none) (fails 2) ∧
    Moves (.slotw p) (fun s => runs 0x3F all64 0xFFFFF 0x7F s ∧ 0 < arg s 3 ∧ arg s 3 ≤ 64 ∧
        ∀ n ∈ cellGangs (arg s 1), s.gangIn p n = true)
      (does fun s => put (fun y => { y with
        cells := Map.put y.cells (arg s 0) (cellGangs (arg s 1)), durs := Map.put y.durs (arg s 0) (max 100 (arg s 2)), rows := arg s 3 }) s) ∧
    Moves (.bfillw p) (runs 0xF 0xFFFF 0 0)
      (does fun s => put (fun y =>
        let set (l : Map Nat) : Map Nat := Map.set 0 l (arg s 0) (arg s 1)
        { y with bfill := set y.bfill, rowFill := if s.voting p then y.rowFill else set y.rowFill }) s) ∧
    (let v (s : State) : Nat := inArg s 0 7 0
     let n (s : State) : Nat := inArg s 0 12 8
     let new (s : State) : Comm := { Comm.reset with
       rank := s.rankOf (v s), size := s.gangSize (v s), prio := inArg s 0 15 13, quota := inArg s 0 31 16, mask := arg s 1 }
     Moves (.ccreate p) (fun s => runs 0xFFFFFFFF (2 ^ 36 - 1) 0 0 s ∧ own s (v s) ∧ (new s).quota ≠ 0 ∧ Map.has (s.vd (v s)).comms (n s) = false ∧
         s.commsUsed p < (s.part p).comms.length ∧
         ∀ i < 36, (arg s 1).testBit i = true → (s.part p).ports.contains i = true)
       (does fun s => s.setVd (v s) { s.vd (v s) with comms := Map.put (s.vd (v s)).comms (n s) (new s) }) ∧
     Moves (.cdestroy p) (fun s => runs 0x1FFF 0 0 0 s ∧ own s (v s) ∧ (s.vd (v s)).comms.lookup (n s) = some m ∧ m.queue = [])
       (does fun s => s.setVd (v s) { s.vd (v s) with comms := Map.erase (s.vd (v s)).comms (n s) })) ∧
    (∀ i, i = .pcreate p ∨ i = .pdestroy p ∨ i = .pgrant p ∨ i = .prevoke p ∨ i = .vdcreate p ∨ i = .vdsched p ∨ i = .vddestroy p ∨
      i = .gjoin p ∨ i = .gretire p ∨ i = .slotw p ∨ i = .bfillw p ∨ i = .ccreate p ∨ i = .cdestroy p → Rests i busy)

/-- R394, R399: PCREATE, PDESTROY, PGRANT and PREVOKE keep the partitions' units apart: where no unit of an indexed resource is held by two
partitions before one of these commands, none is after it. -/
def Obligations.UnitsStayExclusive : Prop :=
  ∀ (s t : State) (p k : Nat) (i : Instr), i = .pcreate p ∨ i = .pdestroy p ∨ i = .pgrant p ∨ i = .prevoke p →
    let apart (u : State) : Prop := ∀ q r x y n, q ≠ r → u.parts.lookup q = some x → u.parts.lookup r = some y →
      n ∈ x.units k → n ∉ y.units k
    apart s → exec i s = .next t → apart t

/-- R280, R358, R403-R418, R441-R444, R448, R484, R485: the messages of the switch vote, of the control lane, and of the slot column, and the
local events of a member: what each does where it is due, and that ABORT, QUERY, CAPTURE and COMMIT of another vote do nothing. A message leaves
only where the gang's partition has a port that carries packets.
R414: at COMMIT each cluster drains, is saved, or is discarded, by its own choice, and what each leaves.
R316, R440-R443: corrected errors are counted; a residue miss runs its chain again, and a second one, or an error of a gang's state, rolls the
gang back; an error that no gang owns fails the device, whose launches, those off their clusters too, end with FCLASS 20.
The model's choices are the form in which arrivals, releases, flags and results name their launch, and the member that releases (log 64,
DESIGN CHOICE); the rollback at once of a member's silence, and the end of a mirror copy (log 67, DESIGN CHOICE); that the slot master knows
its own cells alone (log 18, DESIGN CHOICE); that the undo log is counted in entries of undoBytes (log 66, DESIGN CHOICE); the estimates of a
save and of a drain (log 17, DEDUCED); and whether a member takes a PREPARE for a checkpoint's (log 68, DEDUCED). -/
def Obligations.GangEvents : Prop :=
  ∀ (n dev p row : Nat) (word : GangWord) (epoch : Word) (g : Gang) (flag : GangFlag) (a b : List DWord) (bf : List Nat) (c : Nat) (ck : Checkpoint)
    (k : Nat),
    let is (s : State) : Prop := s.gangs.lookup n = some g
    let now (s : State) : Prop := is s ∧ g.epoch = epoch ∧ g.retired = false
    let set (f : Gang) (s : State) : State := { s with gangs := Map.put s.gangs n f }
    let leads (s : State) : Prop := now s ∧ g.rank = 0 ∧ g.voting = true
    let stale (s : State) : Prop := is s ∧ g.epoch ≠ epoch
    let runs (s : State) : Prop := (s.vd g.vd).run = true
    let sole (s : State) : Prop := g.rank ≠ 0
    let sums (s : State) : List DWord := (g.sums.1.zip g.sums.2).flatMap fun e => [e.1, e.2]
    let told (type : Nat) (s : State) : Output := .control {
      src := s.devnum.toNat, dst := [g.members.headD 0], gang := n, type := type, arg := 0, epoch := g.epoch, sums := sums s, lid := 0, kind := 0 }
    let sends (o : Output) (s : State) : State := { s with out := if s.routed g.part = true then o :: s.out else s.out }
    let tell (type : Nat) (h : Gang) (s : State) : State := sends (told type s) (set h s)
    let counted (i : Nat) (s : State) : State := { s with errcnt := Map.modify 0 s.errcnt i (· + 1) }
    Moves (.prepare n epoch) (fun s => is s ∧ g.vote = .run ∧ g.retired = false ∧ runs s ∧ (g.rank = 0 → g.epoch = epoch) ∧
        s.refusal { g with epoch := epoch } = none)
      (set { g with
        epoch := epoch, vote := .halting, resumeAtOnce := if g.rank = 0 then g.resumeAtOnce else g.ckptDue,
        ckptDue := decide (g.rank = 0) && g.ckptDue }) ∧
    (∀ why, Moves (.prepare n epoch) (fun s => is s ∧ g.vote = .run ∧ g.retired = false ∧ runs s ∧ sole s ∧
        s.refusal { g with epoch := epoch } = some why)
      (fun s => sends (.control { src := s.devnum.toNat, dst := [g.members.headD 0], gang := n, type := 2, arg := why, epoch := epoch, sums := [],
                                  lid := 0, kind := 0 }) (set { g with epoch := epoch } s))) ∧
    Rests (.prepare n epoch) (fun s => is s ∧ g.vote ≠ .run) ∧
    Moves (.abort n epoch) (fun s => now s ∧ (g.vote = .halting ∨ g.vote = .halted) ∧ s.pwait = none)
      (fun s => (set { g with vote := .run } s).unstart g.part n) ∧
    Rests (.abort n epoch) stale ∧
    Moves (.chunksDrained n) (fun s => is s ∧ g.vote = .halting ∧ sole s) (tell 3 { g with vote := .halted }) ∧
    Moves (.query n epoch) (fun s => now s ∧ (g.vote = .halted ∨ g.vote = .capturing) ∧ sole s) (fun s => sends (told 3 s) s) ∧
    Moves (.capture n epoch) (fun s => now s ∧ g.vote = .halted ∧ sole s) (tell 3 { g with vote := .capturing }) ∧
    Rests (.query n epoch) stale ∧ Rests (.capture n epoch) stale ∧ Rests (.commit n epoch) stale ∧
    Moves (.report n epoch dev a b) (fun s => leads s ∧ g.members.contains dev = true)
      (set { g with reports := (dev, a, b) :: g.reports.filter fun r => r.1 != dev }) ∧
    Moves (.refuse n epoch dev c) (fun s => leads s ∧ (∀ d ∈ g.members, d = s.devnum.toNat) ∧ g.vote = .out) (fun s =>
      let t := set { g with
        voting := false, trigger := g.trigger || !g.resumeAtOnce, ckptDue := g.ckptDue || g.resumeAtOnce, reports := [] } s
      t.setPart g.part { t.part g.part with
        sstat := Map.modify SStat.reset (t.part g.part).sstat (t.part g.part).row fun x =>
          { x with rdev := dev, refuse := min 65535 (x.refuse + 1) } }) ∧
    Moves (.votePollTick n) (fun s => is s ∧ g.rank = 0 ∧ g.voting = true ∧ (∀ d ∈ g.members, g.reports.any (fun r => r.1 = d) = true) ∧
        g.balanced = true)
      (fun s => (set { g with reports := [] } s).toMembers n 6 g.epoch fun t => t.onCommit n g.epoch) ∧
    Moves (.commit n epoch) (fun s => now s ∧ (g.vote = .halted ∨ g.vote = .capturing)) (fun s =>
      let choices := (s.runningOf g.vd).flatMap fun l => (s.launch l).clusters.map fun d => (l, d, s.settleBy g l d)
      let t := (set { g with vote := .committing, saving := [], rerun := [] } s).settleAll n choices
      let live := (t.onClusters g.vd).flatMap fun l => (t.launch l).clusters.filter fun d => (t.cluster d).launch = some l
      match t.gangs.lookup n with
      | some h => (t.setGang n { h with unsettled := live }).goOutIfSettled n
      | none => t) ∧
    (∀ (s : State) (l : Nat),
      let stopping : Prop := (s.vd g.vd).stopping = true
      let resumes : Prop := g.resumeAtOnce = true
      let drains : Prop := s.drainFits g l = true
      let fits : Prop := s.saveFits g l c = true
      let restarts : Prop := (s.launch l).rst = true
      (stopping → s.settleBy g l c = .discard) ∧ (¬ stopping → resumes → s.settleBy g l c = .save false) ∧
      (¬ stopping → ¬ resumes → drains → s.settleBy g l c = .drain) ∧
      (¬ stopping → ¬ resumes → ¬ drains → fits → s.settleBy g l c = .save false) ∧
      (¬ stopping → ¬ resumes → ¬ drains → ¬ fits → restarts → s.settleBy g l c = .discard) ∧
      (¬ stopping → ¬ resumes → ¬ drains → ¬ fits → ¬ restarts → s.settleBy g l c = .save true)) ∧
    (∀ (s : State) (l : Nat) (rest : List (Nat × Nat × Settle)) (missed : Bool),
      s.settleAll n [] = s ∧ s.settleAll n ((l, c, .drain) :: rest) = s.settleAll n rest ∧
      s.settleAll n ((l, c, .save missed) :: rest) = (s.beginSave n c missed).settleAll n rest ∧
      s.settleAll n ((l, c, .discard) :: rest) = (s.discardCluster n l c).settleAll n rest ∧
      (is s → let t := s.beginSave n c missed
        (∀ i, t.core i = if i / 16 = c then { s.core i with mill := (s.core i).mill.ask } else s.core i) ∧
        t.gangs.lookup n = some { g with saving := c :: g.saving, missed := if missed then g.missed + 1 else g.missed } ∧
        (missed = true → (Map.get SStat.reset (t.part g.part).sstat (s.part g.part).row).miss =
          min 65535 ((Map.get SStat.reset (s.part g.part).sstat (s.part g.part).row).miss + 1)) ∧ t.launches = s.launches) ∧
      (is s → let t := s.discardCluster n l c
        (t.cluster c).launch = none ∧ (∀ i, i / 16 = c → (t.core i).job = none ∧ (t.core i).mode = .idle) ∧
        (∃ h, t.gangs.lookup n = some h ∧ ∀ i, i / 16 = c → (i, (s.core i).kept) ∈ h.saved) ∧
        ((∀ d ∈ (s.launch l).clusters, d = c ∨ (s.cluster d).launch = none) → (t.launch l).state = .discarded ∧ (t.launch l).items = [] ∧
          (t.launch l).pool = [] ∧ (t.launch l).suspended = []))) ∧
    Moves (.clusterSettled n c) (fun s => is s ∧ g.vote = .committing ∧ g.unsettled.contains c = true ∧ (s.cluster c).launch = none)
      (fun s => (set { g with unsettled := g.unsettled.filter fun d => d != c } s).goOutIfSettled n) ∧
    (∀ l, let saves (s : State) : Prop := is s ∧ g.vote = .committing ∧ g.unsettled.contains c = true ∧ (s.cluster c).launch = some l ∧
        (s.launch l).vd = g.vd ∧ g.saving.contains c = true ∧ (s.launch l).state = .running ∧ ∀ i, i / 16 = c → (s.core i).saveReady = true
      Moves (.clusterSettled n c) (fun s => saves s ∧ ∀ i, i / 16 = c → (s.core i).flightFits = true)
        (fun s => let t := s.saveCluster n l c
          match t.gangs.lookup n with
          | some h => (t.setGang n { h with unsettled := h.unsettled.filter fun d => d != c }).goOutIfSettled n
          | none => t) ∧
      Moves (.clusterSettled n c) (fun s => saves s ∧ ∃ i, i / 16 = c ∧ (s.core i).flightFits = false) (fun s => s.landCores (clusterCores c)) ∧
      Rests (.clusterSettled n c) (fun s => is s ∧ g.vote = .committing ∧ (s.cluster c).launch = some l ∧ (s.launch l).vd = g.vd ∧
        ∃ i, i / 16 = c ∧ (s.core i).saveReady = false)) ∧
    Moves (.doneMessage n epoch dev) (fun s => leads s ∧ g.members.contains dev = true ∧
        ∃ d ∈ g.members, d ≠ dev ∧ g.doneBy.contains d = false)
      (set { g with doneBy := dev :: g.doneBy.filter fun d => d != dev }) ∧
    Moves (.doneMessage n epoch dev) (fun s => leads s ∧ g.members.contains dev = true ∧
        ∀ d ∈ g.members, d = dev ∨ g.doneBy.contains d = true) (fun s =>
      let t := set { g with
        doneBy := dev :: g.doneBy.filter fun d => d != dev, voting := false, trigger := g.resumeAtOnce && g.trigger, ckptDue := false } s
      let u := t.setPart g.part { t.part g.part with
        sstat := Map.modify SStat.reset (t.part g.part).sstat (t.part g.part).row fun x => { x with switch := (x.switch + 1) % 65536 } }
      (if g.resumeAtOnce = true then u.onResume n epoch else u.rewalk g.part).resumeStop) ∧
    (let may (s : State) : Prop := now s ∧ g.vote = .out ∧ g.voting = false ∧ (s.vd g.vd).stopped = false ∧ (s.vd g.vd).stopping = false
     Moves (.resumeMessage { gid := n, epoch := epoch }) (fun s => may s ∧ sole s) (set { g with vote := .resuming }) ∧
     Moves (.resumeMessage { gid := n, epoch := epoch }) (fun s => may s ∧ g.rank = 0 ∧ s.resumeDue n g = true) (fun s =>
       (set { g with vote := .resuming } s).sendLane (s.othersOf g) (.flit n 9 0 g.epoch)) ∧
     Rests (.resumeMessage { gid := n, epoch := epoch }) (fun s => may s ∧ g.rank = 0 ∧ s.resumeDue n g = false)) ∧
    Rests (.resumeMessage { gid := n, epoch := epoch }) stale ∧
    (let returns (s : State) : Prop := is s ∧ g.vote = .resuming ∧ g.retired = false ∧ s.homesIdle g.vd = true
     Moves (.restoreDone n) (fun s => returns s ∧ s.granulesOk n (s.homeGranules g) = true)
       (fun s => ((s.takeAll n (s.homeGranules g)).restoreGang n g).resumeStop) ∧
     Moves (.restoreDone n) (fun s => returns s ∧ s.granulesOk n (s.homeGranules g) = false) (fun s => s.want n (s.homeGranules g))) ∧
    Rests (.restoreDone n) (fun s => is s ∧ g.retired = true) ∧
    Moves (.voteRetry n) (fun s => is s ∧ g.rank = 0 ∧ g.voting = false ∧ (g.trigger = true ∨ g.ckptDue = true) ∧ g.vote = .run ∧ runs s)
      (fun s => s.startVote n g) ∧
    Moves (.quantumExpire n) (fun s => is s ∧ g.rank = 0 ∧ g.retired = false ∧ runs s ∧ g.voting = false ∧ g.vote = .run)
      (fun s => s.startVote n { g with trigger := true }) ∧
    Moves (.quantumExpire n) (fun s => is s ∧ g.rank = 0 ∧ g.retired = false ∧ runs s ∧ (g.voting = true ∨ g.vote ≠ .run))
      (set { g with trigger := true }) ∧
    Moves (.quantumExpire n) (fun s => is s ∧ sole s ∧ g.retired = false ∧ runs s) (set g) ∧
    Rests (.quantumExpire n) (fun s => is s ∧ (s.vd g.vd).run = false) ∧
    Moves (.checkpointTimer n) (fun s => is s ∧ s.rollbackOn g = true ∧ fld (s.header g 0x108) 31 0 ≠ 0) (fun s => s.trigger n true) ∧
    Moves (.undoLogThreshold n) (fun s => is s ∧ s.rollbackOn g = true ∧ 9 * s.undoSize g ≤ 10 * (undoBytes * g.undo.length) ∧
        g.ckptDue = false) (fun s => s.trigger n true) ∧
    Moves (.mirrorComplete n) (fun s => is s ∧ fld (s.header g 0x110) 47 0 ≠ 0 ∧ g.mirroring = true ∧ s.mirrorSent n = true)
      (set { g with ckpt := g.ckpt.map fun d => { d with mirrored := true } }) ∧
    (let back (s : State) : State := (((s.rollTo n g ck).err 4).markReady).resumeStop
     let heard (s : State) : Prop := is s ∧ g.retired = false ∧ g.rolled = false
     let forward (s : State) : State := if g.rank = 0 then s.sendLane (s.othersOf g) (.flit n 10 0 g.epoch) else s
     let failed (s : State) : Prop := is s ∧ g.retired = false
     let first (s : State) : State :=
       set { g with rolled := decide (g.rank ≠ 0) } (s.sendLane (if g.rank = 0 then s.othersOf g else [g.members.headD 0]) (.flit n 10 0 g.epoch))
     Moves (.rollback n) (fun s => heard s ∧ g.ckpt = some ck ∧ g.rollbacks < 3) (fun s => back (forward s)) ∧
     Moves (.rollback n) (fun s => heard s ∧ g.ckpt = some ck ∧ 3 ≤ g.rollbacks) (fun s => (forward s).deviceFails) ∧
     Moves (.rollback n) (fun s => heard s ∧ g.ckpt = none) (fun s => ((forward s).failGang n).resumeStop) ∧
     Moves (.rollback n) (fun s => is s ∧ g.retired = false ∧ g.rolled = true) (set { g with rolled := false }) ∧
     Rests (.rollback n) (fun s => is s ∧ g.retired = true) ∧
     Moves (.uncorrectableError (.gang n)) (fun s => failed s ∧ g.ckpt = some ck ∧ g.rollbacks < 3) (fun s =>
       ((((first (counted 3 s)).rollTo n { g with rolled := decide (g.rank ≠ 0) } ck).err 4).markReady).resumeStop) ∧
     Moves (.uncorrectableError (.gang n)) (fun s => failed s ∧ g.ckpt = none) (fun s => ((first (counted 3 s)).failGang n).resumeStop) ∧
     Moves (.uncorrectableError (.residue c)) (fun s => failed s ∧ s.coreGid c = n ∧ (s.core c).mill.active ≠ none ∧
         (s.core c).mill.missed = none ∧ g.ckpt = some ck ∧ g.rollbacks < 3) (fun s =>
       ((((first (counted 3 (counted 2 s))).rollTo n { g with rolled := decide (g.rank ≠ 0) } ck).err 4).markReady).resumeStop) ∧
     (∀ m, Moves (.uncorrectableError (.residue c)) (fun s => (s.core c).mill.active ≠ none ∧ (s.core c).mill.missed = some m)
       (fun s => counted 2 (s.setCore c { s.core c with mill := m }))) ∧
     Rests (.uncorrectableError (.residue c)) (fun s => (s.core c).mill.active = none) ∧
     Moves (.uncorrectableError .spare) (fun _ => True) (fun s => counted 7 (counted 3 s))) ∧
    (∀ (s : State) (l : Nat),
      let x := s.launch l
      let ended (y : Launch) : State := (s.setLaunch l y).faultSeen x.vd 20
      (x.state = .saved ∨ x.state = .discarded ∨ x.state = .running ∧ s.coresOn l = [] →
        s.failLaunch l = ended { x with state := .ending, status := 0, fault := some (x.cores.headD 0, { cls := 20 }) }) ∧
      (∀ d ds, x.state = .running → s.coresOn l = d :: ds → s.failLaunch l = s.takeFault d { cls := 20 }) ∧
      (x.state = .waiting → x.status = 0 →
        s.failLaunch l = ended { x with status := 1, start := s.now, fault := some (0, { cls := 20 }) }) ∧
      (x.state = .ending ∨ x.state = .complete → s.failLaunch l = s)) ∧
    Moves (.memberSilentTimeout n dev)
      (fun s => is s ∧ g.rank = 0 ∧ g.voting = true ∧ g.members.contains dev = true ∧ dev ≠ s.devnum.toNat)
      (fun s =>
        let t := (set { g with voting := false, reports := [], doneBy := [], lost := dev :: g.lost } s).toMembers n 7 g.epoch
          fun t => t.onAbort n g.epoch
        if g.ckpt.any (·.mirrored) then t.onRollback n else t) ∧
    Moves (.barrierArrival n dev word) is (fun s => (set { g with arrivals := g.arrivals ++ [(dev, word)] } s).answerGang n) ∧
    Moves (.barrierRelease n dev word) is (fun s => (set { g with releases := g.releases ++ [(dev, word)] } s).answerGang n) ∧
    Moves (.ostepFlag n dev flag) is (fun s => (set { g with flags := g.flags ++ [(dev, flag)] } s).answerGang n) ∧
    Moves (.ostepResult n flag) is (fun s => (set { g with results := g.results ++ [flag] } s).answerGang n) ∧
    Moves (.slot p row k bf) (fun s => Map.has s.parts p = true ∧
        ((s.part p).rowOn = false ∨ (s.part p).epoch ≠ k ∨ (s.part p).row ≠ row))
      (fun s => s.startRow p row k (bf.filter fun d => d != 0)) ∧
    Moves (.slotRowExpire p) (fun s => Map.has s.parts p = true) (fun s =>
      let row := if (s.part p).rowOn then ((s.part p).row + 1) % (s.part p).rows else 0
      (s.setPart p { s.part p with master := true }).sendSlot p row ((s.part p).epoch + 1) (s.chosen p (s.nextView p row))) ∧
    Rests (.slotRowExpire p) (fun s => Map.has s.parts p = false) ∧
    Moves (.uncorrectableError .sramCorrected) (fun _ => True) (counted 0) ∧
    Moves (.uncorrectableError .hbmCorrected) (fun _ => True) (counted 1) ∧
    Moves (.uncorrectableError .unowned) (fun _ => True) (fun s => (counted 3 s).deviceFails)

/-! ### The step -/

/-- R144, R147, R169-R171, R183, R191, R376, R423: a step serves what stands first in the agenda: an event is executed, and a core cycle of a
core that leads only itself and whose bundle is one word runs the instruction that the word decodes to, on the state whose turn is that core's.
Where the word takes effect and the Governor lets it start, control goes on behind it (or where it jumped), and one schedule cycle and one core
cycle pass; where it has acted in its bundle's place, the core is in its new mode before it; where it stalls or freezes, only the core
cycle passes, granules and the Tailrace are set to work, and but for a freeze by the Governor the bundle has not been ready; where it waits for
stores to land, a schedule cycle passes; where it faults, or the bundle breaks a rule, the fault that R423 chooses is raised.
A bundle of several words: each word that takes effect does so once, on what the words before it have left, and one that does not leaves only
its unit taken; the bundle issues whole, where every word takes effect, or not at all: a stall holds it first, then a word acts in its place,
then it waits for stores, then it raises one fault, then it freezes for granules.
A flight: its members' due bundles are tried in order of position; where all issue, each takes effect and the lead's is due on the others later;
the first that is held holds the flight, and where none is, the first that faults is raised; then no member has issued.
With nothing in the agenda the step is bring-up, or such a cycle of the core whose turn it is, after which the turn passes on. That a step is one
event or one core cycle, in the order of the agenda and, where that is empty, of the turns, and what it counts as one cycle, is the model's
choice (logs 2 and 81, DESIGN CHOICE), and so is which word of which launch a step runs first after reset (log 3, DESIGN CHOICE). -/
def Obligations.StepRunsTheFetchedWord : Prop :=
  (∀ (s : State) (rest : List Agent) (i : Instr), step { s with agenda := .event i :: rest } = exec i { s with agenda := rest }) ∧
  (∀ (s : State) (rest : List Agent) (n : Nat),
    let t : State := ({ s with agenda := rest } : State).newCycle
    step { s with agenda := .elapse n :: rest } = .next { t with now := t.now + n }) ∧
  (∀ s : State, s.agenda = [] → s.ready = false → step s = exec (.bringUp true) s) ∧
  (∀ (s : State) (c : Nat) (w : BitVec 32) (i : Instr),
    let n := s.newCycle
    let k := n.core c
    let a := ({ n with turn := c } : State).openBundle k.pc 1 [i]
    let after (m counted : Mark) (t : State) : State := { t.countCycle c counted with mark := m, bun := Bundle.reset, turn := c }
    let waits (t : State) : State := t.setCore c { t.core c with readyAt := none }
    let cycle (t : State) : Prop := step { s with agenda := .core c :: s.agenda } = .next t
    let passes (t : State) : Prop := cycle t ∧ (s.agenda = [] → s.ready = true → s.turn = c → step s = .next t.passTurn)
    k.mode = .running → k.flen = 1 → k.barrier = none → n.holdsCore c = false →
    (n.job c).fetchBundle c k.pc = some [w] → decodeWord w = .ok i →
    ∀ t, exec i a = .next t →
      let acts : Prop := t.mark = .ok ∧ a.replaces i = true ∧ t.cur.mode ≠ .running
      let static := bundleOk [i] && !loopEndClash k k.pc [i]
      let issued : State :=
        let u := t.afterIssue c k.pc 1 [i] (weight i)
        (u.setCore c { u.core c with trail := [], loopTrail := [] }).schedHeld c
      (t.mark = .ok → ¬ acts → static = true →
        (n.bundleAllowed k (weight i) = true → passes (after .ok .ok issued)) ∧
        (n.bundleAllowed k (weight i) = false →
          cycle (after (.freeze []) (.freeze []) (n.setCore c { k with readyAt := some (k.readyAt.getD (k.wall, weight i)) })))) ∧
      (acts → passes (after .ok .ok (n.stayAt c k.pc t.cur.mode))) ∧
      (t.mark = .stall → cycle (after .stall .stall (waits n))) ∧
      (∀ d, t.mark = .tail d → cycle (after (.tail d) (.tail d) (waits (n.demandTail c d)))) ∧
      (t.mark = .tick → passes (after .tick .tick ((waits n).schedHeld c))) ∧
      (∀ gs, t.mark = .freeze gs → gs ≠ [] → static = true → cycle (after (.freeze gs) (.freeze gs) (waits (n.want (n.coreGid c) gs)))) ∧
      (∀ y, t.mark.stalls = false → t.mark ≠ .tick → ¬ acts → chooseTrap static [(0, t.mark)] = some y →
        passes (after (.trap y) .ok (n.raise c y)))) ∧
  (∀ (s t : State) (p : Placed) (ps : List Placed),
    let a : State := { s with bun := { s.bun with ext := p.ext, pipe := p.pipe, draws := p.draws } }
    let acts : Prop := t.mark = .ok ∧ s.replaces p.i = true ∧ t.cur.mode ≠ .running
    (s.runWords []).state = s ∧ (s.runWords []).marks = [] ∧ (s.runWords []).replaced = none ∧
    (exec p.i a = .next t →
      (s.runWords (p :: ps)).marks.head? = some (p.idx, t.mark) ∧
      (t.mark = .ok → ¬ acts →
        (s.runWords (p :: ps)).state = (t.runWords ps).state ∧ (s.runWords (p :: ps)).marks = (p.idx, .ok) :: (t.runWords ps).marks ∧
        (s.runWords (p :: ps)).replaced = (t.runWords ps).replaced) ∧
      (t.mark ≠ .ok ∨ acts →
        let u := match s.claimUnit p.i with | .ok u => u | .error _ => s
        (s.runWords (p :: ps)).state = (u.runWords ps).state ∧ (s.runWords (p :: ps)).marks = (p.idx, t.mark) :: (u.runWords ps).marks) ∧
      (acts → (s.runWords (p :: ps)).replaced = some t.cur.mode))) ∧
  (∀ (s : State) (start : Nat) (ws : List (Option Instr)) (stray : List Instr),
    let o := s.openBundle start ws.length (ws.filterMap id)
    let r := o.runWords (s.orderedWords ws)
    let ms := r.marks ++ o.strayMarks stray
    let fits : Prop := s.bundleFits start ws = true ∧ ∀ m ∈ r.marks, ∀ x, m.2 = .trap x → x.cls ≠ 1
    let issue := s.tryIssue start ws stray
    let moves : Prop := ∀ m ∈ ms, m.2.stalls = false
    let settled : Prop := moves ∧ r.replaced = none ∧ ∀ m ∈ ms, m.2 ≠ .tick
    (¬ fits → ∀ t, issue ≠ .ok t) ∧
    (fits →
      ((∃ m ∈ ms, m.2 = .stall) → issue = .held .stall) ∧
      (∀ x, (∀ m ∈ ms, m.2 ≠ .stall) → ms.find? (fun m => m.2.stalls) = some x → issue = .held x.2) ∧
      (∀ md, moves → r.replaced = some md → issue = .replaced md) ∧
      (moves → r.replaced = none → (∃ m ∈ ms, m.2 = .tick) → issue = .held .tick) ∧
      (∀ x, settled → chooseTrap true ms = some x → issue = .fault x) ∧
      (settled → chooseTrap true ms = none → (∃ m ∈ ms, m.2.frozen = true) → issue = .held (.freeze (ms.flatMap fun m => m.2.granules))) ∧
      (settled → chooseTrap true ms = none → (∀ m ∈ ms, m.2.frozen = false) → issue = .ok r.state))) ∧
  (∀ (t v : State) (m pc : Nat) (ws : List Word),
    let u : State := { t with turn := m }
    let is := ws.filterMap decoded
    let w := (is.map weight).sum
    let tried := u.tryIssue pc (ws.map decoded) (ws.filterMap named)
    let waits (x : State) : State := x.setCore m { x.core m with readyAt := none }
    ((t.job m).fetchBundle m pc = some ws → tried = .ok v →
      (t.bundleAllowed (t.core m) w = true → t.memberIssue m pc = .ok (v.afterIssue m pc ws.length is w)) ∧
      (t.bundleAllowed (t.core m) w = false → t.memberIssue m pc = .held (.freeze []))) ∧
    ((t.job m).fetchBundle m pc = some ws → (∀ v, tried ≠ .ok v) → t.memberIssue m pc = tried) ∧
    ((t.job m).fetchBundle m pc = none → ∀ v, t.memberIssue m pc ≠ .ok v) ∧
    t.noteHold m pc .stall = waits t ∧ t.noteHold m pc .tick = waits t ∧ (∀ d, t.noteHold m pc (.tail d) = waits (t.demandTail m d)) ∧
    (∀ gs, gs ≠ [] → t.noteHold m pc (.freeze gs) = waits (t.want (t.coreGid m) gs)) ∧
    ((t.job m).fetchBundle m pc = some ws →
      t.noteHold m pc (.freeze []) = t.setCore m { t.core m with readyAt := some ((t.core m).readyAt.getD ((t.core m).wall, w)) })) ∧
  (∀ (s : State) (c j pc : Nat) (f : Nat → State),
    let n := s.newCycle
    let k := n.core c
    let ms := (List.range k.flen).map (c + ·)
    let due (i : Nat) : Option Nat := (f i).duePc c (c + i)
    let after (m counted : Mark) (t : State) : State := { t.countAll counted ms with mark := m, bun := Bundle.reset, turn := c }
    let cycle (t : State) : Prop := step { s with agenda := .core c :: s.agenda } = .next t
    let tries (upTo : Nat) : Prop := f 0 = n ∧ ∀ i < upTo,
      (due i = none ∧ f (i + 1) = f i) ∨
      (∃ a, due i = some a ∧ ((f i).memberIssue (c + i) a = .ok (f (i + 1)) ∨ (∃ x, (f i).memberIssue (c + i) a = .fault x) ∧ f (i + 1) = f i))
    let entry : Nat := match n.duePc c c with
      | some a => if ((f k.flen).core c).bundleNo = k.bundleNo then 0 else a + 1
      | none => 0
    let issued : State :=
      let t := f k.flen
      let size := (k.flen - 1) * (t.job c).skew
      (t.setCore c { t.core c with
        trail := (entry :: (t.core c).trail).take size,
        loopTrail := (((t.core c).loops, (t.core c).depth) :: (t.core c).loopTrail).take size }).schedAll ms
    k.mode ≠ .idle → k.mode ≠ .halted → n.flightStopped c = false → n.holdsCore c = false →
    (n.duePc c c ≠ none ∨ ∃ e ∈ k.trail, e ≠ 0) →
    (tries k.flen → (∀ i < k.flen, ∀ a x, due i = some a → (f i).memberIssue (c + i) a ≠ .fault x) → cycle (after .ok .ok issued)) ∧
    (∀ x, tries j → j < k.flen → due j = some pc → (f j).memberIssue (c + j) pc = .held x → (x ≠ .tick ∨ j ≠ 0 ∨ k.flen = 1) →
      cycle (after x x (if x = .tick then (n.noteHold (c + j) pc x).schedAll ms else n.noteHold (c + j) pc x))) ∧
    (∀ x, tries k.flen → j < k.flen → due j = some pc → (f j).memberIssue (c + j) pc = .fault x →
      (∀ i < j, ∀ a y, due i = some a → (f i).memberIssue (c + i) a ≠ .fault y) → cycle (after (.trap x) .ok (n.raise (c + j) x))))

/-- R8, R53, R55, R120, R126, R194, R400, R444, R480, R486: what reset leaves, as the registers of the management window read, and in
the memories; R490: from there seven steps with nothing placed bring the device up, with a key in slot 0 alone and no launch. That each of
these steps is one step of the model, which succeeds, is the model's choice (logs 2 and 3, DESIGN CHOICE). -/
def Obligations.ResetLeaves : Prop :=
  let s := State.reset
  let reg (off : Nat) : Nat := (s.windowRead off).toNat
  reg 0x00 = 0x0000F4A100010000 ∧ reg 0x08 = 0 ∧ reg 0x10 = 0 ∧ reg 0x18 = 0 ∧ reg 0x4000 = 2 ^ 31 + 4400 ∧
  (∀ n < 8, reg (0x5000 + 8 * n) = 0) ∧
  (∀ q < 36, reg (0x8000 + 64 * q) = 0 ∧ reg (0x8000 + 64 * q + 8) = 0) ∧
  (∀ v < 256, let block (o : Nat) : Nat := reg (0x100000 + 4096 * v + o)
    block 0x000 = 0 ∧ block 0x020 = 0 ∧ block 0x028 = 64 ∧ block 0x030 = 0 ∧ block 0x058 = 0 ∧ block 0x400 = 0 ∧ block 0x408 = 64 ∧
      block 0x410 = 2 ^ 24 + 1000 * 2 ^ 4 ∧ block 0x800 = 0 ∧ block 0x820 = 0) ∧
  (∀ a, Map.get 0 s.gmem a = 0) ∧ (∀ g, s.granule g = { gid := 0, pin := 0 }) ∧ (∀ n, (s.slot n).state = 0) ∧ s.canonical = true ∧
  ∃ t : Nat → State, t 0 = s ∧ (∀ n < 7, step (t n) = .next (t (n + 1)) ∧ (t n).ready = false) ∧
    (t 7).ready = true ∧ (t 7).seustUp = true ∧ (t 7).launches = [] ∧ (t 7).parts = [] ∧ (t 7).pmem = s.pmem ∧
    ∀ n, ((t 7).slot n).state = if n = 0 then 1 else 0

/-! ### What holds of every step, and of every word -/

/-- The memories keep their canonical form through every step: no address is listed twice, and no byte that an unlisted address reads
as (log 5). -/
def Obligations.MemoryStaysCanonical : Prop := ∀ s t : State, s.canonical = true → step s = .next t → t.canonical = true

/-- R171, R221, R223, R330: the frame of the words. A word that raises no fault writes no memory when it issues (a store lands later, or
from its queue) and changes no other core, no launch, partition, gang, key, port or translation; of the virtual devices only `snap`,
`wpost` and `wbar` change anything, and only their own. `resume` alone may let another core go on. -/
def Obligations.WordsTouchOnlyTheirCore : Prop :=
  ∀ (s t : State) (i : Instr), (encode i).isSome = true → exec i s = .next t → (∀ x, t.mark ≠ .trap x) →
    (∀ d a b, i ≠ .resume d a b) →
    t.gmem = s.gmem ∧ t.pmem = s.pmem ∧ t.lines = s.lines ∧ t.tlb = s.tlb ∧ t.launches = s.launches ∧ t.clusters = s.clusters ∧
    t.parts = s.parts ∧ t.gangs = s.gangs ∧ t.slots = s.slots ∧ t.ports = s.ports ∧ t.turn = s.turn ∧ t.agenda = s.agenda ∧
    (∀ d, d ≠ s.turn → t.core d = s.core d) ∧
    (∀ v, (v ≠ s.coreVd s.turn ∨ ((∀ n, i ≠ .snap n) ∧ (∀ a b, i ≠ .wpost a b) ∧ ∀ a, i ≠ .wbar a)) → t.vd v = s.vd v)

end Statements
end

