-- ==== Sys2Proof/Laws/Map.lean ====
section
/-! SUPPORT. The laws of sparse maps: reads after writes, and the canonical form. -/

namespace Sys2Proof.Machine

@[simp] theorem Map.get_nil {α : Type} (d : α) (k : Nat) : Map.get d [] k = d := rfl

/-- A read after listing a value. -/
theorem Map.get_put {α : Type} (d : α) (m : Map α) (k j : Nat) (v : α) :
    Map.get d (Map.put m k v) j = if k = j then v else Map.get d m j := by
  induction m with
  | nil => simp [Map.put, Map.get]
  | cons e t ih =>
    obtain ⟨k', v'⟩ := e
    unfold Map.put
    split
    · simp only [Map.get, ih]
      split <;> split <;> simp_all
    · split <;> simp only [Map.get] <;> split <;> simp_all

@[simp] theorem Map.get_put_self {α : Type} (d : α) (m : Map α) (k : Nat) (v : α) : Map.get d (Map.put m k v) k = v := by
  simp [Map.get_put]

/-- A second value at a key replaces the first. -/
theorem Map.put_put {α : Type} (m : Map α) (k : Nat) (v w : α) : Map.put (Map.put m k v) k w = Map.put m k w := by
  induction m with
  | nil => simp [Map.put]
  | cons e t ih =>
    obtain ⟨k', v'⟩ := e
    simp only [Map.put]
    split
    · simp [Map.put, ih, *]
    · split <;> simp [Map.put, *]

theorem Map.get_put_ne {α : Type} (d : α) (m : Map α) {k j : Nat} (v : α) (h : k ≠ j) :
    Map.get d (Map.put m k v) j = Map.get d m j := by
  simp [Map.get_put, h]

/-- A read after removing a key. -/
theorem Map.get_erase {α : Type} (d : α) (m : Map α) (k j : Nat) :
    Map.get d (Map.erase m k) j = if k = j then d else Map.get d m j := by
  induction m with
  | nil => simp [Map.erase]
  | cons e t ih =>
    obtain ⟨k', v'⟩ := e
    simp only [Map.erase] at ih ⊢
    rw [List.filter_cons]
    by_cases h : k' = k
    · subst h
      simp only [bne_self_eq_false, Bool.false_eq_true, if_false, ih, Map.get]
      split <;> simp_all
    · simp only [bne_iff_ne, ne_eq, h, not_false_eq_true, if_true, Map.get, ih]
      split <;> split <;> simp_all

/-- A read after a canonical write. -/
theorem Map.get_set {α : Type} [DecidableEq α] (d : α) (m : Map α) (k j : Nat) (v : α) :
    Map.get d (Map.set d m k v) j = if k = j then v else Map.get d m j := by
  unfold Map.set
  split
  · subst v; exact Map.get_erase d m k j
  · exact Map.get_put d m k j v

/-- A read after consecutive canonical writes. -/
theorem Map.get_setList {α : Type} [DecidableEq α] (d : α) (vs : List α) (m : Map α) (k j : Nat) :
    Map.get d (Map.setList d m k vs) j = if k ≤ j ∧ j < k + vs.length then vs.getD (j - k) d else Map.get d m j := by
  induction vs generalizing m k with
  | nil => simp [Map.setList]
  | cons v vs ih =>
    simp only [Map.setList, ih, Map.get_set, List.length_cons]
    by_cases h : k = j
    · subst h; simp
    · by_cases h2 : k + 1 ≤ j ∧ j < k + 1 + vs.length
      · rw [if_pos h2, if_pos (by omega)]
        have : j - k = (j - (k + 1)) + 1 := by omega
        rw [this, List.getD_cons_succ]
      · rw [if_neg h2, if_neg h, if_neg (by omega)]

/-- The canonical form in terms of the standard library. -/
theorem Map.wf_iff {α : Type} [DecidableEq α] (d : α) (m : Map α) :
    Map.wf d m = true ↔ m.Pairwise (fun a b => a.1 < b.1) ∧ ∀ e ∈ m, e.2 ≠ d := by
  induction m with
  | nil => simp [Map.wf]
  | cons e t ih =>
    obtain ⟨k, v⟩ := e
    cases t with
    | nil => simp [Map.wf]
    | cons f u =>
      obtain ⟨k', v'⟩ := f
      simp only [Map.wf, Bool.and_eq_true, decide_eq_true_eq, bne_iff_ne, ih, List.pairwise_cons, List.forall_mem_cons]
      constructor
      · rintro ⟨⟨h1, h2⟩, ⟨⟨h3, h4⟩, h5⟩⟩
        exact ⟨⟨⟨h2, fun a ha => lt_trans h2 (h3 a ha)⟩, h3, h4⟩, h1, h5⟩
      · rintro ⟨⟨⟨h2, -⟩, h3, h4⟩, h1, h5⟩
        exact ⟨⟨h1, h2⟩, ⟨h3, h4⟩, h5⟩

/-- The keys after listing a value. -/
theorem Map.mem_put {α : Type} {m : Map α} {k : Nat} {v : α} {e : Nat × α} (h : e ∈ Map.put m k v) : e = (k, v) ∨ e ∈ m := by
  induction m with
  | nil => simp_all [Map.put]
  | cons f t ih =>
    obtain ⟨k', v'⟩ := f
    unfold Map.put at h
    split at h
    · rcases List.mem_cons.1 h with h | h
      · exact .inr (by simp [h])
      · rcases ih h with h | h
        · exact .inl h
        · exact .inr (List.mem_cons_of_mem _ h)
    · split at h <;> simp_all
      rcases h with h | h <;> simp [h]

/-- Listing a value keeps the keys rising. -/
theorem Map.put_rising {α : Type} {m : Map α} (k : Nat) (v : α) (h : m.Pairwise fun a b => a.1 < b.1) :
    (Map.put m k v).Pairwise fun a b => a.1 < b.1 := by
  induction m with
  | nil => simp [Map.put]
  | cons f t ih =>
    obtain ⟨k', v'⟩ := f
    rw [List.pairwise_cons] at h
    unfold Map.put
    split
    · rename_i hk
      refine List.pairwise_cons.2 ⟨fun a ha => ?_, ih h.2⟩
      rcases Map.mem_put ha with rfl | ha
      · exact hk
      · exact h.1 a ha
    · split
      · rename_i hk; subst hk; exact List.pairwise_cons.2 h
      · rename_i h1 h2
        have hk : k < k' := by omega
        refine List.pairwise_cons.2 ⟨fun a ha => ?_, List.pairwise_cons.2 h⟩
        rcases List.mem_cons.1 ha with rfl | ha
        · exact hk
        · exact lt_trans hk (h.1 a ha)

/-- Taking values out keeps the canonical form. -/
theorem Map.filter_wf {α : Type} [DecidableEq α] {d : α} {m : Map α} (p : Nat × α → Bool) (h : Map.wf d m = true) :
    Map.wf d (m.filter p) = true := by
  rw [Map.wf_iff] at h ⊢
  exact ⟨h.1.filter _, fun e he => h.2 e (List.mem_filter.1 he).1⟩

/-- A canonical write keeps the canonical form. -/
theorem Map.set_wf {α : Type} [DecidableEq α] {d : α} {m : Map α} (k : Nat) (v : α) (h : Map.wf d m = true) :
    Map.wf d (Map.set d m k v) = true := by
  rw [Map.wf_iff] at h ⊢
  unfold Map.set
  split
  · exact ⟨h.1.filter _, fun e he => h.2 e (List.mem_filter.1 he).1⟩
  · rename_i hv
    refine ⟨Map.put_rising k v h.1, fun e he => ?_⟩
    rcases Map.mem_put he with rfl | he
    · exact hv
    · exact h.2 e he

/-- Consecutive canonical writes keep the canonical form. -/
theorem Map.setList_wf {α : Type} [DecidableEq α] {d : α} (vs : List α) {m : Map α} (k : Nat) (h : Map.wf d m = true) :
    Map.wf d (Map.setList d m k vs) = true := by
  induction vs generalizing m k with
  | nil => exact h
  | cons v vs ih => exact ih (k + 1) (Map.set_wf k v h)

end Sys2Proof.Machine
end

