-- ==== Sys2Proof/Laws/State.lean ====
section
/-! SUPPORT. One lemma per field of the state and per update of it. -/

namespace Sys2Proof.Machine

@[simp] theorem State.setCore_agenda (s : State) (c : Nat) (k : Core) : (s.setCore c k).agenda = s.agenda := rfl
@[simp] theorem State.setCore_turn (s : State) (c : Nat) (k : Core) : (s.setCore c k).turn = s.turn := rfl
@[simp] theorem State.setCore_mark (s : State) (c : Nat) (k : Core) : (s.setCore c k).mark = s.mark := rfl
@[simp] theorem State.setCore_bun (s : State) (c : Nat) (k : Core) : (s.setCore c k).bun = s.bun := rfl
@[simp] theorem State.setCore_out (s : State) (c : Nat) (k : Core) : (s.setCore c k).out = s.out := rfl
@[simp] theorem State.setCore_now (s : State) (c : Nat) (k : Core) : (s.setCore c k).now = s.now := rfl
@[simp] theorem State.setCore_draws (s : State) (c : Nat) (k : Core) : (s.setCore c k).draws = s.draws := rfl
@[simp] theorem State.setCore_useTlb (s : State) (c : Nat) (k : Core) : (s.setCore c k).useTlb = s.useTlb := rfl
@[simp] theorem State.setCore_fresh (s : State) (c : Nat) (k : Core) : (s.setCore c k).fresh = s.fresh := rfl
@[simp] theorem State.setCore_colds (s : State) (c : Nat) (k : Core) : (s.setCore c k).colds = s.colds := rfl
@[simp] theorem State.setCore_devnum (s : State) (c : Nat) (k : Core) : (s.setCore c k).devnum = s.devnum := rfl
@[simp] theorem State.setCore_qen (s : State) (c : Nat) (k : Core) : (s.setCore c k).qen = s.qen := rfl
@[simp] theorem State.setCore_bootStep (s : State) (c : Nat) (k : Core) : (s.setCore c k).bootStep = s.bootStep := rfl
@[simp] theorem State.setCore_warm (s : State) (c : Nat) (k : Core) : (s.setCore c k).warm = s.warm := rfl
@[simp] theorem State.setCore_bootFail (s : State) (c : Nat) (k : Core) : (s.setCore c k).bootFail = s.bootFail := rfl
@[simp] theorem State.setCore_ready (s : State) (c : Nat) (k : Core) : (s.setCore c k).ready = s.ready := rfl
@[simp] theorem State.setCore_holds (s : State) (c : Nat) (k : Core) : (s.setCore c k).holds = s.holds := rfl
@[simp] theorem State.setCore_hold (s : State) (c : Nat) (k : Core) : (s.setCore c k).hold = s.hold := rfl
@[simp] theorem State.setCore_throt (s : State) (c : Nat) (k : Core) : (s.setCore c k).throt = s.throt := rfl
@[simp] theorem State.setCore_tj (s : State) (c : Nat) (k : Core) : (s.setCore c k).tj = s.tj := rfl
@[simp] theorem State.setCore_thermtrip (s : State) (c : Nat) (k : Core) : (s.setCore c k).thermtrip = s.thermtrip := rfl
@[simp] theorem State.setCore_rst (s : State) (c : Nat) (k : Core) : (s.setCore c k).rst = s.rst := rfl
@[simp] theorem State.setCore_pwrok (s : State) (c : Nat) (k : Core) : (s.setCore c k).pwrok = s.pwrok := rfl
@[simp] theorem State.setCore_powered (s : State) (c : Nat) (k : Core) : (s.setCore c k).powered = s.powered := rfl
@[simp] theorem State.setCore_govEn (s : State) (c : Nat) (k : Core) : (s.setCore c k).govEn = s.govEn := rfl
@[simp] theorem State.setCore_govRaised (s : State) (c : Nat) (k : Core) : (s.setCore c k).govRaised = s.govRaised := rfl
@[simp] theorem State.setCore_govLimit (s : State) (c : Nat) (k : Core) : (s.setCore c k).govLimit = s.govLimit := rfl
@[simp] theorem State.setCore_errcnt (s : State) (c : Nat) (k : Core) : (s.setCore c k).errcnt = s.errcnt := rfl
@[simp] theorem State.setCore_ksel (s : State) (c : Nat) (k : Core) : (s.setCore c k).ksel = s.ksel := rfl
@[simp] theorem State.setCore_kerr (s : State) (c : Nat) (k : Core) : (s.setCore c k).kerr = s.kerr := rfl
@[simp] theorem State.setCore_kdata (s : State) (c : Nat) (k : Core) : (s.setCore c k).kdata = s.kdata := rfl
@[simp] theorem State.setCore_slots (s : State) (c : Nat) (k : Core) : (s.setCore c k).slots = s.slots := rfl
@[simp] theorem State.setCore_ports (s : State) (c : Nat) (k : Core) : (s.setCore c k).ports = s.ports := rfl
@[simp] theorem State.setCore_seustUp (s : State) (c : Nat) (k : Core) : (s.setCore c k).seustUp = s.seustUp := rfl
@[simp] theorem State.setCore_seustRetraining (s : State) (c : Nat) (k : Core) : (s.setCore c k).seustRetraining = s.seustRetraining := rfl
@[simp] theorem State.setCore_ints (s : State) (c : Nat) (k : Core) : (s.setCore c k).ints = s.ints := rfl
@[simp] theorem State.setCore_acks (s : State) (c : Nat) (k : Core) : (s.setCore c k).acks = s.acks := rfl
@[simp] theorem State.setCore_seustOwed (s : State) (c : Nat) (k : Core) : (s.setCore c k).seustOwed = s.seustOwed := rfl
@[simp] theorem State.setCore_mirrors (s : State) (c : Nat) (k : Core) : (s.setCore c k).mirrors = s.mirrors := rfl
@[simp] theorem State.setCore_snap (s : State) (c : Nat) (k : Core) : (s.setCore c k).snap = s.snap := rfl
@[simp] theorem State.setCore_pmem (s : State) (c : Nat) (k : Core) : (s.setCore c k).pmem = s.pmem := rfl
@[simp] theorem State.setCore_lines (s : State) (c : Nat) (k : Core) : (s.setCore c k).lines = s.lines := rfl
@[simp] theorem State.setCore_gmem (s : State) (c : Nat) (k : Core) : (s.setCore c k).gmem = s.gmem := rfl
@[simp] theorem State.setCore_granules (s : State) (c : Nat) (k : Core) : (s.setCore c k).granules = s.granules := rfl
@[simp] theorem State.setCore_touches (s : State) (c : Nat) (k : Core) : (s.setCore c k).touches = s.touches := rfl
@[simp] theorem State.setCore_tlb (s : State) (c : Nat) (k : Core) : (s.setCore c k).tlb = s.tlb := rfl
@[simp] theorem State.setCore_held (s : State) (c : Nat) (k : Core) : (s.setCore c k).held = s.held := rfl
@[simp] theorem State.setCore_parts (s : State) (c : Nat) (k : Core) : (s.setCore c k).parts = s.parts := rfl
@[simp] theorem State.setCore_vds (s : State) (c : Nat) (k : Core) : (s.setCore c k).vds = s.vds := rfl
@[simp] theorem State.setCore_gangs (s : State) (c : Nat) (k : Core) : (s.setCore c k).gangs = s.gangs := rfl
@[simp] theorem State.setCore_parg (s : State) (c : Nat) (k : Core) : (s.setCore c k).parg = s.parg := rfl
@[simp] theorem State.setCore_pcmdPart (s : State) (c : Nat) (k : Core) : (s.setCore c k).pcmdPart = s.pcmdPart := rfl
@[simp] theorem State.setCore_pseq (s : State) (c : Nat) (k : Core) : (s.setCore c k).pseq = s.pseq := rfl
@[simp] theorem State.setCore_pbusy (s : State) (c : Nat) (k : Core) : (s.setCore c k).pbusy = s.pbusy := rfl
@[simp] theorem State.setCore_pcode (s : State) (c : Nat) (k : Core) : (s.setCore c k).pcode = s.pcode := rfl
@[simp] theorem State.setCore_pwait (s : State) (c : Nat) (k : Core) : (s.setCore c k).pwait = s.pwait := rfl
@[simp] theorem State.setCore_launches (s : State) (c : Nat) (k : Core) : (s.setCore c k).launches = s.launches := rfl
@[simp] theorem State.setCore_nextLaunch (s : State) (c : Nat) (k : Core) : (s.setCore c k).nextLaunch = s.nextLaunch := rfl
@[simp] theorem State.setCore_nodes (s : State) (c : Nat) (k : Core) : (s.setCore c k).nodes = s.nodes := rfl
@[simp] theorem State.setCore_clusters (s : State) (c : Nat) (k : Core) : (s.setCore c k).clusters = s.clusters := rfl
@[simp] theorem State.setCore_cores (s : State) (c : Nat) (k : Core) : (s.setCore c k).cores = Map.put s.cores c k := rfl

@[simp] theorem State.setVd_agenda (s : State) (v : Nat) (x : VDev) : (s.setVd v x).agenda = s.agenda := rfl
@[simp] theorem State.setVd_turn (s : State) (v : Nat) (x : VDev) : (s.setVd v x).turn = s.turn := rfl
@[simp] theorem State.setVd_mark (s : State) (v : Nat) (x : VDev) : (s.setVd v x).mark = s.mark := rfl
@[simp] theorem State.setVd_bun (s : State) (v : Nat) (x : VDev) : (s.setVd v x).bun = s.bun := rfl
@[simp] theorem State.setVd_out (s : State) (v : Nat) (x : VDev) : (s.setVd v x).out = s.out := rfl
@[simp] theorem State.setVd_now (s : State) (v : Nat) (x : VDev) : (s.setVd v x).now = s.now := rfl
@[simp] theorem State.setVd_draws (s : State) (v : Nat) (x : VDev) : (s.setVd v x).draws = s.draws := rfl
@[simp] theorem State.setVd_useTlb (s : State) (v : Nat) (x : VDev) : (s.setVd v x).useTlb = s.useTlb := rfl
@[simp] theorem State.setVd_fresh (s : State) (v : Nat) (x : VDev) : (s.setVd v x).fresh = s.fresh := rfl
@[simp] theorem State.setVd_colds (s : State) (v : Nat) (x : VDev) : (s.setVd v x).colds = s.colds := rfl
@[simp] theorem State.setVd_devnum (s : State) (v : Nat) (x : VDev) : (s.setVd v x).devnum = s.devnum := rfl
@[simp] theorem State.setVd_qen (s : State) (v : Nat) (x : VDev) : (s.setVd v x).qen = s.qen := rfl
@[simp] theorem State.setVd_bootStep (s : State) (v : Nat) (x : VDev) : (s.setVd v x).bootStep = s.bootStep := rfl
@[simp] theorem State.setVd_warm (s : State) (v : Nat) (x : VDev) : (s.setVd v x).warm = s.warm := rfl
@[simp] theorem State.setVd_bootFail (s : State) (v : Nat) (x : VDev) : (s.setVd v x).bootFail = s.bootFail := rfl
@[simp] theorem State.setVd_ready (s : State) (v : Nat) (x : VDev) : (s.setVd v x).ready = s.ready := rfl
@[simp] theorem State.setVd_holds (s : State) (v : Nat) (x : VDev) : (s.setVd v x).holds = s.holds := rfl
@[simp] theorem State.setVd_hold (s : State) (v : Nat) (x : VDev) : (s.setVd v x).hold = s.hold := rfl
@[simp] theorem State.setVd_throt (s : State) (v : Nat) (x : VDev) : (s.setVd v x).throt = s.throt := rfl
@[simp] theorem State.setVd_tj (s : State) (v : Nat) (x : VDev) : (s.setVd v x).tj = s.tj := rfl
@[simp] theorem State.setVd_thermtrip (s : State) (v : Nat) (x : VDev) : (s.setVd v x).thermtrip = s.thermtrip := rfl
@[simp] theorem State.setVd_rst (s : State) (v : Nat) (x : VDev) : (s.setVd v x).rst = s.rst := rfl
@[simp] theorem State.setVd_pwrok (s : State) (v : Nat) (x : VDev) : (s.setVd v x).pwrok = s.pwrok := rfl
@[simp] theorem State.setVd_powered (s : State) (v : Nat) (x : VDev) : (s.setVd v x).powered = s.powered := rfl
@[simp] theorem State.setVd_govEn (s : State) (v : Nat) (x : VDev) : (s.setVd v x).govEn = s.govEn := rfl
@[simp] theorem State.setVd_govRaised (s : State) (v : Nat) (x : VDev) : (s.setVd v x).govRaised = s.govRaised := rfl
@[simp] theorem State.setVd_govLimit (s : State) (v : Nat) (x : VDev) : (s.setVd v x).govLimit = s.govLimit := rfl
@[simp] theorem State.setVd_errcnt (s : State) (v : Nat) (x : VDev) : (s.setVd v x).errcnt = s.errcnt := rfl
@[simp] theorem State.setVd_ksel (s : State) (v : Nat) (x : VDev) : (s.setVd v x).ksel = s.ksel := rfl
@[simp] theorem State.setVd_kerr (s : State) (v : Nat) (x : VDev) : (s.setVd v x).kerr = s.kerr := rfl
@[simp] theorem State.setVd_kdata (s : State) (v : Nat) (x : VDev) : (s.setVd v x).kdata = s.kdata := rfl
@[simp] theorem State.setVd_slots (s : State) (v : Nat) (x : VDev) : (s.setVd v x).slots = s.slots := rfl
@[simp] theorem State.setVd_ports (s : State) (v : Nat) (x : VDev) : (s.setVd v x).ports = s.ports := rfl
@[simp] theorem State.setVd_seustUp (s : State) (v : Nat) (x : VDev) : (s.setVd v x).seustUp = s.seustUp := rfl
@[simp] theorem State.setVd_seustRetraining (s : State) (v : Nat) (x : VDev) : (s.setVd v x).seustRetraining = s.seustRetraining := rfl
@[simp] theorem State.setVd_ints (s : State) (v : Nat) (x : VDev) : (s.setVd v x).ints = s.ints := rfl
@[simp] theorem State.setVd_acks (s : State) (v : Nat) (x : VDev) : (s.setVd v x).acks = s.acks := rfl
@[simp] theorem State.setVd_seustOwed (s : State) (v : Nat) (x : VDev) : (s.setVd v x).seustOwed = s.seustOwed := rfl
@[simp] theorem State.setVd_mirrors (s : State) (v : Nat) (x : VDev) : (s.setVd v x).mirrors = s.mirrors := rfl
@[simp] theorem State.setVd_snap (s : State) (v : Nat) (x : VDev) : (s.setVd v x).snap = s.snap := rfl
@[simp] theorem State.setVd_pmem (s : State) (v : Nat) (x : VDev) : (s.setVd v x).pmem = s.pmem := rfl
@[simp] theorem State.setVd_lines (s : State) (v : Nat) (x : VDev) : (s.setVd v x).lines = s.lines := rfl
@[simp] theorem State.setVd_gmem (s : State) (v : Nat) (x : VDev) : (s.setVd v x).gmem = s.gmem := rfl
@[simp] theorem State.setVd_granules (s : State) (v : Nat) (x : VDev) : (s.setVd v x).granules = s.granules := rfl
@[simp] theorem State.setVd_touches (s : State) (v : Nat) (x : VDev) : (s.setVd v x).touches = s.touches := rfl
@[simp] theorem State.setVd_tlb (s : State) (v : Nat) (x : VDev) : (s.setVd v x).tlb = s.tlb := rfl
@[simp] theorem State.setVd_held (s : State) (v : Nat) (x : VDev) : (s.setVd v x).held = s.held := rfl
@[simp] theorem State.setVd_parts (s : State) (v : Nat) (x : VDev) : (s.setVd v x).parts = s.parts := rfl
@[simp] theorem State.setVd_vds (s : State) (v : Nat) (x : VDev) : (s.setVd v x).vds = Map.put s.vds v x := rfl
@[simp] theorem State.setVd_gangs (s : State) (v : Nat) (x : VDev) : (s.setVd v x).gangs = s.gangs := rfl
@[simp] theorem State.setVd_parg (s : State) (v : Nat) (x : VDev) : (s.setVd v x).parg = s.parg := rfl
@[simp] theorem State.setVd_pcmdPart (s : State) (v : Nat) (x : VDev) : (s.setVd v x).pcmdPart = s.pcmdPart := rfl
@[simp] theorem State.setVd_pseq (s : State) (v : Nat) (x : VDev) : (s.setVd v x).pseq = s.pseq := rfl
@[simp] theorem State.setVd_pbusy (s : State) (v : Nat) (x : VDev) : (s.setVd v x).pbusy = s.pbusy := rfl
@[simp] theorem State.setVd_pcode (s : State) (v : Nat) (x : VDev) : (s.setVd v x).pcode = s.pcode := rfl
@[simp] theorem State.setVd_pwait (s : State) (v : Nat) (x : VDev) : (s.setVd v x).pwait = s.pwait := rfl
@[simp] theorem State.setVd_launches (s : State) (v : Nat) (x : VDev) : (s.setVd v x).launches = s.launches := rfl
@[simp] theorem State.setVd_nextLaunch (s : State) (v : Nat) (x : VDev) : (s.setVd v x).nextLaunch = s.nextLaunch := rfl
@[simp] theorem State.setVd_nodes (s : State) (v : Nat) (x : VDev) : (s.setVd v x).nodes = s.nodes := rfl
@[simp] theorem State.setVd_clusters (s : State) (v : Nat) (x : VDev) : (s.setVd v x).clusters = s.clusters := rfl
@[simp] theorem State.setVd_cores (s : State) (v : Nat) (x : VDev) : (s.setVd v x).cores = s.cores := rfl

@[simp] theorem State.setLaunch_agenda (s : State) (l : Nat) (x : Launch) : (s.setLaunch l x).agenda = s.agenda := rfl
@[simp] theorem State.setLaunch_turn (s : State) (l : Nat) (x : Launch) : (s.setLaunch l x).turn = s.turn := rfl
@[simp] theorem State.setLaunch_mark (s : State) (l : Nat) (x : Launch) : (s.setLaunch l x).mark = s.mark := rfl
@[simp] theorem State.setLaunch_bun (s : State) (l : Nat) (x : Launch) : (s.setLaunch l x).bun = s.bun := rfl
@[simp] theorem State.setLaunch_out (s : State) (l : Nat) (x : Launch) : (s.setLaunch l x).out = s.out := rfl
@[simp] theorem State.setLaunch_now (s : State) (l : Nat) (x : Launch) : (s.setLaunch l x).now = s.now := rfl
@[simp] theorem State.setLaunch_draws (s : State) (l : Nat) (x : Launch) : (s.setLaunch l x).draws = s.draws := rfl
@[simp] theorem State.setLaunch_useTlb (s : State) (l : Nat) (x : Launch) : (s.setLaunch l x).useTlb = s.useTlb := rfl
@[simp] theorem State.setLaunch_fresh (s : State) (l : Nat) (x : Launch) : (s.setLaunch l x).fresh = s.fresh := rfl
@[simp] theorem State.setLaunch_colds (s : State) (l : Nat) (x : Launch) : (s.setLaunch l x).colds = s.colds := rfl
@[simp] theorem State.setLaunch_devnum (s : State) (l : Nat) (x : Launch) : (s.setLaunch l x).devnum = s.devnum := rfl
@[simp] theorem State.setLaunch_qen (s : State) (l : Nat) (x : Launch) : (s.setLaunch l x).qen = s.qen := rfl
@[simp] theorem State.setLaunch_bootStep (s : State) (l : Nat) (x : Launch) : (s.setLaunch l x).bootStep = s.bootStep := rfl
@[simp] theorem State.setLaunch_warm (s : State) (l : Nat) (x : Launch) : (s.setLaunch l x).warm = s.warm := rfl
@[simp] theorem State.setLaunch_bootFail (s : State) (l : Nat) (x : Launch) : (s.setLaunch l x).bootFail = s.bootFail := rfl
@[simp] theorem State.setLaunch_ready (s : State) (l : Nat) (x : Launch) : (s.setLaunch l x).ready = s.ready := rfl
@[simp] theorem State.setLaunch_holds (s : State) (l : Nat) (x : Launch) : (s.setLaunch l x).holds = s.holds := rfl
@[simp] theorem State.setLaunch_hold (s : State) (l : Nat) (x : Launch) : (s.setLaunch l x).hold = s.hold := rfl
@[simp] theorem State.setLaunch_throt (s : State) (l : Nat) (x : Launch) : (s.setLaunch l x).throt = s.throt := rfl
@[simp] theorem State.setLaunch_tj (s : State) (l : Nat) (x : Launch) : (s.setLaunch l x).tj = s.tj := rfl
@[simp] theorem State.setLaunch_thermtrip (s : State) (l : Nat) (x : Launch) : (s.setLaunch l x).thermtrip = s.thermtrip := rfl
@[simp] theorem State.setLaunch_rst (s : State) (l : Nat) (x : Launch) : (s.setLaunch l x).rst = s.rst := rfl
@[simp] theorem State.setLaunch_pwrok (s : State) (l : Nat) (x : Launch) : (s.setLaunch l x).pwrok = s.pwrok := rfl
@[simp] theorem State.setLaunch_powered (s : State) (l : Nat) (x : Launch) : (s.setLaunch l x).powered = s.powered := rfl
@[simp] theorem State.setLaunch_govEn (s : State) (l : Nat) (x : Launch) : (s.setLaunch l x).govEn = s.govEn := rfl
@[simp] theorem State.setLaunch_govRaised (s : State) (l : Nat) (x : Launch) : (s.setLaunch l x).govRaised = s.govRaised := rfl
@[simp] theorem State.setLaunch_govLimit (s : State) (l : Nat) (x : Launch) : (s.setLaunch l x).govLimit = s.govLimit := rfl
@[simp] theorem State.setLaunch_errcnt (s : State) (l : Nat) (x : Launch) : (s.setLaunch l x).errcnt = s.errcnt := rfl
@[simp] theorem State.setLaunch_ksel (s : State) (l : Nat) (x : Launch) : (s.setLaunch l x).ksel = s.ksel := rfl
@[simp] theorem State.setLaunch_kerr (s : State) (l : Nat) (x : Launch) : (s.setLaunch l x).kerr = s.kerr := rfl
@[simp] theorem State.setLaunch_kdata (s : State) (l : Nat) (x : Launch) : (s.setLaunch l x).kdata = s.kdata := rfl
@[simp] theorem State.setLaunch_slots (s : State) (l : Nat) (x : Launch) : (s.setLaunch l x).slots = s.slots := rfl
@[simp] theorem State.setLaunch_ports (s : State) (l : Nat) (x : Launch) : (s.setLaunch l x).ports = s.ports := rfl
@[simp] theorem State.setLaunch_seustUp (s : State) (l : Nat) (x : Launch) : (s.setLaunch l x).seustUp = s.seustUp := rfl
@[simp] theorem State.setLaunch_seustRetraining (s : State) (l : Nat) (x : Launch) : (s.setLaunch l x).seustRetraining = s.seustRetraining := rfl
@[simp] theorem State.setLaunch_ints (s : State) (l : Nat) (x : Launch) : (s.setLaunch l x).ints = s.ints := rfl
@[simp] theorem State.setLaunch_acks (s : State) (l : Nat) (x : Launch) : (s.setLaunch l x).acks = s.acks := rfl
@[simp] theorem State.setLaunch_seustOwed (s : State) (l : Nat) (x : Launch) : (s.setLaunch l x).seustOwed = s.seustOwed := rfl
@[simp] theorem State.setLaunch_mirrors (s : State) (l : Nat) (x : Launch) : (s.setLaunch l x).mirrors = s.mirrors := rfl
@[simp] theorem State.setLaunch_snap (s : State) (l : Nat) (x : Launch) : (s.setLaunch l x).snap = s.snap := rfl
@[simp] theorem State.setLaunch_pmem (s : State) (l : Nat) (x : Launch) : (s.setLaunch l x).pmem = s.pmem := rfl
@[simp] theorem State.setLaunch_lines (s : State) (l : Nat) (x : Launch) : (s.setLaunch l x).lines = s.lines := rfl
@[simp] theorem State.setLaunch_gmem (s : State) (l : Nat) (x : Launch) : (s.setLaunch l x).gmem = s.gmem := rfl
@[simp] theorem State.setLaunch_granules (s : State) (l : Nat) (x : Launch) : (s.setLaunch l x).granules = s.granules := rfl
@[simp] theorem State.setLaunch_touches (s : State) (l : Nat) (x : Launch) : (s.setLaunch l x).touches = s.touches := rfl
@[simp] theorem State.setLaunch_tlb (s : State) (l : Nat) (x : Launch) : (s.setLaunch l x).tlb = s.tlb := rfl
@[simp] theorem State.setLaunch_held (s : State) (l : Nat) (x : Launch) : (s.setLaunch l x).held = s.held := rfl
@[simp] theorem State.setLaunch_parts (s : State) (l : Nat) (x : Launch) : (s.setLaunch l x).parts = s.parts := rfl
@[simp] theorem State.setLaunch_vds (s : State) (l : Nat) (x : Launch) : (s.setLaunch l x).vds = s.vds := rfl
@[simp] theorem State.setLaunch_gangs (s : State) (l : Nat) (x : Launch) : (s.setLaunch l x).gangs = s.gangs := rfl
@[simp] theorem State.setLaunch_parg (s : State) (l : Nat) (x : Launch) : (s.setLaunch l x).parg = s.parg := rfl
@[simp] theorem State.setLaunch_pcmdPart (s : State) (l : Nat) (x : Launch) : (s.setLaunch l x).pcmdPart = s.pcmdPart := rfl
@[simp] theorem State.setLaunch_pseq (s : State) (l : Nat) (x : Launch) : (s.setLaunch l x).pseq = s.pseq := rfl
@[simp] theorem State.setLaunch_pbusy (s : State) (l : Nat) (x : Launch) : (s.setLaunch l x).pbusy = s.pbusy := rfl
@[simp] theorem State.setLaunch_pcode (s : State) (l : Nat) (x : Launch) : (s.setLaunch l x).pcode = s.pcode := rfl
@[simp] theorem State.setLaunch_pwait (s : State) (l : Nat) (x : Launch) : (s.setLaunch l x).pwait = s.pwait := rfl
@[simp] theorem State.setLaunch_launches (s : State) (l : Nat) (x : Launch) : (s.setLaunch l x).launches = Map.put s.launches l x := rfl
@[simp] theorem State.setLaunch_nextLaunch (s : State) (l : Nat) (x : Launch) : (s.setLaunch l x).nextLaunch = s.nextLaunch := rfl
@[simp] theorem State.setLaunch_nodes (s : State) (l : Nat) (x : Launch) : (s.setLaunch l x).nodes = s.nodes := rfl
@[simp] theorem State.setLaunch_clusters (s : State) (l : Nat) (x : Launch) : (s.setLaunch l x).clusters = s.clusters := rfl
@[simp] theorem State.setLaunch_cores (s : State) (l : Nat) (x : Launch) : (s.setLaunch l x).cores = s.cores := rfl

@[simp] theorem State.setGang_agenda (s : State) (g : Nat) (x : Gang) : (s.setGang g x).agenda = s.agenda := rfl
@[simp] theorem State.setGang_turn (s : State) (g : Nat) (x : Gang) : (s.setGang g x).turn = s.turn := rfl
@[simp] theorem State.setGang_mark (s : State) (g : Nat) (x : Gang) : (s.setGang g x).mark = s.mark := rfl
@[simp] theorem State.setGang_bun (s : State) (g : Nat) (x : Gang) : (s.setGang g x).bun = s.bun := rfl
@[simp] theorem State.setGang_out (s : State) (g : Nat) (x : Gang) : (s.setGang g x).out = s.out := rfl
@[simp] theorem State.setGang_now (s : State) (g : Nat) (x : Gang) : (s.setGang g x).now = s.now := rfl
@[simp] theorem State.setGang_draws (s : State) (g : Nat) (x : Gang) : (s.setGang g x).draws = s.draws := rfl
@[simp] theorem State.setGang_useTlb (s : State) (g : Nat) (x : Gang) : (s.setGang g x).useTlb = s.useTlb := rfl
@[simp] theorem State.setGang_fresh (s : State) (g : Nat) (x : Gang) : (s.setGang g x).fresh = s.fresh := rfl
@[simp] theorem State.setGang_colds (s : State) (g : Nat) (x : Gang) : (s.setGang g x).colds = s.colds := rfl
@[simp] theorem State.setGang_devnum (s : State) (g : Nat) (x : Gang) : (s.setGang g x).devnum = s.devnum := rfl
@[simp] theorem State.setGang_qen (s : State) (g : Nat) (x : Gang) : (s.setGang g x).qen = s.qen := rfl
@[simp] theorem State.setGang_bootStep (s : State) (g : Nat) (x : Gang) : (s.setGang g x).bootStep = s.bootStep := rfl
@[simp] theorem State.setGang_warm (s : State) (g : Nat) (x : Gang) : (s.setGang g x).warm = s.warm := rfl
@[simp] theorem State.setGang_bootFail (s : State) (g : Nat) (x : Gang) : (s.setGang g x).bootFail = s.bootFail := rfl
@[simp] theorem State.setGang_ready (s : State) (g : Nat) (x : Gang) : (s.setGang g x).ready = s.ready := rfl
@[simp] theorem State.setGang_holds (s : State) (g : Nat) (x : Gang) : (s.setGang g x).holds = s.holds := rfl
@[simp] theorem State.setGang_hold (s : State) (g : Nat) (x : Gang) : (s.setGang g x).hold = s.hold := rfl
@[simp] theorem State.setGang_throt (s : State) (g : Nat) (x : Gang) : (s.setGang g x).throt = s.throt := rfl
@[simp] theorem State.setGang_tj (s : State) (g : Nat) (x : Gang) : (s.setGang g x).tj = s.tj := rfl
@[simp] theorem State.setGang_thermtrip (s : State) (g : Nat) (x : Gang) : (s.setGang g x).thermtrip = s.thermtrip := rfl
@[simp] theorem State.setGang_rst (s : State) (g : Nat) (x : Gang) : (s.setGang g x).rst = s.rst := rfl
@[simp] theorem State.setGang_pwrok (s : State) (g : Nat) (x : Gang) : (s.setGang g x).pwrok = s.pwrok := rfl
@[simp] theorem State.setGang_powered (s : State) (g : Nat) (x : Gang) : (s.setGang g x).powered = s.powered := rfl
@[simp] theorem State.setGang_govEn (s : State) (g : Nat) (x : Gang) : (s.setGang g x).govEn = s.govEn := rfl
@[simp] theorem State.setGang_govRaised (s : State) (g : Nat) (x : Gang) : (s.setGang g x).govRaised = s.govRaised := rfl
@[simp] theorem State.setGang_govLimit (s : State) (g : Nat) (x : Gang) : (s.setGang g x).govLimit = s.govLimit := rfl
@[simp] theorem State.setGang_errcnt (s : State) (g : Nat) (x : Gang) : (s.setGang g x).errcnt = s.errcnt := rfl
@[simp] theorem State.setGang_ksel (s : State) (g : Nat) (x : Gang) : (s.setGang g x).ksel = s.ksel := rfl
@[simp] theorem State.setGang_kerr (s : State) (g : Nat) (x : Gang) : (s.setGang g x).kerr = s.kerr := rfl
@[simp] theorem State.setGang_kdata (s : State) (g : Nat) (x : Gang) : (s.setGang g x).kdata = s.kdata := rfl
@[simp] theorem State.setGang_slots (s : State) (g : Nat) (x : Gang) : (s.setGang g x).slots = s.slots := rfl
@[simp] theorem State.setGang_ports (s : State) (g : Nat) (x : Gang) : (s.setGang g x).ports = s.ports := rfl
@[simp] theorem State.setGang_seustUp (s : State) (g : Nat) (x : Gang) : (s.setGang g x).seustUp = s.seustUp := rfl
@[simp] theorem State.setGang_seustRetraining (s : State) (g : Nat) (x : Gang) : (s.setGang g x).seustRetraining = s.seustRetraining := rfl
@[simp] theorem State.setGang_ints (s : State) (g : Nat) (x : Gang) : (s.setGang g x).ints = s.ints := rfl
@[simp] theorem State.setGang_acks (s : State) (g : Nat) (x : Gang) : (s.setGang g x).acks = s.acks := rfl
@[simp] theorem State.setGang_seustOwed (s : State) (g : Nat) (x : Gang) : (s.setGang g x).seustOwed = s.seustOwed := rfl
@[simp] theorem State.setGang_mirrors (s : State) (g : Nat) (x : Gang) : (s.setGang g x).mirrors = s.mirrors := rfl
@[simp] theorem State.setGang_snap (s : State) (g : Nat) (x : Gang) : (s.setGang g x).snap = s.snap := rfl
@[simp] theorem State.setGang_pmem (s : State) (g : Nat) (x : Gang) : (s.setGang g x).pmem = s.pmem := rfl
@[simp] theorem State.setGang_lines (s : State) (g : Nat) (x : Gang) : (s.setGang g x).lines = s.lines := rfl
@[simp] theorem State.setGang_gmem (s : State) (g : Nat) (x : Gang) : (s.setGang g x).gmem = s.gmem := rfl
@[simp] theorem State.setGang_granules (s : State) (g : Nat) (x : Gang) : (s.setGang g x).granules = s.granules := rfl
@[simp] theorem State.setGang_touches (s : State) (g : Nat) (x : Gang) : (s.setGang g x).touches = s.touches := rfl
@[simp] theorem State.setGang_tlb (s : State) (g : Nat) (x : Gang) : (s.setGang g x).tlb = s.tlb := rfl
@[simp] theorem State.setGang_held (s : State) (g : Nat) (x : Gang) : (s.setGang g x).held = s.held := rfl
@[simp] theorem State.setGang_parts (s : State) (g : Nat) (x : Gang) : (s.setGang g x).parts = s.parts := rfl
@[simp] theorem State.setGang_vds (s : State) (g : Nat) (x : Gang) : (s.setGang g x).vds = s.vds := rfl
@[simp] theorem State.setGang_gangs (s : State) (g : Nat) (x : Gang) : (s.setGang g x).gangs = Map.put s.gangs g x := rfl
@[simp] theorem State.setGang_parg (s : State) (g : Nat) (x : Gang) : (s.setGang g x).parg = s.parg := rfl
@[simp] theorem State.setGang_pcmdPart (s : State) (g : Nat) (x : Gang) : (s.setGang g x).pcmdPart = s.pcmdPart := rfl
@[simp] theorem State.setGang_pseq (s : State) (g : Nat) (x : Gang) : (s.setGang g x).pseq = s.pseq := rfl
@[simp] theorem State.setGang_pbusy (s : State) (g : Nat) (x : Gang) : (s.setGang g x).pbusy = s.pbusy := rfl
@[simp] theorem State.setGang_pcode (s : State) (g : Nat) (x : Gang) : (s.setGang g x).pcode = s.pcode := rfl
@[simp] theorem State.setGang_pwait (s : State) (g : Nat) (x : Gang) : (s.setGang g x).pwait = s.pwait := rfl
@[simp] theorem State.setGang_launches (s : State) (g : Nat) (x : Gang) : (s.setGang g x).launches = s.launches := rfl
@[simp] theorem State.setGang_nextLaunch (s : State) (g : Nat) (x : Gang) : (s.setGang g x).nextLaunch = s.nextLaunch := rfl
@[simp] theorem State.setGang_nodes (s : State) (g : Nat) (x : Gang) : (s.setGang g x).nodes = s.nodes := rfl
@[simp] theorem State.setGang_clusters (s : State) (g : Nat) (x : Gang) : (s.setGang g x).clusters = s.clusters := rfl
@[simp] theorem State.setGang_cores (s : State) (g : Nat) (x : Gang) : (s.setGang g x).cores = s.cores := rfl

@[simp] theorem State.setPort_agenda (s : State) (p : Nat) (x : QPort) : (s.setPort p x).agenda = s.agenda := rfl
@[simp] theorem State.setPort_turn (s : State) (p : Nat) (x : QPort) : (s.setPort p x).turn = s.turn := rfl
@[simp] theorem State.setPort_mark (s : State) (p : Nat) (x : QPort) : (s.setPort p x).mark = s.mark := rfl
@[simp] theorem State.setPort_bun (s : State) (p : Nat) (x : QPort) : (s.setPort p x).bun = s.bun := rfl
@[simp] theorem State.setPort_out (s : State) (p : Nat) (x : QPort) : (s.setPort p x).out = s.out := rfl
@[simp] theorem State.setPort_now (s : State) (p : Nat) (x : QPort) : (s.setPort p x).now = s.now := rfl
@[simp] theorem State.setPort_draws (s : State) (p : Nat) (x : QPort) : (s.setPort p x).draws = s.draws := rfl
@[simp] theorem State.setPort_useTlb (s : State) (p : Nat) (x : QPort) : (s.setPort p x).useTlb = s.useTlb := rfl
@[simp] theorem State.setPort_fresh (s : State) (p : Nat) (x : QPort) : (s.setPort p x).fresh = s.fresh := rfl
@[simp] theorem State.setPort_colds (s : State) (p : Nat) (x : QPort) : (s.setPort p x).colds = s.colds := rfl
@[simp] theorem State.setPort_devnum (s : State) (p : Nat) (x : QPort) : (s.setPort p x).devnum = s.devnum := rfl
@[simp] theorem State.setPort_qen (s : State) (p : Nat) (x : QPort) : (s.setPort p x).qen = s.qen := rfl
@[simp] theorem State.setPort_bootStep (s : State) (p : Nat) (x : QPort) : (s.setPort p x).bootStep = s.bootStep := rfl
@[simp] theorem State.setPort_warm (s : State) (p : Nat) (x : QPort) : (s.setPort p x).warm = s.warm := rfl
@[simp] theorem State.setPort_bootFail (s : State) (p : Nat) (x : QPort) : (s.setPort p x).bootFail = s.bootFail := rfl
@[simp] theorem State.setPort_ready (s : State) (p : Nat) (x : QPort) : (s.setPort p x).ready = s.ready := rfl
@[simp] theorem State.setPort_holds (s : State) (p : Nat) (x : QPort) : (s.setPort p x).holds = s.holds := rfl
@[simp] theorem State.setPort_hold (s : State) (p : Nat) (x : QPort) : (s.setPort p x).hold = s.hold := rfl
@[simp] theorem State.setPort_throt (s : State) (p : Nat) (x : QPort) : (s.setPort p x).throt = s.throt := rfl
@[simp] theorem State.setPort_tj (s : State) (p : Nat) (x : QPort) : (s.setPort p x).tj = s.tj := rfl
@[simp] theorem State.setPort_thermtrip (s : State) (p : Nat) (x : QPort) : (s.setPort p x).thermtrip = s.thermtrip := rfl
@[simp] theorem State.setPort_rst (s : State) (p : Nat) (x : QPort) : (s.setPort p x).rst = s.rst := rfl
@[simp] theorem State.setPort_pwrok (s : State) (p : Nat) (x : QPort) : (s.setPort p x).pwrok = s.pwrok := rfl
@[simp] theorem State.setPort_powered (s : State) (p : Nat) (x : QPort) : (s.setPort p x).powered = s.powered := rfl
@[simp] theorem State.setPort_govEn (s : State) (p : Nat) (x : QPort) : (s.setPort p x).govEn = s.govEn := rfl
@[simp] theorem State.setPort_govRaised (s : State) (p : Nat) (x : QPort) : (s.setPort p x).govRaised = s.govRaised := rfl
@[simp] theorem State.setPort_govLimit (s : State) (p : Nat) (x : QPort) : (s.setPort p x).govLimit = s.govLimit := rfl
@[simp] theorem State.setPort_errcnt (s : State) (p : Nat) (x : QPort) : (s.setPort p x).errcnt = s.errcnt := rfl
@[simp] theorem State.setPort_ksel (s : State) (p : Nat) (x : QPort) : (s.setPort p x).ksel = s.ksel := rfl
@[simp] theorem State.setPort_kerr (s : State) (p : Nat) (x : QPort) : (s.setPort p x).kerr = s.kerr := rfl
@[simp] theorem State.setPort_kdata (s : State) (p : Nat) (x : QPort) : (s.setPort p x).kdata = s.kdata := rfl
@[simp] theorem State.setPort_slots (s : State) (p : Nat) (x : QPort) : (s.setPort p x).slots = s.slots := rfl
@[simp] theorem State.setPort_ports (s : State) (p : Nat) (x : QPort) : (s.setPort p x).ports = Map.put s.ports p x := rfl
@[simp] theorem State.setPort_seustUp (s : State) (p : Nat) (x : QPort) : (s.setPort p x).seustUp = s.seustUp := rfl
@[simp] theorem State.setPort_seustRetraining (s : State) (p : Nat) (x : QPort) : (s.setPort p x).seustRetraining = s.seustRetraining := rfl
@[simp] theorem State.setPort_ints (s : State) (p : Nat) (x : QPort) : (s.setPort p x).ints = s.ints := rfl
@[simp] theorem State.setPort_acks (s : State) (p : Nat) (x : QPort) : (s.setPort p x).acks = s.acks := rfl
@[simp] theorem State.setPort_seustOwed (s : State) (p : Nat) (x : QPort) : (s.setPort p x).seustOwed = s.seustOwed := rfl
@[simp] theorem State.setPort_mirrors (s : State) (p : Nat) (x : QPort) : (s.setPort p x).mirrors = s.mirrors := rfl
@[simp] theorem State.setPort_snap (s : State) (p : Nat) (x : QPort) : (s.setPort p x).snap = s.snap := rfl
@[simp] theorem State.setPort_pmem (s : State) (p : Nat) (x : QPort) : (s.setPort p x).pmem = s.pmem := rfl
@[simp] theorem State.setPort_lines (s : State) (p : Nat) (x : QPort) : (s.setPort p x).lines = s.lines := rfl
@[simp] theorem State.setPort_gmem (s : State) (p : Nat) (x : QPort) : (s.setPort p x).gmem = s.gmem := rfl
@[simp] theorem State.setPort_granules (s : State) (p : Nat) (x : QPort) : (s.setPort p x).granules = s.granules := rfl
@[simp] theorem State.setPort_touches (s : State) (p : Nat) (x : QPort) : (s.setPort p x).touches = s.touches := rfl
@[simp] theorem State.setPort_tlb (s : State) (p : Nat) (x : QPort) : (s.setPort p x).tlb = s.tlb := rfl
@[simp] theorem State.setPort_held (s : State) (p : Nat) (x : QPort) : (s.setPort p x).held = s.held := rfl
@[simp] theorem State.setPort_parts (s : State) (p : Nat) (x : QPort) : (s.setPort p x).parts = s.parts := rfl
@[simp] theorem State.setPort_vds (s : State) (p : Nat) (x : QPort) : (s.setPort p x).vds = s.vds := rfl
@[simp] theorem State.setPort_gangs (s : State) (p : Nat) (x : QPort) : (s.setPort p x).gangs = s.gangs := rfl
@[simp] theorem State.setPort_parg (s : State) (p : Nat) (x : QPort) : (s.setPort p x).parg = s.parg := rfl
@[simp] theorem State.setPort_pcmdPart (s : State) (p : Nat) (x : QPort) : (s.setPort p x).pcmdPart = s.pcmdPart := rfl
@[simp] theorem State.setPort_pseq (s : State) (p : Nat) (x : QPort) : (s.setPort p x).pseq = s.pseq := rfl
@[simp] theorem State.setPort_pbusy (s : State) (p : Nat) (x : QPort) : (s.setPort p x).pbusy = s.pbusy := rfl
@[simp] theorem State.setPort_pcode (s : State) (p : Nat) (x : QPort) : (s.setPort p x).pcode = s.pcode := rfl
@[simp] theorem State.setPort_pwait (s : State) (p : Nat) (x : QPort) : (s.setPort p x).pwait = s.pwait := rfl
@[simp] theorem State.setPort_launches (s : State) (p : Nat) (x : QPort) : (s.setPort p x).launches = s.launches := rfl
@[simp] theorem State.setPort_nextLaunch (s : State) (p : Nat) (x : QPort) : (s.setPort p x).nextLaunch = s.nextLaunch := rfl
@[simp] theorem State.setPort_nodes (s : State) (p : Nat) (x : QPort) : (s.setPort p x).nodes = s.nodes := rfl
@[simp] theorem State.setPort_clusters (s : State) (p : Nat) (x : QPort) : (s.setPort p x).clusters = s.clusters := rfl
@[simp] theorem State.setPort_cores (s : State) (p : Nat) (x : QPort) : (s.setPort p x).cores = s.cores := rfl

@[simp] theorem State.gWrite_agenda (s : State) (a : Nat) (bs : List Byte) : (s.gWrite a bs).agenda = s.agenda := rfl
@[simp] theorem State.gWrite_turn (s : State) (a : Nat) (bs : List Byte) : (s.gWrite a bs).turn = s.turn := rfl
@[simp] theorem State.gWrite_mark (s : State) (a : Nat) (bs : List Byte) : (s.gWrite a bs).mark = s.mark := rfl
@[simp] theorem State.gWrite_bun (s : State) (a : Nat) (bs : List Byte) : (s.gWrite a bs).bun = s.bun := rfl
@[simp] theorem State.gWrite_out (s : State) (a : Nat) (bs : List Byte) : (s.gWrite a bs).out = s.out := rfl
@[simp] theorem State.gWrite_now (s : State) (a : Nat) (bs : List Byte) : (s.gWrite a bs).now = s.now := rfl
@[simp] theorem State.gWrite_draws (s : State) (a : Nat) (bs : List Byte) : (s.gWrite a bs).draws = s.draws := rfl
@[simp] theorem State.gWrite_useTlb (s : State) (a : Nat) (bs : List Byte) : (s.gWrite a bs).useTlb = s.useTlb := rfl
@[simp] theorem State.gWrite_fresh (s : State) (a : Nat) (bs : List Byte) : (s.gWrite a bs).fresh = s.fresh := rfl
@[simp] theorem State.gWrite_colds (s : State) (a : Nat) (bs : List Byte) : (s.gWrite a bs).colds = s.colds := rfl
@[simp] theorem State.gWrite_devnum (s : State) (a : Nat) (bs : List Byte) : (s.gWrite a bs).devnum = s.devnum := rfl
@[simp] theorem State.gWrite_qen (s : State) (a : Nat) (bs : List Byte) : (s.gWrite a bs).qen = s.qen := rfl
@[simp] theorem State.gWrite_bootStep (s : State) (a : Nat) (bs : List Byte) : (s.gWrite a bs).bootStep = s.bootStep := rfl
@[simp] theorem State.gWrite_warm (s : State) (a : Nat) (bs : List Byte) : (s.gWrite a bs).warm = s.warm := rfl
@[simp] theorem State.gWrite_bootFail (s : State) (a : Nat) (bs : List Byte) : (s.gWrite a bs).bootFail = s.bootFail := rfl
@[simp] theorem State.gWrite_ready (s : State) (a : Nat) (bs : List Byte) : (s.gWrite a bs).ready = s.ready := rfl
@[simp] theorem State.gWrite_holds (s : State) (a : Nat) (bs : List Byte) : (s.gWrite a bs).holds = s.holds := rfl
@[simp] theorem State.gWrite_hold (s : State) (a : Nat) (bs : List Byte) : (s.gWrite a bs).hold = s.hold := rfl
@[simp] theorem State.gWrite_throt (s : State) (a : Nat) (bs : List Byte) : (s.gWrite a bs).throt = s.throt := rfl
@[simp] theorem State.gWrite_tj (s : State) (a : Nat) (bs : List Byte) : (s.gWrite a bs).tj = s.tj := rfl
@[simp] theorem State.gWrite_thermtrip (s : State) (a : Nat) (bs : List Byte) : (s.gWrite a bs).thermtrip = s.thermtrip := rfl
@[simp] theorem State.gWrite_rst (s : State) (a : Nat) (bs : List Byte) : (s.gWrite a bs).rst = s.rst := rfl
@[simp] theorem State.gWrite_pwrok (s : State) (a : Nat) (bs : List Byte) : (s.gWrite a bs).pwrok = s.pwrok := rfl
@[simp] theorem State.gWrite_powered (s : State) (a : Nat) (bs : List Byte) : (s.gWrite a bs).powered = s.powered := rfl
@[simp] theorem State.gWrite_govEn (s : State) (a : Nat) (bs : List Byte) : (s.gWrite a bs).govEn = s.govEn := rfl
@[simp] theorem State.gWrite_govRaised (s : State) (a : Nat) (bs : List Byte) : (s.gWrite a bs).govRaised = s.govRaised := rfl
@[simp] theorem State.gWrite_govLimit (s : State) (a : Nat) (bs : List Byte) : (s.gWrite a bs).govLimit = s.govLimit := rfl
@[simp] theorem State.gWrite_errcnt (s : State) (a : Nat) (bs : List Byte) : (s.gWrite a bs).errcnt = s.errcnt := rfl
@[simp] theorem State.gWrite_ksel (s : State) (a : Nat) (bs : List Byte) : (s.gWrite a bs).ksel = s.ksel := rfl
@[simp] theorem State.gWrite_kerr (s : State) (a : Nat) (bs : List Byte) : (s.gWrite a bs).kerr = s.kerr := rfl
@[simp] theorem State.gWrite_kdata (s : State) (a : Nat) (bs : List Byte) : (s.gWrite a bs).kdata = s.kdata := rfl
@[simp] theorem State.gWrite_slots (s : State) (a : Nat) (bs : List Byte) : (s.gWrite a bs).slots = s.slots := rfl
@[simp] theorem State.gWrite_ports (s : State) (a : Nat) (bs : List Byte) : (s.gWrite a bs).ports = s.ports := rfl
@[simp] theorem State.gWrite_seustUp (s : State) (a : Nat) (bs : List Byte) : (s.gWrite a bs).seustUp = s.seustUp := rfl
@[simp] theorem State.gWrite_seustRetraining (s : State) (a : Nat) (bs : List Byte) : (s.gWrite a bs).seustRetraining = s.seustRetraining := rfl
@[simp] theorem State.gWrite_ints (s : State) (a : Nat) (bs : List Byte) : (s.gWrite a bs).ints = s.ints := rfl
@[simp] theorem State.gWrite_acks (s : State) (a : Nat) (bs : List Byte) : (s.gWrite a bs).acks = s.acks := rfl
@[simp] theorem State.gWrite_seustOwed (s : State) (a : Nat) (bs : List Byte) : (s.gWrite a bs).seustOwed = s.seustOwed := rfl
@[simp] theorem State.gWrite_mirrors (s : State) (a : Nat) (bs : List Byte) : (s.gWrite a bs).mirrors = s.mirrors := rfl
@[simp] theorem State.gWrite_snap (s : State) (a : Nat) (bs : List Byte) : (s.gWrite a bs).snap = s.snap := rfl
@[simp] theorem State.gWrite_pmem (s : State) (a : Nat) (bs : List Byte) : (s.gWrite a bs).pmem = s.pmem := rfl
@[simp] theorem State.gWrite_lines (s : State) (a : Nat) (bs : List Byte) : (s.gWrite a bs).lines = s.lines := rfl
@[simp] theorem State.gWrite_gmem (s : State) (a : Nat) (bs : List Byte) : (s.gWrite a bs).gmem = Map.setList 0 s.gmem a bs := rfl
@[simp] theorem State.gWrite_granules (s : State) (a : Nat) (bs : List Byte) : (s.gWrite a bs).granules = s.granules := rfl
@[simp] theorem State.gWrite_touches (s : State) (a : Nat) (bs : List Byte) : (s.gWrite a bs).touches = s.touches := rfl
@[simp] theorem State.gWrite_tlb (s : State) (a : Nat) (bs : List Byte) : (s.gWrite a bs).tlb = s.tlb := rfl
@[simp] theorem State.gWrite_held (s : State) (a : Nat) (bs : List Byte) : (s.gWrite a bs).held = s.held := rfl
@[simp] theorem State.gWrite_parts (s : State) (a : Nat) (bs : List Byte) : (s.gWrite a bs).parts = s.parts := rfl
@[simp] theorem State.gWrite_vds (s : State) (a : Nat) (bs : List Byte) : (s.gWrite a bs).vds = s.vds := rfl
@[simp] theorem State.gWrite_gangs (s : State) (a : Nat) (bs : List Byte) : (s.gWrite a bs).gangs = s.gangs := rfl
@[simp] theorem State.gWrite_parg (s : State) (a : Nat) (bs : List Byte) : (s.gWrite a bs).parg = s.parg := rfl
@[simp] theorem State.gWrite_pcmdPart (s : State) (a : Nat) (bs : List Byte) : (s.gWrite a bs).pcmdPart = s.pcmdPart := rfl
@[simp] theorem State.gWrite_pseq (s : State) (a : Nat) (bs : List Byte) : (s.gWrite a bs).pseq = s.pseq := rfl
@[simp] theorem State.gWrite_pbusy (s : State) (a : Nat) (bs : List Byte) : (s.gWrite a bs).pbusy = s.pbusy := rfl
@[simp] theorem State.gWrite_pcode (s : State) (a : Nat) (bs : List Byte) : (s.gWrite a bs).pcode = s.pcode := rfl
@[simp] theorem State.gWrite_pwait (s : State) (a : Nat) (bs : List Byte) : (s.gWrite a bs).pwait = s.pwait := rfl
@[simp] theorem State.gWrite_launches (s : State) (a : Nat) (bs : List Byte) : (s.gWrite a bs).launches = s.launches := rfl
@[simp] theorem State.gWrite_nextLaunch (s : State) (a : Nat) (bs : List Byte) : (s.gWrite a bs).nextLaunch = s.nextLaunch := rfl
@[simp] theorem State.gWrite_nodes (s : State) (a : Nat) (bs : List Byte) : (s.gWrite a bs).nodes = s.nodes := rfl
@[simp] theorem State.gWrite_clusters (s : State) (a : Nat) (bs : List Byte) : (s.gWrite a bs).clusters = s.clusters := rfl
@[simp] theorem State.gWrite_cores (s : State) (a : Nat) (bs : List Byte) : (s.gWrite a bs).cores = s.cores := rfl

@[simp] theorem State.turn_setCur (s : State) (k : Core) : (s.setCur k).turn = s.turn := rfl

end Sys2Proof.Machine
end

