-- ==== Sys2Proof/Laws/Ops.lean ====
section
/-! SUPPORT. The shared operations of a word: what its checks and its results in flight can come to. -/

namespace Sys2Proof.Machine

@[simp] theorem State.core_setCore_self (s : State) (c : Nat) (k : Core) : (s.setCore c k).core c = k := by
  simp [State.core]

theorem State.core_setCore_ne (s : State) {c d : Nat} (k : Core) (h : c ≠ d) : (s.setCore c k).core d = s.core d := by
  simp [State.core, Map.get_put_ne _ _ _ h]

@[simp] theorem State.vd_setVd_self (s : State) (v : Nat) (x : VDev) : (s.setVd v x).vd v = x := by
  simp [State.vd]

@[simp] theorem State.cur_setCur (s : State) (k : Core) : (s.setCur k).cur = k := by
  simp [State.cur, State.setCur]

/-- An event always answers a next state. -/
theorem State.move_eq (s : State) (f : State → State) : s.move f = .next { f s with mark := .ok } := rfl

/-- A word that passes its checks and takes effect. -/
theorem State.word_ok {s t u : State} {i : Instr} {f : State → Eff} (hg : s.gate i = .ok t) (hf : f t = .ok u) :
    s.word i f = .next { u with mark := .ok } := by
  simp [State.word, State.attempt, State.close, hg, hf]

/-- A word that passes its checks and stalls leaves the state as it was. -/
theorem State.word_stall {s t : State} {i : Instr} {f : State → Eff} (hg : s.gate i = .ok t) (hf : f t = .error .stall) :
    s.word i f = .next { s with mark := .stall } := by
  simp [State.word, State.attempt, State.close, hg, hf]

/-- A word that passes its checks and stalls asking the Tailrace for a spill or a refill. -/
theorem State.word_asks {s t : State} {i : Instr} {f : State → Eff} {d : Demand} (hg : s.gate i = .ok t) (hf : f t = .error (.tail d)) :
    s.word i f = .next { s with mark := .tail d } := by
  simp [State.word, State.attempt, State.close, hg, hf]

/-- R147, R275, R276: a word that fails a check stalls where its own meaning would, and asks the Tailrace for what that asks for. -/
theorem State.attempt_error {s : State} {i : Instr} {f : State → Eff} {e : Stop} (hg : s.gate i = .error e) :
    s.attempt i f = .error .stall ∨ (∃ d, s.attempt i f = .error (.tail d)) ∨ s.attempt i f = .error e := by
  unfold State.attempt
  rw [hg]
  simp only [behindGate]
  split
  · exact .inl rfl
  · exact .inr (.inl ⟨_, rfl⟩)
  · split
    · exact .inl rfl
    · exact .inr (.inr rfl)

/-- A word that passes its checks and raises a fault. -/
theorem State.word_trap {s t : State} {i : Instr} {f : State → Eff} {x : Trap} (hg : s.gate i = .ok t) (hf : f t = .error (.trap x)) :
    s.word i f = .next { s.raise s.turn x with mark := .trap x } := by
  simp [State.word, State.attempt, State.close, hg, hf]

/-- R147, R186, R189: what the checks of a word can come to: a stall, IENC, or the claim of its unit. -/
theorem State.gate_cases (s : State) (i : Instr) : s.gate i = .error .stall ∨ s.gate i = ienc ∨ s.gate i = s.claimUnit i := by
  unfold State.gate
  by_cases h1 : s.prior.mode = .running <;> by_cases h2 : (waitsOn i).any s.prior.busy = true <;>
    by_cases h3 : (!legal i || !resourceOk (s.job s.turn) i || !extOk i s.bun.ext) = true <;> simp_all [stalled]

/-- R186: what a claim of a unit can change: the core whose turn it is, and of it the units alone. -/
theorem State.claimUnit_ok {s t : State} {i : Instr} (h : s.claimUnit i = .ok t) :
    t = s ∨ ∃ m : Map Nat, t = s.setCur { s.cur with units := m } := by
  unfold State.claimUnit at h
  split at h
  · cases h; exact .inl rfl
  · rename_i u n _
    unfold Core.takeUnit at h
    cases hf : (unitIds u).find? (fun j => Map.get 0 s.cur.units j ≤ s.cur.sched) with
    | none => simp [hf, isch, trapped] at h
    | some j =>
      simp only [hf, Except.ok.injEq] at h
      exact .inr ⟨_, h.symm⟩

/-- A word without a unit passes its checks with the state as it was. -/
theorem State.gate_ok {s t : State} {i : Instr} (h : s.gate i = .ok t) : t = s ∨ ∃ m : Map Nat, t = s.setCur { s.cur with units := m } := by
  rcases s.gate_cases i with e | e | e
  · simp [e] at h
  · simp [e, ienc, trapped] at h
  · exact State.claimUnit_ok (e ▸ h)

/-- R185: results of the bundle that issues now collide with none of its own. -/
theorem Core.collides_fly (k : Core) (due lat : Nat) (l : Landing) (ls : List Landing) :
    (k.fly lat ls).collides due l = k.collides due l := by
  have none : (ls.any fun _ => false) = false := by induction ls <;> simp_all
  simp [Core.collides, Core.fly, List.any_append, List.any_map, Function.comp_def, none]

theorem Core.sched_fly (k : Core) (lat : Nat) (ls : List Landing) : (k.fly lat ls).sched = k.sched := rfl

theorem Core.fly_fly (k : Core) (lat : Nat) (ls ms : List Landing) : (k.fly lat ls).fly lat ms = k.fly lat (ls ++ ms) := by
  simp [Core.fly]

/-- R185: a result of the bundle that issues now, after others of it. -/
theorem State.landAt_fly (s : State) (lat : Nat) (k : Core) (l : Landing) (h : k.collides (k.sched + lat) l = false) :
    (s.setCur k).landAt lat l = .ok (s.setCur (k.fly lat [l])) := by
  simp [State.landAt, h, Core.fly, State.setCur, State.setCore, Map.put_put, State.cur, State.core]

theorem State.landAll_fly (s : State) (lat : Nat) (ms : List Landing) (k : Core) :
    (ms.all fun l => !k.collides (k.sched + lat) l) = true → (s.setCur k).landAll lat ms = .ok (s.setCur (k.fly lat ms)) := by
  induction ms generalizing k with
  | nil => intro _; simp [State.landAll, Core.fly]
  | cons m ms ih =>
    intro h
    simp only [List.all_cons, Bool.and_eq_true, Bool.not_eq_true'] at h
    rw [State.landAll, State.landAt_fly s lat k m h.1]
    simp only
    rw [ih (k.fly lat [m]) (by simpa [Core.collides_fly, Core.sched_fly] using h.2), Core.fly_fly]
    rfl

/-- R184, R185: results that collide with none are all in flight. -/
theorem State.landAll_ok (s : State) (lat : Nat) (ls : List Landing) (h : s.clear lat ls = true) :
    s.landAll lat ls = .ok (s.flying lat ls) := by
  cases ls with
  | nil => rfl
  | cons l ls =>
    simp only [State.clear, List.all_cons, Bool.and_eq_true, Bool.not_eq_true'] at h
    have h1 : s.landAt lat l = .ok (s.setCur (s.cur.fly lat [l])) := by simp [State.landAt, h.1, Core.fly]
    rw [State.landAll, h1]
    simp only
    rw [State.landAll_fly s lat ls _ (by simpa [Core.collides_fly, Core.sched_fly] using h.2), Core.fly_fly]
    rfl

/-- R185: a result of the bundle that issues now, after others of it, collides where it would have without them. -/
theorem State.landAt_hit (s : State) (lat : Nat) (k : Core) (l : Landing) (h : k.collides (k.sched + lat) l = true) :
    (s.setCur k).landAt lat l = isch := by
  simp [State.landAt, h]

theorem State.landAll_hit_fly (s : State) (lat : Nat) (ms : List Landing) (k : Core) :
    (ms.all fun l => !k.collides (k.sched + lat) l) = false → (s.setCur k).landAll lat ms = isch := by
  induction ms generalizing k with
  | nil => intro h; simp at h
  | cons m ms ih =>
    intro h
    rw [State.landAll]
    by_cases hm : k.collides (k.sched + lat) m = true
    · rw [State.landAt_hit s lat k m hm]; rfl
    · have hm' : k.collides (k.sched + lat) m = false := by simpa using hm
      rw [State.landAt_fly s lat k m hm']
      simp only
      exact ih (k.fly lat [m]) (by simpa [hm', Core.collides_fly, Core.sched_fly] using h)

/-- R185: results of which one collides raise ISCH. -/
theorem State.landAll_hit (s : State) (lat : Nat) (ls : List Landing) (h : s.clear lat ls = false) : s.landAll lat ls = isch := by
  cases ls with
  | nil => simp [State.clear] at h
  | cons l ls =>
    rw [State.landAll]
    by_cases hl : s.cur.collides (s.cur.sched + lat) l = true
    · simp [State.landAt, hl, isch, trapped]
    · have hl' : s.cur.collides (s.cur.sched + lat) l = false := by simpa using hl
      have h1 : s.landAt lat l = .ok (s.setCur (s.cur.fly lat [l])) := by simp [State.landAt, hl', Core.fly]
      rw [h1]
      simp only
      exact State.landAll_hit_fly s lat ls _ (by simpa [State.clear, hl', Core.collides_fly, Core.sched_fly] using h)

/-- R185: one result. -/
theorem State.landAt_ok (s : State) (lat : Nat) (l : Landing) (h : s.clear lat [l] = true) : s.landAt lat l = .ok (s.flying lat [l]) := by
  have := s.landAll_ok lat [l] h
  simp only [State.landAll] at this
  split at this <;> simp_all

end Sys2Proof.Machine
end

