-- ==== Sys2Proof/Laws/Claims.lean ====
section
/-! SUPPORT. How a word's meaning gives each form of statement about it: the results it lands, the effect, the fault, the stall. -/

namespace Sys2Proof.Machine

/-- R40: the queue that an access joins. -/
theorem Core.enqueue_eq (k : Core) (x : Access) : k.enqueue x =
    if x.m then { k with issueNo := k.issueNo + 1, mq := k.mq ++ [x] } else { k with issueNo := k.issueNo + 1, gq := k.gq ++ [x] } := by
  unfold Core.enqueue; cases x.m <;> rfl

/-- R224: a store for which there is a line. -/
theorem Access.overflows_false {x : Access} {q : List SqLine} (h : x.newLines q = [] ∨ q.length + (x.newLines q).length ≤ 512) :
    x.overflows q = false := by
  unfold Access.overflows
  rcases h with e | e
  · simp [e]
  · simp only [Bool.and_eq_false_iff, decide_eq_false_iff_not]; exact .inr (by omega)

/-- R224, R432: an access for which there is room enters its queue. -/
theorem State.push_ok (s : State) (x : Access) (h : s.roomFor x) : s.push x = .ok (s.queued x) := by
  obtain ⟨h1, h2⟩ := h
  have h3 : ¬ 16 ≤ s.cur.gq.length + s.cur.mq.length := by omega
  unfold State.push State.queued
  rw [Core.enqueue_eq, if_neg h3]
  by_cases hs : x.op = .store ∨ x.op = .planeStore
  · refine (if_pos (by simpa using hs)).trans ((if_neg ?_).trans rfl)
    exact fun e => Bool.false_ne_true ((Access.overflows_false (h2 hs)).symm.trans e)
  · exact (if_neg (by simpa using hs)).trans rfl

/-- R276: no popped entry's spill in flight is overwritten. -/
theorem Tail.overlaps_false {t : Tail} {n : Nat} (h : ∀ e ∈ t.flight, t.rsp + n ≤ e.1) : t.overlaps n = false := by
  unfold Tail.overlaps
  rw [List.any_eq_false]
  intro e he
  have := h e he
  simp only [decide_eq_true_eq]; omega

/-- R224: a seventeenth access waits. -/
theorem State.push_busy (s : State) (x : Access) (h : 16 ≤ s.cur.gq.length + s.cur.mq.length) : s.push x = stalled := by
  unfold State.push; simp only [h, if_true]

/-- R266: a push for which there is room takes its space; what is below the header lands later. -/
theorem State.pushEntry_ok (s : State) (lat : Nat) (h : Header) (body : List Byte) (hp : s.mayPush (body.length + 64)) (hb : body ≠ []) :
    s.pushEntry lat h body = (s.pushed h (body.length + 64)).landAt lat (.tail s.cur.tail.rsp body) := by
  obtain ⟨h1, h2, h4⟩ := hp
  have e1 : ¬ (s.job s.turn).rsDepth < s.cur.tail.rsp + (body.length + 64) := by omega
  have e2 : ¬ ringSize < s.cur.tail.resident + (body.length + 64) := by unfold ringSize; omega
  have e3 : body.isEmpty = false := by simpa using hb
  unfold State.pushEntry
  simp only [e1, e2, e3, Tail.overlaps_false h4, if_false]
  rfl

/-- R272: a push of a header alone. -/
theorem State.pushEntry_nil (s : State) (lat : Nat) (h : Header) (hp : s.mayPush 64) :
    s.pushEntry lat h [] = .ok (s.pushed h 64) := by
  obtain ⟨h1, h2, h4⟩ := hp
  have e1 : ¬ (s.job s.turn).rsDepth < s.cur.tail.rsp + 64 := by omega
  have e2 : ¬ ringSize < s.cur.tail.resident + 64 := by unfold ringSize; omega
  unfold State.pushEntry
  simp only [List.length_nil, Nat.zero_add, e1, e2, Tail.overlaps_false h4, if_false]
  rfl

/-- R261: a push past the launch's stack. -/
theorem State.pushEntry_full (s : State) (lat : Nat) (h : Header) (body : List Byte)
    (hp : (s.job s.turn).rsDepth < s.cur.tail.rsp + (body.length + 64)) : s.pushEntry lat h body = trapped 13 := by
  unfold State.pushEntry; simp only [hp, if_true]

/-- R276: a push without room in the ring. -/
theorem State.pushEntry_wait (s : State) (lat : Nat) (h : Header) (body : List Byte)
    (h1 : s.cur.tail.rsp + (body.length + 64) ≤ (s.job s.turn).rsDepth) (h2 : 131072 < s.cur.tail.resident + (body.length + 64)) :
    s.pushEntry lat h body = .error (.tail (.spill (131072 - (body.length + 64)))) := by
  have e1 : ¬ (s.job s.turn).rsDepth < s.cur.tail.rsp + (body.length + 64) := by omega
  unfold State.pushEntry; simp only [e1, ringSize, h2, if_true, if_false]

/-- R276: a push that would overwrite a popped entry whose spill is in flight. -/
theorem State.pushEntry_stall (s : State) (lat : Nat) (h : Header) (body : List Byte)
    (h1 : s.cur.tail.rsp + (body.length + 64) ≤ (s.job s.turn).rsDepth) (h2 : s.cur.tail.resident + (body.length + 64) ≤ 131072)
    (h3 : ∃ e ∈ s.cur.tail.flight, e.1 < s.cur.tail.rsp + (body.length + 64)) : s.pushEntry lat h body = stalled := by
  have e1 : ¬ (s.job s.turn).rsDepth < s.cur.tail.rsp + (body.length + 64) := by omega
  have e2 : ¬ ringSize < s.cur.tail.resident + (body.length + 64) := by unfold ringSize; omega
  have e3 : s.cur.tail.overlaps (body.length + 64) = true := by
    obtain ⟨e, he, hlt⟩ := h3
    exact List.any_eq_true.2 ⟨e, he, by simpa using hlt⟩
  unfold State.pushEntry; simp only [e1, e2, e3, if_true, if_false]

/-- R265: does the top header differ from the one that a pop names? -/
def Tail.differs (t : Tail) (op tag ty var param : Nat) : Bool :=
  t.header.op != op || t.header.tag != tag || t.header.ty != ty || t.header.var != var || t.header.param != param

theorem Tail.differs_false {t : Tail} {op tag ty var param : Nat} (h : t.topIs op tag ty var param) :
    t.differs op tag ty var param = false := by
  obtain ⟨rfl, rfl, rfl, rfl, rfl⟩ := h
  simp [Tail.differs]

theorem Tail.differs_true {t : Tail} {op tag ty var param : Nat} (h : ¬ t.topIs op tag ty var param) :
    t.differs op tag ty var param = true := by
  unfold Tail.differs
  simp only [Tail.topIs] at h
  simp only [bne_iff_ne, Bool.or_eq_true]
  tauto

/-- R265: what a pop comes to once its top entry is known to be in the ring. -/
theorem State.popEntry_top (s : State) (op tag ty var param : Nat) (arg : Option Nat) {e : TailEnt} (h0 : 0 < s.cur.tail.rsp)
    (he : s.cur.tail.ents.head? = some e) (hst : e.st < 2) :
    s.popEntry op tag ty var param arg =
      (if arg.isNone && s.cur.entryFlying e.base then isch
      else if s.cur.tail.differs op tag ty var param then trapped 11
      else if arg.any (fun x => x != s.cur.tail.header.arg) then trapped 11
      else .ok (s.cur.tail.header, s.cur.tail.bytes, s.popped)) := by
  have h0' : s.cur.tail.rsp ≠ 0 := by omega
  have h1 : ¬ 2 ≤ e.st := by omega
  unfold State.popEntry
  simp only [h0', if_false]
  cases hents : s.cur.tail.ents with
  | nil => simp [hents] at he
  | cons e' es =>
    simp only [hents, List.head?_cons, Option.some.injEq] at he
    subst he
    have hh : Header.ofBytes (s.cur.tail.read (s.cur.tail.rsp - 64) 64) = s.cur.tail.header := rfl
    simp only [h1, if_false, hh]
    have hp : s.setCur { s.cur with tail := s.afterPop s.turn (s.cur.tail.drop (64 * s.cur.tail.header.size)) } = s.popped := by
      unfold State.popped Tail.less Tail.drop
      simp only [hents, List.tail_cons, List.head?_cons]
    rw [hp]
    rfl

/-- R265: a pop whose top entry is the one named. -/
theorem State.popEntry_ok (s : State) (op tag ty var param : Nat) (hr : s.cur.topReady true)
    (ht : s.cur.tail.topIs op tag ty var param) :
    s.popEntry op tag ty var param none = .ok (s.cur.tail.header, s.cur.tail.bytes, s.popped) := by
  obtain ⟨h0, e, he, hst, hf⟩ := hr
  have hf' : s.cur.entryFlying e.base = false := hf
  rw [s.popEntry_top op tag ty var param none h0 he hst]
  simp [Tail.differs_false ht, hf']

/-- R272: a pop of a marker that `unmark` names. -/
theorem State.popEntry_mark (s : State) (op tag ty var param : Nat) (hr : s.cur.topHere)
    (ht : s.cur.tail.topIs op tag ty var param) :
    s.popEntry op tag ty var param (some s.cur.tail.header.arg) = .ok (s.cur.tail.header, s.cur.tail.bytes, s.popped) := by
  obtain ⟨h0, e, he, hst⟩ := hr
  rw [s.popEntry_top op tag ty var param _ h0 he hst]
  simp [Tail.differs_false ht]

/-- R265: a pop of an empty stack. -/
theorem State.popEntry_empty (s : State) (op tag ty var param : Nat) (arg : Option Nat) (h : s.cur.tail.rsp = 0) :
    s.popEntry op tag ty var param arg = trapped 12 := by
  unfold State.popEntry; simp only [h, if_true]

/-- R266: an undo word of an entry that has not landed. -/
theorem State.popEntry_flying (s : State) (op tag ty var param : Nat) (hr : s.cur.topReady false) :
    s.popEntry op tag ty var param none = isch := by
  obtain ⟨h0, e, he, hst, hf⟩ := hr
  have hf' : s.cur.entryFlying e.base = true := hf
  rw [s.popEntry_top op tag ty var param none h0 he hst]
  simp [hf']

/-- R265: an undo word of an entry that is not the one named. -/
theorem State.popEntry_other (s : State) (op tag ty var param : Nat) (hr : s.cur.topReady true)
    (ht : ¬ s.cur.tail.topIs op tag ty var param) : s.popEntry op tag ty var param none = trapped 11 := by
  obtain ⟨h0, e, he, hst, hf⟩ := hr
  have hf' : s.cur.entryFlying e.base = false := hf
  rw [s.popEntry_top op tag ty var param none h0 he hst]
  simp [Tail.differs_true ht, hf']

/-- R272: an `unmark` of an entry that is not the marker named. -/
theorem State.popEntry_unmarked (s : State) (op tag ty var param v : Nat) (hr : s.cur.topHere)
    (ht : ¬ (s.cur.tail.topIs op tag ty var param ∧ v = s.cur.tail.header.arg)) :
    s.popEntry op tag ty var param (some v) = trapped 11 := by
  obtain ⟨h0, e, he, hst⟩ := hr
  rw [s.popEntry_top op tag ty var param _ h0 he hst]
  by_cases hi : s.cur.tail.topIs op tag ty var param
  · have hv : v ≠ s.cur.tail.header.arg := fun hv => ht ⟨hi, hv⟩
    simp [Tail.differs_false hi, hv]
  · simp [Tail.differs_true hi]

/-- R275: a pop whose top entry is spilled asks for its refill. -/
theorem State.popEntry_refill (s : State) (op tag ty var param : Nat) (arg : Option Nat) (h0 : 0 < s.cur.tail.rsp)
    (h : s.cur.tail.ents = []) : s.popEntry op tag ty var param arg = .error (.tail .refill) := by
  have h0' : s.cur.tail.rsp ≠ 0 := by omega
  unfold State.popEntry; simp only [h0', h, if_false]

/-- R275: a pop whose top entry is being refilled waits. -/
theorem State.popEntry_waits (s : State) (op tag ty var param : Nat) (arg : Option Nat) (h0 : 0 < s.cur.tail.rsp)
    (h : ∃ e, s.cur.tail.ents.head? = some e ∧ 2 ≤ e.st) : s.popEntry op tag ty var param arg = stalled := by
  have h0' : s.cur.tail.rsp ≠ 0 := by omega
  obtain ⟨e, he, h2⟩ := h
  unfold State.popEntry
  simp only [h0', if_false]
  cases hents : s.cur.tail.ents with
  | nil => simp [hents] at he
  | cons e' es =>
    simp only [hents, List.head?_cons, Option.some.injEq] at he
    subst he
    simp only [h2, if_true]

/-- R268: the lanes an undo word rebuilds, lane by lane. -/
theorem undoLanes_eq (ena esc : BitVec 1024) (f : Nat → Word) (n i : Nat) (l : List Word) :
    undoLanes ena esc f n i l = (List.range n).map fun j =>
      if ena.getLsbD (i + j) && esc.getLsbD (i + j)
      then l.getD ((List.range j).filter fun q => ena.getLsbD (i + q) && esc.getLsbD (i + q)).length 0
      else if ena.getLsbD (i + j) then f (i + j) else 0 := by
  induction n generalizing i l with
  | zero => rfl
  | succ n ih =>
    rw [List.range_succ_eq_map, List.map_cons, List.map_map]
    unfold undoLanes
    have len (j : Nat) : ((List.range (j + 1)).filter fun q => ena.getLsbD (i + q) && esc.getLsbD (i + q)).length =
        (if ena.getLsbD i && esc.getLsbD i then 1 else 0) +
          ((List.range j).filter fun q => ena.getLsbD (i + 1 + q) && esc.getLsbD (i + 1 + q)).length := by
      rw [List.range_succ_eq_map, List.filter_cons, List.filter_map, Nat.add_zero]
      have : ((fun q => ena.getLsbD (i + q) && esc.getLsbD (i + q)) ∘ Nat.succ) =
          fun q => ena.getLsbD (i + 1 + q) && esc.getLsbD (i + 1 + q) := by
        funext q; simp only [Function.comp, Nat.succ_eq_add_one]; rw [show i + (q + 1) = i + 1 + q by omega]
      rw [this]
      by_cases c : (ena.getLsbD i && esc.getLsbD i) = true
      · simp only [c, if_true, List.length_cons, List.length_map]; omega
      · simp [c]
    by_cases c : (ena.getLsbD i && esc.getLsbD i) = true
    · simp only [c, if_true, Nat.add_zero, List.range_zero, List.filter_nil, List.length_nil]
      congr 1
      · cases l <;> rfl
      · rw [ih]
        apply List.map_congr_left
        intro j _
        simp only [Function.comp, Nat.succ_eq_add_one, len, c, if_true, show i + (j + 1) = i + 1 + j by omega]
        rw [show 1 + ((List.range j).filter fun q => ena.getLsbD (i + 1 + q) && esc.getLsbD (i + 1 + q)).length =
          ((List.range j).filter fun q => ena.getLsbD (i + 1 + q) && esc.getLsbD (i + 1 + q)).length + 1 by omega]
        cases l <;> simp
    · have c' : (ena.getLsbD i && esc.getLsbD i) = false := by simpa using c
      simp only [c', Bool.false_eq_true, if_false, Nat.add_zero]
      congr 1
      rw [ih]
      apply List.map_congr_left
      intro j _
      simp only [Function.comp, Nat.succ_eq_add_one, len, c', show i + (j + 1) = i + 1 + j by omega]
      simp

end Sys2Proof.Machine

namespace Sys2Proof.Claims
open Sys2Proof.Machine

/-- A word whose meaning lands `ls` after `g` has acted. -/
theorem takes_of {i : Instr} {ok : State → Prop} {g : State → State} {lat : Nat} {ls : State → List Landing} {f : State → Eff}
    (he : ∀ s, exec i s = s.word i f) (hf : ∀ s t : State, s.gate i = .ok t → ok t → f t = (g t).landAll lat (ls t)) :
    Takes i ok g lat ls := by
  intro s t hg ho
  rw [he]
  exact ⟨fun hc => State.word_ok hg ((hf s t hg ho).trans (State.landAll_ok _ _ _ hc)),
    fun hc => State.word_trap hg ((hf s t hg ho).trans (State.landAll_hit _ _ _ hc))⟩

/-- A word whose meaning only lands `ls`. -/
theorem lands_of {i : Instr} {lat : Nat} {ls : State → List Landing} {f : State → Eff}
    (he : ∀ s, exec i s = s.word i f) (hf : ∀ s t : State, s.gate i = .ok t → f t = t.landAll lat (ls t)) : Lands i lat ls :=
  takes_of he fun s t hg _ => hf s t hg

/-- A word that acts at once. -/
theorem acts_of {i : Instr} {ok : State → Prop} {g : State → State} {f : State → Eff}
    (he : ∀ s, exec i s = s.word i f) (hf : ∀ s t : State, s.gate i = .ok t → ok t → f t = .ok (g t)) : Acts i ok g := by
  intro s t hg ho
  rw [he]
  exact State.word_ok hg (hf s t hg ho)

/-- A word that raises a fault. -/
theorem traps_of {i : Instr} {bad : State → Prop} {x : State → Trap} {f : State → Eff}
    (he : ∀ s, exec i s = s.word i f) (hf : ∀ s t : State, s.gate i = .ok t → bad t → f t = .error (.trap (x t))) : Traps i bad x := by
  intro s t hg hb
  rw [he]
  exact State.word_trap hg (hf s t hg hb)

/-- A word that stalls. -/
theorem stalls_of {i : Instr} {busy : State → Prop} {f : State → Eff}
    (he : ∀ s, exec i s = s.word i f) (hf : ∀ s t : State, s.gate i = .ok t → busy t → f t = .error .stall) : Stalls i busy := by
  intro s t hg hb
  rw [he]
  exact State.word_stall hg (hf s t hg hb)

/-- A word that stalls and asks the Tailrace for a spill or a refill. -/
theorem asks_of {i : Instr} {busy : State → Prop} {d : State → Demand} {f : State → Eff}
    (he : ∀ s, exec i s = s.word i f) (hf : ∀ s t : State, s.gate i = .ok t → busy t → f t = .error (.tail (d t))) : Asks i busy d := by
  intro s t hg hb
  rw [he]
  exact State.word_asks hg (hf s t hg hb)

/-- A scalar integer word whose value agrees with the one claimed in every state that passes the checks. -/
theorem computes_of {i : Instr} {lat : Nat} {w : Width} {d : Fin 64} {v : State → Nat} {u : State → Core → Nat}
    (he : ∀ s, exec i s = s.word i fun s => s.scalarInt lat w d (u s))
    (hv : ∀ s t : State, s.gate i = .ok t → u t t.cur = v t) : Computes i lat w d v :=
  lands_of he fun s t hg => by simp only [State.scalarInt, State.putScalar, scalarLands, hv s t hg]

/-- A scalar-float word. -/
theorem floats_of {i : Instr} {d : Fin 64} {v : Core → Nat} {u : State → Core → Nat}
    (he : ∀ s, exec i s = s.word i fun s => s.scalarFloat d (u s)) (hv : ∀ t : State, u t t.cur = v t.cur) : Floats i d v :=
  lands_of he fun s t _ => by simp only [State.scalarFloat, State.putScalar, Width.regs, hv t]


/-- R185: one result. -/
theorem landAll_one (s : State) (lat : Nat) (l : Landing) : s.landAll lat [l] = s.landAt lat l := by
  unfold State.landAll
  cases s.landAt lat l <;> rfl

/-- An undo word. -/
theorem undoes_of {i : Instr} {lat : Nat} {d : Fin 16} {op tag ty var param fixed : Nat} {f : State → Header → List Byte → Nat → Word}
    (he : ∀ s, exec i s = s.word i fun s => s.undo lat d op tag ty var param fixed (f s)) :
    Undoes i lat d op tag ty var param fixed f := by
  refine ⟨takes_of he ?_, traps_of he ?_, traps_of he ?_, traps_of he ?_, asks_of he ?_, stalls_of he ?_⟩
  · intro s t _ ⟨hr, ht⟩
    unfold State.undo
    rw [State.popEntry_ok t _ _ _ _ _ hr ht]
    rw [landAll_one]
    simp only [undoLanes_eq, Nat.zero_add]
    rfl
  · intro s t _ h
    unfold State.undo; rw [State.popEntry_empty t _ _ _ _ _ none h]; rfl
  · intro s t _ h
    unfold State.undo; rw [State.popEntry_flying t _ _ _ _ _ h]; rfl
  · intro s t _ ⟨hr, h⟩
    unfold State.undo; rw [State.popEntry_other t _ _ _ _ _ hr h]; rfl
  · intro s t _ ⟨h0, h⟩
    unfold State.undo; rw [State.popEntry_refill t _ _ _ _ _ none h0 h]
  · intro s t _ ⟨h0, h⟩
    unfold State.undo; rw [State.popEntry_waits t _ _ _ _ _ none h0 h]; rfl

/-- R5: the number of bytes. -/
theorem leBytes_length (n v : Nat) : (leBytes n v).length = n := by
  induction n generalizing v with
  | zero => rfl
  | succ n ih => simp [leBytes, ih]

/-- R262: an entry is never a header alone. -/
theorem forward_body_ne (f l m : List Byte) (n : Nat) : f ++ l ++ m ++ leBytes 128 n ≠ [] := by
  intro h
  have h' := congrArg List.length h
  rw [List.length_append, leBytes_length] at h'
  simp at h'

/-- A field of a table of results. -/
theorem tabulate_getD {α β : Type} (n : Nat) (f : Nat → α) (g : α → β) (d : β) (i : Nat) (h : i < n) :
    ((tabulate n f).map g).getD i d = g (f i) := by
  simp [tabulate, h]

/-- R262: the escaped lanes. -/
theorem enabledEsc_eq (m : BitVec 1024) (l : Nat → Fwd) :
    (laneMask fun i => m.getLsbD i && ((tabulate 1024 l).map (·.esc)).getD i false) = laneMask fun i => m.getLsbD i && (l i).esc := by
  unfold laneMask
  have : (fun i : Fin 1024 => m.getLsbD i && ((tabulate 1024 l).map (·.esc)).getD i false) = fun i : Fin 1024 => m.getLsbD i && (l i).esc :=
    funext fun i => by rw [tabulate_getD _ _ _ _ _ i.isLt]
  rw [this]

/-- A forward word. -/
theorem forwards_of {i : Instr} {lat : Nat} {d a : Fin 16} {mask : Fin 8} {h : State → Header} {l : State → Nat → Fwd}
    {fixed : State → BitVec 1024 → List Fwd → List Byte}
    (he : ∀ s, exec i s = s.word i fun s => s.forward lat d a mask (h s) (tabulate lanes (l s)) (fixed s (s.cur.pred mask) (tabulate lanes (l s)))) :
    Forwards i lat d a mask h l fixed := by
  refine ⟨takes_of he ?_, traps_of he ?_, asks_of he ?_, stalls_of he ?_⟩
  · intro s t _ hp
    unfold State.forward
    simp only [show lanes = 1024 from rfl, enabledEsc_eq, enabledLanes, bitmap]
    rw [State.pushEntry_ok]
    · rw [State.landAll]
      cases State.landAt _ _ _ <;> rfl
    · exact hp
    · exact forward_body_ne _ _ _ _
  · intro s t _ hp
    unfold State.forward
    simp only [show lanes = 1024 from rfl, enabledEsc_eq, enabledLanes, bitmap]
    rw [State.pushEntry_full _ _ _ _ hp]; rfl
  · intro s t _ ⟨h1, h2⟩
    unfold State.forward
    simp only [show lanes = 1024 from rfl, enabledEsc_eq, enabledLanes, bitmap]
    rw [State.pushEntry_wait _ _ _ _ h1 h2]
  · intro s t _ ⟨h1, h2, h3⟩
    unfold State.forward
    simp only [show lanes = 1024 from rfl, enabledEsc_eq, enabledLanes, bitmap]
    rw [State.pushEntry_stall _ _ _ _ h1 h2 h3]; rfl

/-- A plane word. -/
theorem planes_of {i : Instr} {lat c : Nat} {pw : Fin 4} {d : Fin 16} {mask : Fin 8} {f : State → Nat → Nat → Word × Flags}
    (he : ∀ s, exec i s = s.word i fun s => s.planeOut lat c (pwPlanes pw) d mask (f s)) : Planes i lat c pw d mask f :=
  lands_of he fun _ _ _ => rfl

/-- A plane word that raises no flag. -/
theorem quiet_of {i : Instr} {lat : Nat} {pw : Fin 4} {d : Fin 16} {mask : Fin 8} {f : State → Nat → Nat → Word}
    (he : ∀ s, exec i s = s.word i fun s => s.planeQuiet lat (pwPlanes pw) d mask (f s)) : Quiet i lat pw d mask f :=
  lands_of he fun _ _ _ => rfl

/-- A word that sends an access. -/
theorem sends_of {i : Instr} {ok : State → Prop} {x : State → Access} {f : State → Eff}
    (he : ∀ s, exec i s = s.word i f) (hf : ∀ t : State, ok t → f t = t.push (x t)) : Sends i ok x :=
  ⟨acts_of he fun _ t _ h => (hf t h.1).trans (State.push_ok _ _ h.2),
    stalls_of he fun _ t _ h => (hf t h.1).trans (State.push_busy _ _ h.2)⟩

end Sys2Proof.Claims
end

