-- ==== Sys2Proof/Laws/Memory.lean ====
section
/-! SUPPORT. Every operation on memory keeps both memories in canonical form. -/

namespace Sys2Proof.Machine

/-- What canonical means, for use in proofs. -/
theorem State.canonical_iff (s : State) : s.canonical = true ↔ Map.wf 0 s.gmem = true ∧ Map.wf 0 s.pmem = true := by
  simp [State.canonical, Memory.wf]

/-- A state with the same memories is as canonical. -/
theorem State.canonical_congr {s t : State} (hg : t.gmem = s.gmem) (hp : t.pmem = s.pmem) : t.canonical = s.canonical := by
  simp [State.canonical, hg, hp]

theorem State.reset_canonical : State.reset.canonical = true := rfl

/-- A write of the G space. -/
theorem State.gWrite_canonical {s : State} (a : Nat) (bs : List Byte) (h : s.canonical = true) : (s.gWrite a bs).canonical = true := by
  rw [canonical_iff] at h ⊢
  exact ⟨Map.setList_wf bs a h.1, h.2⟩

/-- A write of a byte of device memory. -/
theorem State.paSet_canonical {s : State} (key pa : Nat) (b : Byte) (h : s.canonical = true) : (s.paSet key pa b).canonical = true := by
  rw [canonical_iff] at h ⊢
  exact ⟨h.1, Map.set_wf pa b h.2⟩

/-- A write of device memory. -/
theorem State.paWrite_canonical (bs : List Byte) {s : State} (key pa : Nat) (h : s.canonical = true) :
    (s.paWrite key pa bs).canonical = true := by
  induction bs generalizing s pa with
  | nil => exact h
  | cons b bs ih => exact ih (pa + 1) (State.paSet_canonical key pa b h)

/-- A write of the device's own. -/
theorem State.saveWrite_canonical {s : State} (p key pa : Nat) (bs : List Byte) (h : s.canonical = true) :
    (s.saveWrite p key pa bs).canonical = true := by
  unfold State.saveWrite
  split
  · exact State.paWrite_canonical _ _ _ h
  · exact h

/-- Zeros of whole lines. -/
theorem State.paZero_canonical {s : State} (key line n : Nat) (h : s.canonical = true) : (s.paZero key line n).canonical = true := by
  rw [canonical_iff] at h ⊢
  exact ⟨h.1, Map.filter_wf _ h.2⟩

/-- Zeros of the device's own. -/
theorem State.saveZero_canonical {s : State} (p key pa n : Nat) (h : s.canonical = true) : (s.saveZero p key pa n).canonical = true := by
  unfold State.saveZero
  split
  · exact State.paZero_canonical _ _ _ h
  · exact h

/-- An entry of the undo log. -/
theorem State.undoEntry_canonical {s : State} (gid : Nat) (g : Gang) (u : UndoLine) (h : s.canonical = true) :
    (s.undoEntry gid g u).canonical = true := by
  unfold State.undoEntry
  dsimp only
  split
  · exact State.saveWrite_canonical _ _ _ _ h
  · exact h

theorem State.undoG_canonical {s : State} (gid l : Nat) (h : s.canonical = true) : (s.undoG gid l).canonical = true := by
  unfold State.undoG
  split <;> [split <;> [exact State.undoEntry_canonical _ _ _ h; exact h]; exact h]

theorem State.undoGs_canonical (ls : List Nat) {s : State} (gid : Nat) (h : s.canonical = true) : (s.undoGs gid ls).canonical = true := by
  induction ls generalizing s with
  | nil => exact h
  | cons l ls ih => exact ih (State.undoG_canonical gid l h)

/-- A write of the G space by a gang. -/
theorem State.gStore_canonical {s : State} (gid a : Nat) (bs : List Byte) (h : s.canonical = true) :
    (s.gStore gid a bs).canonical = true :=
  State.gWrite_canonical a bs (State.undoGs_canonical _ gid h)

theorem State.undoM_canonical {s : State} (gid key l : Nat) (h : s.canonical = true) : (s.undoM gid key l).canonical = true := by
  unfold State.undoM
  split <;> [split <;> [exact State.undoEntry_canonical _ _ _ h; exact h]; exact h]

theorem State.undoMs_canonical (ls : List Nat) {s : State} (gid key : Nat) (h : s.canonical = true) :
    (s.undoMs gid key ls).canonical = true := by
  induction ls generalizing s with
  | nil => exact h
  | cons l ls ih => exact ih (State.undoM_canonical gid key l h)

/-- A write of device memory by a gang. -/
theorem State.paStore_canonical {s : State} (gid key pa : Nat) (bs : List Byte) (h : s.canonical = true) :
    (s.paStore gid key pa bs).canonical = true :=
  State.paWrite_canonical bs key pa (State.undoMs_canonical _ gid key h)

theorem State.patchUndo_canonical (bs : List Byte) (s : State) (pa : Nat) : (s.patchUndo pa bs).canonical = s.canonical := by
  induction bs generalizing s pa with
  | nil => rfl
  | cons b bs ih => exact (ih _ _).trans rfl

theorem State.noteHost_canonical (s : State) (gid key : Nat) (ls : List Nat) : (s.noteHost gid key ls).canonical = s.canonical := by
  unfold State.noteHost
  split <;> [split <;> rfl; rfl]

theorem State.paPut_canonical {s : State} (v key pa : Nat) (bs : List Byte) (k : MKind) (h : s.canonical = true) :
    (s.paPut v key pa bs k).canonical = true := by
  unfold State.paPut
  split
  · exact State.paStore_canonical _ key pa bs h
  · exact (State.noteHost_canonical _ _ _ _).trans ((State.patchUndo_canonical _ _ _).trans (State.paWrite_canonical bs key pa h))

theorem State.chargeMem_canonical (s : State) (v pa n : Nat) : (s.chargeMem v pa n).canonical = s.canonical := by
  unfold State.chargeMem
  split <;> rfl

/-- Setting A and D in a leaf. -/
theorem State.noteLeaf_canonical {s : State} (v va : Nat) (lf : Leaf) (k : MKind) (h : s.canonical = true) :
    (s.noteLeaf v va lf k).canonical = true := by
  have marked (w x : Nat) : (if w = x then s else s.paWrite 0 (lf.word va) (leBytes 8 w)).canonical = true := by
    split
    · exact h
    · exact State.paWrite_canonical _ 0 _ h
  unfold State.noteLeaf
  split
  · exact h
  · exact (State.canonical_congr rfl rfl).trans (marked _ _)

/-- A write of M. -/
theorem State.mStore_canonical {s t : State} {v va : Nat} {bs : List Byte} {k : MKind} (h : s.canonical = true)
    (e : s.mStore v va bs k = .ok t) : t.canonical = true := by
  unfold State.mStore at e
  split at e
  · cases e
  · cases e
    exact State.paPut_canonical _ _ _ _ _ ((State.chargeMem_canonical _ _ _ _).trans (State.noteLeaf_canonical _ _ _ _ h))

/-- A read of M. -/
theorem State.mLoad_canonical {s t : State} {v va n : Nat} {k : MKind} {b : List Byte} (h : s.canonical = true)
    (e : s.mLoad v va n k = .ok (b, t)) : t.canonical = true := by
  unfold State.mLoad at e
  split at e
  · cases e
  · cases e
    exact (State.chargeMem_canonical _ _ _ _).trans (State.noteLeaf_canonical _ _ _ _ h)

theorem State.mWriteAll_canonical (fuel : Nat) {s t : State} {v va : Nat} {bs : List Byte} {k : MKind} (h : s.canonical = true)
    (e : s.mWriteAll v k fuel va bs = .ok t) : t.canonical = true := by
  induction fuel generalizing s va bs with
  | zero => cases bs <;> (cases e; exact h)
  | succ n ih =>
    cases bs with
    | nil => cases e; exact h
    | cons b bs =>
      simp only [State.mWriteAll] at e
      split at e
      · cases e
      · exact ih (State.mStore_canonical h ‹_›) e

/-- A write of an extent of M. -/
theorem State.mWriteExtent_canonical {s t : State} {v va : Nat} {bs : List Byte} {k : MKind} (h : s.canonical = true)
    (e : s.mWriteExtent v va bs k = .ok t) : t.canonical = true := by
  unfold State.mWriteExtent at e
  split at e
  · cases e
  · exact State.mWriteAll_canonical _ h e

/-- A write of M that has passed its checks. -/
theorem State.mPoke_canonical {s : State} (v va : Nat) (bs : List Byte) (h : s.canonical = true) : (s.mPoke v va bs).canonical = true := by
  unfold State.mPoke
  split
  · split
    · exact State.paPut_canonical _ _ _ _ _ h
    · exact h
  · exact h

/-- Setting A and D before a write that has passed its checks. -/
theorem State.noteHeld_canonical {s : State} (v va : Nat) (h : s.canonical = true) : (s.noteHeld v va).canonical = true := by
  unfold State.noteHeld
  split
  · dsimp only
    split
    · exact h
    · exact State.noteLeaf_canonical _ _ _ _ h
  · exact h

/-- A change of a spill map. -/
theorem State.setSpillBit_canonical {s : State} (gid g : Nat) (b : Bool) (h : s.canonical = true) :
    (s.setSpillBit gid g b).canonical = true := by
  unfold State.setSpillBit
  split
  · dsimp only
    split
    · exact h
    · exact State.saveWrite_canonical _ _ _ _ h
  · exact h

end Sys2Proof.Machine
end

