-- ==== Sys2Proof/Tests/Slice0.lean ====
section
/-! SUPPORT. The package's own tests: ill-formed terms that are refused, words written out from the spec's encodings, single steps
on small states, and for every statement a concrete state that meets its hypotheses. -/

namespace Sys2Proof.Tests
open Sys2Proof Sys2Proof.Machine Sys2Proof.Claims

set_option Elab.async false

/-! ### Small states -/

/-- A core that runs a continuation (log 3). -/
def here : State := State.reset.placeWord 0#32

/-- How an instruction went. -/
def mark (s : State) (i : Instr) : Mark := match exec i s with | .next t => t.mark | _ => .tick

/-- The state after an instruction. -/
def next (s : State) (i : Instr) : State := match exec i s with | .next t => t | _ => s

/-- A change of core 0. -/
def core0 (f : Core → Core) (s : State) : State := s.setCore 0 (f (s.core 0))

/-- A change of virtual device 0. -/
def vd0 (f : VDev → VDev) (s : State) : State := s.setVd 0 (f (s.vd 0))

/-- Core 0 with values in scalar registers. -/
def regs (l : List (Nat × Word)) (s : State) : State := core0 (fun k => { k with sregs := l.foldl (fun m e => Map.put m e.1 e.2) k.sregs }) s

/-- Handle `h` of core 0. -/
def handle0 (h : Fin 64) (x : Handle) (s : State) : State := core0 (fun k => k.setHandle h x) s

/-- A handle with one bank of 8 KiB. -/
def bank : Handle := { Handle.reset with defd := true, base := 0, size := 31 }

/-! ### Ill-formed terms -/

/-- R158, R160, R162, R213: registers: a source above 60, a destination above 55, a misaligned or too high group, s0 as a group, a partial
overlap, and widths that a word does not take. -/
theorem test_registers_refused :
    [Instr.add 56 1 2 .s, .add 1 61 2 .s, .add 1 2 63 .s, .add 2 3 4 .d, .add 0 2 4 .d, .cmov 52 8 1 .o, .add 4 8 12 .q, .shl 2 4 3 .d, .ceq 4 5 6 .d,
     .cmov 4 8 6 .q, .ext 2 2 .d 4, .ext 1 2 .s 4, .ext 1 2 .s 6, .ldl 2 3 4 .d 0, .ldm 8 9 1 .o, .ret 3, .jx 0, .jxl 55 2, .mulh 56 1 2,
     .wpoll 2 3, .hdef 0 1 false, .flow 5 0, .fpoll 54 0].map Instr.wf =
    [false, false, false, false, false, false, false, false, false, false, false, false, false, false, false, false, false, false, false,
     false, false, false, true] := by decide

/-- R154, R197-R209: codes and immediates out of range. -/
theorem test_codes_refused :
    [Instr.shli 1 2 32, .shri 1 2 64, .sari 1 2 2047, .fadd 1 2 3 4, .fcmp 1 2 3 7, .fcvt 1 2 8 0, .fcvt 1 2 5 1, .scope 5, .phase 7, .bar 5,
     .mfsr 1 0x51, .mfsr 1 5, .mtsr 1 0, .mtsr 3 0x20, .tload 16 2 0, .tset 1 2 5, .rvinfo 1 4, .wcomm 1 2 4, .atom 1 2 12 .s false true,
     .atom 2 4 9 .d false true, .atom 2 3 0 .d true true, .cas 2 3 4 .d false, .oatomP 1 2 12, .ldh 0 1 2, .sth 0 1 1, .psth 0 1 1].map Instr.wf =
    List.replicate 26 false := by decide

/-- R163-R165, R238-R253: plane groups, types, variants, predicates and axes. -/
theorem test_planes_refused :
    [Instr.padd 1 2 4 0 1 0 0, .padd 0 4 8 0 3 0 0, .padd 1 2 3 0 0 3 0, .padd 1 2 3 0 0 0 5, .pmin 1 2 3 0 0 3 0, .pmin 1 2 3 0 0 0 1, .pabs 1 2 0 0 0 1,
     .pcmp 0 1 2 0 0 0, .pcmp 13 1 2 0 0 0, .pcmp 1 1 2 0 0 5, .psel 1 2 13 0 0, .pcvt 1 2 8 0 0 0 0, .pshl 1 2 3 0 0 0 0,
     .pmand 0 1 2 0, .pmnot 1 13 0, .pvote 1 2 0 3, .pvote 1 2 0 7, .pflag 7 0 0, .pflag 1 0 2, .prng 1 0 0 2, .pscale 1 2 3 0 4 0, .pdot2 1 2 3 0 0 0 0,
     .pround 1 2 0 0 0 4, .paddi 1 2 3 0 0 0, .protRow 1 2 64 0 0, .protCol 1 2 16 0 0, .pspf 1 2 0 0 4 0, .pdiv 1 2 3 0 0 0 5, .ptrig 1 2 0 0 0 2,
     .pxbar 1 2 8 0, .pxset 8 1 0, .rvnarrow 1 2 2 0 0, .rvcvt 1 2 4 0 0, .mret 0 1 0 7 false false 0 false, .mret 0 1 0 0 false false 1 false,
     .mld 0 1 0 3 false].map Instr.wf =
    List.replicate 36 false := by decide

/-! ### Words written out from the spec's encodings -/

/-- The instructions of several words. -/
def decodes (l : List Nat) : List (Option Instr) := l.map fun w => decodeTableWord 32 w

/-- R155, R176, R179, R204-R216, R436: the words of integer, float, control and system worked out in the spec. -/
theorem test_decode_scalar :
    decodes [0xAC80091A, 0x950E5678, 0x80860840, 0x16A8A0EA, 0x1B922001, 0x1C13FFF4, 0x1F000148, 0x71000000, 0x71800000, 0x70000042, 0x7406000C,
      0x708828C0, 0x73800000, 0x73000007] =
    [some (.limm 0x91A), some (.movi 7 0x5678), some (.add 3 1 2 .s), some (.lea 20 20 7 .d false 2), some (.fcvt 9 4 0 1),
     some (.br 9 0x1FFF4), some (.loopi 8 5 0), some .yieldItem, some .endItem, some (.trap 0x42), some (.sysc 3 12), some (.resume 4 5 6),
     some .halt, some (.snap 7)] := by decide +kernel

/-- R226, R235-R272: memory, plane, crossbar and reversible words worked out in the spec. -/
theorem test_decode_planes :
    decodes [0x23862841, 0x28119400, 0x30100800, 0x40880A00, 0x35C00098, 0x48190005, 0x4E321000, 0x50223003, 0x50A23003, 0x52120809, 0x53088E00,
      0x56000A02] =
    [some (.ldh 3 5 0x41), some (.pld 2 3 10 0), some (.padd 2 0 1 0 0 0 0), some (.pmuls 1 0 5 0 0 0), some (.pcvt 8 0 0 0 2 3 0),
     some (.protRow 3 2 5 0 0), some (.pxbar 6 4 2 0), some (.rvadd 4 4 6 0 3), some (.unadd 4 4 6 3), some (.rvnarrow 2 4 1 0 1),
     some (.rvscale 1 1 7 0 0), some (.rvmark 5 2)] := by decide +kernel

/-- R288-R309: matrix words worked out in the spec. -/
theorem test_decode_matrix :
    decodes [0x58080011, 0x58823000, 0x59215128, 0x598230CA, 0x5A125230, 0x5B066141, 0x5BB00000, 0x5B800040] =
    [some (.tload 4 0 17), some (.tset 1 6 0), some (.mma 2 1 5 2 false true false true), some (.mmag 0 2 3 1 9 false true false),
     some (.mret 9 10 2 1 true false 0 false), some (.mld 3 12 1 1 true), some (.mwait 3), some .mwaitAll] := by decide +kernel

/-- R320: the words of synchronization and of the engines, as their table encodes them. -/
theorem test_decode_engines :
    decodes [0x2C400000, 0x68100000, 0x6AA00000, 0x68800000, 0x6910A00B, 0x6994A182, 0x6A020124, 0x6B0E1800, 0x6B804800, 0x6000A009, 0x60900008,
      0x61000001, 0x61983001, 0x62060005, 0x628A0003, 0x630A0000, 0x63920000, 0x64002288, 0x64902008, 0x650A2001, 0x65802000] =
    [some (.scope 4), some (.phase 1), some (.bar 2), some .fence, some (.atom 8 20 0 .d true true), some (.cas 10 20 12 .s true),
     some (.oatomP 1 0 9), some (.ostep 7 3), some (.mbtag 9), some (.flow 20 1), some (.fpoll 8 0), some (.fhalt 1), some (.hdef 12 6 true),
     some (.hset 3 2 true), some (.await 5 true true), some (.hrel 5), some (.hpub 9), some (.wpost 4 20), some (.wpoll 8 4), some (.wcomm 5 4 1),
     some (.wbar 4)] := by decide +kernel

/-- R148, R157: reserved opcodes and reserved fields give no instruction. -/
theorem test_decode_refused :
    decodes [0x7FFFFFFF, 0x24800000, 0x00000001, 0x00860841, 0x70020000, 0x68800001] = [none, none, none, none, none, none] := by decide +kernel

/-! ### Words that complete: for each, a state that passes the checks and the word's own conditions -/

/-- Do all these words take effect in a state? Their unit is then free, and their registers not busy. -/
def allOk (s : State) (l : List Instr) : Bool := l.all fun i => mark s i = .ok

/-- R197-R204: integer words. -/
theorem witness_integer_words : allOk here
    [.add 2 4 6 .d, .sub 2 4 6 .s, .and 2 4 6 .s, .or 2 4 6 .s, .xor 2 4 6 .s, .andn 2 4 6 .s, .orn 2 4 6 .s, .shl 2 4 6 .s, .shr 2 4 6 .s,
     .sar 2 4 6 .s, .rotl 2 4 6 .d, .min 2 4 6 .s, .max 2 4 6 .s, .minn 2 4 6 .s, .maxn 2 4 6 .s, .ceq 2 4 6 .d, .clt 2 4 6 .s, .cltn 2 4 6 .s,
     .cmov 8 16 6 .o, .mul 2 4 6 .s, .mulh 2 4 6, .mulhn 2 4 6, .clz 2 4 .s, .popc 2 4 .s, .brev 2 4 .s, .bext 2 4 6 .s true, .bins 2 4 6 .s,
     .addi 2 4 (-1), .andi 2 4 1, .ori 2 4 1, .xori 2 4 1, .shli 2 4 31, .shri 2 4 31, .sari 2 4 31, .ceqi 2 4 1, .clti 2 4 1, .cltni 2 4 1,
     .movi 2 1, .lui 2 1, .madd 2 4 6 .s, .lea 2 4 6 .d true 3, .mov 8 16 .o, .ext 2 4 .s 0, .ext 2 4 .s 1, .ext 2 4 .s 2, .ext 2 4 .s 3,
     .ext 2 6 .d 4, .ext 2 6 .d 5] = true := by decide +kernel

/-- R199: the divider is free; a second division at once finds it taken. -/
theorem witness_divide_words : allOk here [.div 2 4 6 .s, .divn 2 4 6 .s, .rem 2 4 6 .s, .remn 2 4 6 .d] = true ∧
    mark (next here (.div 2 4 6 .s)) (.rem 8 4 6 .s) = .trap { cls := 2 } := by decide +kernel

/-- R206-R209: scalar-float words. -/
theorem witness_float_words : allOk here
    [.fadd 2 4 6 3, .fsub 2 4 6 0, .fmul 2 4 6 0, .ffma 2 4 6 0, .fmin 2 4 6, .fmax 2 4 6, .fcmp 2 4 6 3, .fcvt 2 4 7 0] = true ∧
    (Fmt.f32.decode (fround [.nan false] none 0)).isNan = true := by decide +kernel

/-- R211-R217: control words, taken and not taken, with an open loop set at the highest level that the depth allows. -/
theorem witness_control_words : allOk (regs [(2, 1)] here)
    [.br 2 5, .br 0 5, .brv 2 5, .brv 0 5, .jmp 3, .call 3, .ret 2, .jx 2, .jxl 2 4, .loop 2 1 0, .loopi 1 1 0, .loopi 0 1 0] = true ∧
    mark here (.loop 2 1 0) = .ok ∧ mark here (.loop 2 0 0) = .trap { cls := 1 } ∧ mark here (.loopi 5 1 1) = .trap { cls := 1 } ∧
    (here.job here.turn).fetchBundle here.turn 1 = some [0] ∧
    allOk (core0 (fun k => { k with fpos := 1 }) (regs [(2, 1)] here)) [.br 2 5, .brv 0 5] = true := by decide +kernel

/-- R146, R167, R278, R308, R436, R439: system words. -/
theorem witness_system_words : allOk here
    [.nop, .limm 5, .mwait 1, .mwaitAll, .mfsr 2 0x51, .mfsr 2 0x11, .mtsr 2 0x20, .mtsr 2 0x31, .yieldItem, .endItem, .snap 7, .sysc 2 12] = true ∧
    (here.vd (here.coreVd here.turn)).snCtl.getLsbD 0 = false ∧
    allOk (vd0 (fun x => { x with snCtl := 1, tstop := true, dbgEn := true }) here) [.snap 7, .trap 3, .halt] = true ∧
    allOk (vd0 (fun x => { x with tstop := true }) here) [.halt] = true ∧
    mark here (.trap 3) = .trap { cls := 19, code := 3 } ∧ mark here .halt = .trap { cls := 19 } := by decide +kernel

/-- R260, R278: a stack that is not empty. -/
def stacked : State := next here (.rvmark 2 0)

/-- R260, R278: a base write and a suspension find the stack not empty. -/
theorem witness_stack_not_empty : mark stacked (.mtsr 2 0x31) = .trap { cls := 13 } ∧ mark stacked .yieldItem = .trap { cls := 15 } ∧
    mark stacked .endItem = .trap { cls := 15 } ∧ mark stacked (.mtsr 2 0x32) = .ok := by decide +kernel

/-- R219-R223: scalar loads and stores, at the last word of a window, beyond it, and misaligned. -/
theorem witness_scalar_memory :
    allOk (regs [(4, 2097144)] here) [.ldl 2 4 0 .d 3, .stl 2 4 0 .d 0] = true ∧
    mark (regs [(4, 2097152)] here) (.ldl 2 4 0 .s 0) = .trap { cls := 3, addr := 2097152 } ∧
    mark (regs [(4, 2097150)] here) (.stl 2 4 0 .s 0) = .trap { cls := 4, addr := 2097150 } ∧
    allOk (regs [(4, 0x9FFFFFFC)] here) [.ldg 2 4 0 .s 0, .stg 2 4 0 .s 0] = true ∧
    allOk (regs [(4, 4088)] here) [.ldm 2 4 0 .d, .stm 2 4 0 .d] = true ∧
    mark (regs [(4, 65532)] here) (.ldk 2 4 0 .s 0) = .ok := by decide +kernel

/-- R220, R224: the conditions of a store to G at the end of the window: the room in its queue. -/
theorem witness_room : (regs [(4, 0x9FFFFFFC)] here).roomFor (Access.base .store false 0x9FFFFFFC 4) := by
  refine ⟨by decide +kernel, fun _ => by decide +kernel⟩

/-- Core 0 whose store queue holds 512 lines. -/
def fullQueue (l : List (Nat × Word)) : State := core0 (fun k => { k with
  sq := (List.range 512).map fun n => { m := false, scope := 0, block := n, mask := 1, data := List.replicate 64 0 } }) (regs l here)

/-- R220, R224, R235: accesses to G and M that are misaligned, or that end beyond their window, and stores with no line left. -/
theorem witness_far_memory_stops :
    mark (regs [(4, 0x9FFFFFFE)] here) (.ldg 2 4 0 .s 0) = .trap { cls := 4, addr := 0x9FFFFFFE } ∧
    mark (regs [(4, 0xA0000000)] here) (.stg 2 4 0 .s 0) = .trap { cls := 3, addr := 0xA0000000 } ∧
    mark (regs [(4, 4096)] here) (.ldm 2 4 0 .s) = .trap { cls := 3, addr := 4096 } ∧
    mark (regs [(4, 2)] here) (.stm 2 4 0 .s) = .trap { cls := 4, addr := 2 } ∧
    mark (regs [(4, 65536)] here) (.ldk 2 4 0 .s 0) = .trap { cls := 3, addr := 65536 } ∧
    mark (regs [(2, 2097152)] here) (.pld 1 0 2 0) = .trap { cls := 3, addr := 2097152 } ∧
    mark (regs [(2, 0x9FFFF004)] here) (.pstg 1 0 2 1) = .trap { cls := 4, addr := 0x9FFFF004 } ∧
    mark (regs [(4, 0x9FFFFFFE)] here) (.atom 2 4 8 .s false true) = .trap { cls := 4, addr := 0x9FFFFFFE } ∧
    mark (regs [(4, 0xA0000000)] here) (.cas 2 4 6 .s false) = .trap { cls := 3, addr := 0xA0000000 } := by decide +kernel

/-- R224: a store with no line left, of one word and of a plane, and one that its own line's bytes leave room for. -/
theorem witness_overflows :
    mark (fullQueue [(4, 0x9FFFFFFC)]) (.stg 2 4 0 .s 0) = .trap { cls := 14, addr := 0x9FFFFFFC } ∧
    mark (fullQueue [(4, 4088)]) (.stm 2 4 0 .d) = .trap { cls := 14, addr := 4088 } ∧
    mark (fullQueue [(2, 0x9FFFF000)]) (.pstg 1 0 2 0) = .trap { cls := 14, addr := 0x9FFFF000 } ∧
    mark (fullQueue [(4, 64)]) (.stg 2 4 0 .s 0) = .ok := by decide +kernel

/-- A handle whose visible bank is ready. -/
def readyBank : Handle := { bank with state := 2 }

/-- R135, R226, R236: handle loads of a ready bank and stores to an empty one, at the last place of the bank; a load of an empty bank waits;
a store to a draining one, or through an undefined handle, faults. -/
theorem witness_handle_memory :
    allOk (handle0 3 readyBank here) [.ldh 3 5 0, .sth 3 5 0, .pldh 3 2 0, .psth 3 2 2] = true ∧
    allOk (handle0 3 bank here) [.sth 3 5 1020, .psth 3 2 0] = true ∧ mark (handle0 3 bank here) (.ldh 3 5 0) = .stall ∧
    mark (handle0 3 readyBank here) (.ldh 3 5 1) = .stall ∧
    mark (handle0 3 { bank with state := 3 } here) (.sth 3 5 0) = .trap { cls := 16, addr := 3 } ∧
    mark here (.sth 3 5 0) = .trap { cls := 16, addr := 3 } ∧ mark (handle0 3 { bank with mretBusy := 1 } here) (.sth 3 5 0) = .stall ∧
    mark (handle0 3 { readyBank with mretBusy := 1 } here) (.ldh 3 5 0) = .stall := by decide +kernel

/-- R235, R237: plane loads and stores at the end of the slice and of the G space, and lane by lane. -/
theorem witness_plane_memory :
    allOk (regs [(2, 2093056)] here) [.pld 1 0 2 0, .pst 1 0 2 0] = true ∧
    allOk (regs [(2, 0x9FFFF000)] here) [.pldg 1 0 2 1, .pstg 1 0 2 1] = true ∧
    allOk here [.pgather 1 2 1 false, .pscatter 1 2 1 false, .pgather 1 2 1 true, .pscatter 1 2 1 true] = true ∧
    here.gatherCheck (here.cur.gatherLanes 2 1) false = none := by decide +kernel

/-- R228-R254: plane words, each with its pipe free. -/
theorem witness_plane_words : allOk here
    [.padd 1 2 3 0 0 0 0, .psub 1 2 3 0 0 4 1, .pmul 1 2 3 0 0 0 4, .pabsd 1 2 3 0 0 0 0, .pfma 1 2 3 0 0 0 0, .pfms 1 2 3 0 0 0 0, .pmuls 1 2 2 0 0 0,
     .pfmas 1 2 2 0 0 0, .paddi 1 2 63 0 4 0, .pscale 1 2 2 0 0 0, .pmin 1 2 3 0 0 0 0, .pmax 1 2 3 0 0 0 0, .pclamp 1 2 3 0 0 0 0, .pabs 1 2 0 0 0 0,
     .pneg 1 2 0 0 0 0, .pround 1 2 0 0 0 0, .pdot2 1 2 3 0 0 6 0, .pbcs 1 2 0 0 0, .pins 1 2 0 0 0, .pext 1 2 0 0] = true ∧
    allOk here
    [.pand 4 8 12 0 2, .por 1 2 3 0 0, .pxor 1 2 3 0 0, .pnot 1 2 0 0, .pmov 4 8 0 2, .pshl 1 2 3 0 0 4 0, .pshr 1 2 3 0 0 5 0, .psar 1 2 3 0 0 6 0,
     .piota 1 0 0 4 0, .pcvt 1 2 0 0 0 0 0, .prng 1 0 0 0, .prng 1 0 0 1, .pspf 1 2 0 0 0 0, .pdiv 1 2 3 0 0 0 0, .ptrig 1 2 0 0 0 1] = true := by
  decide +kernel

/-- R243-R252: predicate and axis words. -/
theorem witness_predicate_words : allOk here
    [.pcmp 1 2 3 0 0 0, .psel 2 4 1 0 1, .pmand 1 2 3 0, .pmor 12 2 3 0, .pmxor 1 2 3 0, .pmnot 1 2 0, .pvote 1 2 0 0, .pvote 1 2 0 1, .pvote 1 2 0 2,
     .pvote 1 2 0 4, .pvote 1 2 0 5, .pvote 1 2 0 6, .pflag 8 0 0, .pflag 1 0 1, .pflag 0 0 2] = true ∧
    allOk here
    [.protRow 1 2 63 0 0, .protCol 1 2 15 0 0, .pbcRow 1 2 63 0 0, .pbcCol 1 2 15 0 0, .psumRow 1 2 0 0 0 0, .psumCol 1 2 0 0 0 0,
     .predRow 1 2 0 0 0 0, .predCol 1 2 0 0 0 0] = true := by decide +kernel

/-- R256-R258: crossbar words, without and with a collision in the slot. -/
theorem witness_crossbar_words : allOk here [.pxset 7 2 0, .pxbar 1 2 7 0, .pxtr 1 2 0] = true ∧
    mark (core0 (fun k => { k with xslots := [(7, { XSlot.reset with coll := true })] }) here) (.pxbar 1 2 7 0) = .trap { cls := 2 } := by
  decide +kernel

/-- R185-R187: words that collide: of another latency on one register in one cycle, and a latch, which does not collide; a taken unit. -/
theorem witness_collisions :
    (let s := core0 (fun k => { k.fly 2 [.reg 2 9] with sched := 1 }) here
     mark s (.add 2 4 6 .s) = .trap { cls := 2 } ∧ mark s (.add 3 4 6 .s) = .ok ∧ mark s (.movi 0 4) = .ok) ∧
    mark (core0 (fun k => { k.fly 2 [.latch 1 9] with sched := 1 }) here) (.add 2 4 6 .s) = .ok ∧
    (here.clear 1 [.pred 3 0 0, .plane 2 0 []] = true) := by decide +kernel

/-- R135, R226, R236, R422: the window faults and the handle-state violations of handle loads and stores. -/
theorem witness_handle_memory_stops :
    (let past := { readyBank with base := 8191, size := 31 }
     [mark (handle0 3 readyBank here) (.ldh 3 5 (-4)), mark (handle0 3 readyBank here) (.sth 3 5 (-4)), mark (handle0 3 readyBank here) (.pldh 3 2 4),
       mark (handle0 3 readyBank here) (.psth 3 2 4)] = List.replicate 4 (.trap { cls := 3 }) ∧
     [mark (handle0 3 past here) (.ldh 3 5 256), mark (handle0 3 past here) (.sth 3 5 256)] = List.replicate 2 (.trap { cls := 3, addr := 2097152 }) ∧
     [mark (handle0 3 past here) (.pldh 3 2 0), mark (handle0 3 past here) (.psth 3 2 0)] = List.replicate 2 (.trap { cls := 3, addr := 2096896 })) ∧
    mark here (.ldh 3 5 0) = .trap { cls := 16, addr := 3 } ∧ mark here (.pldh 3 2 0) = .trap { cls := 16, addr := 3 } ∧
    mark here (.psth 3 2 0) = .trap { cls := 16, addr := 3 } ∧ mark (handle0 3 { bank with state := 3 } here) (.psth 3 2 0) = .trap { cls := 16, addr := 3 } ∧
    mark (handle0 3 bank here) (.pldh 3 2 0) = .stall ∧ mark (handle0 3 { bank with mretBusy := 1 } here) (.psth 3 2 0) = .stall ∧
    (((handle0 3 { bank with state := 3, rdr := 1 } here).core 0).readsDone [.ldh 3 5 0]).handle 3 = { bank with state := 0 } := by decide +kernel

/-- R237: the first failing lane of a gather of the G space: beyond protection, past the space, misaligned. -/
theorem witness_gather_stops :
    here.gatherCheck [(0, 0x9FFFFFFC), (1, 2)] true = some { cls := 6, addr := 0x9FFFFFFC } ∧
    here.gatherCheck [(0, 2), (1, 0x9FFFFFFC)] true = some { cls := 4, addr := 2 } ∧
    here.gatherCheck [(0, 0), (1, 0xA0000000)] true = some { cls := 3, addr := 0xA0000000 } ∧
    here.gatherCheck [(0, 0)] true = none ∧ here.gatherCheck [(0, 2097152)] false = some { cls := 3, addr := 2097152 } := by decide +kernel

/-- R234: a bundle of two drawing words: the second draws one further on, and the bundle advances the counter by two. -/
theorem witness_draws :
    (placeWords 0 0 none 0 0 ([Instr.prng 1 0 0 0, .nop, .prng 2 0 0 0].map some)).map (·.draws) = [0, 1, 1] ∧
    (((core0 (fun k => { k with rngctr := 5 }) here).afterIssue 0 0 3 [.prng 1 0 0 0, .nop, .prng 2 0 0 0] 2).core 0).inflight =
      [{ at_ := 0, due := 1, what := .sysreg 0x21 7 }] := by decide +kernel

/-! ### The Tailrace -/

/-- A stack whose top entry, of `n` bytes, has the header of a forward word. -/
def topTail (h : Header) (n : Nat) : Tail :=
  let ring := ringWrite [] (n - 64) ({ h with size := n / 64 } : Header).bytes
  { Tail.reset with rsp := n, count := 1, ring := ring, ents := [{ base := 0, size := n, st := 0 }] }

/-- A core with that stack. -/
def topped (h : Header) (n : Nat) : State := core0 (fun k => { k with tail := topTail h n }) here

/-- R266: the forward words, with no lane enabled. -/
theorem witness_forward_words : allOk here [.rvadd 1 2 3 1 0, .rvmul 1 2 3 1 7, .rvscale 1 2 2 1 0, .rvlrelu 1 2 15 1 0] = true ∧
    allOk here [.rvnarrow 1 2 1 1 0, .rvcvt 1 2 3 1 7] = true := by decide +kernel

/-- R261, R266, R276: a launch's stack, or the ring, that an entry would pass. -/
theorem witness_forward_stops :
    mark (core0 (fun k => { k with tail := { k.tail with rsp := 131008 } }) here) (.rvscale 1 2 2 1 0) = .trap { cls := 13 } ∧
    mark (core0 (fun k => { k with tail := { k.tail with rsp := 131072 } }) here) (.rvmark 1 0) = .trap { cls := 13 } ∧
    mark (core0 (fun k => { k with tail := { k.tail with rsp := 128, ents := [{ base := 0, size := 131072, st := 0 }] } }) here)
      (.rvscale 1 2 2 1 0) = .tail (.spill 130752) ∧
    mark (core0 (fun k => { k with tail := { k.tail with ents := [{ base := 0, size := 131072, st := 0 }] } }) here) (.rvmark 1 0) = .tail (.spill 131008) ∧
    mark (core0 (fun k => { k with tail := { k.tail with flight := [(128, 0, [])] } }) here) (.rvscale 1 2 2 1 0) = .stall := by decide +kernel

/-- R265, R268: the undo words find their entries. -/
theorem witness_undo_words :
    mark (topped (Header.of 0xA0 3 0 0 0 0 0) 4480) (.unadd 1 2 3 3) = .ok ∧ mark (topped (Header.of 0xA2 0 0 0 0 0 0) 4480) (.unmul 1 2 3 0) = .ok ∧
    mark (topped (Header.of 0xA6 0 0 0 0 0 0) 384) (.unscale 1 2 0) = .ok ∧ mark (topped (Header.of 0xA8 0 0 0 0 15 0) 384) (.unlrelu 1 2 0) = .ok ∧
    mark (topped (Header.of 0xA4 0 1 0 1 0 0) 2560) (.unnarrow 1 2 1 0) = .ok ∧
    mark (topped (Header.of 0xAA 3 3 1 3 0 0) 4480) (.uncvt 1 2 3 7) = .ok := by decide +kernel

/-- R265: an empty stack, another entry on top, and one that has not landed. -/
theorem witness_undo_stops :
    mark here (.unadd 1 2 3 3) = .trap { cls := 12 } ∧ mark here (.unmark 1 0) = .trap { cls := 12 } ∧
    mark (topped (Header.of 0xA0 3 0 0 0 0 0) 4480) (.unadd 1 2 3 2) = .trap { cls := 11 } ∧
    mark (topped (Header.of 0xAC 0 0 0 0 0 5) 64) (.unmark 1 0) = .trap { cls := 11 } ∧
    mark (next here (.rvscale 1 2 2 1 0)) (.unscale 4 5 0) = .trap { cls := 2 } := by decide +kernel

/-- A stack of that entry that is not in the ring, or only its place there, in the state `st`. -/
def away (h : Header) (n : Nat) (l : List TailEnt) : State := core0 (fun k => { k with tail := { topTail h n with ents := l } }) here

/-- R265, R274, R276: a pop, and a reading of the top, of an entry that is not in the ring asks for its refill; while that is under way, a
pop stalls. -/
theorem witness_refills :
    mark (away (Header.of 0xA0 3 0 0 0 0 0) 4480 []) (.unadd 1 2 3 3) = .tail .refill ∧
    mark (away (Header.of 0xA0 3 0 0 0 0 0) 4480 [{ base := 0, size := 4480, st := 2 }]) (.unadd 1 2 3 3) = .stall ∧
    mark (away (Header.of 0xAC 7 0 0 0 0 0) 64 []) (.unmark 2 7) = .tail .refill ∧
    mark (away (Header.of 0xAC 7 0 0 0 0 0) 64 []) (.rvinfo 2 0) = .tail .refill := by decide +kernel

/-- R272-R274: markers, spills and the readings of the stack. -/
theorem witness_tailrace_words :
    mark here (.rvmark 2 7) = .ok ∧ mark (topped (Header.of 0xAC 7 0 0 0 0 0) 64) (.unmark 2 7) = .ok ∧ mark stacked (.rvspill 2 false) = .ok ∧
    mark here (.rvspill 2 true) = .ok ∧ mark stacked (.rvspill 2 true) = .tail (.spill 0) ∧ allOk stacked [.rvinfo 2 0, .rvinfo 2 1, .rvinfo 2 2, .rvinfo 2 3] = true ∧ mark here (.rvinfo 2 0) = .ok ∧
    (Header.of 0xAC 7 7 1 3 15 4294967295).op < 256 := by decide +kernel

/-! ### Matrix words -/

/-- A loaded bf16 tensor of G with no extent, seen through a window. -/
def tensor (wr wc : Nat) : TReg := { TReg.reset with loaded := true, words := [0x1000000001], wr := wr, wc := wc }

/-- A core with a product ready to issue: t1 is 1 by 32, t2 is 32 by 1. -/
def loaded : State := core0 (fun k => { k with tregs := [(1, tensor 1 32), (2, tensor 32 1)] }) here

/-- Core 0 with both command sets full. -/
def millFull : State := next (next here (.mclr 1)) (.mclr 2)

/-- R282-R296: products, their waits and their faults. -/
theorem witness_products :
    allOk loaded [.mma 0 1 2 0 false true false false, .mma 0 1 2 5 true false false false, .mmag 0 1 2 0 1 false true false] = true ∧
    mark (core0 (fun k => { k with tregs := [(1, tensor 1 32), (2, tensor 32 1)] }) millFull) (.mma 0 1 2 0 false true false false) = .stall ∧
    mark loaded (.mma 0 1 2 8 false true false false) = .trap { cls := 10 } ∧
    mark loaded (.mma 0 1 3 7 false true false false) = .trap { cls := 8 } := by decide +kernel

/-- R302-R309: returns, loads, clears, preparation and views. -/
theorem witness_matrix_words :
    allOk (handle0 5 { bank with size := 255 } here) [.mret 5 2 0 1 true false 0 false, .mret 5 2 7 3 false true 3 true] = true ∧
    allOk (handle0 5 { readyBank with size := 255 } here) [.mld 5 2 0 1 false] = true ∧ allOk here [.mclr 7, .mprof 7, .tset 3 2 0, .tset 3 2 4] = true ∧
    mark millFull (.mclr 1) = .stall ∧ mark millFull (.mprof 0) = .ok ∧ mark here (.mprof 8) = .trap { cls := 10 } ∧ mark millFull .mwaitAll = .stall ∧
    mark (vd0 (fun x => { x with tidCount := 18 }) here) (.tload 4 0 17) = .ok ∧
    mark (vd0 (fun x => { x with tidCount := 17 }) here) (.tload 4 0 17) = .trap { cls := 3 } := by decide +kernel

/-! ### Synchronization and the engines -/

/-- A virtual device whose words may take gang scope, under a launch whose level has it. -/
def wide : State :=
  let s := vd0 (fun x => { x with gscope := true }) here
  s.setLaunch 0 { s.launch 0 with words := (bareRecord.take 17) ++ [0x40#64] ++ bareRecord.drop 18 }

/-- A bf16 tensor of handle 7, of no extent, under a window of 32 by 1, in the swizzle that word 0 gives. -/
def viewed (word0 : DWord) : TReg := { tensor 32 1 with words := word0 :: List.replicate 7 0 ++ [7 * 2 ^ 32] }

/-- Core 0 with a product of t1 and of a tensor of handle 7 to issue. -/
def handled (x : Handle) (t : TReg) : State := core0 (fun k => { k with tregs := [(1, tensor 1 32), (2, t)] }) (handle0 7 x here)

/-- The product of t1 and t2 under profile 0. -/
def mul12 : Instr := .mma 0 1 2 0 false true false false

/-- R85, R86, R135, R136, R294: a product through a handle: it issues, waits for the bank, for room in the reader count, and faults where
the handle is undefined, holds another layout, or has no room for the regions; registers that are not loaded. -/
theorem witness_products_of_handles :
    mark (handled readyBank (viewed 0x3000000001)) mul12 = .ok ∧ mark (handled bank (viewed 0x3000000001)) mul12 = .stall ∧
    mark (handled { readyBank with rdr := 255 } (viewed 0x3000000001)) mul12 = .stall ∧
    mark (handled Handle.reset (viewed 0x3000000001)) mul12 = .trap { cls := 16, addr := 7 } ∧
    mark (handled { readyBank with vtag := 1 } (viewed 0x3000000001)) mul12 = .trap { cls := 9 } ∧
    mark here mul12 = .trap { cls := 8 } ∧ mark loaded (.mmag 0 1 2 9 1 false true false) = .trap { cls := 10 } ∧
    mark millFull mul12 = .stall ∧
    ((handled readyBank (viewed 0x3000000001)).core 0).handlesReady [viewed 0x3000000001, viewed 0x3000000001] = true ∧
    ((handled { readyBank with rdr := 254 } (viewed 0x3000000001)).core 0).handlesReady [viewed 0x3000000001, viewed 0x3000000001] = false ∧
    (viewed 0x3000000001).named = [7] ∧ (viewed 0x300000000C).regionFault [(7, readyBank)] = none ∧
    ({ viewed 0x300000000C with words := (viewed 0x300000000C).words.set 7 5000 } : TReg).regionFault [(7, readyBank)] = some { cls := 8 } ∧
    (viewed 0x300000000C).regionFault [] = some { cls := 16, addr := 7 } := by decide +kernel

/-- R135, R422: a product whose element lies past the end of its space. -/
theorem witness_product_window :
    mark (core0 (fun k => { k with tregs := [(1, { tensor 1 32 with words := [0x1000000001, 0x4000000040, 0x100000001, 1, 1, 0, 0, 0, 2684354560] }), (2, tensor 32 1)] }) here)
      mul12 = .trap { cls := 3 } := by decide +kernel

/-- R305, R306: `mret` and `mld` of an undefined handle, of one that is not to be filled or read yet, at a bad offset, and without room. -/
theorem witness_tile_stops :
    let ret : Instr := .mret 5 2 0 1 true false 0 false
    let ld : Instr := .mld 5 2 0 1 false
    let big : Handle := { readyBank with size := 255 }
    [mark here ret, mark here ld] = List.replicate 2 (.trap { cls := 16, addr := 5 }) ∧
    [mark (handle0 5 big here) ret, mark (handle0 5 { big with state := 0 } here) ld, mark (handle0 5 { big with mretBusy := 1 } here) ld,
      mark (handle0 5 big millFull) ret, mark (handle0 5 big millFull) ld] = List.replicate 5 .stall ∧
    [mark (regs [(2, 64)] (handle0 5 { big with state := 0 } here)) ret, mark (regs [(2, 64)] (handle0 5 big here)) ld] =
      List.replicate 2 (.trap { cls := 3 }) := by decide +kernel

/-- R134, R278, R338, R339: the window fault of `hdef`; a yielding `await` over a stack that is not empty; and `mretBusy`. -/
theorem witness_handle_word_stops :
    mark (regs [(2, 128), (3, 256)] here) (.hdef 3 2 false) = .trap { cls := 3, addr := 128 } ∧
    mark (regs [(2, 0), (3, 1048832)] here) (.hdef 3 2 true) = .trap { cls := 3 } ∧
    mark (handle0 3 bank stacked) (.await 3 true false) = .trap { cls := 15 } ∧
    mark (handle0 3 { bank with mretBusy := 1 } here) (.hpub 3) = .stall ∧
    mark (core0 (fun k => { k with fpos := 1 }) (handle0 3 bank here)) (.await 3 true false) = .stall := by decide +kernel

/-- R153, R321-R334: scopes, barriers, votes and ordered updates, and the faults of a scope. -/
theorem witness_synchronization_words :
    allOk here [.scope 0, .phase 0, .bar 0, .ostep 2 4, .mbtag 2, .fence, .atom 2 4 8 .d false true, .atom 2 4 11 .s true false, .cas 2 6 4 .s true,
      .oatom 2 4 0 .s false] = true ∧
    allOk wide [.scope 4, .phase 4, .bar 4] = true ∧ mark here (.scope 4) = .trap { cls := 6 } ∧ mark here (.phase 1) = .trap { cls := 15 } ∧
    mark (next here (.ldg 2 4 0 .s 0)) .fence = .stall := by decide +kernel

/-- R330: the plane form passes its checks, and so does every lane, whose address is 0 in a plane that nothing has written. -/
theorem witness_plane_updates : (match here.gate (.oatomP 1 2 11) with | .ok t => some ((t.cur.plane 2).length) | .error _ => none) = some 0 ∧
    ∀ l : Nat, here.updateFault false (lane [] l).toNat 4 = none := by
  refine ⟨by decide +kernel, fun l => ?_⟩
  show here.updateFault false 0 4 = none
  decide +kernel

/-- R90, R117: channel words of an idle, a running and a full channel, and of one that a fault ended. -/
theorem witness_channel_words :
    allOk here [.flow 2 0, .fpoll 2 1, .fhalt 0] = true ∧ mark (next here (.flow 2 0)) (.flow 2 0) = .ok ∧
    mark (next (next here (.flow 2 0)) (.flow 2 0)) (.flow 2 0) = .stall ∧
    mark (core0 (fun k => k.setChannel 0 { Channel.reset with state := 5 }) here) (.fhalt 0) = .ok := by decide +kernel

/-- R132-R136, R338-R340: handle words on a handle in the state that each asks for, and their waits and faults. -/
theorem witness_handle_words :
    mark (regs [(2, 256), (3, 2096896)] here) (.hdef 63 2 false) = .ok ∧
    mark (regs [(2, 256), (3, 256)] (handle0 63 { bank with rdr := 1 } here)) (.hdef 63 2 true) = .trap { cls := 16, addr := 63 } ∧
    allOk (handle0 3 bank here) [.hset 3 3 true, .hpub 3] = true ∧ allOk (handle0 3 { bank with dbl := true, shs := 1 } here) [.hpub 3] = true ∧
    allOk (handle0 3 readyBank here) [.await 3 false false, .await 3 true false, .hrel 3] = true ∧
    mark (handle0 3 bank here) (.await 3 true false) = .ok ∧ mark (handle0 3 bank here) (.await 3 false false) = .stall ∧
    mark (handle0 3 { bank with fillers := 1 } here) (.hpub 3) = .stall ∧ mark here (.hset 3 0 false) = .trap { cls := 16, addr := 3 } ∧
    mark here (.await 3 false true) = .trap { cls := 16, addr := 3 } ∧ mark (handle0 3 bank here) (.hrel 3) = .trap { cls := 16, addr := 3 } ∧
    mark (handle0 3 readyBank here) (.hpub 3) = .trap { cls := 16, addr := 3 } := by decide +kernel

/-- A communicator 0 on the virtual device, with a queue. -/
def withComm (q : List WOp) : State := vd0 (fun x => { x with comms := [(0, { Comm.reset with size := 1, queue := q })] }) here

/-- An operation that has been posted. -/
def posted : WOp := (here.operation Comm.reset false 0)

/-- R341, R342, R346: communicator words. -/
theorem witness_communicator_words :
    allOk (withComm []) [.wpost 4 2, .wbar 4, .wpoll 2 4, .wcomm 2 4 0, .wcomm 2 4 3] = true ∧ mark here (.wcomm 2 4 1) = .ok ∧
    mark (withComm (List.replicate 7 posted)) (.wpost 4 2) = .ok ∧ mark (withComm (List.replicate 8 posted)) (.wpost 4 2) = .stall ∧
    mark (withComm (List.replicate 8 posted)) (.wbar 4) = .stall ∧ mark here (.wpost 4 2) = .trap { cls := 6 } ∧
    mark here (.wbar 4) = .trap { cls := 6 } ∧ mark here (.wpoll 2 4) = .trap { cls := 6 } := by decide +kernel

/-- A fault-queue entry that no one has resolved. -/
def entry : FqEntry :=
  { seq := 7, frame := 0, core := 1, kind := 0, trap := { cls := 5 }, parked := [], launch := 0, channel := 0, comm := 0, dreg := 0, resolved := none }

/-- R438: `resume` of an entry, of none, and without the right. -/
theorem witness_resume :
    mark (vd0 (fun x => { x with fqDres := true, fq := [entry] }) (regs [(5, 7)] here)) (.resume 4 5 6) = .ok ∧
    mark (vd0 (fun x => { x with fqDres := true }) here) (.resume 4 5 6) = .ok ∧ mark here (.resume 4 5 6) = .trap { cls := 6 } := by
  decide +kernel

/-! ### Events that are enabled: for each, a state that meets its condition -/

/-- A device whose partition 1 has these granules, with a command's arguments. -/
def args (a b c d : Nat) : State :=
  let s := here.setPart 1 { here.part 1 with granules := [0, 1, 2, 3], keys := [5], kickPages := [0, 1], comms := [0], ports := [0], sump := 64 }
  { s with parg := [(0, BitVec.ofNat 64 a), (1, BitVec.ofNat 64 b), (2, BitVec.ofNat 64 c), (3, BitVec.ofNat 64 d)], slots := [(5, { KeySlot.reset with state := 1 })] }

/-- A gang with rollback, whose header says so: its save area lies under key 5 in granules of partition 1. -/
def rollGang : Gang := { bareGang with key := 5 }

/-- Is a result good? -/
def good {ε α : Type} (x : Except ε α) : Bool := match x with | .ok _ => true | .error _ => false

/-- Core 0 with these accesses in its G queue, and in its M queue. -/
def queues (g m : List Access) : State := core0 (fun k => { k with gq := g, mq := m }) here

/-- A G access of one word at 0. -/
def acc (op : AccessOp) : Access := { Access.base op false 0 4 with reg := 2, width := 1, data := [1, 0, 0, 0], data2 := [2, 0, 0, 0] }

/-- A device whose virtual device 0 has the first GiB of device memory mapped, under key 0 and in the translation cache. -/
def mapped (s : State) : State :=
  { (vd0 (fun x => { x with trEn := true, lastPg := 0x3FFFF }) (s.setPart 1 { s.part 1 with granules := [0], keys := [0], clusters := [0] })) with
    useTlb := true, tlb := [{ vd := 0, va := 0, size := 2 ^ 30, leaf := 63, leafPa := 0 }], slots := [(0, { KeySlot.reset with state := 1 })] }

/-- Does the oldest access of the queue pass its checks? -/
def headOk (x : Access) : Bool := (queues [x] []).headPasses 0 x && !(queues [x] []).landsLater 0 x

/-- An ordered update of core 0, on its way. -/
def update : OUpdate := here.orderedUpdate false false 0 0 1 0

/-- R223, R329, R432: the oldest access of a queue passes its checks, or faults. -/
theorem witness_queue_events :
    [AccessOp.load, .store, .planeLoad, .atom 0 false, .cas, .returned].all (fun o => headOk (acc o)) = true ∧
    good ((mapped (queues [] [{ acc .load with m := true }])).translate 0 0 .read) = true ∧
    (queues [{ acc .load with addr := 0x90000000 }] []).oldestFault 0 =
      some ({ acc .load with addr := 0x90000000 }, { cls := 6, addr := 0x90000000 }) ∧
    (let w := { here with gangs := (7, bareGang) :: here.gangs }
     here.granulesOk (here.coreGid 0) (acc .load).granules = true ∧
     { w with granules := Map.put w.granules 0 { gid := 7, pin := 0 } }.granulesOk (w.coreGid 0) (acc .load).granules = false) ∧
    (queues [acc .load] []).landsLater 0 (acc .load) = false ∧
    (core0 (fun k => k.fly 3 [.reg 2 9]) (queues [acc .load] [])).landsLater 0 (acc .load) = true ∧
    good ((mapped (queues [] [{ acc .store with m := true }])).translate 0 0 .write) = true ∧ (acc .store).overflows [] = false ∧
    ({ here with held := [update] }.held.find? fun w => w.core = 0 && w.place = 0) = some update ∧
    (update :: here.held).filter (fun w => w.place = 1 && here.lineOf w = here.lineOf update) = [] := by decide +kernel

/-- R225: a load of G lands what memory holds: the store of 5 at 0 has landed, and a queued store of 6 stands over its first byte. -/
theorem test_load_lands :
    ((next (core0 (fun k => { k with gq := [acc .load], sq := [{ m := false, scope := 0, block := 0, mask := 1, data := 6 :: List.replicate 63 0 }] })
      (here.gWrite 0 [5, 1, 0, 0])) (.hiddenResultLand 0 .g)).core 0).rd 2 = 0x106 := by decide +kernel

/-- A bf16 tensor of 32 by 32 elements in M, as the bytes of an entry. -/
def entryBytes : List Byte :=
  leBytes 8 0x10000001 ++ leBytes 8 0x2000000020 ++ leBytes 8 0x100000001 ++ leBytes 8 64 ++ List.replicate 96 0

/-- R86, R288: a tensor load that is enabled. -/
theorem witness_tensor_load :
    let s := mapped (here.paWrite 0 4096 entryBytes)
    good (s.tensorLoad 0 { Access.base .tload true 4096 128 with reg := 3, data := [0, 0, 0, 0], data2 := leBytes 9 (2 ^ 30) }) = true := by decide +kernel

/-- Core 0 that waits at a barrier word of a kind, in core scope. -/
def waiting (kind : Nat) : State := core0 (fun k => { k with barrier := some { kind := kind, scope := 0, flag := true, d := 2, word := 0 } }) here

/-- R323-R326, R333: a core alone in its scope instance has arrived, and nothing of it is under way. -/
theorem witness_phase_events :
    [0, 1, 2].all (fun n => let b := { kind := n, scope := 0, flag := true, d := 2, word := 0 : Barrier }
      ((waiting n).launch 0).scopeInst 0 0 = [0] && (waiting n).arrived 0 0 b && (waiting n).quietCore 0 &&
      ((waiting n).settleFirst 0 0 [0]).isNone) = true ∧
    (here.arrived 0 0 { kind := 1, scope := 0, flag := true, d := 2, word := 0 }) = false ∧
    (let w := core0 (fun k => { k with sq := [{ m := false, scope := 0, block := 0, mask := 1, data := List.replicate 64 6 }] }) (waiting 0)
     ({ w with granules := Map.put w.granules 0 { gid := 7, pin := 0 } }.settleFirst 0 0 [0]).isSome = true) ∧
    ([0, 1, 2].all fun n => !(waiting n).taken 0) = true ∧ bareGang.arrivals = [] ∧
    ({ waiting 0 with gangs := [(65536, { bareGang with saved := [(3, here.core 0)] })] } : State).taken 0 = true ∧
    ((waiting 2).gangs.lookup 65536) = some bareGang ∧ bareGang.members = [here.devnum.toNat] := by decide +kernel

/-- R127-R130: a granule that may be spilled, and one that may be restored. -/
theorem witness_granule_events :
    (let s := { here with touches := [(5, 7)] }
     s.touches.lookup 5 = some 7 ∧ (s.granule 5).gid ≠ 0 ∧ (s.granule 5).gid ≠ 7 ∧ (s.granule 5).pin = 0 ∧ s.landsIn 5 = false ∧
     (s.gangs.lookup (s.granule 5).gid).map (·.retired) = some false) ∧
    (let s := { here.paWrite 0 4096 [32] with granules := [], touches := [(5, 65536)] }
     s.touches.lookup 5 = some 65536 ∧ (s.gangs.lookup 65536).isSome = true ∧ (s.granule 5).gid = 0 ∧ s.spillBit 65536 5 = true) := by
  decide +kernel

/-- R136, R372: a handle that swaps, and a continuation that suspends. -/
theorem witness_swap_and_suspend :
    (let x := ((handle0 3 { bank with dbl := true, shs := 2 } here).core 0).handle 3; x.dbl = true ∧ x.shs = 2 ∧ x.rdr = 0 ∧ x.fillers = 0) ∧
    (let s := next here .endItem; (s.core 0).mode = .suspending 0 0 false ∧ (∀ m ∈ s.crew 0, (s.core m).calm = true) ∧ ∀ n ∈ (s.core 0).trail, n = 0) := by
  decide +kernel

/-- R378: a continuation that ends leaves its core: its pool entry is written. -/
theorem witness_pool_write :
    good ((mapped (next here .yieldItem)).poolWrite 0 0 (leBytes 8 0 ++ leBytes 8 0 ++ List.replicate 48 0)) = true := by decide +kernel

/-- The one loop of core 0, which ends with the bundle of one word at 0. -/
def looped : State := core0 (fun k => { k with depth := 1, loops := [(0, { start := 0, fin := 0, cnt := 3 })] }) here

/-- R218, R423: a control word in the bundle that ends the innermost loop: an encoding fault, but that a bundle that stalls is held; and what
runs beside it alone. R215: a follower takes its lead's loop sets. -/
theorem witness_loop_end_clash :
    (match looped.tryIssue 0 [some .nop, some (.jmp 4)] [] with | .fault t => decide (t = { cls := 1 }) | _ => false) = true ∧
    (match (next looped (.ldg 2 4 0 .s 0)).tryIssue 0 [some (.jmp 4), some (.add 3 2 2 .s)] [] with | .held .stall => true | _ => false) = true ∧
    (let o := looped.openBundle 0 2 [.nop, .jmp 4]
     (((looped.orderedWords [some .nop, some (.jmp 4)]).flatMap fun p => (o.runWords [p]).marks) ++ o.strayMarks []).map (·.2) = [.ok, .ok] ∧
     ((looped.orderedWords [some .nop, some (.jmp 4)]).map fun p => (o.runWords [p]).replaced.isNone) = [true, true]) ∧
    (let s := core0 (fun k => { k with fpos := 1, lead := 1 }) (here.setCore 1 { here.core 0 with loopTrail := List.replicate 80 ([(0, { start := 0, fin := 0, cnt := 2 })], 1) })
     (s.core 0).fpos ≠ 0 ∧ (s.core (s.core 0).lead).loopTrail[(s.core 0).fpos * (s.job 0).skew - 1]? ≠ none ∧
     ((s.afterIssue 0 0 1 [.nop] 2).core 0).depth = 1) := by decide +kernel

/-- R428: entries to resolve: with a park frame, of a channel, of an operation, of a parked core, and of a `sysc`. -/
theorem witness_resolve :
    (let s := vd0 (fun x => { x with fq := [entry] }) here
     ((s.resolve 0 7 5 9).vd 0).fq = [{ entry with resolved := some (5, 9) }] ∧ s.resolve 0 8 5 9 = s) ∧
    (let e := { entry with frame := 0xFFFF, kind := 4, core := 0 }
     let s := vd0 (fun x => { x with fq := [e] }) (core0 (fun k => k.setChannel 0 { Channel.reset with state := 3, parkedSeq := 7 }) here)
     (s.vd 0).run = true ∧ (((s.resolve 0 7 5 9).core 0).channel 0).state = 1 ∧ ((s.resolve 0 7 5 9).vd 0).fq = []) ∧
    (let e := { entry with frame := 0xFFFF, kind := 5 }
     let s := (withComm [{ posted with held := 7 }]).setVd 0 { (withComm [{ posted with held := 7 }]).vd 0 with fq := [e] }
     ((s.resolve 0 7 5 9).vd 0).comms.map (fun m => m.2.queue.map (·.held)) = [[0]]) ∧
    (let e := { entry with frame := 0xFFFF, kind := 7, dreg := 3, parked := [(0, here.core 0)], core := 0 }
     let s := vd0 (fun x => { x with fq := [e] }) here
     ((s.resolve 0 7 5 9).core 0).rd 3 = 9) := by decide +kernel

/-- A tensor load of the entry at 4096, under a window of `n` bytes as it stood at the issue. -/
def entryLoad (n : Nat) : Access := { Access.base .tload true 4096 128 with reg := 3, data := [0, 0, 0, 0], data2 := leBytes 9 n }

/-- R30, R46, R432: the oldest access of the M queue: a tensor load inside the window as it stood, and one that passes its end. -/
theorem witness_m_queue_stops :
    let s (n : Nat) : State := mapped (core0 (fun k => { k with mq := [entryLoad n] }) (here.paWrite 0 4096 entryBytes))
    4096 + 128 ≤ leNat (entryLoad 4224).data2 ∧ good ((s 4224).translate 0 4096 .read) = true ∧ (s 4224).headFault 0 (entryLoad 4224) = none ∧
    leNat (entryLoad 4223).data2 < 4096 + 128 ∧ (s 4223).headFault 0 (entryLoad 4223) = some { cls := 3, addr := 4096, kind := 6 } := by decide +kernel

/-- R224: a store on its way for which the full queue has no line. -/
theorem witness_store_without_a_line :
    (let x : Access := { acc .store with addr := 64 * 600 }
     let s := (fullQueue []).setCore 0 { (fullQueue []).core 0 with gq := [x] }
     x.newLines (s.core 0).sq ≠ [] ∧ s.headFault 0 x = some { cls := 14, addr := 64 * 600, kind := 1 } ∧ s.headPasses 0 x = false) := by decide +kernel

/-- Granule 5 is gang 9's, which saves under key 5, and a core of gang 65536 touches it. -/
def contested (g : Gang) : State :=
  { args 0 0 0 0 with gangs := [(9, g), (65536, { bareGang with key := 5 })], granules := [(5, { gid := 9, pin := 0 })], touches := [(5, 65536)] }

/-- R50, R127-R130, R394: a granule that is spilled for another gang's touch, whose gang is retired, whose slot's key is gone, or whose area
is not the partition's; the launch in which the fault falls, and none. -/
theorem witness_granule_faults :
    (contested rollGang).slotFault rollGang 5 = none ∧ (contested rollGang).landsIn 5 = false ∧ (contested { rollGang with retired := true }).gangs.lookup 9 ≠ none ∧
    ({ contested rollGang with slots := [] } : State).slotFault rollGang 5 = some 7 ∧
    (contested { rollGang with savePa := 2 ^ 35 }).slotFault { rollGang with savePa := 2 ^ 35 } 5 = some 6 ∧
    (here.core 0).job = some 0 ∧ here.launchVd 0 = bareGang.vd ∧ (here.launch 0).state = .running ∧
    ({ here with cores := [] } : State).saveTrap 65536 0 7 0 = { here with cores := [] } := by decide +kernel

/-- R137, R351: cores that wait at a barrier and leave it, their swaps, and a handle that swaps by itself. -/
theorem witness_leaving :
    ((waiting 0).core 0).barrier ≠ none ∧ (here.core 0).barrier = none ∧
    (let s := core0 (fun k => { k with mode := .idle }) (handle0 3 { bank with dbl := true, shs := 2 } here)
     let x := (s.core 0).handle 3
     (s.core 0).mode ≠ .running ∧ x.dbl = true ∧ x.shs = 2 ∧ x.rdr = 0 ∧ x.fillers = 0 ∧ ((s.core 0).swapAll.handle 3).state = 2) ∧
    (((waiting 0).leavePhase [0]).core 0).phaseCount = 1 ∧
    (let s := core0 (fun k => { k.fly 1 [.slice 64 [7, 0, 0, 0]] with sched := 0 }) (waiting 1)
     leNat (((s.schedAll [0])).gRead 64 4) = 0 ∧ leNat ((((s.schedAll [0])).leaveBar [0]).gRead 64 4) = 7) := by decide +kernel

/-! ### The engines -/

/-- A transfer record in the own slice at 0: a fill of 64 bytes at 4096 with zeros, the last of its chain. -/
def fillWords : List DWord := [0xD000000000000000, 0, 0x10000000000, 0, 4104, 64] ++ List.replicate 10 0

/-- The chain's head, and its record. -/
def chain : Chain := { ptr := 8, issued := 0, snap := { tregs := [], rngkey := 0, rngctr := 0, widx := 0, lid := 0, fctl := 0, fpos := 0 } }
def record : FlumeRec := { freshRec chain 8 with words := fillWords, last := true }

/-- Core 0's channel 0 in a state, with these records, over the record's bytes. -/
def channel0 (ch : Channel) : State := core0 (fun k => k.setChannel 0 ch) (here.gWrite 0 (fillWords.flatMap fun w => leBytes 8 w.toNat))

/-- R90-R111: a record to be read, with its checks. -/
theorem witness_record_fetch :
    let s := channel0 { Channel.reset with state := 1, active := some chain, next := some 8 }
    ((s.core 0).channel 0).toFetch = some (freshRec chain 8) ∧ s.flumeStops 0 = false ∧ here.flumeStops 1 = true ∧ recordPtrOk 8 = true ∧ (s.core 0).storesLanded 0 = true ∧
    s.engineCheck 0 .read [recAcc 8 0 128] = none ∧ (∀ g ∈ s.engineGranules 0 [recAcc 8 0 128], s.granuleOk (s.coreGid 0) g = true) ∧
    ((freshRec chain 8).withWords (s.engineRead 0 (recAcc 8 0 128))).words = fillWords ∧ record.own = true ∧ record.check false 0 = 0 ∧
    recordPtrOk 9 = false := by decide +kernel

/-- What a claim of a record's handles comes to: done, waiting, or a fault. -/
def claimed (c : Claim) : Nat := match c with | .done _ _ => 0 | .wait _ _ => 1 | .fault _ => 2

/-- R111: a record that starts: its handles are claimed at once, since it names none; one whose destination handle is full waits. -/
theorem witness_record_start :
    let s := channel0 { Channel.reset with state := 1, active := some chain, recs := [record] }
    let full := { record with words := record.words.set 4 0x50000000C }
    claimed (s.claimHandles 0 record) = 0 ∧ s.startCheck 0 record = none ∧ s.listFault 0 record = none ∧
    (s.waitRecord 0 0 1 record).granulesOk (s.coreGid 0) (s.engineGranules 0 (record.listAccs ++ record.cbAccs)) = true ∧
    s.extentCheck 0 (record.srcAccs []) record.dstAccs = none ∧ s.granulesOk (s.coreGid 0) (s.engineGranules 0 record.dstAccs) = true ∧
    (record.wait && [record].head?.any (·.started)) = false ∧ (record.usesSlice && !(s.core 0).storesLanded 0) = false ∧
    ((s.core 0).channel 0).publishesFirst record = false ∧ s.flumeStops 0 = false ∧
    (let fills := record.words.set 4 0x50000000C
     let f0 := { record with words := fills.set 0 ((fills.getD 0 0) ||| 0x114000000000000), dst := some 5, started := true }
     let k := { Channel.reset with state := 1, active := some chain, recs := [f0, full] }
     (f0.phe, f0.ph, f0.dst, k.publishesFirst full) = (true, 5, some 5, true)) ∧
    claimed ((handle0 5 readyBank s).claimHandles 0 full) = 1 := by decide +kernel

/-- R110: a record that completes. -/
theorem witness_record_complete :
    let x := { record with started := true, writes := [{ m := false, addr := 4096, data := List.replicate 64 0 }] }
    let s := channel0 { Channel.reset with state := 1, active := some chain, recs := [x] }
    s.releaseFree 0 x = true ∧ x.ckm = 0 ∧ s.closeFault 0 x = none ∧ x.mismatch = false ∧ s.stillWaits 0 0 = false ∧
    ((((s.engineStore 0 x.writes).unpin x.pins).writeCtrl 0 x false 0).completeHandles 0 x).isSome = true := by decide +kernel

/-- R93, R111, R117, R129: a record whose granules are pinned once; one that waits for its release; and one that waits for the record before
it, which has started. -/
theorem witness_record_waits :
    let s := channel0 { Channel.reset with state := 1, active := some chain, recs := [record] }
    let with_ (n : DWord) (x : FlumeRec) : FlumeRec := { x with words := x.words.set 0 (x.words.getD 0 0 ||| n) }
    (((s.pinFor record [0, 1]).1.granule 0).pin, (s.pinFor record [0, 1]).2.pins, ((s.pinFor { record with pins := [0] } [0, 1]).1.granule 0).pin) =
      (1, [0, 1], 0) ∧ s.stillWaits 0 0 = false ∧
    (let r := with_ (2 ^ 49 + 5 * 2 ^ 43) { record with started := true, closing := true }
     let t (n : Nat) : State := handle0 5 { readyBank with rdr := n } (channel0 { Channel.reset with state := 2, active := some chain, recs := [r] })
     ((t 1).headWaits 0 0, (t 1).releaseFree 0 r, (t 0).releaseFree 0 r, (t 1).flumeStops 0) = (true, false, true, false) ∧
     (t 1).closeFault 0 r = none ∧ r.mismatch = false) ∧
    (let t := channel0 { Channel.reset with
       state := 2, active := some chain, recs := [{ record with started := true, last := false }, { record with started := true }, with_ (2 ^ 61) record] }
     t.stillWaits 0 0 = true) ∧
    (let x := { record with words := record.words.set 0 (record.words.getD 0 0 ||| 2 ^ 61) }
     x.wait = true ∧ [{ record with started := true }, x].head?.any (·.started) = true) := by decide +kernel

/-- The commands of `mclr 1` and of a product of t1 and t2. -/
def product : State := next loaded (.mma 0 1 2 0 false true false false)

/-- Core 0's active command. -/
def active (s : State) : Option Cmd := (s.core 0).mill.active

/-- R282-R319: the latch fill, a wave, and the completion of a clear. -/
theorem witness_millstone_events :
    (active product).any (fun x => !x.latched && x.isReader && (product.core 0).storesLanded x.issued && (product.engineCheck 0 .read x.reads).isNone &&
      (product.engineGranules 0 x.reads).all (fun g => product.granuleOk (product.coreGid 0) g)) = true ∧
    product.holdsMill 0 = false ∧
    (active product).any (fun x => let y := { x with latched := true }; y.waves < y.waveCount.1 && product.waveAllowed (product.core 0) y.waveCount.2) = true ∧ (active (next here (.mclr 1))).any (fun x => x.ran && x.op = .mclr) = true ∧
    (active product).any (fun x => let y := { x with latched := true, waves := x.waveCount.1 }; y.ran) = true ∧
    (active product).any (fun x => product.waveAllowed (product.core 0) x.waveCount.2 &&
      !(let s := core0 (fun k => { k with charges := [(0, 4400)] }) product; s.waveAllowed (s.core 0) x.waveCount.2)) = true ∧
    (let s := next (handle0 5 { readyBank with size := 255 } here) (.mld 5 2 0 1 false)
     (active s).any (fun x => x.usesSlice && (s.core 0).storesLanded x.issued) = true) ∧ (product.core 0).mill.again = [] ∧ (active product).any (fun x => !(product.core 0).mill.continues x 8) = true ∧
    (let s := next product (.mma 0 1 2 0 false false false false)
     (active s).any (fun x => (s.core 0).mill.continues { x with op := .mma 0 true false false false 0 } 8) = true) := by decide +kernel

/-- R275, R277: an entry being spilled, with its bytes, and one being refilled. -/
theorem witness_tailrace_events :
    let e : TailEnt := { base := 0, size := 64, st := 1 }
    let s := mapped (core0 (fun k => { k with tail := { topTail (Header.of 0xAC 0 0 0 0 0 0) 64 with ents := [e] } }) here)
    let t := (s.core 0).tail
    (s.core 0).mode ≠ .faulted ∧ t.flight = [] ∧ t.ents.reverse.find? (·.st = 1) = some e ∧
    good (s.mWriteExtent 0 (t.spb + e.base) ((s.core 0).entryBytes e) .write) = true ∧ good (s.mWriteExtent 0 0 (List.replicate 64 0) .write) = true ∧
    (let l := [{ base := 0, size := 64, st := 2 : TailEnt }]
     let r := s.paWrite 0 0 ({ Header.of 0xAC 0 0 0 0 0 0 with size := 1 } : Header).bytes
     l.dropWhile (·.st < 2) = l ∧ r.refillHeader 0 t 64 = { base := 0, size := 64, st := 2 } ∧ good (r.mReadExtent 0 (t.spb + 0) 64 .read) = true ∧
     ((s.paWrite 0 0 (List.replicate 64 0)).refillHeader 0 t 64).st = 3) := by decide +kernel

/-! ### Faults, registers, the host -/

/-- A device with a fault queue, where core 0 waits for a page. -/
def missed : State := (vd0 (fun x => { x with fqEn := true, pfCount := 4 }) (mapped here)).raise 0 { cls := 5, addr := 4096 }

/-- R424, R425: a core runs a launch whose virtual device has no rollback; a fault that ends the launch, and one that parks. -/
theorem witness_taking_a_fault :
    (here.core 0).job = some 0 ∧ (here.vd (here.launch 0).vd).snCtl.getLsbD 2 = false ∧ (here.vd (here.coreVd 0)).snCtl.getLsbD 2 = false ∧
    ((here.raise 0 { cls := 4 }).core 0).mode = .faulted ∧ ((here.raise 0 { cls := 5 }).core 0).mode = .parking := by decide +kernel

/-- R428, R434: a return from a park, with a result in flight and two accesses saved, of which one is replayed. -/
theorem witness_return_from_park :
    let saved := { (here.core 0).fly 3 [.reg 2 9] with board := [acc .load, acc .store], after := .running }
    let k := (here.unpark 0 0 0 saved 2).core 0
    k.mode = .running ∧ (∀ x ∈ saved.inflight, saved.sched ≤ x.due) ∧ k.gq = [{ acc .store with replay := true }] ∧
    ((here.unpark 0 0 0 saved 0).core 0).gq = [] := by
  decide +kernel

/-- R423: one fault of a bundle: an encoding fault behind an address fault, a schedule fault behind one, and the lower of two words. -/
theorem witness_one_fault :
    chooseTrap true [(0, .trap { cls := 4 }), (1, .trap { cls := 1 })] = some { cls := 1 } ∧
    chooseTrap true [(0, .trap { cls := 4 }), (1, .trap { cls := 2 })] = some { cls := 2 } ∧
    chooseTrap true [(2, .trap { cls := 4 }), (1, .trap { cls := 6 }), (3, .ok)] = some { cls := 6 } ∧ chooseTrap true [(0, .ok)] = none := by
  decide +kernel

/-- What a waiter is: the flight of a core, or a channel. -/
def waits (s : State) : Option Nat := match (s.coresOf 0).findSome? s.waiter with | some (.flight _ _ _) => some 0 | some (.channel _ _ _) => some 1 | none => none

/-- R426, R429: a flight that waits for an entry, and a channel; no waiter; a full ring. -/
theorem witness_fault_entry :
    (missed.vd 0).fqRoom = true ∧ waits missed = some 0 ∧ (∀ i ∈ missed.crew 0, (missed.core i).flightFits = true) ∧
    waits (core0 (fun k => k.setChannel 1 { Channel.reset with state := 3, trap := some { cls := 5 } }) here) = some 1 ∧
    waits here = none ∧ (here.vd 0).fqRoom = false := by decide +kernel

/-- R425: a faulting core of a launch that ends, the last one, and one that is through. -/
theorem witness_launch_fault_end :
    let s := here.raise 0 { cls := 4 }
    (s.core 0).job = some 0 ∧ (s.launch 0).state = .ending ∧ (s.core 0).mode = .faulted ∧ (s.core 0).boardReady = true ∧ (s.core 0).tail.still = true ∧
    (let t := s.endCore 0 0; t.granulesOk (t.vd 0).gid (t.endGranules 0) = true) ∧ (s.endCore 0 0).endReady 0 = true ∧
    (let t := { s with cores := Map.put s.cores 1 { s.core 0 with fpos := 0 } }; ((t.endCore 0 0).endReady 0) = false ∧ (t.launch 0).state = .ending) ∧
    (let t := s.setCore 0 { s.core 0 with mode := .idle }; (t.core 0).mode ≠ .faulted ∧ t.endReady 0 = true) := by decide +kernel

/-- R428, R434: a resolved continuation that core 0 may take up. -/
theorem witness_parked_restore :
    let e := { entry with parked := [(0, here.core 0)], core := 0, resolved := some (1, 5) }
    let s := vd0 (fun x => { x with fq := [e] }) (core0 (fun k => { k with mode := .idle }) here)
    (s.vd 0).fq.find? (s.restorable 0 0) = some e ∧ s.granulesOk (s.vd 0).gid (e.storeGranules 0) = true := by decide +kernel

/-- R429: no park frame is in use and no launch lives. -/
theorem witness_park_frames : let s := { here with launches := [] }; (s.vd 0).frames = [] ∧ s.launches = [] := by decide +kernel

/-- R56, R402: a limiter's rates, good and bad, and one that acts. -/
theorem witness_limiters :
    let good (w : DWord) : Bool := w.extractLsb' 24 20 = 0#20 || w.extractLsb' 0 16 != 0#16
    good 0x1000001 = true ∧ good 0x1000000 = false ∧ ((vd0 (fun x => { x with bwRate := 1 }) here).vd 0).bwRate ≠ 0 ∧ (here.vd 0).bwRate = 0 := by
  decide +kernel

/-- A device whose selected key slot, 5, is in a state. -/
def selected (n : Nat) : State := { here with ksel := 5, slots := [(5, { KeySlot.reset with state := n })] }

/-- R53, R54: an empty slot and a loaded one, and two keys that differ. -/
theorem witness_keys :
    (selected 0).ksel ≠ 0 ∧ ((selected 0).slot 5).state = 0 ∧ ((selected 1).slot 5).state = 1 ∧ ((selected 2).slot 5).state = 2 ∧
    (let s := { selected 0 with kdata := [(0, 1)] }; s.keyFrom 0 ≠ s.keyFrom 4) := by decide +kernel

/-- R47: invalidations, with room, without, waiting for a use of the range, and done. -/
theorem witness_invalidations :
    (let s := vd0 (fun x => { x with pendingInv := [(0, 1)] }) here
     s.usesRange 0 (removedRanges 0 (invRange 0 1) s.tlb) = false ∧ (s.vd 0).pendingInv.length < 8 ∧
     ({ s with held := [{ update with m := true }] }).usesRange 0 (removedRanges 0 (invRange 0 1) s.tlb) = true) ∧
    8 ≤ ((vd0 (fun x => { x with pendingInv := List.replicate 8 (0, 1) }) here).vd 0).pendingInv.length := by decide +kernel

/-- A device whose Seust link is up. -/
def linked : State := { mapped here with seustUp := true }

/-- R34, R45, R475-R479: requests that are answered, and ones that are refused, again outstanding, or not heard. -/
theorem witness_host_requests :
    linked.seustUp = true ∧ linked.outstanding 0 5 = false ∧ (linked.ack 0 5 0 []).outstanding 0 5 = true ∧ here.seustUp = false ∧
    [windowRefusal 0 0x4000, windowRefusal 0 0x4001, windowRefusal 1 0x4000, windowRefusal 256 0x2FFFF8, windowRefusal 1 0x4001] =
      [none, some 3, some 1, none, some 3] ∧
    spaceMalformed 0 0 4096 4096 = false ∧ spaceMalformed 0 0 0 4112 = true ∧ spaceMalformed 2 0 0 16 = false ∧ spaceMalformed 2 2 0 16 = true ∧
    (linked.vd 0).trEn = true ∧ (here.vd 0).trEn = false ∧
    good ((linked.oweSeust 0 1).mReadExtent 0 0 16 .hostRead) = true ∧ good ((linked.oweSeust 0 1).mReadExtent 0 (2 ^ 41) 16 .hostRead) = false ∧
    good ((linked.oweSeust 0 2).mWriteExtent 0 0 (List.replicate 16 1) .hostWrite) = true ∧
    good ((linked.oweSeust 0 2).mWriteExtent 0 (2 ^ 41) (List.replicate 16 1) .hostWrite) = false ∧
    seustMalformed (seustHeader 0 5 8 0 + 2 ^ 60 * 4) = true ∧ seustMalformed (seustHeader 0 5 8 0) = false ∧ seustMalformed (seustHeader 0 5 16 1) = true ∧
    seustMalformed (seustHeader 0 5 16 1 + 2 ^ 60 * 2) = false ∧ seustMalformed (seustHeader 0 5 4112 1 + 2 ^ 60 * 2) = true := by decide +kernel

/-- R31, R485, R486: links that come up, retrain and go down. -/
theorem witness_links :
    6 ≤ ({ here with bootStep := 6 } : State).bootStep ∧ here.bootStep < 6 ∧
    (let s := { here with qen := true }.setPort 35 { here.port 35 with en := true, up := true, retraining := true }
     (s.port 35).up = true ∧ (s.port 35).en = true ∧ (s.port 35).retraining = true ∧ s.qen = true) ∧ here.qen = false := by decide +kernel

/-- R488: temperatures on both sides of each limit, and a hold. -/
theorem witness_thermal :
    let t (n : BitVec 16) : Nat := n.toNat
    16 * 105 < t 0x691 ∧ t 0x72F < 16 * 115 ∧ 16 * 115 ≤ t 0x730 ∧ t 0x7CF < 16 * 125 ∧ t 0x63F < 16 * 100 ∧ t 0x690 ≤ 16 * 105 ∧
    ({ here with hold := true } : State).hold = true ∧ here.hold = false ∧ (next here (.thermalThrottle 0x72F)).throt = true ∧
    (next here (.thermalThrottle 0x730)).throt = false ∧ (next here (.thermalHold 0x730)).hold = true ∧
    (next (next here (.thermalHold 0x730)) (.thermalThrottleEnd 0x640)).hold = true ∧
    (next (next here (.thermalHold 0x730)) (.thermalHoldEnd 0x63F)).alert = false := by decide +kernel

/-- R191: a bundle of one word that could issue: the Governor lets it start, or, once the window is charged with 4,400 units, freezes it. -/
theorem witness_governor :
    let s := State.reset.placeWord 0x10040005
    let k := s.core 0
    k.mode = .running ∧ k.flen = 1 ∧ k.barrier = none ∧ s.holdsCore 0 = false ∧ (s.job 0).fetchBundle 0 k.pc = some [0x10040005] ∧
    (match ({ s with mark := .ok, turn := 0 } : State).tryIssue k.pc ([0x10040005].map decoded) ([0x10040005].filterMap named) with | .ok _ => true | _ => false) = true ∧
    s.govEn = true ∧ ((k.charges.filter fun e => k.wall < e.1 + 64).map (·.2)).sum + (k.olderWave + 2) ≤ s.govLimit.toNat ∧
    (let j := (core0 (fun k => { k with charges := [(0, 4400)] }) s).core 0
     s.govLimit.toNat < ((j.charges.filter fun e => j.wall < e.1 + 64).map (·.2)).sum + (j.olderWave + 2)) := by decide +kernel

/-- R489, R490: bring-up begins from reset. -/
theorem witness_bring_up : State.reset.ready = false ∧ State.reset.bootFail = false ∧ State.reset.pinsUp = true ∧
    ({ State.reset with rst := true } : State).rst = true ∧ (next { State.reset with rst := true } (.bringUp true)).bootStep = 0 ∧
    (next (next here .thermtrip) .deviceReset).powered = false ∧
    (next State.reset (.bringUp true)).bootStep = State.reset.bootStep + 1 := by decide +kernel

/-- A device halted by the debugger. -/
def halted : State := vd0 (fun x => { x with halted := true }) here

/-- R443-R448: a debugger's commands and the triggers. -/
theorem witness_debug :
    here.coresOf 0 = [0] ∧ halted.debugHalted 0 = true ∧ here.debugHalted 0 = false ∧ (halted.core 0).job.isSome = true ∧ halted.coreVd 0 = 0 ∧
    (millFull.core 0).mill.active ≠ none ∧ (((mapped halted).faultFrame 0).bind ((mapped halted).frameAt 0)).isSome = true ∧
    (here.faultFrame 0).bind (here.frameAt 0) = none ∧ halted.stepLeads 0 = [0] ∧ here.stepLeads 0 = [] ∧
    (vd0 (fun x => { x with snCtl := 10 }) here |>.vd 0).snCtl.getLsbD 1 = true ∧ (vd0 (fun x => { x with snCtl := 10 }) here |>.vd 0).snCtl.getLsbD 3 = true := by
  decide +kernel

/-- A halted device whose contexts are saved under key 5. -/
def framed : State :=
  let s := mapped halted
  { s.setPart 1 { s.part 1 with keys := [5] } with slots := [(5, { KeySlot.reset with state := 1 })], gangs := [(65536, { bareGang with key := 5 })] }

/-- R50, R434, R446: frames that may be read and written, under a key that is gone, and in a granule of no partition; a load of a context
that touches no granule, and one whose granule another gang holds. -/
theorem witness_frames :
    framed.faultFrame 0 = some 0 ∧ framed.frameFault 0 0 = none ∧ ({ framed with slots := [] } : State).frameFault 0 0 = some { cls := 7 } ∧
    framed.debugHalted 0 = true ∧ (framed.core 0).job.isSome = true ∧ framed.coreVd 0 = 0 ∧ (framed.frameAt 0 0).isSome = true ∧
    (here.faultFrame 0).isNone = true ∧ framed.granulesOk (framed.coreGid 0) ((here.core 0).storeGranules 0 ++ (here.core 0).pinned) = true ∧
    ((here.core 0).fly 2 [.slice 0 [1, 2, 3, 4]]).storeGranules 0 ≠ [] ∧
    (let t := { framed with granules := [(0, { gid := 7, pin := 1 })], gangs := (7, bareGang) :: framed.gangs }
     (t.settleNow (t.coreGid 0) [0]).granulesOk (t.coreGid 0) [0] = false) := by decide +kernel

/-- R428, R434: a resolved entry whose frame may be read, and one whose frame's key is gone. -/
theorem witness_restorable :
    let e := { entry with parked := [(0, here.core 0)], core := 0, resolved := some (1, 5) }
    let s := vd0 (fun x => { x with fq := [e] }) (core0 (fun k => { k with mode := .idle }) framed)
    (s.vd 0).fq.find? (s.restorable 0 0) = some e ∧ e.resolved = some (1, 5) ∧ e.seq = 7 ∧
    s.frameFault 0 e.frame = none ∧ ({ s with slots := [] } : State).frameFault 0 e.frame = some { cls := 7 } := by decide +kernel

/-! ### The Sluice and the Windlass -/

/-- A device whose queue 3 holds one entry at VA 0x1000, which names the bare record at 0x2000. -/
def kicked : State :=
  vd0 (fun x => { x with qcfgEn := [(3, true)], qcfgBase := [(3, 1)], dbellTail := [(3, 1)] })
    (mapped ((here.paWrite 0 4096 (leBytes 8 8192)).paWrite 0 8192 (bareRecord.flatMap fun w => leBytes 8 w.toNat)))

/-- R381, R364: a doorbell write that is refused and one that is not, on a device that is scheduled and on one that is not; the read of a record. -/
theorem witness_kick_and_fetch :
    (here.vd 0).kickRefused 3 1 = true ∧ (kicked.vd 0).kickRefused 3 2 = false ∧ (kicked.vd 0).scheduled = true ∧
    ((vd0 (fun x => { x with run := false }) kicked).vd 0).scheduled = false ∧ (kicked.vd 0).mayFetch 3 = true ∧ (here.vd 0).mayFetch 3 = false ∧
    good (kicked.mReadChecked 0 4096 8) = true ∧ good (kicked.mReadChecked 0 8192 256) = true := by decide +kernel

/-- A launch of virtual device 0 that waits. -/
def waiter : Launch := { bareLaunch 0 with state := .waiting, clusters := [], ready := some 0, code := [], items := [], pool := [] }

/-- A device with that launch alone, and cluster 0 idle. -/
def queued (x : Launch) : State :=
  let s := here.setPart 1 { here.part 1 with granules := [0], keys := [0] }
  { s with launches := [(0, x)], clusters := [], cores := [] }

/-- R385, R387: a launch that is skipped, one that is preloaded, and a standby bank that is taken. -/
theorem witness_skip_and_preload :
    (waiter.state = .waiting ∧ waiter.status = 0 ∧ waiter.ready.isSome = true ∧ waiter.runf = false) ∧
    ((queued waiter).cluster 0).standby = none ∧ (queued waiter).waiting.contains 0 = true ∧ ((queued waiter).vdPart 0).clusters.contains 0 = true ∧
    (queued waiter).resident 0 waiter = none := by decide +kernel

/-- R386, R409: the launch chosen for idle clusters. -/
theorem witness_launch_start :
    let s := mapped (queued waiter)
    let t := s.choose (s.vd 0).part
    t.standing (s.vd 0).part = some 0 ∧ t.grantOk (t.launch 0) (sortNats [0]) = true ∧ t.twinRuns (t.launch 0) = false ∧
    (mapped (queued { waiter with state := .discarded })).mayRestart 0 = true ∧ ((queued { waiter with state := .discarded }).vd 0).dispatches = false := by
  decide +kernel

/-- R390, R425: launches that complete: refused, run to its end, and ended by a fault; and one that still runs. -/
theorem witness_launch_complete :
    (let s := queued { waiter with status := 3 }; (s.launch 0).state = .waiting ∧ (s.launch 0).status ≠ 0 ∧ s.eligible 0 = true ∧ Map.has s.launches 0 = true) ∧
    (let s := core0 (fun k => { k with mode := .idle }) (here.setLaunch 0 { here.launch 0 with items := [(0, 2)] }); (s.launch 0).state = .running ∧ s.ended 0 = true) ∧
    (let s := core0 (fun k => { k with mode := .idle }) (here.setLaunch 0 { here.launch 0 with items := [(0, 2)] })
     let w := core0 (fun k => { k with sq := [{ m := false, scope := 0, block := 0, mask := 1, data := List.replicate 64 6 }] }) s
     (s.settleFirst 0 4 (s.launch 0).cores).isNone = true ∧
     ({ w with granules := Map.put w.granules 0 { gid := 7, pin := 0 } }.settleFirst 0 4 (w.launch 0).cores).isSome = true) ∧
    (let s := queued { waiter with state := .ending }; (s.launch 0).state = .ending ∧ (s.launch 0).status ≠ 1 ∧ s.coresOn 0 = [] ∧
      s.granulesOk (s.vd 0).gid (s.endGranules 0) = true) ∧
    here.ended 0 = false := by decide +kernel

/-- Core 0 idle in a launch of which no item has begun. -/
def unbegun : State := core0 (fun k => { k with mode := .idle })
  (here.setLaunch 0 { here.launch 0 with items := [], pool := [], words := (bareRecord.set 7 1).set 17 0x100000000 })

/-- R371, R378: an item that core 0 may start, with a free pool entry. -/
theorem witness_work_item :
    let s := unbegun
    let y := s.launch 0
    (s.core 0).job = some 0 ∧ s.idleCrew 0 0 = true ∧ s.preferred y 0 = false ∧ s.lowestItem y 0 0 = true ∧ 0 < y.cpoolN ∧ Map.has y.pool 0 = false ∧
    good (s.passWaves 0 0 (y.wavesFrom 0 0 (y.groups 0) false y.cores)) = true ∧ y.flightLen = 1 := by decide +kernel

/-- R371, R374: a suspended continuation that core 0 may resume: its pool entry is well formed. -/
theorem witness_continuation_resume :
    let s0 := mapped (core0 (fun k => { k with mode := .idle }) here)
    let s := (s0.setLaunch 0 { s0.launch 0 with suspended := [(0, 0, false)] }).paWrite 0 0 ((poolBytes true false 0 0 0 0 0 []).take 64)
    let y := s.launch 0
    (s.core 0).job = some 0 ∧ s.idleCrew 0 0 = true ∧ s.lowestReady y 0 0 = true ∧ good (s.poolRead 0 (y.entryVa 0)) = true ∧
    (match s.poolRead 0 (y.entryVa 0) with | .ok (b, _) => !poolMalformed b | .error _ => false) = true := by decide +kernel

/-- Core 0 idle in a launch of which it has run an item. -/
def between : State := core0 (fun k => { k with mode := .idle }) here

/-- The wave of a group of core scope. -/
def wave : WaveAt := { pos := 0, g := { dom := 1, ext := 1, idx := 0, scope := 0 }, k := 0, wave := 1, region := [0] }

/-- R323, R351, R368: wave phases: performed, not yet because a continuation runs, and performed before. -/
theorem witness_wave_phases :
    between.atWave 0 0 0 = true ∧ between.leftOn 0 0 = false ∧ between.quietCore 0 = true ∧ between.taken 0 = false ∧
    (between.settleFirst 0 0 [0]).isNone = true ∧ (between.launch 0).wavePhases.contains ((between.launch 0).waveKey 0 wave [0]) = false ∧
    (match between.gangGate 0 { lid := between.gangLid 0, kind := 0, scope := 0 } with | .complete _ => true | .wait _ => false) = true ∧
    good (between.wavePhase 0 0 wave [0]) = true ∧ here.atWave 0 0 0 = false ∧ good (here.wavePhase 0 0 wave [0]) = false ∧
    (waiting 0).atWave 0 0 0 = true ∧ (waiting 1).atWave 0 0 0 = false ∧
    (let s := between.setLaunch 0 { between.launch 0 with wavePhases := [(between.launch 0).waveKey 0 wave [0]] }
     (s.launch 0).wavePhases.contains ((s.launch 0).waveKey 0 wave [0]) = true) := by decide +kernel

/-- R361, R362: a queue entry, and a record, that cannot be read. -/
theorem witness_unread_records :
    let far (a b : BitVec 52) : State := vd0 (fun x => { x with qcfgEn := [(3, true)], qcfgBase := [(3, a)], dbellTail := [(3, 1)] })
      (mapped ((here.paWrite 0 4096 (leBytes 8 (4096 * b.toNat))).paWrite 0 8192 (bareRecord.flatMap fun w => leBytes 8 w.toNat)))
    ((far (2 ^ 40) 2).vd 0).mayFetch 3 = true ∧ good ((far (2 ^ 40) 2).mReadChecked 0 (2 ^ 52) 8) = false ∧
    good ((far 1 (2 ^ 40)).mReadChecked 0 4096 8) = true ∧ good ((far 1 (2 ^ 40)).mReadChecked 0 (2 ^ 52) 256) = false := by decide +kernel

/-- R371, R374: a pool entry that is malformed. -/
theorem witness_malformed_entry :
    let s0 := mapped between
    let s := (s0.setLaunch 0 { s0.launch 0 with suspended := [(0, 0, false)] }).paWrite 0 0 (List.replicate 64 255)
    (s.core 0).job = some 0 ∧ s.idleCrew 0 0 = true ∧ s.lowestReady (s.launch 0) 0 0 = true ∧
    (match s.poolRead 0 ((s.launch 0).entryVa 0) with | .ok (b, _) => poolMalformed b | .error _ => false) = true := by decide +kernel

/-- R391-R393: a coalescing window of records, of faults, and of both. -/
theorem witness_windows :
    let open_ (a b : Bool) : VDev := (vd0 (fun x => { x with window := a, windowFq := b }) here).vd 0
    (open_ true false).window = true ∧ (open_ true false).windowFq = false ∧ (open_ false true).window = false ∧ (open_ false true).windowFq = true ∧
    (open_ true true).window = true := by decide +kernel

/-- A device whose communicator 0 has one member, with these operations, ports up. -/
def wind (size : Nat) (os : List WOp) : State :=
  let s := vd0 (fun x => { x with comms := [(0, { Comm.reset with size := size, mask := 1, quota := 1, queue := os })] }) here
  { s.setPort 0 { s.port 0 with en := true, up := true } with qen := true, gangs := [(65536, { bareGang with members := [0, 1] })] }

/-- A barrier that has started. -/
def begun : WOp := { here.operation Comm.reset true 0 with started := true, head := some (here.operation Comm.reset true 0).headOf }

/-- An empty packet of a barrier. -/
def barPacket : Packet := { gang := 65536, comm := 0, src := 0, dst := 1, vc := 0, len := 0, index := 0, head := begun.headOf, payload := [], failed := false, credits := [] }

/-- R484: a chunk of the system class that is due: it takes no flit, so any number of credits lets it go. -/
theorem witness_system_chunk : ((wind 2 []).setPort 0 { (wind 2 []).port 0 with sysWait := [[]] }).sysDue 0 = true := by
  decide +kernel

/-- R342-R346: a barrier that starts, sends and completes. -/
theorem witness_windlass :
    (let s := wind 2 [here.operation Comm.reset true 0]
     ((s.vd 0).comms.lookup 0).any (fun m => m.queue.head? = some (here.operation Comm.reset true 0)) = true ∧ s.windlassRuns 0 = true ∧
     (s.launch 0).state = .running ∧ (here.operation Comm.reset true 0).started = false ∧ (here.operation Comm.reset true 0).held = 0) ∧
    (let s := wind 2 [begun]
     let m := (s.vd 0).comms.lookup 0
     s.portUp 0 = true ∧ (s.gangOf 0).isSome = true ∧ m.any (fun m => (begun.plan m).isEmpty && (s.barPackets 0 0 m begun).length = 1) = true ∧
     here.portUp 0 = false) ∧
    (let o := { begun with bar := false }
     let s := wind 2 [o]
     ((s.vd 0).comms.lookup 0).any (fun m => (o.plan m)[o.sent]? = some (1, 0) && (s.nextChunk 0 0 0 m).isSome && s.wantsPort 0 0 0 m &&
       s.portChoice 0 0 m.prio && m.mask.testBit 0) = true ∧ s.sysDue 0 = false ∧ (s.gangOf 0).isSome = true ∧ (s.vd 0).qRate = 0) ∧
    (let m := { Comm.reset with mask := 1, owed := [([0], barPacket)] }
     m.owed.find? (·.1.contains 0) = some ([0], barPacket) ∧ ((wind 2 []).nextChunk 0 0 0 m).isSome = true) ∧
    (let s := wind 1 [begun]
     ((s.vd 0).comms.lookup 0).any (fun m => !m.disagrees begun && (begun.plan m).length ≤ begun.sent && m.arrived begun &&
       (s.finishFault 0 m begun).isNone &&
       (s.engineGranules begun.core (begun.dstAccs m.size)).all fun x => s.granuleOk 65536 x) = true) := by decide +kernel

/-- R342, R343: an operation whose source and destination pass their checks. -/
theorem witness_windlass_data :
    let s := wind 2 []
    let o := { here.operation Comm.reset false 0 with words := [0, 16, 10, 4106] ++ List.replicate 12 0 }
    let src := o.srcAccs 0 2
    let dst := o.dstAccs 2
    s.extentCheck 0 src dst = none ∧ s.awaitsStores o src = false ∧ s.engineCheck 0 .write dst = none ∧ ∀ x ∈ s.engineGranules 0 (src ++ dst), s.granuleOk (s.vd 0).gid x = true := by
  decide +kernel

/-- A packet of the gang for this device. -/
def packet : Packet := { gang := 9, comm := 0, src := 1, dst := 0, vc := 0, len := 1, index := 0, head := begun.headOf, payload := [7], failed := false, credits := [] }

/-- What comes beside the flits of that packet. -/
def noteOf : PacketNote := { index := 0, head := begun.headOf, failed := false, owners := [] }

/-- R413, R482: packets: read from their flits, with a malformed flit, and with one missing; of this gang, captured while it halts, for the
mirror, and of no gang here. -/
theorem witness_packets :
    packetFrom (packetWire packet) noteOf = some packet ∧ packetFrom (packetWire { packet with len := 4097 }) noteOf = none ∧
    packetFrom ((packetWire { packet with len := 65 }).take 1) noteOf = none ∧
    ((packetWire { packet with len := 4097 }).filter frameMalformed).length = 1 ∧
    creditsOf (packetWire { packet with len := 65, credits := [⟨9, 0, 3⟩] }) [(9, 0)] = [⟨9, 0, 3⟩] ∧
    (({ here with gangs := [(9, bareGang)] } : State).gangs.lookup packet.gang) = some bareGang ∧ packet.comm ≠ 32 ∧ bareGang.retired = false ∧
    packet.dst = here.devnum.toNat ∧ (bareGang.countReceived packet.vc).captures = false ∧ (wind 2 []).portUp 0 = true ∧
    ({ bareGang with vote := .capturing }.countReceived packet.vc).captures = true ∧ here.gangs.lookup 7 = none := by decide +kernel

/-- R482: the frame words of a 4 KiB packet of communicator 17 of gang 0x21, from device 4 to device 9 on virtual channel 2. -/
theorem test_frame_words :
    let fs := packetWire { packet with
      vc := 2, comm := 17, dst := 9, src := 4, len := 4096, gang := 0x21, payload := List.replicate 4096 7 }
    fs.length = 64 ∧ (fs.map (·.frame)).head? = some 0x2910120120000042 ∧ (fs.map (·.frame)).getLast? = some 0x2400000000000000 := by
  decide +kernel

/-- R342, R343, R345, R482: an operation with which a peer's part disagrees, an operation of data whose descriptor lies outside its space as it
ends, and credits due at a port. -/
theorem witness_operations_that_fail :
    (let part : WPart := { rank := 1, index := 0, head := { begun.headOf with count := 9 }, data := [] }
     let m : Comm := { Comm.reset with size := 2, mask := 1, queue := [begun], parts := [part] }
     m.disagrees begun = true ∧ begun.bar = true ∧ ({ m with parts := [] } : Comm).disagrees begun = false) ∧
    (let o := { begun with bar := false, ptr := 1 }
     let s := wind 1 [o]
     ((s.vd 0).comms.lookup 0).any (fun m => (s.finishFault 0 m o).isSome) = true) ∧
    (let s := (wind 2 []).setPort 0 { (wind 2 []).port 0 with creditsDue := [⟨9, 0, 3⟩, ⟨9, 0, 2⟩] }
     let ps := [{ packet with len := 65 }]
     (ps.map fun x => packetFlits x - 1).sum = 1 ∧ ((s.emit 0 ps).port 0).creditsDue = [⟨9, 0, 2⟩]) := by decide +kernel

/-- R46: an access of the M queue that has passed its window check and is not yet performed uses its range. -/
theorem witness_range_in_use :
    let s := queues [] [{ acc .load with m := true, addr := 8192 }]
    (s.core 0).job.isSome = true ∧ s.coreVd 0 = 0 ∧ s.usesRange 0 [(8192, 12288)] = true ∧ s.usesRange 0 [(12288, 16384)] = false := by decide +kernel

/-- R485: a port that is down, whose system chunks another port of its partition takes, or none can take. -/
theorem witness_reroute :
    let w := wind 2 []
    let s := (w.setPort 1 { w.port 1 with sysWait := [[packet]] }).setPart 1 { w.part 1 with ports := [0, 1] }
    s.portUp 1 = false ∧ s.portUp 0 = true ∧ ((s.parts.find? fun e => e.2.ports.contains 1).bind fun e => e.2.ports.find? s.portUp) = some 0 ∧
    ((s.reroute 1).port 0).sysWait = [[packet]] ∧ ((s.reroute 1).port 1).sysWait = [] ∧
    ((here.parts.find? fun e => e.2.ports.contains 1).bind fun e => e.2.ports.find? here.portUp) = none := by decide +kernel

/-- R158, R159, R165, R259: results that land in a latch, a predicate, a flag plane and the ring. -/
theorem test_landings :
    (((here.land 0 (.latch 3 9)).core 0).rd 59, ((here.land 0 (.pred 1 3 1)).core 0).pred 1, (((here.land 0 (.flags 8 1)).land 0 (.flags 8 2)).core 0).pred 8,
      ((here.land 0 (.tail 131071 [1, 2])).core 0).tail.read 0 1, ((here.land 0 (.sysreg 0x22 255)).core 0).fctl) = (9, ((here.core 0).pred 1 &&& ~~~3) ||| 1, 3, [2], 15) := by
  decide +kernel

/-! ### Partitions and gangs -/

/-- R394-R399: creation, destruction, grants and revocations. -/
theorem witness_partition_commands :
    ((args 0 0 0 0).pbusy = false ∧ Map.has (args 0 0 0 0).parts 2 = false ∧ (args 0 0 0 0).argsWithin 0 0 0 0 = true ∧ Map.has (args 0 0 0 0).parts 1 = true ∧
      (args 0 0 0 0).vdsOf 1 ≠ []) ∧
    (let s := { args 0 0 0 0 with vds := [], gangs := [] }; s.vdsOf 1 = [] ∧ s.gangsOf 1 = []) ∧
    (let s := args 1 7 2 0
     let x : Cap := ⟨1, 80, 1, 1, 80, 1, 0⟩
     caps.find? (·.typ = 1) = some x ∧ x.grantBad (s.part 1) 7 2 = false ∧ s.allotmentShort x (s.part 1) 2 = false ∧ s.unitsFree 1 7 2 = true ∧
     s.argsWithin 0xFF all64 all64 0 = true) ∧ caps.find? (·.typ = 12) = none ∧
    (let s := args 2 3 1 0; let x : Cap := ⟨2, 1024, 2 ^ 30, 1, 1024, 1, 0⟩
     x.allotment = false ∧ x.first ≤ 3 ∧ 4 ≤ x.first + x.count ∧ ((s.part 1).units 2).contains 3 = true ∧ s.inUse 1 2 3 1 = false) := by decide +kernel

/-- R400, R401, R420, R421: virtual devices: created, scheduled, stopped and destroyed. -/
theorem witness_vd_commands :
    (let s := args 1 0 0 0; s.argsWithin 0xFF all64 0xFFF 0 = true ∧ (s.part 1).kickPages.contains 1 = true ∧ (s.vd 1).part = 0 ∧ (s.part 1).kickPages.contains 2 = false) ∧
    (let s := args 0 255 100 0; s.argsWithin 0xFF 0xFF 0xFFFFF 0 = true ∧ (s.vd 0).part = 1) ∧
    (let s := vd0 (fun x => { x with stopped := true }) (args 0 0 0 0); (s.vd 0).stopped = true ∧ (s.vd 0).joined = false) ∧
    (let s := args 0 0x40000000 0 0
     s.argsWithin 0xFF all64 1 0 = true ∧ (s.vd 0).stopped = false ∧ (s.vd 0).stopping = false ∧ 0x40000000 + reportSize (s.vd 0).pages ≤ 2 ^ 40 ∧
     ownsRange (s.part 1) 0x40000000 (reportSize (s.vd 0).pages) = true) := by decide +kernel

/-- R403: the arguments of a GJOIN of virtual device 0 into gang 9 of one member, device 0, whose list stands at 0x1000. -/
theorem witness_gjoin :
    let s := { (args 9 0x40000000 (5 + 16 * 2 ^ 12 + 10 * 2 ^ 28 + 1 * 2 ^ 44) 4096).paWrite 0 4096 [0, 0] with launches := [] }
    let g := Gang.new 1 0 0 (s.memberList 4096 1) 0x40000000 5 16 10 1
    s.argsWithin (2 ^ 46 - 1) all64 (2 ^ 60 - 1) all64 = true ∧ (s.vd 0).part = 1 ∧ (s.vd 0).joined = false ∧ s.vdBusy 0 = false ∧ g.members = [0] ∧
    (s.part 1).saveSize g.sumpSize + 0x40000000 ≤ 2 ^ 40 ∧ ownsRange (s.part 1) 0x40000000 ((s.part 1).saveSize g.sumpSize) = true ∧
    (s.part 1).keys.contains g.key = true ∧ (s.slot g.key).state = 1 ∧ g.sumpSize ≤ (s.part 1).sump ∧ (s.gangsOf 1).map (·.2.sumpSize) = [0] ∧ g.pdl = 10 ∧
    g.tdrain = 1 ∧ s.foreignRange 1 4096 2 = false ∧ g.members.getD 0 0 = s.devnum.toNat ∧ rising g.members = true ∧ (∀ e ∈ s.gangs, e.1 = 9 → e.2.retired = true) := by decide +kernel

/-- R406, R408, R416: slot rows, backfill, communicators, and a gang that retires. -/
theorem witness_slot_commands :
    (let s := args 63 0 1 64; s.argsWithin 0x3F all64 0xFFFFF 0x7F = true ∧ ∀ n ∈ cellGangs 0, s.gangIn 1 n = true) ∧
    (args 15 0xFFFF 0 0).argsWithin 0xF 0xFFFF 0 0 = true ∧
    (let s := args 0x10000 1 0 0
     s.argsWithin 0xFFFFFFFF (2 ^ 36 - 1) 0 0 = true ∧ Map.has (s.vd 0).comms 0 = false ∧ s.commsUsed 1 < (s.part 1).comms.length ∧ (s.part 1).ports.contains 0 = true) ∧
    ((withComm []).vd 0).comms.lookup 0 = some { Comm.reset with size := 1 } ∧
    (let s := { vd0 (fun x => { x with run := false }) (args 9 0 0 0) with gangs := [(9, bareGang)] }
     s.gangs.lookup 9 = some bareGang ∧ bareGang.part = 1 ∧ bareGang.retired = false ∧ bareGang.vote ≠ .resuming ∧ (s.vd 0).run = false ∧ (s.part 1).names 9 = false ∧ (s.vd 0).comms = []) ∧
    (args 9 0 0 0).gangs.lookup 9 = none := by decide +kernel

/-- R394: two partitions with units of their own. -/
theorem witness_units_apart :
    let s := here.setPart 2 { Part.reset with clusters := [1] }
    (s.part 1).clusters = [0] ∧ (s.part 2).clusters = [1] ∧ s.parts.map (·.1) = [1, 2] ∧ (match exec (.pcreate 3) s with | .next t => Map.has t.parts 3 | _ => false) = true := by
  decide +kernel

/-- A device whose gang 9 is `g`. -/
def ganged (g : Gang) : State := { here with gangs := [(9, g), (65536, bareGang)] }

/-- R410-R418: the states of a member in which the messages of a vote act. -/
theorem witness_gang_votes :
    ((ganged bareGang).gangs.lookup 9 = some bareGang ∧ ((ganged bareGang).vd 0).run = true ∧ ({ ganged bareGang with launches := [] }).refusal bareGang = none ∧
      bareGang.balanced = true ∧ (ganged bareGang).pwait = none) ∧
    (let g := { bareGang with voting := true, vote := .halted, reports := [(0, [], [])] }
     (∀ d ∈ g.members, g.reports.any (fun r => r.1 = d) = true) ∧ g.balanced = true) ∧
    (let g := { bareGang with vote := .committing, unsettled := [4] }; g.unsettled.contains 4 = true ∧ ((ganged g).cluster 4).launch = none) ∧
    (let g := { bareGang with vote := .resuming, rank := 1 }; (ganged g).homesIdle 0 = true ∧ (ganged g).granulesOk 9 ((ganged g).homeGranules g) = true) ∧
    (ganged { bareGang with mirroring := true }).mirrorSent 9 = true ∧ ({ bareGang with retired := true }).retired = true ∧
    (bareGang.trigger = false ∧ bareGang.ckptDue = false ∧ { bareGang with ckptDue := true }.ckptDue = true ∧ ((ganged bareGang).vd 0).stopped = false ∧
      ((ganged bareGang).vd 0).stopping = false ∧ bareGang.voting = false ∧ ({ ganged bareGang with launches := [] } : State).launches = []) ∧
    (let g := { bareGang with members := [0, 1], voting := true }; g.members.contains 1 = true ∧ 1 ≠ (ganged g).devnum.toNat) := by decide +kernel

/-- R397, R400, R401: the arguments of VDCREATE with a save area: good, an area that is not the partition's, and a key slot that is not loaded. -/
theorem witness_vdcreate_areas :
    let ok (s : State) : Bool := ownsRange (s.part 1) 0x40000000 ((s.part 1).saveSize 0) && 0x40000000 + (s.part 1).saveSize 0 ≤ 2 ^ 40 &&
      0x40000000 % 2 ^ 21 = 0
    (args 1 0x40000000 5 0).argsWithin 0xFF all64 0xFFF 0 = true ∧ ((args 1 0x40000000 5 0).vd 1).part = 0 ∧
    ((args 1 0x40000000 5 0).part 1).kickPages.contains 1 = true ∧ ok (args 1 0x40000000 5 0) = true ∧
    ((args 1 0x40000000 5 0).part 1).keys.contains 5 = true ∧ ((args 1 0x40000000 5 0).part 1).keys.contains 6 = false ∧
    ((args 1 0x40000000 5 0).slot 5).state = 1 ∧ (({ args 1 0x40000000 5 0 with slots := [] } : State).slot 5).state ≠ 1 ∧
    ((args 0 0 0 0).part 1).kickPages.contains 0 = true ∧ ((args 0 0 0 0).vd 0).part ≠ 0 ∧
    (let s := vd0 (fun x => { x with stopping := true }) (args 0 0x40000000 0 0); (s.vd 0).stopping = true ∧ (s.vd 0).part = 1) := by decide +kernel

/-- A device to join virtual device `v` of it to gang 9, with the third argument `c` and this member list. -/
def joining (v c : Nat) (members : List Nat) : State :=
  { (args (9 + (members.length - 1) * 2 ^ 27 + v * 2 ^ 38) 0x40000000 c 4096).paWrite 0 4096 (members.flatMap (leBytes 2)) with launches := [] }

/-- A third argument: key slot 5, a Sump of 16, PDL 10, and a drain time of 1. -/
def joinArg : Nat := 5 + 16 * 2 ^ 12 + 10 * 2 ^ 28 + 2 ^ 44

/-- The code with which GJOIN ends, for a device with partition 1 changed. -/
def joinCode (s : State) (f : Part → Part) : Nat := match execGjoin 1 (s.setPart 1 (f (s.part 1))) with | .next t => t.pcode | _ => 0

/-- R403: the refusals of GJOIN: a virtual device of no partition; a drain time of 0; a virtual device that is in a gang, one that is busy, a
gang that is here already; an area, and a key, that the partition has not; a key slot that is not loaded; a Sump without room; a list in a
granule of another partition; and one that does not name this device, or does not rise. -/
theorem witness_gjoin_refusals :
    let s := joining 0 joinArg [0]
    [joinCode (joining 3 joinArg [0]) id, joinCode (joining 0 (joinArg - 2 ^ 44) [0]) id, joinCode (vd0 (fun x => { x with joined := true }) s) id,
      joinCode { s with launches := here.launches } id, joinCode { s with gangs := (9, bareGang) :: s.gangs } id,
      joinCode s (fun x => { x with granules := [0] }), joinCode s (fun x => { x with keys := [] }), joinCode { s with slots := [] } id,
      joinCode s (fun x => { x with sump := 4 }), joinCode (s.setPart 2 { Part.reset with granules := [0] }) (fun x => { x with granules := [1, 2, 3] }),
      joinCode (joining 0 joinArg [1]) id, joinCode (joining 0 joinArg [0, 0]) id] = [2, 1, 3, 3, 3, 2, 2, 4, 4, 2, 1, 1] := by
  decide +kernel

/-- R405: a GRETIRE of a gang whose virtual device still runs, and one that is done. -/
theorem witness_gretire_refusals :
    (let s := { args 9 0 0 0 with gangs := [(9, bareGang)] }; (s.vd 0).run = true ∧ bareGang.vote ≠ .resuming ∧ bareGang.retired = false) := by decide +kernel

/-- R412, R414: by what a cluster settles: it is to be discarded, saved, drained, saved within the limit, restarted, or saved too late. -/
theorem witness_settling :
    (let s := vd0 (fun x => { x with stopping := true }) here; (s.vd 0).stopping = true ∧ s.settleBy bareGang 0 0 = .discard) ∧
    (here.vd 0).stopping = false ∧ here.settleBy { bareGang with resumeAtOnce := true } 0 0 = .save false ∧
    (let s := here.setLaunch 0 { here.launch 0 with items := [(0, 2)] }; s.drainFits bareGang 0 = true ∧ s.settleBy bareGang 0 0 = .drain) ∧
    here.drainFits { bareGang with pdl := 65535 } 0 = false ∧ here.saveFits { bareGang with pdl := 65535 } 0 0 = true ∧
    here.saveFits bareGang 0 0 = false ∧ here.settleBy bareGang 0 0 = .save true ∧
    (let s := here.setLaunch 0 { here.launch 0 with words := bareRecord.set 0 (bareRecord.getD 0 0 ||| 2 ^ 44) }
     (s.launch 0).rst = true ∧ s.settleBy bareGang 0 0 = .discard) := by decide +kernel

/-- R119, R358, R414: a member at its commit, a cluster whose cores may be saved, one that runs a command, and one that has settled. -/
theorem witness_saving :
    let g := { bareGang with vote := .committing, unsettled := [0, 4], saving := [0] }
    let s := ganged g
    (s.cluster 0).launch = some 0 ∧ (s.launch 0).vd = g.vd ∧ (s.launch 0).state = .running ∧ g.unsettled.contains 0 = true ∧ g.saving.contains 0 = true ∧
    (∀ i ∈ clusterCores 0, (s.core i).saveReady = true ∧ (s.core i).flightFits = true) ∧ (product.core 0).saveReady = false ∧
    (s.cluster 4).launch = none ∧ (∀ d ∈ (s.launch 0).clusters, d = 0 ∨ (s.cluster d).launch = none) := by decide +kernel

/-- R411, R415: messages that a coordinator takes: the last DONE, a RESUME of its own that is due, and one that is not. -/
theorem witness_coordinator :
    (let g := { bareGang with members := [0, 1], voting := true, doneBy := [0] }
     g.rank = 0 ∧ g.members.contains 1 = true ∧ (∀ d ∈ g.members, d = 1 ∨ g.doneBy.contains d = true) ∧
     ∃ d ∈ g.members, d ≠ 0 ∧ g.doneBy.contains d = false) ∧
    (let g := { bareGang with vote := .out, resumeAtOnce := true }; (ganged g).resumeDue 9 g = true ∧ ((ganged g).vd 0).stopped = false) ∧
    (let g := { bareGang with vote := .out }; (ganged g).resumeDue 9 g = false) ∧
    (args 0 0 0 0).routed 1 = false ∧ (((wind 2 []).setPart 1 { (wind 2 []).part 1 with ports := [0] }).routed 1) = true ∧
    ({ here with hold := true } : State).refusal bareGang = some 2 := by decide +kernel

/-- R440-R443: errors: of a gang without a checkpoint, after three rollbacks, of a chain that misses first and again, and of a launch that is off
its cluster, or waits. -/
theorem witness_errors :
    bareGang.ckpt = none ∧ bareGang.rolled = false ∧ bareGang.retired = false ∧ here.coreGid 0 = 65536 ∧
    (product.core 0).mill.active ≠ none ∧ (product.core 0).mill.missed.isSome = true ∧ (here.core 0).mill.active = none ∧
    ({ (product.core 0).mill with replay := some 2 } : Mill).missed.isNone = true ∧
    (let s := here.setLaunch 0 { here.launch 0 with state := .saved }; (s.launch 0).state = .saved) ∧
    (here.launch 0).state = .running ∧ here.coresOn 0 = [0] ∧ ((queued waiter).launch 0).state = .waiting ∧ waiter.status = 0 := by decide +kernel

/-- A device with that gang as gang 9. -/
def rolling : State :=
  ({ args 0 0 0 0 with gangs := [(9, rollGang), (65536, bareGang)] }).paWrite 5 256 [1, 0, 0, 0, 1, 0, 0, 0, 1, 0, 0, 0, 0, 0, 0, 0, 1, 0, 0, 0, 0, 0, 0, 0]

set_option maxRecDepth 100000 in
/-- R441: a gang with rollback. -/
theorem witness_rollback :
    rolling.rollbackOn rollGang = true ∧ fld (rolling.header rollGang 0x108) 31 0 ≠ 0 ∧ fld (rolling.header rollGang 0x110) 47 0 ≠ 0 ∧
    rollGang.ckptDue = false ∧ 9 * rolling.undoSize rollGang ≤ 10 * (undoBytes * 8192) := by decide +kernel

/-- R441, R442: a gang with a checkpoint, to which it may go back. -/
theorem witness_checkpoint :
    let c : Checkpoint := {
      cores := [], launches := [], nextLaunch := 0, pend := 0, queueStatus := [], nodes := [], held := [], fq := [], frames := [],
      comms := [], sump := [], sent := [], received := [], ostep := 0, mirrored := true }
    let g := { bareGang with ckpt := some c, rank := 1, undo := [{ m := false, key := 0, line := 0, data := [] }] }
    (ganged g).gangs.lookup 9 = some g ∧ g.rank ≠ 0 ∧ g.rolled = false ∧ g.rollbacks < 3 ∧ g.ckpt.any (·.mirrored) = true := by decide +kernel

/-- R405-R407: a slot row that starts. -/
theorem witness_slots : Map.has here.parts 1 = true ∧ (here.part 1).rowOn = false ∧ Map.has here.parts 2 = false := by decide +kernel

/-! ### Encodings, the checks of a word, landings, the step -/

/-- R148, R157: reserved opcodes, at the ends of their ranges, and two that are not. -/
theorem witness_reserved_opcodes :
    [0x49, 0x4F, 0x5A, 0x5F, 0x87, 0x8F, 0x9B, 0x9F, 0xB9, 0xBF, 0xCC, 0xCF, 0xD8, 0xDF, 0xE9, 0xF0, 0xFF].map (fun n => decide (decodeWord (BitVec.ofNat 32 (n * 2 ^ 23)) = .error .reservedOpcode)) =
    List.replicate 17 true ∧ decodeWord (0x00000000 : BitVec 32) = .ok .nop ∧ decide (decodeWord (BitVec.ofNat 32 (0x50 * 2 ^ 23)) = .error .reservedOpcode) = false := by
  decide +kernel

/-- R154: a well-formed instruction and its word. -/
theorem witness_encode : (Instr.lea 20 20 7 .d false 2).wf = true ∧ encode (.lea 20 20 7 .d false 2) = some 0x16A8A0EA ∧
    decodeWord 0x96A8A0EA = .ok (.lea 20 20 7 .d false 2) := by decide +kernel

/-- R147, R189: a word that passes its checks, one that waits for a register, and one that fails. -/
theorem witness_gate :
    good (here.gate (.add 2 4 6 .s)) = true ∧
    (match (next here (.ldg 2 4 0 .s 0)).gate (.add 3 2 2 .s) with | .error .stall => true | _ => false) = true ∧
    (match here.gate (.add 56 2 2 .s) with | .error (.trap x) => decide (x.cls = 1) | _ => false) = true := by decide +kernel

/-- The memories are canonical at reset, and a step from there. -/
theorem witness_canonical : State.reset.canonical = true ∧ (match step State.reset with | .next t => t.bootStep | _ => 0) = 1 := by decide +kernel

/-- R218: a loop that goes round and one that is used up, inside another. -/
theorem witness_loop_end :
    let loops : Map LoopSet := [(0, { start := 4, fin := 9, cnt := 3 }), (1, { start := 7, fin := 9, cnt := 1 })]
    loopNext loops 9 1 2 = ([(0, { start := 4, fin := 9, cnt := 2 }), (1, { start := 7, fin := 9, cnt := 0 })], 1, 4) ∧
    loopNext loops 8 1 2 = (loops, 2, 9) ∧ (here.core 0).mode = .running ∧ here.bun.next = none ∧
    slot (.jmp 0) = .ct := by decide +kernel

/-- R144, R183: a device on which the step runs a word, and what the step then does with it: `addi s2, s0, 5` writes s2 in the next cycle. -/
theorem witness_step :
    let s := State.reset.placeWord 0x10040005
    let k := s.core 0
    k.mode = .running ∧ k.flen = 1 ∧ k.barrier = none ∧ s.holdsCore 0 = false ∧ s.agenda = [] ∧ s.ready = true ∧ s.turn = 0 ∧
    (s.job 0).fetchBundle 0 k.pc = some [0x10040005] ∧ decodeWord 0x10040005 = .ok (.addi 2 0 5) ∧ bundleOk [.addi 2 0 5] = true ∧
    loopEndClash k k.pc [.addi 2 0 5] = false ∧ s.bundleAllowed k 2 = true ∧ mark s (.addi 2 0 5) = .ok ∧
    (core0 (fun k => { k with charges := [(0, 4400)] }) s).bundleAllowed ((core0 (fun k => { k with charges := [(0, 4400)] }) s).core 0) 2 = false ∧
    (here.replaces (.await 3 true false) = true ∧ (next (handle0 3 bank here) (.await 3 true false)).cur.mode ≠ .running) ∧
    chooseTrap true [(0, .trap { cls := 3 })] = some { cls := 3 } ∧ chooseTrap false [(0, .ok)] = some { cls := 1 } ∧
    mark here (.hpub 3) = .trap { cls := 16, addr := 3 } := by decide +kernel

/-- R127, R339: marks of a word that waits for a store to land, and of one that freezes for a granule of another gang. -/
theorem witness_marks :
    mark (core0 (fun k => { k.fly 2 [.bank 3 0 [0, 0, 0, 0]] with sched := 1 }) (handle0 3 bank here)) (.hpub 3) = .tick ∧
    mark { here with granules := Map.put here.granules 0 { gid := 7, pin := 0 }, gangs := (7, bareGang) :: here.gangs } (.ldl 2 4 0 .s 0) =
      .freeze [0, 0] := by decide +kernel

/-- A flight of cores 0 and 1 with one bundle of the word `w` at its program counter. -/
def flight (w : Word) : State :=
  let s := State.reset.placeWord w
  let k := { s.core 0 with flen := 2 }
  (s.setCore 0 k).setCore 1 { k with fpos := 1 }

/-- How a bundle comes out. -/
def outcome (x : Issue) : Option Mark := match x with
  | .ok _ => some .ok
  | .held m => some m
  | .fault t => some (.trap t)
  | .replaced _ => none

/-- R150, R169-R171, R423: a bundle of two words, of which the first reads a register that the second writes; one that stalls; one with a fault; one
that waits in its place; one that breaks the slots' limits, or reads what an earlier word writes; and one that freezes for a granule of another gang. -/
theorem witness_bundles :
    (let s := regs [(2, 7)] here
     let r := (s.openBundle 0 2 [.add 3 2 0 .s, .movi 2 5]).runWords (s.orderedWords [some (.add 3 2 0 .s), some (.movi 2 5)])
     r.marks.map (·.2) = [.ok, .ok] ∧ r.replaced = none ∧ s.bundleFits 0 [some (.add 3 2 0 .s), some (.movi 2 5)] = true ∧
     ((r.state.cur.inflight.map (·.what)).contains (.reg 3 7)) = true) ∧
    [outcome (here.tryIssue 0 [some (.add 3 2 0 .s), some (.movi 2 5)] []), outcome (here.tryIssue 0 [some (.movi 2 5), some (.add 3 2 0 .s)] []),
      outcome (millFull.tryIssue 0 [some (.movi 2 5), some .mwaitAll] []), outcome (here.tryIssue 0 [some (.movi 2 5), some (.trap 3)] []),
      outcome ((handle0 3 bank here).tryIssue 0 [some .nop, some (.await 3 true false)] []), outcome (here.tryIssue 0 [some (.jmp 4), some (.jmp 4)] []),
      outcome ((core0 (fun k => { k.fly 2 [.bank 3 0 [0, 0, 0, 0]] with sched := 1 }) (handle0 3 bank here)).tryIssue 0 [some .nop, some (.hpub 3)] []),
      outcome ({ here with granules := [(0, { gid := 7, pin := 0 })], gangs := (7, bareGang) :: here.gangs }.tryIssue 0 [some .nop, some (.ldl 2 4 0 .s 0)] [])] =
    [some .ok, some (.trap { cls := 1 }), some .stall, some (.trap { cls := 19, code := 3 }), none, some (.trap { cls := 1 }), some .tick, some (.freeze [0, 0])] := by
  decide +kernel

/-- R376: a flight of two: both members' bundles are due and issue; both fault. -/
theorem witness_flight :
    let n := (flight 0x10040005).newCycle
    (n.core 0).flen = 2 ∧ n.flightStopped 0 = false ∧ n.holdsCore 0 = false ∧ n.duePc 0 0 = some 0 ∧
    outcome (n.memberIssue 0 0) = some .ok ∧
    n.duePc 0 1 = none ∧ (n.core 1).lead = 0 ∧
    (let m := n.setCore 0 { n.core 0 with trail := List.replicate 80 1 }
     m.duePc 0 1 = some 0 ∧ outcome (m.memberIssue 1 0) = some .ok) ∧
    outcome ((flight 0x70000042).memberIssue 0 0) = some (.trap { cls := 19, code := 0x42 }) := by decide +kernel

/-! ### The spec's worked examples -/

/-- A core after its results of `n` cycles have landed. -/
def landed (s : State) (i : Instr) (n : Nat) : Core :=
  let t := next s i
  ((t.setCore 0 { t.core 0 with sched := n }).landDue 0).core 0

/-- R199, DivRem: by 0, of the most negative number by -1, and signs. -/
theorem test_divide : let s := regs [(2, 7), (4, 0x80000000), (5, 0xFFFFFFFF), (6, 0xFFFFFFF9), (7, 2)] here
    [(landed s (.div 9 2 0 .s) 18).rd 9, (landed s (.rem 9 2 0 .s) 18).rd 9, (landed s (.div 9 4 5 .s) 18).rd 9, (landed s (.rem 9 4 5 .s) 18).rd 9,
      (landed s (.div 9 6 7 .s) 18).rd 9, (landed s (.rem 9 6 7 .s) 18).rd 9, (landed s (.divn 9 6 7 .s) 18).rd 9] =
    [0xFFFFFFFF, 7, 0x80000000, 0, 0xFFFFFFFD, 0xFFFFFFFF, 0x7FFFFFFC] := by decide +kernel

/-- R198, R201, R204 by their pseudocode: a 64-bit product in a pair, a signed field cut at the register's top, and scaled addresses. -/
theorem test_integer : let s := regs [(2, 0xFFFFFFFF), (3, 0), (4, 2), (5, 0), (6, 28 + 64 * 8), (8, 0x80000000)] here
    (landed s (.mul 10 2 4 .d) 3).rd 10 = 0xFFFFFFFE ∧ (landed s (.mul 10 2 4 .d) 3).rd 11 = 1 ∧ (landed s (.bext 10 8 6 .s true) 1).rd 10 = 0xFFFFFFF8 ∧
    (landed s (.lea 10 4 8 .d false 1) 1).rd 11 = 0xFFFFFFFF ∧ (landed s (.lea 10 4 8 .d true 1) 1).rd 11 = 1 ∧ (landed s (.clz 10 12 .d) 1).rd 10 = 64 := by
  decide +kernel

/-- R209: `fcvt.f2i` of a NaN gives 0. -/
theorem test_float_to_integer : (landed (regs [(4, 0x7FC00000)] here) (.fcvt 9 4 0 1) 4).rd 9 = 0 := by decide +kernel

/-- R65-R67: 450 and 470 in E4M3, with SATF 0 and 1, the smallest subnormal, and stochastic rounding of 1.3 to BF16. -/
theorem test_convert :
    let c (x : Nat) (sat : Bool) := (convert (Fmt.f32.decode x) .e4m3 0 sat 0).1
    [c 0x43E10000 false, c 0x43EB0000 false, c 0x43EB0000 true, c 0x3A83126F false, c 0xBF800000 false] = [0x7E, 0x7F, 0x7E, 0x01, 0xB8] ∧
    (convert (Fmt.f32.decode 0x3FA66666) .bf16 4 false 0xA0000000).1 = 0x3FA7 ∧ (convert (Fmt.f32.decode 0x3FA66666) .bf16 4 false 0x9999FFFF).1 = 0x3FA6 := by
  decide +kernel

/-- R68: the generator's published answer for a key and a counter of zeros. -/
theorem test_philox : [0, 1, 2, 3].map (philox 0 0 0 0 0) = [0x6627E8D5, 0xE169C58D, 0xBC57AC4C, 0x9B00DBD8] := by decide +kernel

/-- R222: the last 16 bytes of a slice, and the order of the checks beyond them. -/
theorem test_window : mark (regs [(4, 0x1FFFF0)] here) (.ldl 8 4 0 .q 0) = .ok ∧
    mark (regs [(4, 0x1FFFF8)] here) (.ldl 8 4 0 .q 0) = .trap { cls := 4, addr := 0x1FFFF8 } ∧
    mark (regs [(4, 0x200000)] here) (.ldl 8 4 0 .q 0) = .trap { cls := 3, addr := 0x200000 } := by decide +kernel

/-- R35: the indices of 0x42_8061_5A40. -/
theorem test_walk_indices : [5, 4, 3, 2, 1, 0].map (levelIndex · 0x4280615A40) = [0, 0, 0, 0x10A, 3, 0x15] := by decide +kernel

/-- A plane whose lane `i` holds a word. -/
def planeAt (i : Nat) (w : Word) : List Word := List.replicate i 0 ++ [w]

/-- Core 0 with planes. -/
def planes (l : List (Nat × List Word)) : State := core0 (fun k => { k with planes := l }) here

/-- R238: `pmuls.f32 p1, p0, s5` of 7.0 by 2.5. -/
theorem test_pmuls : lane ((landed (regs [(5, 0x40200000)] (planes [(0, planeAt 7 0x40E00000)])) (.pmuls 1 0 5 0 0 0) 8).plane 1) 7 = 0x418C0000 := by decide +kernel

/-- R251: `prot.row p3, p2, 5`. -/
theorem test_prot_row : lane ((landed (planes [(2, planeAt 133 5)]) (.protRow 3 2 5 0 0) 8).plane 3) 128 = 5 ∧
    lane ((landed (planes [(2, planeAt 129 6)]) (.protRow 3 2 5 0 0) 8).plane 3) 188 = 6 := by decide +kernel

/-- R249: `pcvt.sf32.e4m3.x4 p8, p0` of 450.0, 470.0, 0.001 and -1.0. -/
theorem test_pcvt : lane ((landed (planes [(0, [0x43E10000, 0x43EB0000, 0x3A83126F, 0xBF800000])]) (.pcvt 8 0 0 0 2 3 0) 20).plane 8) 0 = 0xB8017F7E := by
  decide +kernel

/-- R267, R268: the remainder of 1 + 3 · 2⁻²⁴, and the value rebuilt from it. -/
theorem test_rvadd : (fwdExact false 0x3F800000 0x34400000).y = 0x3F800002 ∧ (fwdExact false 0x3F800000 0x34400000).rem = 0xB3800000 ∧
    undoWord [] (sumExact 0 [Fmt.f32.decode 0x3F800002, Fmt.f32.decode 0xB3800000, (Fmt.f32.decode 0x34400000).negate]) = 0x3F800000 := by decide +kernel

/-- R260, R264: sr.rslim 0x004000C0, and the bytes that a marker takes on the stack. -/
theorem test_tailrace : ((here.core 0).setSysreg 0x32 0x004000C0).tail.high = 192 ∧ ((here.core 0).setSysreg 0x32 0x004000C0).tail.low = 64 ∧
    (stacked.core 0).tail.rsp = 64 := by decide +kernel

/-- R298: 1.0 · 1.0 + 2⁻²⁴ + 2⁻⁶⁰ under P0 and under P5. -/
theorem test_block_sum :
    let p (x : Nat) : Machine.Num × Machine.Num := (Fmt.f32.decode x, Fmt.f32.decode x)
    blockSum 0 [p 0x3F800000, p 0x39800000, p 0x30800000] 127 127 = 0x3F800000 ∧ blockSum 5 [p 0x3F800000, p 0x39800000, p 0x30800000] 127 127 = 0x3F800001 := by
  decide +kernel

/-- R332: updates of one word in key order: sixteen of 1.0, then 2²⁴, then -2²⁴, make 16.0. -/
theorem test_ordered_updates : ((List.replicate 16 0x3F800000 ++ [0x4B800000, 0xCB800000]).foldl (atomNew 9 32) 0) = 0x41800000 := by decide +kernel

set_option maxRecDepth 100000 in
/-- FIPS 197, C.3: the key 00 to 1f, and the block 00112233445566778899aabbccddeeff, both ways. -/
theorem test_aes : let ks := aesKeys (BitVec.ofNat 256 (leNat (tabulate 32 (BitVec.ofNat 8))))
    let b := tabulate 16 fun i => 17 * i
    let c := [0x8e, 0xa2, 0xb7, 0xca, 0x51, 0x67, 0x45, 0xbf, 0xea, 0xfc, 0x49, 0x90, 0x4b, 0x49, 0x60, 0x89]
    aesBlock false ks b = c ∧ aesBlock true ks c = b := by decide +kernel

set_option maxRecDepth 100000 in
/-- IEEE Std 1619, vector 10: the first four blocks of data unit 0xff. -/
theorem test_xts :
    leNat (xtsLine false 0x2776966649575999699370245777496226357174286053234590452818281827 0x9245947409820551379993169741880295278333646284239397585326594131 0xff
      (tabulate 64 (BitVec.ofNat 8))) =
    0xfd88b14bcbfebe4533fcad35ac860a68443f68acf917b3668d4afef876e2315d3be6a314d412aea45723485e3f8000ea9bcf70e3996c83e48603772f103a3b1c := by
  decide +kernel

/-- R48, R52: a line written under a slot's key: what it holds under the key, and in memory itself. -/
theorem test_line_under_a_key :
    let s := { args 0 0 0 0 with slots := [(5, { KeySlot.reset with state := 1, mat := .loaded 1 2 })] }
    let t := s.paWrite 5 4096 (List.replicate 64 7)
    t.paRead 5 4096 4 = [7, 7, 7, 7] ∧ t.ciphertext 64 ≠ List.replicate 64 7 := by decide +kernel

end Sys2Proof.Tests
end

section
/-! The division words (R199) and the conditional branches (R211): how the model's readings of natural numbers are those of `BitVec`,
and from that what the words of both kinds come to. -/

namespace Sys2Proof.Machine

/-! ### Natural readings as bit vectors -/

/-- The natural reading. -/
theorem low_eq_toNat (n x : Nat) : low n x = (BitVec.ofNat n x).toNat := (BitVec.toNat_ofNat x n).symm

/-- The two's complement reading. -/
theorem sxt_eq_toInt (n x : Nat) : sxt n x = (BitVec.ofNat n x).toInt := by
  rw [BitVec.toInt_eq_toNat_cond, BitVec.toNat_ofNat, sxt]
  cases n with
  | zero => simp [Nat.mod_one]
  | succ n =>
    have half : x % 2 ^ (n + 1) < 2 ^ (n + 1 - 1) ↔ 2 * (x % 2 ^ (n + 1)) < 2 ^ (n + 1) := by
      rw [Nat.add_sub_cancel, Nat.pow_succ 2 n]; omega
    simp only [half]

/-- The pattern of an integer. -/
theorem wrap_eq_toNat (n : Nat) (z : Int) : wrap n z = (BitVec.ofInt n z).toNat := (BitVec.toNat_ofInt z).symm

/-! ### Division (R199) -/

/-- R199: the quotient by truncation, as a pattern. -/
theorem sdiv_eq_ofInt {n : Nat} (x y : BitVec n) : x.sdiv y = BitVec.ofInt n (x.toInt.tdiv y.toInt) :=
  BitVec.eq_of_toInt_eq (by rw [BitVec.toInt_sdiv, BitVec.toInt_ofInt])

/-- R199: the remainder of the quotient by truncation, as a pattern. -/
theorem srem_eq_ofInt {n : Nat} (x y : BitVec n) : x.srem y = BitVec.ofInt n (x.toInt.tmod y.toInt) := by
  rw [← BitVec.toInt_srem, BitVec.ofInt_toInt]

/-- R199: the least value by -1 wraps to itself. -/
theorem sdiv_overflow {n : Nat} {x y : BitVec n} (hx : x.toInt = -((2 ^ (n - 1) : Nat) : Int)) (hy : y.toInt = -1) : x.sdiv y = x := by
  have hn : 0 < n := Nat.pos_of_ne_zero fun h => by subst h; simp [BitVec.of_length_zero] at hy
  have least : x = BitVec.intMin n := BitVec.eq_of_toInt_eq (by rw [hx, BitVec.toInt_intMin_of_pos hn]; simp)
  have minusOne : y = -1#n := by rw [← BitVec.ofInt_toInt (x := y), hy, BitVec.ofInt_neg]; rfl
  rw [least, minusOne, BitVec.intMin_sdiv_neg_one]

/-- R199: a division by -1 leaves no remainder. -/
theorem srem_of_neg_one {n : Nat} {x y : BitVec n} (hy : y.toInt = -1) : x.srem y = 0 := by
  rw [srem_eq_ofInt, hy, Int.tmod_neg, Int.tmod_one]; rfl

/-- R199: when the model takes the case of a division by zero. -/
theorem low_eq_zero_iff (n x : Nat) : low n x = 0 ↔ BitVec.ofNat n x = 0 := by rw [low_eq_toNat]; exact BitVec.toNat_inj (y := 0)

/-- R199: the natural quotient and remainder, and those by zero. -/
theorem divRem_natural (n a b : Nat) :
    divRem a b n false =
      ((if BitVec.ofNat n b = 0 then BitVec.allOnes n else BitVec.ofNat n a / BitVec.ofNat n b).toNat,
       (if BitVec.ofNat n b = 0 then BitVec.ofNat n a else BitVec.ofNat n a % BitVec.ofNat n b).toNat) := by
  simp only [divRem, low_eq_zero_iff]
  by_cases hb : BitVec.ofNat n b = 0
  · simp only [if_pos hb, BitVec.toNat_allOnes, low_eq_toNat]
  · simp only [if_neg hb, BitVec.toNat_udiv, BitVec.toNat_umod, low_eq_toNat, Bool.false_eq_true, if_false]

/-- R199: the signed quotient and remainder, those by zero and that of an overflow. -/
theorem divRem_signed (n a b : Nat) :
    divRem a b n true =
      ((if BitVec.ofNat n b = 0 then BitVec.allOnes n else (BitVec.ofNat n a).sdiv (BitVec.ofNat n b)).toNat,
       (if BitVec.ofNat n b = 0 then BitVec.ofNat n a else (BitVec.ofNat n a).srem (BitVec.ofNat n b)).toNat) := by
  simp only [divRem, low_eq_zero_iff, low_eq_toNat n a, sxt_eq_toInt, wrap_eq_toNat, Bool.and_eq_true, decide_eq_true_eq, if_true]
  generalize BitVec.ofNat n a = x
  generalize BitVec.ofNat n b = y
  by_cases hy : y = 0
  · simp only [if_pos hy, BitVec.toNat_allOnes]
  · simp only [if_neg hy]
    by_cases ov : x.toInt = -((2 ^ (n - 1) : Nat) : Int) ∧ y.toInt = -1
    · obtain ⟨hx, hm⟩ := ov
      rw [if_pos ⟨hx, hm⟩, sdiv_overflow hx hm, srem_of_neg_one hm]; rfl
    · rw [if_neg ov, sdiv_eq_ofInt, srem_eq_ofInt]

/-! ### Encodings (R143, R154) -/

/-- R143: the opcode stands above the fields. -/
theorem pack_opcode (op : Nat) (fs : List (Nat × Nat)) : pack op fs = op * 2 ^ 23 + pack 0 fs := by
  induction fs with
  | nil => simp [pack]
  | cons f fs ih => simp only [pack, ih]; omega

/-- R143: the opcode of a word whose fields stay below it. -/
theorem extract_opcode {op : Nat} {fs : List (Nat × Nat)} (hop : op < 256) (hfs : pack 0 fs < 2 ^ 23) :
    ((BitVec.ofNat 32 (pack op fs)).extractLsb' 23 8).toNat = op := by
  rw [BitVec.extractLsb'_toNat, BitVec.toNat_ofNat, Nat.shiftRight_eq_div_pow, pack_opcode]; omega

/-- R160: a width has a code of two bits. -/
theorem width_code_lt (w : Width) : w.code < 4 := by cases w <;> decide

/-- R154: the opcode of a word of three scalar operands and a width. -/
theorem extract_opcode_abc {op : Nat} (hop : op < 256) (d a b : Fin 64) (w : Width) :
    ((BitVec.ofNat 32 (pack op [(d.val, 17), (a.val, 11), (b.val, 5), (w.code, 3)])).extractLsb' 23 8).toNat = op := by
  refine extract_opcode hop ?_
  have hw := width_code_lt w
  simp only [pack]; omega

/-- The number of two patterns joined. -/
theorem toNat_append_eq_add {m n : Nat} (x : BitVec m) (y : BitVec n) : (x ++ y).toNat = x.toNat * 2 ^ n + y.toNat := by
  rw [BitVec.toNat_append, ← Nat.shiftLeft_add_eq_or_of_lt y.isLt, Nat.shiftLeft_eq]

/-- R154, R155: a word of the B format, field by field. -/
theorem ofNat_pack_b (op : BitVec 8) (c : Fin 64) (off : BitVec 17) :
    BitVec.ofNat 32 (pack op.toNat [(c.val, 17), (off.toNat, 0)]) = 0#1 ++ op ++ BitVec.ofNat 6 c ++ off := by
  apply BitVec.eq_of_toNat_eq
  have hc := c.isLt
  have hop := op.isLt
  have hoff := off.isLt
  simp only [toNat_append_eq_add, BitVec.toNat_ofNat, pack]
  omega

/-! ### Control (R155, R211) -/

/-- R155: an offset as the number that it stands for. -/
theorem sxt_toNat {n : Nat} (x : BitVec n) : sxt n x.toNat = x.toInt := by
  rw [sxt_eq_toInt, BitVec.ofNat_toNat, BitVec.setWidth_eq]

/-- R155: a target without `limm`. -/
theorem State.target_none {t : State} {n : Nat} (off : BitVec n) (h : t.bun.ext = none) :
    t.target n off.toNat = (((t.bun.start : Int) + off.toInt) % 2 ^ 48).toNat := by
  simp only [State.target, h, sxt_toNat]; rfl

/-- R152, R155: a target with a `limm`, whose bits stand above the word's own. -/
theorem State.target_some {t : State} {n : Nat} (off : BitVec n) {l : BitVec 23} (h : t.bun.ext = some l) :
    t.target n off.toNat = (((t.bun.start : Int) + (l ++ off).toInt) % 2 ^ 48).toNat := by
  simp only [State.target, h, ← toNat_append_eq_add, Nat.add_comm n 23, sxt_toNat]; rfl

/-- R210: a lead takes its transfer. -/
theorem State.goto_lead {t : State} (a : Nat) (lead : t.cur.fpos = 0) : t.goto true a = t.jumping a := by
  simp [State.goto, State.follows, State.jumping, lead]

/-- R210, R376: no transfer where none is taken, and none of a member of a flight that is not its lead. -/
theorem State.goto_stays {t : State} {taken : Bool} (a : Nat) (h : t.cur.fpos ≠ 0 ∨ taken = false) : t.goto taken a = t := by
  rcases h with h | h <;> simp [State.goto, State.follows, h]

end Sys2Proof.Machine

namespace Sys2Proof.Claims
open Sys2Proof.Machine

/-- A word that acts where `ok` holds acts under every condition that implies it. -/
theorem Acts.mono {i : Instr} {ok ok' : State → Prop} {f : State → State} (h : Acts i ok f) (hi : ∀ t, ok' t → ok t) : Acts i ok' f :=
  fun s t hg ho => h s t hg (hi t ho)

/-- R199: the divider, its 18 cycles and the opcodes of the four words. -/
theorem divide_encoding (d a b : Fin 64) (w : Width) (i : Instr) (n : Nat)
    (h : (i, n) ∈ [(Instr.div d a b w, 0x17), (.divn d a b w, 0x18), (.rem d a b w, 0x19), (.remn d a b w, 0x1A)]) :
    unitOf i = some (.divider, 18) ∧ (encode i).map (fun x => (x.extractLsb' 23 8).toNat) = some n := by
  simp only [List.mem_cons, Prod.mk.injEq, List.not_mem_nil, or_false] at h
  rcases h with ⟨rfl, rfl⟩ | ⟨rfl, rfl⟩ | ⟨rfl, rfl⟩ | ⟨rfl, rfl⟩ <;>
    exact ⟨rfl, congrArg some (extract_opcode_abc (by decide) d a b w)⟩

/-- Settles O7: the model's quotients and remainders are those of `BitVec`, signed and natural. -/
theorem divideWords : Obligations.DivideWords := by
  intro d a b w x y
  refine ⟨?div, ?divn, ?rem, ?remn, rfl, divide_encoding d a b w⟩
  case div => exact computes_of (fun _ => rfl) fun _ _ _ => congrArg Prod.fst (divRem_signed _ _ _)
  case divn => exact computes_of (fun _ => rfl) fun _ _ _ => congrArg Prod.fst (divRem_natural _ _ _)
  case rem => exact computes_of (fun _ => rfl) fun _ _ _ => congrArg Prod.snd (divRem_signed _ _ _)
  case remn => exact computes_of (fun _ => rfl) fun _ _ _ => congrArg Prod.snd (divRem_natural _ _ _)

/-- R211: `br` of a lead whose c is not 0. -/
theorem br_taken (c : Fin 64) (off : BitVec 17) :
    Acts (.br c off) (fun t => t.cur.fpos = 0 ∧ t.cur.rd c ≠ 0) fun t => t.jumping (t.target 17 off.toNat) :=
  acts_of (fun _ => rfl) fun _ _ _ ⟨lead, hc⟩ => by rw [bne_iff_ne.2 hc, State.goto_lead _ lead]

/-- R211: `br` of another member, or where c is 0. -/
theorem br_stays (c : Fin 64) (off : BitVec 17) : Acts (.br c off) (fun t => t.cur.fpos ≠ 0 ∨ t.cur.rd c = 0) id :=
  acts_of (fun _ => rfl) fun _ _ _ h => by rw [State.goto_stays _ (h.imp_right fun hc => by rw [hc]; rfl)]; rfl

/-- R211: `brv` of a lead whose c is 0. -/
theorem brv_taken (c : Fin 64) (off : BitVec 17) :
    Acts (.brv c off) (fun t => t.cur.fpos = 0 ∧ t.cur.rd c = 0) fun t => t.jumping (t.target 17 off.toNat) :=
  acts_of (fun _ => rfl) fun _ _ _ ⟨lead, hc⟩ => by rw [decide_eq_true hc, State.goto_lead _ lead]

/-- R211: `brv` of another member, or where c is not 0. -/
theorem brv_stays (c : Fin 64) (off : BitVec 17) : Acts (.brv c off) (fun t => t.cur.fpos ≠ 0 ∨ t.cur.rd c ≠ 0) id :=
  acts_of (fun _ => rfl) fun _ _ _ h => by rw [State.goto_stays _ (h.imp_right decide_eq_false)]; rfl

/-- Settles O10: each branch taken and not taken; s0 reads 0. -/
theorem conditionalBranches : Obligations.ConditionalBranches := by
  intro c off target jump
  have jump_eq : jump = fun t => t.jumping (t.target 17 off.toNat) := by
    funext t
    refine congrArg t.jumping ?_
    simp only [target]
    split
    · next h => exact (State.target_none off h).symm
    · next l h => exact (State.target_some off h).symm
  rw [jump_eq]
  exact ⟨br_taken c off, br_stays c off, brv_taken c off, brv_stays c off,
    (br_stays 0 off).mono fun _ _ => .inr rfl, (brv_taken 0 off).mono fun _ lead => ⟨lead, rfl⟩,
    congrArg some (ofNat_pack_b 0x38 c off), congrArg some (ofNat_pack_b 0x3F c off)⟩

end Sys2Proof.Claims
end

section
/-! The resolution of fault-queue entries (R428, R438) and the snapshot trigger (R439, R448): what each changes and what it leaves, and
from that what `resume` and `snap` come to. -/

namespace Sys2Proof.Machine

/-! ### Resolution (R428) -/

/-- R428: the unresolved entry that a sequence number names. -/
def State.unresolved (s : State) (v seq : Nat) : Option FqEntry :=
  (s.vd v).fq.find? fun f => f.seq % 2 ^ 32 = seq && f.kind != 8 && f.resolved.isNone

/-- R438: a resolution that names no entry. -/
theorem State.resolve_unnamed {s : State} {v seq : Nat} (mask : Nat) (val : Word) (h : s.unresolved v seq = none) :
    s.resolve v seq mask val = s := by
  unfold State.unresolved at h
  simp only [State.resolve, h]

/-- R428: an entry that waits to be restored holds the mask and the value. -/
theorem State.resolve_waiting {s : State} {v seq : Nat} {e : FqEntry} (mask : Nat) (val : Word) (h : s.unresolved v seq = some e)
    (hw : e.frame ≠ 0xFFFF ∨ (s.vd v).run = false) :
    s.resolve v seq mask val = s.setVd v { s.vd v with
      fq := (s.vd v).fq.map fun f => if f.seq = e.seq then { f with resolved := some (mask, val) } else f } := by
  unfold State.unresolved at h
  have hc : (decide (e.frame = 0xFFFF) && (s.vd v).run) = false := by
    rcases hw with hf | hr
    · rw [decide_eq_false hf, Bool.false_and]
    · rw [hr, Bool.and_false]
  simp only [State.resolve, h, hc, Bool.false_eq_true, if_false]

/-- R428: an entry without a frame, of a virtual device that runs, is resolved in place. -/
theorem State.resolve_inPlace {s : State} {v seq : Nat} {e : FqEntry} (mask : Nat) (val : Word) (h : s.unresolved v seq = some e)
    (hf : e.frame = 0xFFFF) (hr : (s.vd v).run = true) : s.resolve v seq mask val = s.resumeInPlace v e mask val := by
  unfold State.unresolved at h
  simp only [State.resolve, h, hf, hr, decide_true, Bool.and_true, if_true]

/-- R428: contexts that return leave the virtual devices and the memories. -/
theorem State.unparkAll_frame (s : State) (lead c : Nat) (e : FqEntry) (mask : Nat) (val : Word) (ks : List (Nat × Core)) :
    let t := s.unparkAll lead c e mask val ks
    t.vds = s.vds ∧ t.gmem = s.gmem ∧ t.pmem = s.pmem := by
  induction ks generalizing s c with
  | nil => exact ⟨rfl, rfl, rfl⟩
  | cons p ks ih =>
    simp only [State.unparkAll]
    split
    · exact ih _ _
    · exact ih _ _

/-- R428: a state in which an entry is off the queue of its virtual device, with the memories of the state before. -/
def State.Dropped (s : State) (v : Nat) (e : FqEntry) (t : State) : Prop :=
  (t.vd v).fq = ((s.vd v).fq.filter fun f => f.seq != e.seq) ∧ t.gmem = s.gmem ∧ t.pmem = s.pmem

/-- R428: a resolution in place takes the entry off the queue, and leaves the memories. -/
theorem State.resumeInPlace_dropped (s : State) (v : Nat) (e : FqEntry) (mask : Nat) (val : Word) :
    s.Dropped v e (s.resumeInPlace v e mask val) := by
  unfold State.resumeInPlace
  extract_lets x t ch y go
  have fq_gone : (t.vd v).fq = x.fq.filter fun f => f.seq != e.seq := congrArg VDev.fq (State.vd_setVd_self s v _)
  split
  · split
    · exact ⟨fq_gone, rfl, rfl⟩
    · exact ⟨fq_gone, rfl, rfl⟩
  split
  · exact ⟨(congrArg VDev.fq (State.vd_setVd_self t v _)).trans fq_gone, rfl, rfl⟩
  split
  · exact ⟨fq_gone, rfl, rfl⟩
  · obtain ⟨hvds, hg, hp⟩ := t.unparkAll_frame _ _ e mask val _
    exact ⟨(congrArg (fun m => (Map.get VDev.reset m v).fq) hvds).trans fq_gone, hg, hp⟩

/-- R428: a channel that waits for the entry runs again. -/
theorem State.resumeInPlace_channel {s : State} {e : FqEntry} (v mask : Nat) (val : Word) (hk : e.kind = 4) (hp : e.parked = [])
    (hq : ((s.core e.core).channel e.channel).parkedSeq = e.seq) :
    (s.resumeInPlace v e mask val).core e.core =
      (s.core e.core).setChannel e.channel { (s.core e.core).channel e.channel with state := 1, parkedSeq := 0 } := by
  have hcore (x : VDev) : (s.setVd v x).core e.core = s.core e.core := rfl
  simp [State.resumeInPlace, hk, hp, hcore, hq]

/-- R428: the operations of a communicator that wait for the entry go on. -/
theorem State.resumeInPlace_windlass {s : State} {e : FqEntry} (v mask : Nat) (val : Word) (hk : e.kind = 5) (hp : e.parked = []) :
    (Map.get Comm.reset ((s.resumeInPlace v e mask val).vd v).comms e.comm).queue =
      (Map.get Comm.reset (s.vd v).comms e.comm).queue.map fun o => if o.held = e.seq then { o with held := 0 } else o := by
  simp [State.resumeInPlace, hk, hp, Map.modify]

/-- R428, R437: the core of an entry with one context takes it back, and a `sysc` its value. -/
theorem State.resumeInPlace_context {s : State} {e : FqEntry} {c : Nat} {k : Core} (v mask : Nat) (val : Word)
    (hp : e.parked = [(c, k)]) :
    (s.resumeInPlace v e mask val).core c =
      let y := (s.unpark c c c k mask).core c
      if e.kind = 7 ∧ e.dreg ≠ 0 then { y with sregs := Map.put y.sregs e.dreg val } else y := by
  have hcore (x : VDev) : ((s.setVd v x).unpark c c c k mask).core c = (s.unpark c c c k mask).core c := rfl
  by_cases hs : e.kind = 7 ∧ e.dreg ≠ 0 <;> simp [State.resumeInPlace, State.unparkAll, hp, hcore, hs]

/-! ### The snapshot trigger (R448) -/

/-- R448: the trigger's message leaves by the ports, and changes nothing else. -/
theorem State.sendTrigger_out (s : State) (gid : Nat) : ∃ o, s.sendTrigger gid = { s with out := o } := by
  have lane (dst : List Nat) (m : Control) : ∃ o, s.sendLane dst m = { s with out := o } := by
    unfold State.sendLane
    extract_lets up
    split
    · exact ⟨s.out, rfl⟩
    · exact ⟨_, rfl⟩
  unfold State.sendTrigger
  split
  · exact lane _ _
  · exact ⟨s.out, rfl⟩

/-- R448: registers that are latched stay as they are. -/
theorem State.fireSnapshot_latched {s : State} {v : Nat} (tag src : Nat) (h : (s.vd v).latched = true) :
    s.fireSnapshot v tag src = s := if_pos h

/-- R448, R491: where the registers are not latched, the trigger latches them with its tag and its source; the message to the other members
of the gang is all that it does beside that. -/
theorem State.fireSnapshot_unlatched {s : State} {v : Nat} (tag src : Nat) (h : (s.vd v).latched = false) :
    ∃ m o, s.fireSnapshot v tag src =
      { (s.setVd v { s.vd v with latched := true, snTag := BitVec.ofNat 17 tag, snSrc := BitVec.ofNat 3 src }).w1cSet (.latched v) with
        snap := m, out := o } := by
  unfold State.fireSnapshot
  extract_lets x snap t u
  rw [if_neg (Bool.eq_false_iff.1 h)]
  split
  · obtain ⟨o, ho⟩ := u.sendTrigger_out x.gid
    exact ⟨snap, o, ho⟩
  · exact ⟨snap, s.out, rfl⟩

/-! ### The checks of a word -/

/-- R186, R189: a word that names no register and takes no unit does not stall on a running core. -/
theorem State.gate_ne_stall {s : State} {i : Instr} (hm : s.prior.mode = .running) (hw : waitsOn i = []) (hu : unitOf i = none) :
    s.gate i ≠ .error .stall := by
  have hc : s.claimUnit i = .ok s := by simp only [State.claimUnit, hu]
  simp only [State.gate, hm, hw, hc, List.any_nil, bne_self_eq_false, Bool.false_eq_true, if_false]
  split
  · simp [ienc, trapped]
  · simp

end Sys2Proof.Machine

namespace Sys2Proof.Claims
open Sys2Proof.Machine

/-- R438: `resume` where the virtual device permits it. -/
theorem resume_resolves (d a b : Fin 64) :
    Acts (.resume d a b) (fun t => (t.vd (t.coreVd t.turn)).fqDres = true) fun t =>
      t.resolve (t.coreVd t.turn) (t.cur.rd a).toNat ((t.cur.rd b).extractLsb' 0 16).toNat (t.cur.rd d) :=
  acts_of (fun _ => rfl) fun _ t _ hd => by
    have hb : ((t.cur.rd b).extractLsb' 0 16).toNat = (t.cur.rd b).toNat % 2 ^ 16 := by simp
    simp only [hd, hb, Bool.not_true, Bool.false_eq_true, if_false]

/-- R438: `resume` where it does not. -/
theorem resume_traps (d a b : Fin 64) :
    Traps (.resume d a b) (fun t => (t.vd (t.coreVd t.turn)).fqDres = false) fun _ => { cls := 6 } :=
  traps_of (fun _ => rfl) fun _ _ _ hd => by simp only [hd, Bool.not_false, if_true]; rfl

/-- R438: `resume` where a names no unresolved entry. -/
theorem resume_unnamed (d a b : Fin 64) :
    Acts (.resume d a b) (fun t => (t.vd (t.coreVd t.turn)).fqDres = true ∧ t.unresolved (t.coreVd t.turn) (t.cur.rd a).toNat = none) id :=
  fun s t hg ⟨hd, hn⟩ => by
    have he := resume_resolves d a b s t hg hd
    beta_reduce at he
    rwa [State.resolve_unnamed _ _ hn] at he

/-- Settles O16: the entry that a resolution names, and what the resolution leaves where it waits and where it goes on in place. -/
theorem resumeResolvesAnEntry : Obligations.ResumeResolvesAnEntry := by
  intro d a b v names
  refine ⟨resume_resolves d a b, fun _ _ => rfl, resume_traps d a b, ?unnamed, ?resolution⟩
  case unnamed =>
    refine (resume_unnamed d a b).mono fun t ⟨hd, hn⟩ => ⟨hd, List.find?_eq_none.2 fun e he => ?_⟩
    exact Bool.eq_false_iff.1 (hn e he)
  case resolution =>
    intro s u seq mask val e found t
    refine ⟨State.resolve_unnamed mask val, State.resolve_waiting mask val, fun hfound hf hr => ?_⟩
    have in_place : t = s.resumeInPlace u e mask val := State.resolve_inPlace mask val hfound hf hr
    rw [in_place]
    obtain ⟨hfq, hg, hp⟩ := s.resumeInPlace_dropped u e mask val
    exact ⟨hfq, hg, hp, State.resumeInPlace_channel u mask val, State.resumeInPlace_windlass u mask val,
      fun _ _ => State.resumeInPlace_context u mask val⟩

/-- R439: `snap` where SNCTL.SNAP is 0. -/
theorem snap_off (imm : BitVec 17) : Acts (.snap imm) (fun t => (t.vd (t.coreVd t.turn)).snCtl.getLsbD 0 = false) id :=
  acts_of (fun _ => rfl) fun _ _ _ h => by simp only [h, Bool.false_eq_true, if_false, id]

/-- R439: `snap` where SNCTL.SNAP is 1. -/
theorem snap_fires (imm : BitVec 17) :
    Acts (.snap imm) (fun t => (t.vd (t.coreVd t.turn)).snCtl.getLsbD 0 = true) fun t => t.fireSnapshot (t.coreVd t.turn) imm.toNat 1 :=
  acts_of (fun _ => rfl) fun _ _ _ h => by simp only [h, if_true]

/-- Settles O17: `snap` with and without its right, and the trigger with the registers latched and not. -/
theorem snapFiresTheTrigger : Obligations.SnapFiresTheTrigger := by
  refine fun imm => ⟨fun _ running => State.gate_ne_stall running rfl rfl, snap_off imm, snap_fires imm,
    fun _ _ => State.fireSnapshot_latched, fun s u tag src unlatched => ?_⟩
  obtain ⟨m, o, fired⟩ := State.fireSnapshot_unlatched tag src unlatched
  have latches : (s.fireSnapshot u tag src).vd u =
      { s.vd u with latched := true, snTag := BitVec.ofNat 17 tag, snSrc := BitVec.ofNat 3 src } := by
    rw [fired]
    exact State.vd_setVd_self s u _
  rw [latches, fired]
  exact ⟨rfl, rfl, rfl, List.mem_cons_self, rfl, rfl, rfl⟩

end Sys2Proof.Claims
end

section
/-! The encodings (R143, R154-R167): each layout of operand fields is read back from what it packs, and packs what is read of it; from
that the round trip of an instruction through its word, and of a word through its instruction. -/

namespace Sys2Proof
open Machine

/-! ### From an instruction to its word -/

theorem fin_ofNat_eq {k n : Nat} [NeZero k] {x : Fin k} (h : n % k = x.val) : Fin.ofNat k n = x := Fin.ext h

theorem bitvec_ofNat_eq {k n : Nat} {x : BitVec k} (h : n % 2 ^ k = x.toNat) : BitVec.ofNat k n = x := by
  rw [← BitVec.toNat_inj, BitVec.toNat_ofNat, h]

theorem width_ofCode_eq {n : Nat} {w : Width} (h : n = w.code) : Width.ofCode n = w := by subst h; cases w <;> rfl

theorem beq_one_eq {n : Nat} {b : Bool} (h : n = b.toNat) : (n == 1) = b := by subst h; cases b <;> rfl

/-- R143, R148: what the instruction packs, its opcode and fields give back. -/
def Decodes (i : Instr) : Prop := ∀ n, encodeNat i = some n → n < 2 ^ 31 ∧ decodeOp (n / 2 ^ 23) (n % 2 ^ 23) = .ok i

/-- R143: the opcode and the fields of a packed word are read apart. -/
theorem Decodes.of_packed {op : Nat} {fs : List (Nat × Nat)} {i : Instr} (he : encodeNat i = some (pack op fs)) (hop : op < 256)
    (hfs : pack 0 fs < 2 ^ 23) (hd : decodeOp op (pack 0 fs) = .ok i) : Decodes i := by
  intro n h
  rw [he, pack_opcode, Option.some.injEq] at h
  have opcode : n / 2 ^ 23 = op := by omega
  have fields : n % 2 ^ 23 = pack 0 fs := by omega
  exact ⟨by omega, by rw [opcode, fields, hd]⟩

/-- Words laid out like `add` are read back. -/
theorem decodes_like_add {op : Nat} {f : Fin 64 → Fin 64 → Fin 64 → Width → Instr} {d a b : Fin 64} {w : Width}
    (he : encodeNat (f d a b w) = some (pack op [(d.val, 17), (a.val, 11), (b.val, 5), (w.code, 3)])) (hop : op < 256)
    (hd : ∀ m, m % 8 = 0 → decodeOp op m = .ok (f (Fin.ofNat 64 (m / 2 ^ 17)) (Fin.ofNat 64 (m / 2 ^ 11)) (Fin.ofNat 64 (m / 32))
      (Width.ofCode (m / 8 % 4)))) :
    Decodes (f d a b w) := by
  have := width_code_lt w
  refine .of_packed he hop (by simp only [pack]; omega) ((hd _ (by simp only [pack]; omega)).trans (congrArg _ ?_))
  congr 1 <;> [apply fin_ofNat_eq; apply fin_ofNat_eq; apply fin_ofNat_eq; apply width_ofCode_eq] <;>
    simp only [pack] <;> omega

/-- Words laid out like `mulh` are read back. -/
theorem decodes_like_mulh {op : Nat} {f : Fin 64 → Fin 64 → Fin 64 → Instr} {d a b : Fin 64}
    (he : encodeNat (f d a b) = some (pack op [(d.val, 17), (a.val, 11), (b.val, 5)])) (hop : op < 256)
    (hd : ∀ m, m % 32 = 0 → decodeOp op m = .ok (f (Fin.ofNat 64 (m / 2 ^ 17)) (Fin.ofNat 64 (m / 2 ^ 11)) (Fin.ofNat 64 (m / 32)))) :
    Decodes (f d a b) := by
  refine .of_packed he hop (by simp only [pack]; omega) ((hd _ (by simp only [pack]; omega)).trans (congrArg _ ?_))
  congr 1 <;> refine fin_ofNat_eq ?_ <;> simp only [pack] <;> omega

/-- Words laid out like `clz` are read back. -/
theorem decodes_like_clz {op : Nat} {f : Fin 64 → Fin 64 → Width → Instr} {d a : Fin 64} {w : Width}
    (he : encodeNat (f d a w) = some (pack op [(d.val, 17), (a.val, 11), (w.code, 3)])) (hop : op < 256)
    (hd : ∀ m, m % 8 = 0 ∧ m / 32 % 64 = 0 → decodeOp op m = .ok (f (Fin.ofNat 64 (m / 2 ^ 17)) (Fin.ofNat 64 (m / 2 ^ 11))
      (Width.ofCode (m / 8 % 4)))) :
    Decodes (f d a w) := by
  have := width_code_lt w
  refine .of_packed he hop (by simp only [pack]; omega) ((hd _ (by simp only [pack]; omega)).trans (congrArg _ ?_))
  congr 1 <;> [apply fin_ofNat_eq; apply fin_ofNat_eq; apply width_ofCode_eq] <;>
    simp only [pack] <;> omega

/-- Words laid out like `bext` are read back. -/
theorem decodes_like_bext {op : Nat} {f : Fin 64 → Fin 64 → Fin 64 → Width → Bool → Instr} {d a b : Fin 64} {w : Width} {sx : Bool}
    (he : encodeNat (f d a b w sx) = some (pack op [(d.val, 17), (a.val, 11), (b.val, 5), (w.code, 3), (sx.toNat, 0)])) (hop : op < 256)
    (hd : ∀ m, m / 2 % 4 = 0 → decodeOp op m = .ok (f (Fin.ofNat 64 (m / 2 ^ 17)) (Fin.ofNat 64 (m / 2 ^ 11)) (Fin.ofNat 64 (m / 32))
      (Width.ofCode (m / 8 % 4)) (m % 2 == 1))) :
    Decodes (f d a b w sx) := by
  have := width_code_lt w
  have := sx.toNat_lt
  refine .of_packed he hop (by simp only [pack]; omega) ((hd _ (by simp only [pack]; omega)).trans (congrArg _ ?_))
  congr 1 <;> [apply fin_ofNat_eq; apply fin_ofNat_eq; apply fin_ofNat_eq; apply width_ofCode_eq; apply beq_one_eq] <;>
    simp only [pack] <;> omega

/-- Words laid out like `addi` are read back. -/
theorem decodes_like_addi {op : Nat} {f : Fin 64 → Fin 64 → BitVec 11 → Instr} {d a : Fin 64} {imm : BitVec 11}
    (he : encodeNat (f d a imm) = some (pack op [(d.val, 17), (a.val, 11), (imm.toNat, 0)])) (hop : op < 256)
    (hd : ∀ m, decodeOp op m = .ok (f (Fin.ofNat 64 (m / 2 ^ 17)) (Fin.ofNat 64 (m / 2 ^ 11)) (BitVec.ofNat 11 m))) :
    Decodes (f d a imm) := by
  refine .of_packed he hop (by simp only [pack]; omega) ((hd _).trans (congrArg _ ?_))
  congr 1 <;> [apply fin_ofNat_eq; apply fin_ofNat_eq; apply bitvec_ofNat_eq] <;>
    simp only [pack] <;> omega

/-- Words laid out like `movi` are read back. -/
theorem decodes_like_movi {op : Nat} {f : Fin 64 → BitVec 17 → Instr} {d : Fin 64} {imm : BitVec 17}
    (he : encodeNat (f d imm) = some (pack op [(d.val, 17), (imm.toNat, 0)])) (hop : op < 256)
    (hd : ∀ m, decodeOp op m = .ok (f (Fin.ofNat 64 (m / 2 ^ 17)) (BitVec.ofNat 17 m))) :
    Decodes (f d imm) := by
  refine .of_packed he hop (by simp only [pack]; omega) ((hd _).trans (congrArg _ ?_))
  congr 1 <;> [apply fin_ofNat_eq; apply bitvec_ofNat_eq] <;>
    simp only [pack] <;> omega

/-- Words laid out like `lea` are read back. -/
theorem decodes_like_lea {op : Nat} {f : Fin 64 → Fin 64 → Fin 64 → Width → Bool → Fin 4 → Instr} {d a b : Fin 64} {w : Width} {nat :
    Bool} {sh : Fin 4}
    (he : encodeNat (f d a b w nat sh) = some (pack op [(d.val, 17), (a.val, 11), (b.val, 5), (w.code, 3), (nat.toNat, 2), (sh.val,
      0)])) (hop : op < 256)
    (hd : ∀ m, decodeOp op m = .ok (f (Fin.ofNat 64 (m / 2 ^ 17)) (Fin.ofNat 64 (m / 2 ^ 11)) (Fin.ofNat 64 (m / 32)) (Width.ofCode (m /
      8 % 4)) (m / 4 % 2 == 1) (Fin.ofNat 4 m))) :
    Decodes (f d a b w nat sh) := by
  have := width_code_lt w
  have := nat.toNat_lt
  refine .of_packed he hop (by simp only [pack]; omega) ((hd _).trans (congrArg _ ?_))
  congr 1 <;> [apply fin_ofNat_eq; apply fin_ofNat_eq; apply fin_ofNat_eq; apply width_ofCode_eq; apply beq_one_eq; apply fin_ofNat_eq] <;>
    simp only [pack] <;> omega

/-- Words laid out like `ext` are read back. -/
theorem decodes_like_ext {op : Nat} {f : Fin 64 → Fin 64 → Width → Fin 8 → Instr} {d a : Fin 64} {w : Width} {sub : Fin 8}
    (he : encodeNat (f d a w sub) = some (pack op [(d.val, 17), (a.val, 11), (w.code, 3), (sub.val, 0)])) (hop : op < 256)
    (hd : ∀ m, m / 32 % 64 = 0 → decodeOp op m = .ok (f (Fin.ofNat 64 (m / 2 ^ 17)) (Fin.ofNat 64 (m / 2 ^ 11)) (Width.ofCode (m / 8 %
      4)) (Fin.ofNat 8 m))) :
    Decodes (f d a w sub) := by
  have := width_code_lt w
  refine .of_packed he hop (by simp only [pack]; omega) ((hd _ (by simp only [pack]; omega)).trans (congrArg _ ?_))
  congr 1 <;> [apply fin_ofNat_eq; apply fin_ofNat_eq; apply width_ofCode_eq; apply fin_ofNat_eq] <;>
    simp only [pack] <;> omega

/-- Words laid out like `fadd` are read back. -/
theorem decodes_like_fadd {op : Nat} {f : Fin 64 → Fin 64 → Fin 64 → Fin 8 → Instr} {d a b : Fin 64} {sub : Fin 8}
    (he : encodeNat (f d a b sub) = some (pack op [(d.val, 17), (a.val, 11), (b.val, 5), (sub.val, 0)])) (hop : op < 256)
    (hd : ∀ m, m / 8 % 4 = 0 → decodeOp op m = .ok (f (Fin.ofNat 64 (m / 2 ^ 17)) (Fin.ofNat 64 (m / 2 ^ 11)) (Fin.ofNat 64 (m / 32))
      (Fin.ofNat 8 m))) :
    Decodes (f d a b sub) := by
  refine .of_packed he hop (by simp only [pack]; omega) ((hd _ (by simp only [pack]; omega)).trans (congrArg _ ?_))
  congr 1 <;> refine fin_ofNat_eq ?_ <;> simp only [pack] <;> omega

/-- Words laid out like `jmp` are read back. -/
theorem decodes_like_jmp {op : Nat} {f : BitVec 23 → Instr} {off : BitVec 23}
    (he : encodeNat (f off) = some (pack op [(off.toNat, 0)])) (hop : op < 256)
    (hd : ∀ m, decodeOp op m = .ok (f (BitVec.ofNat 23 m))) :
    Decodes (f off) := by
  refine .of_packed he hop (by simp only [pack]; omega) ((hd _).trans (congrArg _ ?_))
  exact congrArg f (bitvec_ofNat_eq (by simp only [pack]; omega))

/-- Words laid out like `ret` are read back. -/
theorem decodes_like_ret {op : Nat} {f : Fin 64 → Instr} {a : Fin 64}
    (he : encodeNat (f a) = some (pack op [(8, 0), (a.val, 11)])) (hop : op < 256)
    (hd : ∀ m, m % 2 ^ 11 = 8 ∧ m / 2 ^ 17 % 64 = 0 → decodeOp op m = .ok (f (Fin.ofNat 64 (m / 2 ^ 11)))) :
    Decodes (f a) := by
  refine .of_packed he hop (by simp only [pack]; omega) ((hd _ (by simp only [pack]; omega)).trans (congrArg _ ?_))
  exact congrArg f (fin_ofNat_eq (by simp only [pack]; omega))

/-- Words laid out like `jxl` are read back. -/
theorem decodes_like_jxl {op : Nat} {f : Fin 64 → Fin 64 → Instr} {d a : Fin 64}
    (he : encodeNat (f d a) = some (pack op [(9, 0), (d.val, 17), (a.val, 11)])) (hop : op < 256)
    (hd : ∀ m, m % 2 ^ 11 = 9 → decodeOp op m = .ok (f (Fin.ofNat 64 (m / 2 ^ 17)) (Fin.ofNat 64 (m / 2 ^ 11)))) :
    Decodes (f d a) := by
  refine .of_packed he hop (by simp only [pack]; omega) ((hd _ (by simp only [pack]; omega)).trans (congrArg _ ?_))
  congr 1 <;> refine fin_ofNat_eq ?_ <;> simp only [pack] <;> omega

/-- Words laid out like `loop` are read back. -/
theorem decodes_like_loop {op : Nat} {f : Fin 64 → Fin 2048 → Fin 4 → Instr} {c : Fin 64} {fin : Fin 2048} {lvl : Fin 4}
    (he : encodeNat (f c fin lvl) = some (pack op [(c.val, 17), (fin.val, 6), (lvl.val, 4)])) (hop : op < 256)
    (hd : ∀ m, m % 16 = 0 → decodeOp op m = .ok (f (Fin.ofNat 64 (m / 2 ^ 17)) (Fin.ofNat 2048 (m / 64)) (Fin.ofNat 4 (m / 16)))) :
    Decodes (f c fin lvl) := by
  refine .of_packed he hop (by simp only [pack]; omega) ((hd _ (by simp only [pack]; omega)).trans (congrArg _ ?_))
  congr 1 <;> refine fin_ofNat_eq ?_ <;> simp only [pack] <;> omega

/-- Words laid out like `loopi` are read back. -/
theorem decodes_like_loopi {op : Nat} {f : Fin 1024 → Fin 2048 → Fin 4 → Instr} {n : Fin 1024} {fin : Fin 2048} {lvl : Fin 4}
    (he : encodeNat (f n fin lvl) = some (pack op [(n.val / 16, 17), (n.val % 16, 0), (fin.val, 6), (lvl.val, 4)])) (hop : op < 256)
    (hd : ∀ m, decodeOp op m = .ok (f (Fin.ofNat 1024 ((m / 2 ^ 17 % 64) * 16 + m % 16)) (Fin.ofNat 2048 (m / 64)) (Fin.ofNat 4 (m /
      16)))) :
    Decodes (f n fin lvl) := by
  have high : n.val / 16 < 64 := by omega
  have low : n.val % 16 < 16 := by omega
  have whole : n.val / 16 * 16 + n.val % 16 = n.val := by omega
  generalize n.val / 16 = q, n.val % 16 = r at he high low whole
  refine .of_packed he hop (by simp only [pack]; omega) ((hd _).trans (congrArg _ ?_))
  have hq : pack 0 [(q, 17), (r, 0), (fin.val, 6), (lvl.val, 4)] / 2 ^ 17 % 64 = q := by simp only [pack]; clear whole; omega
  have hr : pack 0 [(q, 17), (r, 0), (fin.val, 6), (lvl.val, 4)] % 16 = r := by simp only [pack]; clear whole; omega
  rw [hq, hr, whole, fin_ofNat_eq (Nat.mod_eq_of_lt n.isLt)]
  congr 1 <;> refine fin_ofNat_eq ?_ <;> simp only [pack] <;> clear whole <;> omega


/-- Words laid out like `ldl` are read back. -/
theorem decodes_like_ldl {op : Nat} {f : Fin 64 → Fin 64 → Fin 64 → Width → Fin 4 → Instr} {d a b : Fin 64} {w : Width} {sh : Fin 4}
    (he : encodeNat (f d a b w sh) = some (pack op [(d.val, 17), (a.val, 11), (b.val, 5), (w.code, 3), (sh.val, 0)])) (hop : op < 256)
    (hd : ∀ m, m / 4 % 2 = 0 → decodeOp op m = .ok (f (Fin.ofNat 64 (m / 2 ^ 17)) (Fin.ofNat 64 (m / 2 ^ 11)) (Fin.ofNat 64 (m / 32))
      (Width.ofCode (m / 8 % 4)) (Fin.ofNat 4 m))) :
    Decodes (f d a b w sh) := by
  have := width_code_lt w
  refine .of_packed he hop (by simp only [pack]; omega) ((hd _ (by simp only [pack]; omega)).trans (congrArg _ ?_))
  congr 1 <;> [apply fin_ofNat_eq; apply fin_ofNat_eq; apply fin_ofNat_eq; apply width_ofCode_eq; apply fin_ofNat_eq] <;>
    simp only [pack] <;> omega

/-- Words laid out like `pld` are read back. -/
theorem decodes_like_pld {op : Nat} {f : Fin 16 → Fin 16 → Fin 64 → Fin 8 → Instr} {d k : Fin 16} {r : Fin 64} {mask : Fin 8}
    (he : encodeNat (f d k r mask) = some (pack op [(d.val, 19), (k.val, 15), (r.val, 9), (mask.val, 6)])) (hop : op < 256)
    (hd : ∀ m, m % 64 = 0 → decodeOp op m = .ok (f (Fin.ofNat 16 (m / 2 ^ 19)) (Fin.ofNat 16 (m / 2 ^ 15)) (Fin.ofNat 64 (m / 2 ^ 9))
      (Fin.ofNat 8 (m / 64)))) :
    Decodes (f d k r mask) := by
  refine .of_packed he hop (by simp only [pack]; omega) ((hd _ (by simp only [pack]; omega)).trans (congrArg _ ?_))
  congr 1 <;> refine fin_ofNat_eq ?_ <;> simp only [pack] <;> omega

/-- Words laid out like `pldh` are read back. -/
theorem decodes_like_pldh {op : Nat} {f : Fin 64 → Fin 16 → BitVec 11 → Instr} {h : Fin 64} {pl : Fin 16} {imm : BitVec 11}
    (he : encodeNat (f h pl imm) = some (pack op [(h.val, 17), (pl.val, 11), (imm.toNat, 0)])) (hop : op < 256)
    (hd : ∀ m, m / 2 ^ 15 % 4 = 0 → decodeOp op m = .ok (f (Fin.ofNat 64 (m / 2 ^ 17)) (Fin.ofNat 16 (m / 2 ^ 11)) (BitVec.ofNat 11 m)))
      :
    Decodes (f h pl imm) := by
  refine .of_packed he hop (by simp only [pack]; omega) ((hd _ (by simp only [pack]; omega)).trans (congrArg _ ?_))
  congr 1 <;> [apply fin_ofNat_eq; apply fin_ofNat_eq; apply bitvec_ofNat_eq] <;>
    simp only [pack] <;> omega

/-- Words laid out like `pgather` are read back. -/
theorem decodes_like_pgather {op : Nat} {f : Fin 16 → Fin 16 → Fin 8 → Bool → Instr} {d a : Fin 16} {mask : Fin 8} {g : Bool}
    (he : encodeNat (f d a mask g) = some (pack op [(d.val, 19), (a.val, 15), (mask.val, 8), (g.toNat, 0)])) (hop : op < 256)
    (hd : ∀ m, m / 2 % 2 ^ 7 = 0 ∧ m / 2 ^ 11 % 16 = 0 → decodeOp op m = .ok (f (Fin.ofNat 16 (m / 2 ^ 19)) (Fin.ofNat 16 (m / 2 ^ 15))
      (Fin.ofNat 8 (m / 2 ^ 8)) (m % 2 == 1))) :
    Decodes (f d a mask g) := by
  have := g.toNat_lt
  refine .of_packed he hop (by simp only [pack]; omega) ((hd _ (by simp only [pack]; omega)).trans (congrArg _ ?_))
  congr 1 <;> [apply fin_ofNat_eq; apply fin_ofNat_eq; apply fin_ofNat_eq; apply beq_one_eq] <;>
    simp only [pack] <;> omega

/-- Words laid out like `scope` are read back. -/
theorem decodes_like_scope {op : Nat} {f : Fin 8 → Instr} {scope : Fin 8}
    (he : encodeNat (f scope) = some (pack op [(scope.val, 20)])) (hop : op < 256)
    (hd : ∀ m, m % 2 ^ 20 = 0 → decodeOp op m = .ok (f (Fin.ofNat 8 (m / 2 ^ 20)))) :
    Decodes (f scope) := by
  refine .of_packed he hop (by simp only [pack]; omega) ((hd _ (by simp only [pack]; omega)).trans (congrArg _ ?_))
  exact congrArg f (fin_ofNat_eq (by simp only [pack]; omega))

/-- Words laid out like `padd` are read back. -/
theorem decodes_like_padd {op : Nat} {f : Fin 16 → Fin 16 → Fin 16 → Fin 8 → Fin 4 → Fin 8 → Fin 8 → Instr} {d a b : Fin 16} {mask : Fin
    8} {pw : Fin 4} {ty sub : Fin 8}
    (he : encodeNat (f d a b mask pw ty sub) = some (pack op [(d.val, 19), (a.val, 15), (b.val, 11), (mask.val, 8), (pw.val, 6),
      (ty.val, 3), (sub.val, 0)])) (hop : op < 256)
    (hd : ∀ m, decodeOp op m = .ok (f (Fin.ofNat 16 (m / 2 ^ 19)) (Fin.ofNat 16 (m / 2 ^ 15)) (Fin.ofNat 16 (m / 2 ^ 11)) (Fin.ofNat 8
      (m / 2 ^ 8)) (Fin.ofNat 4 (m / 64)) (Fin.ofNat 8 (m / 8)) (Fin.ofNat 8 m))) :
    Decodes (f d a b mask pw ty sub) := by
  refine .of_packed he hop (by simp only [pack]; omega) ((hd _).trans (congrArg _ ?_))
  congr 1 <;> refine fin_ofNat_eq ?_ <;> simp only [pack] <;> omega

/-- Words laid out like `pabs` are read back. -/
theorem decodes_like_pabs {op : Nat} {f : Fin 16 → Fin 16 → Fin 8 → Fin 4 → Fin 8 → Fin 8 → Instr} {d a : Fin 16} {mask : Fin 8} {pw :
    Fin 4} {ty sub : Fin 8}
    (he : encodeNat (f d a mask pw ty sub) = some (pack op [(d.val, 19), (a.val, 15), (mask.val, 8), (pw.val, 6), (ty.val, 3), (sub.val,
      0)])) (hop : op < 256)
    (hd : ∀ m, m / 2 ^ 11 % 16 = 0 → decodeOp op m = .ok (f (Fin.ofNat 16 (m / 2 ^ 19)) (Fin.ofNat 16 (m / 2 ^ 15)) (Fin.ofNat 8 (m / 2
      ^ 8)) (Fin.ofNat 4 (m / 64)) (Fin.ofNat 8 (m / 8)) (Fin.ofNat 8 m))) :
    Decodes (f d a mask pw ty sub) := by
  refine .of_packed he hop (by simp only [pack]; omega) ((hd _ (by simp only [pack]; omega)).trans (congrArg _ ?_))
  congr 1 <;> refine fin_ofNat_eq ?_ <;> simp only [pack] <;> omega

/-- Words laid out like `pcmp` are read back. -/
theorem decodes_like_pcmp {op : Nat} {f : Fin 16 → Fin 16 → Fin 16 → Fin 8 → Fin 8 → Fin 8 → Instr} {d a b : Fin 16} {mask ty sub : Fin
    8}
    (he : encodeNat (f d a b mask ty sub) = some (pack op [(d.val, 19), (a.val, 15), (b.val, 11), (mask.val, 8), (ty.val, 3), (sub.val,
      0)])) (hop : op < 256)
    (hd : ∀ m, m / 64 % 4 = 0 → decodeOp op m = .ok (f (Fin.ofNat 16 (m / 2 ^ 19)) (Fin.ofNat 16 (m / 2 ^ 15)) (Fin.ofNat 16 (m / 2 ^
      11)) (Fin.ofNat 8 (m / 2 ^ 8)) (Fin.ofNat 8 (m / 8)) (Fin.ofNat 8 m))) :
    Decodes (f d a b mask ty sub) := by
  refine .of_packed he hop (by simp only [pack]; omega) ((hd _ (by simp only [pack]; omega)).trans (congrArg _ ?_))
  congr 1 <;> refine fin_ofNat_eq ?_ <;> simp only [pack] <;> omega

/-- Words laid out like `psel` are read back. -/
theorem decodes_like_psel {op : Nat} {f : Fin 16 → Fin 16 → Fin 16 → Fin 8 → Fin 4 → Instr} {d a b : Fin 16} {mask : Fin 8} {pw : Fin 4}
    (he : encodeNat (f d a b mask pw) = some (pack op [(d.val, 19), (a.val, 15), (b.val, 11), (mask.val, 8), (pw.val, 6)])) (hop : op <
      256)
    (hd : ∀ m, m % 64 = 0 → decodeOp op m = .ok (f (Fin.ofNat 16 (m / 2 ^ 19)) (Fin.ofNat 16 (m / 2 ^ 15)) (Fin.ofNat 16 (m / 2 ^ 11))
      (Fin.ofNat 8 (m / 2 ^ 8)) (Fin.ofNat 4 (m / 64)))) :
    Decodes (f d a b mask pw) := by
  refine .of_packed he hop (by simp only [pack]; omega) ((hd _ (by simp only [pack]; omega)).trans (congrArg _ ?_))
  congr 1 <;> refine fin_ofNat_eq ?_ <;> simp only [pack] <;> omega

/-- Words laid out like `pnot` are read back. -/
theorem decodes_like_pnot {op : Nat} {f : Fin 16 → Fin 16 → Fin 8 → Fin 4 → Instr} {d a : Fin 16} {mask : Fin 8} {pw : Fin 4}
    (he : encodeNat (f d a mask pw) = some (pack op [(d.val, 19), (a.val, 15), (mask.val, 8), (pw.val, 6)])) (hop : op < 256)
    (hd : ∀ m, m % 64 = 0 ∧ m / 2 ^ 11 % 16 = 0 → decodeOp op m = .ok (f (Fin.ofNat 16 (m / 2 ^ 19)) (Fin.ofNat 16 (m / 2 ^ 15))
      (Fin.ofNat 8 (m / 2 ^ 8)) (Fin.ofNat 4 (m / 64)))) :
    Decodes (f d a mask pw) := by
  refine .of_packed he hop (by simp only [pack]; omega) ((hd _ (by simp only [pack]; omega)).trans (congrArg _ ?_))
  congr 1 <;> refine fin_ofNat_eq ?_ <;> simp only [pack] <;> omega

/-- Words laid out like `pbcs` are read back. -/
theorem decodes_like_pbcs {op : Nat} {f : Fin 16 → Fin 64 → Fin 8 → Fin 8 → Fin 8 → Instr} {d : Fin 16} {r : Fin 64} {mask ty sub : Fin
    8}
    (he : encodeNat (f d r mask ty sub) = some (pack op [(d.val, 19), (r.val, 9), (mask.val, 6), (ty.val, 3), (sub.val, 0)])) (hop : op
      < 256)
    (hd : ∀ m, m / 2 ^ 15 % 16 = 0 → decodeOp op m = .ok (f (Fin.ofNat 16 (m / 2 ^ 19)) (Fin.ofNat 64 (m / 2 ^ 9)) (Fin.ofNat 8 (m /
      64)) (Fin.ofNat 8 (m / 8)) (Fin.ofNat 8 m))) :
    Decodes (f d r mask ty sub) := by
  refine .of_packed he hop (by simp only [pack]; omega) ((hd _ (by simp only [pack]; omega)).trans (congrArg _ ?_))
  congr 1 <;> refine fin_ofNat_eq ?_ <;> simp only [pack] <;> omega

/-- Words laid out like `pext` are read back. -/
theorem decodes_like_pext {op : Nat} {f : Fin 16 → Fin 64 → Fin 8 → Fin 8 → Instr} {a : Fin 16} {r : Fin 64} {ty sub : Fin 8}
    (he : encodeNat (f a r ty sub) = some (pack op [(a.val, 15), (r.val, 9), (ty.val, 3), (sub.val, 0)])) (hop : op < 256)
    (hd : ∀ m, m / 64 % 8 = 0 ∧ m / 2 ^ 19 % 16 = 0 → decodeOp op m = .ok (f (Fin.ofNat 16 (m / 2 ^ 15)) (Fin.ofNat 64 (m / 2 ^ 9))
      (Fin.ofNat 8 (m / 8)) (Fin.ofNat 8 m))) :
    Decodes (f a r ty sub) := by
  refine .of_packed he hop (by simp only [pack]; omega) ((hd _ (by simp only [pack]; omega)).trans (congrArg _ ?_))
  congr 1 <;> refine fin_ofNat_eq ?_ <;> simp only [pack] <;> omega

/-- Words laid out like `piota` are read back. -/
theorem decodes_like_piota {op : Nat} {f : Fin 16 → Fin 8 → Fin 4 → Fin 8 → Fin 8 → Instr} {d : Fin 16} {mask : Fin 8} {pw : Fin 4} {ty
    sub : Fin 8}
    (he : encodeNat (f d mask pw ty sub) = some (pack op [(d.val, 19), (mask.val, 8), (pw.val, 6), (ty.val, 3), (sub.val, 0)])) (hop :
      op < 256)
    (hd : ∀ m, m / 2 ^ 11 % 2 ^ 8 = 0 → decodeOp op m = .ok (f (Fin.ofNat 16 (m / 2 ^ 19)) (Fin.ofNat 8 (m / 2 ^ 8)) (Fin.ofNat 4 (m /
      64)) (Fin.ofNat 8 (m / 8)) (Fin.ofNat 8 m))) :
    Decodes (f d mask pw ty sub) := by
  refine .of_packed he hop (by simp only [pack]; omega) ((hd _ (by simp only [pack]; omega)).trans (congrArg _ ?_))
  congr 1 <;> refine fin_ofNat_eq ?_ <;> simp only [pack] <;> omega

/-- Words laid out like `pmand` are read back. -/
theorem decodes_like_pmand {op : Nat} {f : Fin 16 → Fin 16 → Fin 16 → Fin 8 → Instr} {d a b : Fin 16} {mask : Fin 8}
    (he : encodeNat (f d a b mask) = some (pack op [(d.val, 19), (a.val, 15), (b.val, 11), (mask.val, 8)])) (hop : op < 256)
    (hd : ∀ m, m % 2 ^ 8 = 0 → decodeOp op m = .ok (f (Fin.ofNat 16 (m / 2 ^ 19)) (Fin.ofNat 16 (m / 2 ^ 15)) (Fin.ofNat 16 (m / 2 ^
      11)) (Fin.ofNat 8 (m / 2 ^ 8)))) :
    Decodes (f d a b mask) := by
  refine .of_packed he hop (by simp only [pack]; omega) ((hd _ (by simp only [pack]; omega)).trans (congrArg _ ?_))
  congr 1 <;> refine fin_ofNat_eq ?_ <;> simp only [pack] <;> omega

/-- Words laid out like `pmnot` are read back. -/
theorem decodes_like_pmnot {op : Nat} {f : Fin 16 → Fin 16 → Fin 8 → Instr} {d a : Fin 16} {mask : Fin 8}
    (he : encodeNat (f d a mask) = some (pack op [(d.val, 19), (a.val, 15), (mask.val, 8)])) (hop : op < 256)
    (hd : ∀ m, m % 2 ^ 8 = 0 ∧ m / 2 ^ 11 % 16 = 0 → decodeOp op m = .ok (f (Fin.ofNat 16 (m / 2 ^ 19)) (Fin.ofNat 16 (m / 2 ^ 15))
      (Fin.ofNat 8 (m / 2 ^ 8)))) :
    Decodes (f d a mask) := by
  refine .of_packed he hop (by simp only [pack]; omega) ((hd _ (by simp only [pack]; omega)).trans (congrArg _ ?_))
  congr 1 <;> refine fin_ofNat_eq ?_ <;> simp only [pack] <;> omega

/-- Words laid out like `pvote` are read back. -/
theorem decodes_like_pvote {op : Nat} {f : Fin 16 → Fin 16 → Fin 8 → Fin 8 → Instr} {d a : Fin 16} {mask sub : Fin 8}
    (he : encodeNat (f d a mask sub) = some (pack op [(d.val, 19), (a.val, 15), (mask.val, 8), (sub.val, 0)])) (hop : op < 256)
    (hd : ∀ m, m / 8 % 32 = 0 ∧ m / 2 ^ 11 % 16 = 0 → decodeOp op m = .ok (f (Fin.ofNat 16 (m / 2 ^ 19)) (Fin.ofNat 16 (m / 2 ^ 15))
      (Fin.ofNat 8 (m / 2 ^ 8)) (Fin.ofNat 8 m))) :
    Decodes (f d a mask sub) := by
  refine .of_packed he hop (by simp only [pack]; omega) ((hd _ (by simp only [pack]; omega)).trans (congrArg _ ?_))
  congr 1 <;> refine fin_ofNat_eq ?_ <;> simp only [pack] <;> omega

/-- Words laid out like `pflag` are read back. -/
theorem decodes_like_pflag {op : Nat} {f : Fin 16 → Fin 8 → Fin 8 → Instr} {d : Fin 16} {mask sub : Fin 8}
    (he : encodeNat (f d mask sub) = some (pack op [(d.val, 19), (mask.val, 8), (sub.val, 0)])) (hop : op < 256)
    (hd : ∀ m, m / 8 % 32 = 0 ∧ m / 2 ^ 11 % 2 ^ 8 = 0 → decodeOp op m = .ok (f (Fin.ofNat 16 (m / 2 ^ 19)) (Fin.ofNat 8 (m / 2 ^ 8))
      (Fin.ofNat 8 m))) :
    Decodes (f d mask sub) := by
  refine .of_packed he hop (by simp only [pack]; omega) ((hd _ (by simp only [pack]; omega)).trans (congrArg _ ?_))
  congr 1 <;> refine fin_ofNat_eq ?_ <;> simp only [pack] <;> omega

/-- Words laid out like `prng` are read back. -/
theorem decodes_like_prng {op : Nat} {f : Fin 16 → Fin 8 → Fin 4 → Fin 8 → Instr} {d : Fin 16} {mask : Fin 8} {pw : Fin 4} {sub : Fin 8}
    (he : encodeNat (f d mask pw sub) = some (pack op [(d.val, 19), (mask.val, 8), (pw.val, 6), (sub.val, 0)])) (hop : op < 256)
    (hd : ∀ m, m / 8 % 8 = 0 ∧ m / 2 ^ 11 % 2 ^ 8 = 0 → decodeOp op m = .ok (f (Fin.ofNat 16 (m / 2 ^ 19)) (Fin.ofNat 8 (m / 2 ^ 8))
      (Fin.ofNat 4 (m / 64)) (Fin.ofNat 8 m))) :
    Decodes (f d mask pw sub) := by
  refine .of_packed he hop (by simp only [pack]; omega) ((hd _ (by simp only [pack]; omega)).trans (congrArg _ ?_))
  congr 1 <;> refine fin_ofNat_eq ?_ <;> simp only [pack] <;> omega

/-- Words laid out like `pscale` are read back. -/
theorem decodes_like_pscale {op : Nat} {f : Fin 16 → Fin 16 → Fin 64 → Fin 8 → Fin 8 → Fin 8 → Instr} {d a : Fin 16} {r : Fin 64} {mask
    ty sub : Fin 8}
    (he : encodeNat (f d a r mask ty sub) = some (pack op [(d.val, 19), (a.val, 15), (r.val, 9), (mask.val, 6), (ty.val, 3), (sub.val,
      0)])) (hop : op < 256)
    (hd : ∀ m, decodeOp op m = .ok (f (Fin.ofNat 16 (m / 2 ^ 19)) (Fin.ofNat 16 (m / 2 ^ 15)) (Fin.ofNat 64 (m / 2 ^ 9)) (Fin.ofNat 8 (m
      / 64)) (Fin.ofNat 8 (m / 8)) (Fin.ofNat 8 m))) :
    Decodes (f d a r mask ty sub) := by
  refine .of_packed he hop (by simp only [pack]; omega) ((hd _).trans (congrArg _ ?_))
  congr 1 <;> refine fin_ofNat_eq ?_ <;> simp only [pack] <;> omega

/-- Words laid out like `protRow` are read back. -/
theorem decodes_like_protRow {op : Nat} {f : Fin 16 → Fin 16 → Fin 128 → Fin 8 → Fin 4 → Instr} {d a : Fin 16} {k : Fin 128} {mask : Fin
    8} {pw : Fin 4}
    (he : encodeNat (f d a k mask pw) = some (pack op [(d.val, 19), (a.val, 15), (k.val / 8, 11), (k.val % 8, 0), (mask.val, 8),
      (pw.val, 6)])) (hop : op < 256)
    (hd : ∀ m, m / 8 % 8 = 0 → decodeOp op m = .ok (f (Fin.ofNat 16 (m / 2 ^ 19)) (Fin.ofNat 16 (m / 2 ^ 15)) (Fin.ofNat 128 ((m / 2 ^
      11 % 16) * 8 + m % 8)) (Fin.ofNat 8 (m / 2 ^ 8)) (Fin.ofNat 4 (m / 64)))) :
    Decodes (f d a k mask pw) := by
  have high : k.val / 8 < 16 := by omega
  have low : k.val % 8 < 8 := by omega
  have whole : k.val / 8 * 8 + k.val % 8 = k.val := by omega
  generalize k.val / 8 = q, k.val % 8 = r at he high low whole
  refine .of_packed he hop (by simp only [pack]; omega) ((hd _ (by simp only [pack]; omega)).trans (congrArg _ ?_))
  have hq : pack 0 [(d.val, 19), (a.val, 15), (q, 11), (r, 0), (mask.val, 8), (pw.val, 6)] / 2 ^ 11 % 16 = q := by
    simp only [pack]; clear whole; omega
  have hr : pack 0 [(d.val, 19), (a.val, 15), (q, 11), (r, 0), (mask.val, 8), (pw.val, 6)] % 8 = r := by
    simp only [pack]; clear whole; omega
  rw [hq, hr, whole, fin_ofNat_eq (Nat.mod_eq_of_lt k.isLt)]
  congr 1 <;> refine fin_ofNat_eq ?_ <;> simp only [pack] <;> clear whole <;> omega


/-- Words laid out like `rvadd` are read back. -/
theorem decodes_like_rvadd {op : Nat} {f : Fin 16 → Fin 16 → Fin 16 → Fin 8 → Fin 8 → Instr} {d a b : Fin 16} {mask sub : Fin 8}
    (he : encodeNat (f d a b mask sub) = some (pack op [(d.val, 19), (a.val, 15), (b.val, 11), (mask.val, 8), (sub.val, 0)])) (hop : op
      < 256)
    (hd : ∀ m, m / 8 % 32 = 0 → decodeOp op m = .ok (f (Fin.ofNat 16 (m / 2 ^ 19)) (Fin.ofNat 16 (m / 2 ^ 15)) (Fin.ofNat 16 (m / 2 ^
      11)) (Fin.ofNat 8 (m / 2 ^ 8)) (Fin.ofNat 8 m))) :
    Decodes (f d a b mask sub) := by
  refine .of_packed he hop (by simp only [pack]; omega) ((hd _ (by simp only [pack]; omega)).trans (congrArg _ ?_))
  congr 1 <;> refine fin_ofNat_eq ?_ <;> simp only [pack] <;> omega

/-- Words laid out like `unadd` are read back. -/
theorem decodes_like_unadd {op : Nat} {f : Fin 16 → Fin 16 → Fin 16 → Fin 8 → Instr} {d a b : Fin 16} {sub : Fin 8}
    (he : encodeNat (f d a b sub) = some (pack op [(d.val, 19), (a.val, 15), (b.val, 11), (sub.val, 0)])) (hop : op < 256)
    (hd : ∀ m, m / 8 % 2 ^ 8 = 0 → decodeOp op m = .ok (f (Fin.ofNat 16 (m / 2 ^ 19)) (Fin.ofNat 16 (m / 2 ^ 15)) (Fin.ofNat 16 (m / 2 ^
      11)) (Fin.ofNat 8 m))) :
    Decodes (f d a b sub) := by
  refine .of_packed he hop (by simp only [pack]; omega) ((hd _ (by simp only [pack]; omega)).trans (congrArg _ ?_))
  congr 1 <;> refine fin_ofNat_eq ?_ <;> simp only [pack] <;> omega

/-- Words laid out like `rvnarrow` are read back. -/
theorem decodes_like_rvnarrow {op : Nat} {f : Fin 16 → Fin 16 → Fin 16 → Fin 8 → Fin 8 → Instr} {d a b : Fin 16} {mask sub : Fin 8}
    (he : encodeNat (f d a b mask sub) = some (pack op [(8, 0), (d.val, 19), (a.val, 15), (b.val, 11), (mask.val, 8), (sub.val, 0)]))
      (hop : op < 256)
    (hd : ∀ m, m / 8 % 32 = 1 → decodeOp op m = .ok (f (Fin.ofNat 16 (m / 2 ^ 19)) (Fin.ofNat 16 (m / 2 ^ 15)) (Fin.ofNat 16 (m / 2 ^
      11)) (Fin.ofNat 8 (m / 2 ^ 8)) (Fin.ofNat 8 m))) :
    Decodes (f d a b mask sub) := by
  refine .of_packed he hop (by simp only [pack]; omega) ((hd _ (by simp only [pack]; omega)).trans (congrArg _ ?_))
  congr 1 <;> refine fin_ofNat_eq ?_ <;> simp only [pack] <;> omega

/-- Words laid out like `unnarrow` are read back. -/
theorem decodes_like_unnarrow {op : Nat} {f : Fin 16 → Fin 16 → Fin 16 → Fin 8 → Instr} {d a b : Fin 16} {sub : Fin 8}
    (he : encodeNat (f d a b sub) = some (pack op [(8, 0), (d.val, 19), (a.val, 15), (b.val, 11), (sub.val, 0)])) (hop : op < 256)
    (hd : ∀ m, m / 8 % 2 ^ 8 = 1 → decodeOp op m = .ok (f (Fin.ofNat 16 (m / 2 ^ 19)) (Fin.ofNat 16 (m / 2 ^ 15)) (Fin.ofNat 16 (m / 2 ^
      11)) (Fin.ofNat 8 m))) :
    Decodes (f d a b sub) := by
  refine .of_packed he hop (by simp only [pack]; omega) ((hd _ (by simp only [pack]; omega)).trans (congrArg _ ?_))
  congr 1 <;> refine fin_ofNat_eq ?_ <;> simp only [pack] <;> omega

/-- Words laid out like `rvscale` are read back. -/
theorem decodes_like_rvscale {op : Nat} {f : Fin 16 → Fin 16 → Fin 64 → Fin 8 → Fin 8 → Instr} {d a : Fin 16} {r : Fin 64} {mask sub :
    Fin 8}
    (he : encodeNat (f d a r mask sub) = some (pack op [(d.val, 19), (a.val, 15), (r.val, 9), (mask.val, 6), (sub.val, 0)])) (hop : op <
      256)
    (hd : ∀ m, m / 8 % 8 = 0 → decodeOp op m = .ok (f (Fin.ofNat 16 (m / 2 ^ 19)) (Fin.ofNat 16 (m / 2 ^ 15)) (Fin.ofNat 64 (m / 2 ^ 9))
      (Fin.ofNat 8 (m / 64)) (Fin.ofNat 8 m))) :
    Decodes (f d a r mask sub) := by
  refine .of_packed he hop (by simp only [pack]; omega) ((hd _ (by simp only [pack]; omega)).trans (congrArg _ ?_))
  congr 1 <;> refine fin_ofNat_eq ?_ <;> simp only [pack] <;> omega

/-- Words laid out like `unscale` are read back. -/
theorem decodes_like_unscale {op : Nat} {f : Fin 16 → Fin 16 → Fin 8 → Instr} {d a : Fin 16} {sub : Fin 8}
    (he : encodeNat (f d a sub) = some (pack op [(d.val, 19), (a.val, 15), (sub.val, 0)])) (hop : op < 256)
    (hd : ∀ m, m / 8 % 2 ^ 12 = 0 → decodeOp op m = .ok (f (Fin.ofNat 16 (m / 2 ^ 19)) (Fin.ofNat 16 (m / 2 ^ 15)) (Fin.ofNat 8 m))) :
    Decodes (f d a sub) := by
  refine .of_packed he hop (by simp only [pack]; omega) ((hd _ (by simp only [pack]; omega)).trans (congrArg _ ?_))
  congr 1 <;> refine fin_ofNat_eq ?_ <;> simp only [pack] <;> omega

/-- Words laid out like `rvcvt` are read back. -/
theorem decodes_like_rvcvt {op : Nat} {f : Fin 16 → Fin 16 → Fin 16 → Fin 8 → Fin 8 → Instr} {d a b : Fin 16} {mask sub : Fin 8}
    (he : encodeNat (f d a b mask sub) = some (pack op [(24, 0), (d.val, 19), (a.val, 15), (b.val, 11), (mask.val, 8), (sub.val, 0)]))
      (hop : op < 256)
    (hd : ∀ m, m / 8 % 32 = 3 → decodeOp op m = .ok (f (Fin.ofNat 16 (m / 2 ^ 19)) (Fin.ofNat 16 (m / 2 ^ 15)) (Fin.ofNat 16 (m / 2 ^
      11)) (Fin.ofNat 8 (m / 2 ^ 8)) (Fin.ofNat 8 m))) :
    Decodes (f d a b mask sub) := by
  refine .of_packed he hop (by simp only [pack]; omega) ((hd _ (by simp only [pack]; omega)).trans (congrArg _ ?_))
  congr 1 <;> refine fin_ofNat_eq ?_ <;> simp only [pack] <;> omega

/-- Words laid out like `uncvt` are read back. -/
theorem decodes_like_uncvt {op : Nat} {f : Fin 16 → Fin 16 → Fin 16 → Fin 8 → Instr} {d a b : Fin 16} {sub : Fin 8}
    (he : encodeNat (f d a b sub) = some (pack op [(24, 0), (d.val, 19), (a.val, 15), (b.val, 11), (sub.val, 0)])) (hop : op < 256)
    (hd : ∀ m, m / 8 % 2 ^ 8 = 3 → decodeOp op m = .ok (f (Fin.ofNat 16 (m / 2 ^ 19)) (Fin.ofNat 16 (m / 2 ^ 15)) (Fin.ofNat 16 (m / 2 ^
      11)) (Fin.ofNat 8 m))) :
    Decodes (f d a b sub) := by
  refine .of_packed he hop (by simp only [pack]; omega) ((hd _ (by simp only [pack]; omega)).trans (congrArg _ ?_))
  congr 1 <;> refine fin_ofNat_eq ?_ <;> simp only [pack] <;> omega

/-- Words laid out like `rvmark` are read back. -/
theorem decodes_like_rvmark {op : Nat} {f : Fin 64 → Fin 8 → Instr} {r : Fin 64} {sub : Fin 8}
    (he : encodeNat (f r sub) = some (pack op [(r.val, 9), (sub.val, 0)])) (hop : op < 256)
    (hd : ∀ m, m / 8 % 64 = 0 ∧ m / 2 ^ 15 % 2 ^ 8 = 0 → decodeOp op m = .ok (f (Fin.ofNat 64 (m / 2 ^ 9)) (Fin.ofNat 8 m))) :
    Decodes (f r sub) := by
  refine .of_packed he hop (by simp only [pack]; omega) ((hd _ (by simp only [pack]; omega)).trans (congrArg _ ?_))
  congr 1 <;> refine fin_ofNat_eq ?_ <;> simp only [pack] <;> omega

/-- Words laid out like `rvspill` are read back. -/
theorem decodes_like_rvspill {op : Nat} {f : Fin 64 → Bool → Instr} {r : Fin 64} {wt : Bool}
    (he : encodeNat (f r wt) = some (pack op [(r.val, 9), (wt.toNat, 0)])) (hop : op < 256)
    (hd : ∀ m, m / 2 % 2 ^ 8 = 0 ∧ m / 2 ^ 15 % 2 ^ 8 = 0 → decodeOp op m = .ok (f (Fin.ofNat 64 (m / 2 ^ 9)) (m % 2 == 1))) :
    Decodes (f r wt) := by
  have := wt.toNat_lt
  refine .of_packed he hop (by simp only [pack]; omega) ((hd _ (by simp only [pack]; omega)).trans (congrArg _ ?_))
  congr 1 <;> [apply fin_ofNat_eq; apply beq_one_eq] <;>
    simp only [pack] <;> omega

/-- Words laid out like `mma` are read back. -/
theorem decodes_like_mma {op : Nat} {f : Fin 8 → Fin 16 → Fin 16 → Fin 32 → Bool → Bool → Bool → Bool → Instr} {acc : Fin 8} {a b : Fin
    16} {pf : Fin 32} {clr ret ta tb : Bool}
    (he : encodeNat (f acc a b pf clr ret ta tb) = some (pack op [(acc.val, 20), (a.val, 16), (b.val, 12), (pf.val, 7), (clr.toNat, 6),
      (ret.toNat, 5), (ta.toNat, 4), (tb.toNat, 3)])) (hop : op < 256)
    (hd : ∀ m, m % 8 = 0 → decodeOp op m = .ok (f (Fin.ofNat 8 (m / 2 ^ 20)) (Fin.ofNat 16 (m / 2 ^ 16)) (Fin.ofNat 16 (m / 2 ^ 12))
      (Fin.ofNat 32 (m / 2 ^ 7)) (m / 64 % 2 == 1) (m / 32 % 2 == 1) (m / 16 % 2 == 1) (m / 8 % 2 == 1))) :
    Decodes (f acc a b pf clr ret ta tb) := by
  have := clr.toNat_lt
  have := ret.toNat_lt
  have := ta.toNat_lt
  have := tb.toNat_lt
  refine .of_packed he hop (by simp only [pack]; omega) ((hd _ (by simp only [pack]; omega)).trans (congrArg _ ?_))
  congr 1 <;> [apply fin_ofNat_eq; apply fin_ofNat_eq; apply fin_ofNat_eq; apply fin_ofNat_eq; apply beq_one_eq; apply beq_one_eq; apply beq_one_eq; apply beq_one_eq] <;>
    simp only [pack] <;> omega

/-- Words laid out like `mmag` are read back. -/
theorem decodes_like_mmag {op : Nat} {f : Fin 8 → Fin 16 → Fin 16 → Fin 32 → Fin 16 → Bool → Bool → Bool → Instr} {acc : Fin 8} {a b :
    Fin 16} {pf : Fin 32} {ix : Fin 16} {clr ret tb : Bool}
    (he : encodeNat (f acc a b pf ix clr ret tb) = some (pack op [(acc.val, 20), (a.val, 16), (b.val, 12), (pf.val, 7), (ix.val, 3),
      (clr.toNat, 2), (ret.toNat, 1), (tb.toNat, 0)])) (hop : op < 256)
    (hd : ∀ m, decodeOp op m = .ok (f (Fin.ofNat 8 (m / 2 ^ 20)) (Fin.ofNat 16 (m / 2 ^ 16)) (Fin.ofNat 16 (m / 2 ^ 12)) (Fin.ofNat 32
      (m / 2 ^ 7)) (Fin.ofNat 16 (m / 8)) (m / 4 % 2 == 1) (m / 2 % 2 == 1) (m % 2 == 1))) :
    Decodes (f acc a b pf ix clr ret tb) := by
  have := clr.toNat_lt
  have := ret.toNat_lt
  have := tb.toNat_lt
  refine .of_packed he hop (by simp only [pack]; omega) ((hd _).trans (congrArg _ ?_))
  congr 1 <;> [apply fin_ofNat_eq; apply fin_ofNat_eq; apply fin_ofNat_eq; apply fin_ofNat_eq; apply fin_ofNat_eq; apply beq_one_eq; apply beq_one_eq; apply beq_one_eq] <;>
    simp only [pack] <;> omega

/-- Words laid out like `mret` are read back. -/
theorem decodes_like_mret {op : Nat} {f : Fin 64 → Fin 64 → Fin 8 → Fin 8 → Bool → Bool → Fin 4 → Bool → Instr} {h r : Fin 64} {acc fmt
    : Fin 8} {pub clr : Bool} {rm : Fin 4} {sat : Bool}
    (he : encodeNat (f h r acc fmt pub clr rm sat) = some (pack op [(h.val, 17), (r.val, 11), (acc.val, 8), (fmt.val, 5), (pub.toNat,
      4), (clr.toNat, 3), (rm.val, 1), (sat.toNat, 0)])) (hop : op < 256)
    (hd : ∀ m, decodeOp op m = .ok (f (Fin.ofNat 64 (m / 2 ^ 17)) (Fin.ofNat 64 (m / 2 ^ 11)) (Fin.ofNat 8 (m / 2 ^ 8)) (Fin.ofNat 8 (m
      / 32)) (m / 16 % 2 == 1) (m / 8 % 2 == 1) (Fin.ofNat 4 (m / 2)) (m % 2 == 1))) :
    Decodes (f h r acc fmt pub clr rm sat) := by
  have := pub.toNat_lt
  have := clr.toNat_lt
  have := sat.toNat_lt
  refine .of_packed he hop (by simp only [pack]; omega) ((hd _).trans (congrArg _ ?_))
  congr 1 <;> [apply fin_ofNat_eq; apply fin_ofNat_eq; apply fin_ofNat_eq; apply fin_ofNat_eq; apply beq_one_eq; apply beq_one_eq; apply fin_ofNat_eq; apply beq_one_eq] <;>
    simp only [pack] <;> omega

/-- Words laid out like `mld` are read back. -/
theorem decodes_like_mld {op : Nat} {f : Fin 64 → Fin 64 → Fin 8 → Fin 4 → Bool → Instr} {h r : Fin 64} {acc : Fin 8} {fmt : Fin 4} {gen
    : Bool}
    (he : encodeNat (f h r acc fmt gen) = some (pack op [(h.val, 17), (r.val, 11), (acc.val, 8), (fmt.val, 6), (gen.toNat, 0)])) (hop :
      op < 256)
    (hd : ∀ m, m / 2 % 32 = 0 → decodeOp op m = .ok (f (Fin.ofNat 64 (m / 2 ^ 17)) (Fin.ofNat 64 (m / 2 ^ 11)) (Fin.ofNat 8 (m / 2 ^ 8))
      (Fin.ofNat 4 (m / 64)) (m % 2 == 1))) :
    Decodes (f h r acc fmt gen) := by
  have := gen.toNat_lt
  refine .of_packed he hop (by simp only [pack]; omega) ((hd _ (by simp only [pack]; omega)).trans (congrArg _ ?_))
  congr 1 <;> [apply fin_ofNat_eq; apply fin_ofNat_eq; apply fin_ofNat_eq; apply fin_ofNat_eq; apply beq_one_eq] <;>
    simp only [pack] <;> omega

/-- Words laid out like `mprof` are read back. -/
theorem decodes_like_mprof {op : Nat} {f : Fin 32 → Instr} {pf : Fin 32}
    (he : encodeNat (f pf) = some (pack op [(pf.val, 7)])) (hop : op < 256)
    (hd : ∀ m, m % 2 ^ 7 = 0 ∧ m / 2 ^ 12 % 2 ^ 11 = 0 → decodeOp op m = .ok (f (Fin.ofNat 32 (m / 2 ^ 7)))) :
    Decodes (f pf) := by
  refine .of_packed he hop (by simp only [pack]; omega) ((hd _ (by simp only [pack]; omega)).trans (congrArg _ ?_))
  exact congrArg f (fin_ofNat_eq (by simp only [pack]; omega))

/-- Words laid out like `flow` are read back. -/
theorem decodes_like_flow {op : Nat} {f : Fin 64 → Fin 2 → Instr} {a : Fin 64} {ch : Fin 2}
    (he : encodeNat (f a ch) = some (pack op [(8, 0), (a.val, 11), (ch.val, 0)])) (hop : op < 256)
    (hd : ∀ m, m / 2 % 2 ^ 10 = 4 ∧ m / 2 ^ 17 % 64 = 0 → decodeOp op m = .ok (f (Fin.ofNat 64 (m / 2 ^ 11)) (Fin.ofNat 2 m))) :
    Decodes (f a ch) := by
  refine .of_packed he hop (by simp only [pack]; omega) ((hd _ (by simp only [pack]; omega)).trans (congrArg _ ?_))
  congr 1 <;> refine fin_ofNat_eq ?_ <;> simp only [pack] <;> omega

/-- Words laid out like `fpoll` are read back. -/
theorem decodes_like_fpoll {op : Nat} {f : Fin 64 → Fin 2 → Instr} {d : Fin 64} {ch : Fin 2}
    (he : encodeNat (f d ch) = some (pack op [(8, 0), (d.val, 17), (ch.val, 0)])) (hop : op < 256)
    (hd : ∀ m, m / 2 % 2 ^ 16 = 4 → decodeOp op m = .ok (f (Fin.ofNat 64 (m / 2 ^ 17)) (Fin.ofNat 2 m))) :
    Decodes (f d ch) := by
  refine .of_packed he hop (by simp only [pack]; omega) ((hd _ (by simp only [pack]; omega)).trans (congrArg _ ?_))
  congr 1 <;> refine fin_ofNat_eq ?_ <;> simp only [pack] <;> omega

/-- Words laid out like `fhalt` are read back. -/
theorem decodes_like_fhalt {op : Nat} {f : Fin 2 → Instr} {ch : Fin 2}
    (he : encodeNat (f ch) = some (pack op [(ch.val, 0)])) (hop : op < 256)
    (hd : ∀ m, m / 2 % 2 ^ 22 = 0 → decodeOp op m = .ok (f (Fin.ofNat 2 m))) :
    Decodes (f ch) := by
  refine .of_packed he hop (by simp only [pack]; omega) ((hd _ (by simp only [pack]; omega)).trans (congrArg _ ?_))
  exact congrArg f (fin_ofNat_eq (by simp only [pack]; omega))

/-- Words laid out like `hdef` are read back. -/
theorem decodes_like_hdef {op : Nat} {f : Fin 64 → Fin 64 → Bool → Instr} {h r : Fin 64} {dbl : Bool}
    (he : encodeNat (f h r dbl) = some (pack op [(h.val, 17), (r.val, 11), (dbl.toNat, 0)])) (hop : op < 256)
    (hd : ∀ m, m / 2 % 2 ^ 10 = 0 → decodeOp op m = .ok (f (Fin.ofNat 64 (m / 2 ^ 17)) (Fin.ofNat 64 (m / 2 ^ 11)) (m % 2 == 1))) :
    Decodes (f h r dbl) := by
  have := dbl.toNat_lt
  refine .of_packed he hop (by simp only [pack]; omega) ((hd _ (by simp only [pack]; omega)).trans (congrArg _ ?_))
  congr 1 <;> [apply fin_ofNat_eq; apply fin_ofNat_eq; apply beq_one_eq] <;>
    simp only [pack] <;> omega

/-- Words laid out like `hset` are read back. -/
theorem decodes_like_hset {op : Nat} {f : Fin 64 → Fin 4 → Bool → Instr} {h : Fin 64} {tag : Fin 4} {gen : Bool}
    (he : encodeNat (f h tag gen) = some (pack op [(h.val, 17), (tag.val, 1), (gen.toNat, 0)])) (hop : op < 256)
    (hd : ∀ m, m / 8 % 2 ^ 14 = 0 → decodeOp op m = .ok (f (Fin.ofNat 64 (m / 2 ^ 17)) (Fin.ofNat 4 (m / 2)) (m % 2 == 1))) :
    Decodes (f h tag gen) := by
  have := gen.toNat_lt
  refine .of_packed he hop (by simp only [pack]; omega) ((hd _ (by simp only [pack]; omega)).trans (congrArg _ ?_))
  congr 1 <;> [apply fin_ofNat_eq; apply fin_ofNat_eq; apply beq_one_eq] <;>
    simp only [pack] <;> omega

/-- Words laid out like `await` are read back. -/
theorem decodes_like_await {op : Nat} {f : Fin 64 → Bool → Bool → Instr} {h : Fin 64} {yld gen : Bool}
    (he : encodeNat (f h yld gen) = some (pack op [(h.val, 17), (yld.toNat, 1), (gen.toNat, 0)])) (hop : op < 256)
    (hd : ∀ m, m / 4 % 2 ^ 15 = 0 → decodeOp op m = .ok (f (Fin.ofNat 64 (m / 2 ^ 17)) (m / 2 % 2 == 1) (m % 2 == 1))) :
    Decodes (f h yld gen) := by
  have := yld.toNat_lt
  have := gen.toNat_lt
  refine .of_packed he hop (by simp only [pack]; omega) ((hd _ (by simp only [pack]; omega)).trans (congrArg _ ?_))
  congr 1 <;> [apply fin_ofNat_eq; apply beq_one_eq; apply beq_one_eq] <;>
    simp only [pack] <;> omega

/-- Words laid out like `hrel` are read back. -/
theorem decodes_like_hrel {op : Nat} {f : Fin 64 → Instr} {h : Fin 64}
    (he : encodeNat (f h) = some (pack op [(h.val, 17)])) (hop : op < 256)
    (hd : ∀ m, m % 2 ^ 17 = 0 → decodeOp op m = .ok (f (Fin.ofNat 64 (m / 2 ^ 17)))) :
    Decodes (f h) := by
  refine .of_packed he hop (by simp only [pack]; omega) ((hd _ (by simp only [pack]; omega)).trans (congrArg _ ?_))
  exact congrArg f (fin_ofNat_eq (by simp only [pack]; omega))

/-- Words laid out like `wpost` are read back. -/
theorem decodes_like_wpost {op : Nat} {f : Fin 64 → Fin 64 → Instr} {a b : Fin 64}
    (he : encodeNat (f a b) = some (pack op [(8, 0), (a.val, 11), (b.val, 5)])) (hop : op < 256)
    (hd : ∀ m, m % 32 = 8 ∧ m / 2 ^ 17 % 64 = 0 → decodeOp op m = .ok (f (Fin.ofNat 64 (m / 2 ^ 11)) (Fin.ofNat 64 (m / 32)))) :
    Decodes (f a b) := by
  refine .of_packed he hop (by simp only [pack]; omega) ((hd _ (by simp only [pack]; omega)).trans (congrArg _ ?_))
  congr 1 <;> refine fin_ofNat_eq ?_ <;> simp only [pack] <;> omega

/-- Words laid out like `wpoll` are read back. -/
theorem decodes_like_wpoll {op : Nat} {f : Fin 64 → Fin 64 → Instr} {d a : Fin 64}
    (he : encodeNat (f d a) = some (pack op [(8, 0), (d.val, 17), (a.val, 11)])) (hop : op < 256)
    (hd : ∀ m, m % 2 ^ 11 = 8 → decodeOp op m = .ok (f (Fin.ofNat 64 (m / 2 ^ 17)) (Fin.ofNat 64 (m / 2 ^ 11)))) :
    Decodes (f d a) := by
  refine .of_packed he hop (by simp only [pack]; omega) ((hd _ (by simp only [pack]; omega)).trans (congrArg _ ?_))
  congr 1 <;> refine fin_ofNat_eq ?_ <;> simp only [pack] <;> omega

/-- Words laid out like `wcomm` are read back. -/
theorem decodes_like_wcomm {op : Nat} {f : Fin 64 → Fin 64 → Fin 8 → Instr} {d a : Fin 64} {sub : Fin 8}
    (he : encodeNat (f d a sub) = some (pack op [(d.val, 17), (a.val, 11), (sub.val, 0)])) (hop : op < 256)
    (hd : ∀ m, m / 8 % 2 ^ 8 = 0 → decodeOp op m = .ok (f (Fin.ofNat 64 (m / 2 ^ 17)) (Fin.ofNat 64 (m / 2 ^ 11)) (Fin.ofNat 8 m))) :
    Decodes (f d a sub) := by
  refine .of_packed he hop (by simp only [pack]; omega) ((hd _ (by simp only [pack]; omega)).trans (congrArg _ ?_))
  congr 1 <;> refine fin_ofNat_eq ?_ <;> simp only [pack] <;> omega

/-- Words laid out like `wbar` are read back. -/
theorem decodes_like_wbar {op : Nat} {f : Fin 64 → Instr} {a : Fin 64}
    (he : encodeNat (f a) = some (pack op [(a.val, 11)])) (hop : op < 256)
    (hd : ∀ m, m % 2 ^ 11 = 0 ∧ m / 2 ^ 17 % 64 = 0 → decodeOp op m = .ok (f (Fin.ofNat 64 (m / 2 ^ 11)))) :
    Decodes (f a) := by
  refine .of_packed he hop (by simp only [pack]; omega) ((hd _ (by simp only [pack]; omega)).trans (congrArg _ ?_))
  exact congrArg f (fin_ofNat_eq (by simp only [pack]; omega))

/-- Words laid out like `atom` are read back. -/
theorem decodes_like_atom {op : Nat} {f : Fin 64 → Fin 64 → Fin 64 → Width → Bool → Bool → Instr} {d a b : Fin 64} {w : Width} {sp rt :
    Bool}
    (he : encodeNat (f d a b w sp rt) = some (pack op [(d.val, 17), (a.val, 11), (b.val, 5), (w.code, 3), (sp.toNat, 1), (rt.toNat,
      0)])) (hop : op < 256)
    (hd : ∀ m, m / 4 % 2 = 0 → decodeOp op m = .ok (f (Fin.ofNat 64 (m / 2 ^ 17)) (Fin.ofNat 64 (m / 2 ^ 11)) (Fin.ofNat 64 (m / 32))
      (Width.ofCode (m / 8 % 4)) (m / 2 % 2 == 1) (m % 2 == 1))) :
    Decodes (f d a b w sp rt) := by
  have := width_code_lt w
  have := sp.toNat_lt
  have := rt.toNat_lt
  refine .of_packed he hop (by simp only [pack]; omega) ((hd _ (by simp only [pack]; omega)).trans (congrArg _ ?_))
  congr 1 <;> [apply fin_ofNat_eq; apply fin_ofNat_eq; apply fin_ofNat_eq; apply width_ofCode_eq; apply beq_one_eq; apply beq_one_eq] <;>
    simp only [pack] <;> omega

/-- Words laid out like `cas` are read back. -/
theorem decodes_like_cas {op : Nat} {f : Fin 64 → Fin 64 → Fin 64 → Width → Bool → Instr} {d a b : Fin 64} {w : Width} {sp : Bool}
    (he : encodeNat (f d a b w sp) = some (pack op [(d.val, 17), (a.val, 11), (b.val, 5), (w.code, 3), (sp.toNat, 1)])) (hop : op < 256)
    (hd : ∀ m, m % 2 = 0 ∧ m / 4 % 2 = 0 → decodeOp op m = .ok (f (Fin.ofNat 64 (m / 2 ^ 17)) (Fin.ofNat 64 (m / 2 ^ 11)) (Fin.ofNat 64
      (m / 32)) (Width.ofCode (m / 8 % 4)) (m / 2 % 2 == 1))) :
    Decodes (f d a b w sp) := by
  have := width_code_lt w
  have := sp.toNat_lt
  refine .of_packed he hop (by simp only [pack]; omega) ((hd _ (by simp only [pack]; omega)).trans (congrArg _ ?_))
  congr 1 <;> [apply fin_ofNat_eq; apply fin_ofNat_eq; apply fin_ofNat_eq; apply width_ofCode_eq; apply beq_one_eq] <;>
    simp only [pack] <;> omega

/-- Words laid out like `oatomP` are read back. -/
theorem decodes_like_oatomP {op : Nat} {f : Fin 16 → Fin 16 → Fin 64 → Instr} {d a : Fin 16} {b : Fin 64}
    (he : encodeNat (f d a b) = some (pack op [(4, 0), (d.val, 17), (a.val, 11), (b.val, 5)])) (hop : op < 256)
    (hd : ∀ m, m % 32 = 4 ∧ m / 2 ^ 15 % 4 = 0 ∧ m / 2 ^ 21 % 4 = 0 → decodeOp op m = .ok (f (Fin.ofNat 16 (m / 2 ^ 17)) (Fin.ofNat 16
      (m / 2 ^ 11)) (Fin.ofNat 64 (m / 32)))) :
    Decodes (f d a b) := by
  refine .of_packed he hop (by simp only [pack]; omega) ((hd _ (by simp only [pack]; omega)).trans (congrArg _ ?_))
  congr 1 <;> refine fin_ofNat_eq ?_ <;> simp only [pack] <;> omega

/-- Words laid out like `ostep` are read back. -/
theorem decodes_like_ostep {op : Nat} {f : Fin 64 → Fin 64 → Instr} {d a : Fin 64}
    (he : encodeNat (f d a) = some (pack op [(d.val, 17), (a.val, 11)])) (hop : op < 256)
    (hd : ∀ m, m % 2 ^ 11 = 0 → decodeOp op m = .ok (f (Fin.ofNat 64 (m / 2 ^ 17)) (Fin.ofNat 64 (m / 2 ^ 11)))) :
    Decodes (f d a) := by
  refine .of_packed he hop (by simp only [pack]; omega) ((hd _ (by simp only [pack]; omega)).trans (congrArg _ ?_))
  congr 1 <;> refine fin_ofNat_eq ?_ <;> simp only [pack] <;> omega

/-- Words laid out like `trap` are read back. -/
theorem decodes_like_trap {op : Nat} {f : BitVec 17 → Instr} {imm : BitVec 17}
    (he : encodeNat (f imm) = some (pack op [(imm.toNat, 0)])) (hop : op < 256)
    (hd : ∀ m, m / 2 ^ 17 % 64 = 0 → decodeOp op m = .ok (f (BitVec.ofNat 17 m))) :
    Decodes (f imm) := by
  refine .of_packed he hop (by simp only [pack]; omega) ((hd _ (by simp only [pack]; omega)).trans (congrArg _ ?_))
  exact congrArg f (bitvec_ofNat_eq (by simp only [pack]; omega))

theorem encodeNat_decodes (i : Instr) : Decodes i := by
  cases i
  case nop | fence | yieldItem | endItem | halt => exact .of_packed rfl (by decide) (by decide) rfl
  case add | sub | and | or | xor | andn | orn | shl | shr | sar | rotl | min | max | minn | maxn | ceq | clt | cltn | cmov | mul | div
    | divn | rem | remn | bins | madd | ldm | stm =>
    exact decodes_like_add rfl (by decide) fun _ h => if_pos h
  case mulh | mulhn | fmin | fmax | resume =>
    exact decodes_like_mulh rfl (by decide) fun _ h => if_pos h
  case clz | popc | brev | mov =>
    exact decodes_like_clz rfl (by decide) fun _ h => if_pos h
  case bext =>
    exact decodes_like_bext rfl (by decide) fun _ h => if_pos h
  case addi | andi | ori | xori | shli | shri | sari | ceqi | clti | cltni | ldh | sth | tload | tset =>
    exact decodes_like_addi rfl (by decide) fun _ => rfl
  case movi | lui | br | brv | mfsr | mtsr | sysc =>
    exact decodes_like_movi rfl (by decide) fun _ => rfl
  case lea =>
    exact decodes_like_lea rfl (by decide) fun _ => rfl
  case ext =>
    exact decodes_like_ext rfl (by decide) fun _ h => if_pos h
  case fadd | fsub | fmul | ffma | fcmp | fcvt =>
    exact decodes_like_fadd rfl (by decide) fun _ h => if_pos h
  case jmp | call | limm =>
    exact decodes_like_jmp rfl (by decide) fun _ => rfl
  case ret | jx =>
    exact decodes_like_ret rfl (by decide) fun _ h => if_pos h
  case jxl =>
    exact decodes_like_jxl rfl (by decide) fun _ h => (if_neg (by omega)).trans (if_pos h)
  case loop =>
    exact decodes_like_loop rfl (by decide) fun _ h => if_pos h
  case loopi =>
    exact decodes_like_loopi rfl (by decide) fun _ => rfl
  case ldl | stl | ldg | stg | ldk =>
    exact decodes_like_ldl rfl (by decide) fun _ h => if_pos h
  case pld | pst | pldg | pstg =>
    exact decodes_like_pld rfl (by decide) fun _ h => if_pos h
  case pldh | psth =>
    exact decodes_like_pldh rfl (by decide) fun _ h => if_pos h
  case pgather | pscatter =>
    exact decodes_like_pgather rfl (by decide) fun _ h => if_pos h
  case scope | mclr | mwait | phase | bar =>
    exact decodes_like_scope rfl (by decide) fun _ h => if_pos h
  case padd | psub | pmul | pfma | pfms | pmin | pmax | pcvt | pshl | pshr | psar | pdot2 | pclamp | pabsd | pdiv =>
    exact decodes_like_padd rfl (by decide) fun _ => rfl
  case pabs | pneg | pround | psumRow | psumCol | predRow | predCol | pspf | ptrig =>
    exact decodes_like_pabs rfl (by decide) fun _ h => if_pos h
  case pcmp =>
    exact decodes_like_pcmp rfl (by decide) fun _ h => if_pos h
  case psel | pand | por | pxor =>
    exact decodes_like_psel rfl (by decide) fun _ h => if_pos h
  case pnot | pmov =>
    exact decodes_like_pnot rfl (by decide) fun _ h => if_pos h
  case pbcs | pins =>
    exact decodes_like_pbcs rfl (by decide) fun _ h => if_pos h
  case pext =>
    exact decodes_like_pext rfl (by decide) fun _ h => if_pos h
  case piota =>
    exact decodes_like_piota rfl (by decide) fun _ h => if_pos h
  case pmand | pmor | pmxor | pxbar =>
    exact decodes_like_pmand rfl (by decide) fun _ h => if_pos h
  case pmnot | pxset | pxtr =>
    exact decodes_like_pmnot rfl (by decide) fun _ h => if_pos h
  case pvote =>
    exact decodes_like_pvote rfl (by decide) fun _ h => if_pos h
  case pflag =>
    exact decodes_like_pflag rfl (by decide) fun _ h => if_pos h
  case prng =>
    exact decodes_like_prng rfl (by decide) fun _ h => if_pos h
  case pscale | pmuls | pfmas | paddi =>
    exact decodes_like_pscale rfl (by decide) fun _ => rfl
  case protRow | protCol | pbcRow | pbcCol =>
    exact decodes_like_protRow rfl (by decide) fun _ h => if_pos h
  case rvadd | rvmul | rvlrelu =>
    exact decodes_like_rvadd rfl (by decide) fun _ h => if_pos h
  case unadd | unmul =>
    exact decodes_like_unadd rfl (by decide) fun _ h => if_pos h
  case rvnarrow =>
    exact decodes_like_rvnarrow rfl (by decide) fun _ h => if_pos h
  case unnarrow =>
    exact decodes_like_unnarrow rfl (by decide) fun _ h => if_pos h
  case rvscale =>
    exact decodes_like_rvscale rfl (by decide) fun _ h => if_pos h
  case unscale | unlrelu =>
    exact decodes_like_unscale rfl (by decide) fun _ h => if_pos h
  case rvcvt =>
    exact decodes_like_rvcvt rfl (by decide) fun _ h => if_pos h
  case uncvt =>
    exact decodes_like_uncvt rfl (by decide) fun _ h => if_pos h
  case rvmark | unmark | rvinfo =>
    exact decodes_like_rvmark rfl (by decide) fun _ h => if_pos h
  case rvspill =>
    exact decodes_like_rvspill rfl (by decide) fun _ h => if_pos h
  case mma =>
    exact decodes_like_mma rfl (by decide) fun _ h => if_pos h
  case mmag =>
    exact decodes_like_mmag rfl (by decide) fun _ => rfl
  case mret =>
    exact decodes_like_mret rfl (by decide) fun _ => rfl
  case mld =>
    exact decodes_like_mld rfl (by decide) fun _ h => if_pos h
  case mwaitAll => exact .of_packed rfl (by decide) (by decide) rfl
  case mprof =>
    exact decodes_like_mprof rfl (by decide) fun _ h => if_pos h
  case flow =>
    exact decodes_like_flow rfl (by decide) fun _ h => if_pos h
  case fpoll =>
    exact decodes_like_fpoll rfl (by decide) fun _ h => if_pos h
  case fhalt =>
    exact decodes_like_fhalt rfl (by decide) fun _ h => if_pos h
  case hdef =>
    exact decodes_like_hdef rfl (by decide) fun _ h => if_pos h
  case hset =>
    exact decodes_like_hset rfl (by decide) fun _ h => if_pos h
  case await =>
    exact decodes_like_await rfl (by decide) fun _ h => if_pos h
  case hrel | hpub =>
    exact decodes_like_hrel rfl (by decide) fun _ h => if_pos h
  case wpost =>
    exact decodes_like_wpost rfl (by decide) fun _ h => if_pos h
  case wpoll =>
    exact decodes_like_wpoll rfl (by decide) fun _ h => if_pos h
  case wcomm =>
    exact decodes_like_wcomm rfl (by decide) fun _ h => if_pos h
  case wbar | mbtag =>
    exact decodes_like_wbar rfl (by decide) fun _ h => if_pos h
  case atom =>
    exact decodes_like_atom rfl (by decide) fun _ h => if_pos h
  case cas | oatom =>
    exact decodes_like_cas rfl (by decide) fun _ h => if_pos h
  case oatomP =>
    exact decodes_like_oatomP rfl (by decide) fun _ h => (if_neg (by omega)).trans (if_pos h)
  case ostep =>
    exact decodes_like_ostep rfl (by decide) fun _ h => if_pos h
  case trap | snap =>
    exact decodes_like_trap rfl (by decide) fun _ h => if_pos h
  all_goals exact fun _ h => nomatch h

/-! ### From a word to its instruction -/

/-- R160: the code of a width that was read. -/
theorem width_code_ofCode (w : Nat) : (Width.ofCode (w / 8 % 4)).code = w / 8 % 4 := by
  have h : w / 8 % 4 < 4 := Nat.mod_lt _ (by decide)
  interval_cases w / 8 % 4 <;> rfl

/-- A flag bit that was read. -/
theorem toNat_beq_one (w : Nat) : (w % 2 == 1).toNat = w % 2 := by
  rcases Nat.mod_two_eq_zero_or_one w with h | h <;> rw [h] <;> rfl

/-- R143, R148: where the decoder answers an instruction, it packs to `n`. -/
def Packs (n : Nat) (r : Except DecodeError Instr) : Prop := ∀ i, r = .ok i → encodeNat i = some n

theorem Packs.ok {n m : Nat} {i : Instr} (he : encodeNat i = some m) (h : m = n) : Packs n (.ok i) := by
  rintro _ ⟨⟩; rw [he, h]

theorem Packs.error {n : Nat} (e : DecodeError) : Packs n (.error e) := nofun

theorem Packs.ite {n : Nat} {c : Prop} [Decidable c] {a b : Except DecodeError Instr} (ha : c → Packs n a) (hb : ¬ c → Packs n b) :
    Packs n (if c then a else b) := by
  split
  · exact ha ‹_›
  · exact hb ‹_›

theorem Packs.guard {n m : Nat} {c : Prop} [Decidable c] {i : Instr} {e : DecodeError} (he : encodeNat i = some m) (h : c → m = n) :
    Packs n (if c then .ok i else .error e) := .ite (fun hc => .ok he (h hc)) fun _ => .error e

theorem packs_like_nop {op w : Nat} (hw : w < 2 ^ 23) (h : w % 2 ^ 23 = 0) : pack op [] = op * 2 ^ 23 + w := by simp only [pack]; omega

theorem packs_like_add {op w : Nat} (hw : w < 2 ^ 23) (h : w % 8 = 0) : pack op [((Fin.ofNat 64 (w / 2 ^ 17)).val, 17), ((Fin.ofNat 64
    (w / 2 ^ 11)).val, 11), ((Fin.ofNat 64 (w / 32)).val, 5), ((Width.ofCode (w / 8 % 4)).code, 3)] = op * 2 ^ 23 + w := by
  simp only [pack, Fin.val_ofNat, width_code_ofCode]
  omega

theorem packs_like_mulh {op w : Nat} (hw : w < 2 ^ 23) (h : w % 32 = 0) : pack op [((Fin.ofNat 64 (w / 2 ^ 17)).val, 17), ((Fin.ofNat 64
    (w / 2 ^ 11)).val, 11), ((Fin.ofNat 64 (w / 32)).val, 5)] = op * 2 ^ 23 + w := by
  simp only [pack, Fin.val_ofNat]
  omega

theorem packs_like_clz {op w : Nat} (hw : w < 2 ^ 23) (h : w % 8 = 0 ∧ w / 32 % 64 = 0) : pack op [((Fin.ofNat 64 (w / 2 ^ 17)).val,
    17), ((Fin.ofNat 64 (w / 2 ^ 11)).val, 11), ((Width.ofCode (w / 8 % 4)).code, 3)] = op * 2 ^ 23 + w := by
  simp only [pack, Fin.val_ofNat, width_code_ofCode]
  omega

theorem packs_like_bext {op w : Nat} (hw : w < 2 ^ 23) (h : w / 2 % 4 = 0) : pack op [((Fin.ofNat 64 (w / 2 ^ 17)).val, 17), ((Fin.ofNat
    64 (w / 2 ^ 11)).val, 11), ((Fin.ofNat 64 (w / 32)).val, 5), ((Width.ofCode (w / 8 % 4)).code, 3), ((w % 2 == 1).toNat, 0)] = op * 2
    ^ 23 + w := by
  simp only [pack, Fin.val_ofNat, width_code_ofCode, toNat_beq_one]
  omega

theorem packs_like_addi {op w : Nat} (hw : w < 2 ^ 23) : pack op [((Fin.ofNat 64 (w / 2 ^ 17)).val, 17), ((Fin.ofNat 64 (w / 2 ^
    11)).val, 11), ((BitVec.ofNat 11 w).toNat, 0)] = op * 2 ^ 23 + w := by
  simp only [pack, Fin.val_ofNat, BitVec.toNat_ofNat]
  omega

theorem packs_like_movi {op w : Nat} (hw : w < 2 ^ 23) : pack op [((Fin.ofNat 64 (w / 2 ^ 17)).val, 17), ((BitVec.ofNat 17 w).toNat, 0)]
    = op * 2 ^ 23 + w := by
  simp only [pack, Fin.val_ofNat, BitVec.toNat_ofNat]
  omega

theorem packs_like_lea {op w : Nat} (hw : w < 2 ^ 23) : pack op [((Fin.ofNat 64 (w / 2 ^ 17)).val, 17), ((Fin.ofNat 64 (w / 2 ^
    11)).val, 11), ((Fin.ofNat 64 (w / 32)).val, 5), ((Width.ofCode (w / 8 % 4)).code, 3), ((w / 4 % 2 == 1).toNat, 2), ((Fin.ofNat 4
    w).val, 0)] = op * 2 ^ 23 + w := by
  simp only [pack, Fin.val_ofNat, width_code_ofCode, toNat_beq_one]
  omega

theorem packs_like_ext {op w : Nat} (hw : w < 2 ^ 23) (h : w / 32 % 64 = 0) : pack op [((Fin.ofNat 64 (w / 2 ^ 17)).val, 17),
    ((Fin.ofNat 64 (w / 2 ^ 11)).val, 11), ((Width.ofCode (w / 8 % 4)).code, 3), ((Fin.ofNat 8 w).val, 0)] = op * 2 ^ 23 + w := by
  simp only [pack, Fin.val_ofNat, width_code_ofCode]
  omega

theorem packs_like_fadd {op w : Nat} (hw : w < 2 ^ 23) (h : w / 8 % 4 = 0) : pack op [((Fin.ofNat 64 (w / 2 ^ 17)).val, 17), ((Fin.ofNat
    64 (w / 2 ^ 11)).val, 11), ((Fin.ofNat 64 (w / 32)).val, 5), ((Fin.ofNat 8 w).val, 0)] = op * 2 ^ 23 + w := by
  simp only [pack, Fin.val_ofNat]
  omega

theorem packs_like_jmp {op w : Nat} (hw : w < 2 ^ 23) : pack op [((BitVec.ofNat 23 w).toNat, 0)] = op * 2 ^ 23 + w := by
  simp only [pack, BitVec.toNat_ofNat]
  omega

theorem packs_like_ret {op w : Nat} (hw : w < 2 ^ 23) (h : w % 2 ^ 11 = 8 ∧ w / 2 ^ 17 % 64 = 0) : pack op [(8, 0), ((Fin.ofNat 64 (w /
    2 ^ 11)).val, 11)] = op * 2 ^ 23 + w := by
  simp only [pack, Fin.val_ofNat]
  omega

theorem packs_like_jxl {op w : Nat} (hw : w < 2 ^ 23) (h : w % 2 ^ 11 = 9) : pack op [(9, 0), ((Fin.ofNat 64 (w / 2 ^ 17)).val, 17),
    ((Fin.ofNat 64 (w / 2 ^ 11)).val, 11)] = op * 2 ^ 23 + w := by
  simp only [pack, Fin.val_ofNat]
  omega

theorem packs_like_loop {op w : Nat} (hw : w < 2 ^ 23) (h : w % 16 = 0) : pack op [((Fin.ofNat 64 (w / 2 ^ 17)).val, 17), ((Fin.ofNat
    2048 (w / 64)).val, 6), ((Fin.ofNat 4 (w / 16)).val, 4)] = op * 2 ^ 23 + w := by
  simp only [pack, Fin.val_ofNat]
  omega

theorem packs_like_loopi {op w : Nat} (hw : w < 2 ^ 23) : pack op [((Fin.ofNat 1024 ((w / 2 ^ 17 % 64) * 16 + w % 16)).val / 16, 17),
    ((Fin.ofNat 1024 ((w / 2 ^ 17 % 64) * 16 + w % 16)).val % 16, 0), ((Fin.ofNat 2048 (w / 64)).val, 6), ((Fin.ofNat 4 (w / 16)).val,
    4)] = op * 2 ^ 23 + w := by
  have high : (w / 2 ^ 17 % 64 * 16 + w % 16) % 1024 / 16 = w / 2 ^ 17 % 64 := by omega
  have low : (w / 2 ^ 17 % 64 * 16 + w % 16) % 1024 % 16 = w % 16 := by omega
  simp only [pack, Fin.val_ofNat, high, low]
  omega

theorem packs_like_ldl {op w : Nat} (hw : w < 2 ^ 23) (h : w / 4 % 2 = 0) : pack op [((Fin.ofNat 64 (w / 2 ^ 17)).val, 17), ((Fin.ofNat
    64 (w / 2 ^ 11)).val, 11), ((Fin.ofNat 64 (w / 32)).val, 5), ((Width.ofCode (w / 8 % 4)).code, 3), ((Fin.ofNat 4 w).val, 0)] = op *
    2 ^ 23 + w := by
  simp only [pack, Fin.val_ofNat, width_code_ofCode]
  omega

theorem packs_like_pld {op w : Nat} (hw : w < 2 ^ 23) (h : w % 64 = 0) : pack op [((Fin.ofNat 16 (w / 2 ^ 19)).val, 19), ((Fin.ofNat 16
    (w / 2 ^ 15)).val, 15), ((Fin.ofNat 64 (w / 2 ^ 9)).val, 9), ((Fin.ofNat 8 (w / 64)).val, 6)] = op * 2 ^ 23 + w := by
  simp only [pack, Fin.val_ofNat]
  omega

theorem packs_like_pldh {op w : Nat} (hw : w < 2 ^ 23) (h : w / 2 ^ 15 % 4 = 0) : pack op [((Fin.ofNat 64 (w / 2 ^ 17)).val, 17),
    ((Fin.ofNat 16 (w / 2 ^ 11)).val, 11), ((BitVec.ofNat 11 w).toNat, 0)] = op * 2 ^ 23 + w := by
  simp only [pack, Fin.val_ofNat, BitVec.toNat_ofNat]
  omega

theorem packs_like_pgather {op w : Nat} (hw : w < 2 ^ 23) (h : w / 2 % 2 ^ 7 = 0 ∧ w / 2 ^ 11 % 16 = 0) : pack op [((Fin.ofNat 16 (w / 2
    ^ 19)).val, 19), ((Fin.ofNat 16 (w / 2 ^ 15)).val, 15), ((Fin.ofNat 8 (w / 2 ^ 8)).val, 8), ((w % 2 == 1).toNat, 0)] = op * 2 ^ 23 +
    w := by
  simp only [pack, Fin.val_ofNat, toNat_beq_one]
  omega

theorem packs_like_scope {op w : Nat} (hw : w < 2 ^ 23) (h : w % 2 ^ 20 = 0) : pack op [((Fin.ofNat 8 (w / 2 ^ 20)).val, 20)] = op * 2 ^
    23 + w := by
  simp only [pack, Fin.val_ofNat]
  omega

theorem packs_like_padd {op w : Nat} (hw : w < 2 ^ 23) : pack op [((Fin.ofNat 16 (w / 2 ^ 19)).val, 19), ((Fin.ofNat 16 (w / 2 ^
    15)).val, 15), ((Fin.ofNat 16 (w / 2 ^ 11)).val, 11), ((Fin.ofNat 8 (w / 2 ^ 8)).val, 8), ((Fin.ofNat 4 (w / 64)).val, 6),
    ((Fin.ofNat 8 (w / 8)).val, 3), ((Fin.ofNat 8 w).val, 0)] = op * 2 ^ 23 + w := by
  simp only [pack, Fin.val_ofNat]
  omega

theorem packs_like_pabs {op w : Nat} (hw : w < 2 ^ 23) (h : w / 2 ^ 11 % 16 = 0) : pack op [((Fin.ofNat 16 (w / 2 ^ 19)).val, 19),
    ((Fin.ofNat 16 (w / 2 ^ 15)).val, 15), ((Fin.ofNat 8 (w / 2 ^ 8)).val, 8), ((Fin.ofNat 4 (w / 64)).val, 6), ((Fin.ofNat 8 (w /
    8)).val, 3), ((Fin.ofNat 8 w).val, 0)] = op * 2 ^ 23 + w := by
  simp only [pack, Fin.val_ofNat]
  omega

theorem packs_like_pcmp {op w : Nat} (hw : w < 2 ^ 23) (h : w / 64 % 4 = 0) : pack op [((Fin.ofNat 16 (w / 2 ^ 19)).val, 19),
    ((Fin.ofNat 16 (w / 2 ^ 15)).val, 15), ((Fin.ofNat 16 (w / 2 ^ 11)).val, 11), ((Fin.ofNat 8 (w / 2 ^ 8)).val, 8), ((Fin.ofNat 8 (w /
    8)).val, 3), ((Fin.ofNat 8 w).val, 0)] = op * 2 ^ 23 + w := by
  simp only [pack, Fin.val_ofNat]
  omega

theorem packs_like_psel {op w : Nat} (hw : w < 2 ^ 23) (h : w % 64 = 0) : pack op [((Fin.ofNat 16 (w / 2 ^ 19)).val, 19), ((Fin.ofNat 16
    (w / 2 ^ 15)).val, 15), ((Fin.ofNat 16 (w / 2 ^ 11)).val, 11), ((Fin.ofNat 8 (w / 2 ^ 8)).val, 8), ((Fin.ofNat 4 (w / 64)).val, 6)]
    = op * 2 ^ 23 + w := by
  simp only [pack, Fin.val_ofNat]
  omega

theorem packs_like_pnot {op w : Nat} (hw : w < 2 ^ 23) (h : w % 64 = 0 ∧ w / 2 ^ 11 % 16 = 0) : pack op [((Fin.ofNat 16 (w / 2 ^
    19)).val, 19), ((Fin.ofNat 16 (w / 2 ^ 15)).val, 15), ((Fin.ofNat 8 (w / 2 ^ 8)).val, 8), ((Fin.ofNat 4 (w / 64)).val, 6)] = op * 2
    ^ 23 + w := by
  simp only [pack, Fin.val_ofNat]
  omega

theorem packs_like_pbcs {op w : Nat} (hw : w < 2 ^ 23) (h : w / 2 ^ 15 % 16 = 0) : pack op [((Fin.ofNat 16 (w / 2 ^ 19)).val, 19),
    ((Fin.ofNat 64 (w / 2 ^ 9)).val, 9), ((Fin.ofNat 8 (w / 64)).val, 6), ((Fin.ofNat 8 (w / 8)).val, 3), ((Fin.ofNat 8 w).val, 0)] = op
    * 2 ^ 23 + w := by
  simp only [pack, Fin.val_ofNat]
  omega

theorem packs_like_pext {op w : Nat} (hw : w < 2 ^ 23) (h : w / 64 % 8 = 0 ∧ w / 2 ^ 19 % 16 = 0) : pack op [((Fin.ofNat 16 (w / 2 ^
    15)).val, 15), ((Fin.ofNat 64 (w / 2 ^ 9)).val, 9), ((Fin.ofNat 8 (w / 8)).val, 3), ((Fin.ofNat 8 w).val, 0)] = op * 2 ^ 23 + w :=
    by
  simp only [pack, Fin.val_ofNat]
  omega

theorem packs_like_piota {op w : Nat} (hw : w < 2 ^ 23) (h : w / 2 ^ 11 % 2 ^ 8 = 0) : pack op [((Fin.ofNat 16 (w / 2 ^ 19)).val, 19),
    ((Fin.ofNat 8 (w / 2 ^ 8)).val, 8), ((Fin.ofNat 4 (w / 64)).val, 6), ((Fin.ofNat 8 (w / 8)).val, 3), ((Fin.ofNat 8 w).val, 0)] = op
    * 2 ^ 23 + w := by
  simp only [pack, Fin.val_ofNat]
  omega

theorem packs_like_pmand {op w : Nat} (hw : w < 2 ^ 23) (h : w % 2 ^ 8 = 0) : pack op [((Fin.ofNat 16 (w / 2 ^ 19)).val, 19),
    ((Fin.ofNat 16 (w / 2 ^ 15)).val, 15), ((Fin.ofNat 16 (w / 2 ^ 11)).val, 11), ((Fin.ofNat 8 (w / 2 ^ 8)).val, 8)] = op * 2 ^ 23 + w
    := by
  simp only [pack, Fin.val_ofNat]
  omega

theorem packs_like_pmnot {op w : Nat} (hw : w < 2 ^ 23) (h : w % 2 ^ 8 = 0 ∧ w / 2 ^ 11 % 16 = 0) : pack op [((Fin.ofNat 16 (w / 2 ^
    19)).val, 19), ((Fin.ofNat 16 (w / 2 ^ 15)).val, 15), ((Fin.ofNat 8 (w / 2 ^ 8)).val, 8)] = op * 2 ^ 23 + w := by
  simp only [pack, Fin.val_ofNat]
  omega

theorem packs_like_pvote {op w : Nat} (hw : w < 2 ^ 23) (h : w / 8 % 32 = 0 ∧ w / 2 ^ 11 % 16 = 0) : pack op [((Fin.ofNat 16 (w / 2 ^
    19)).val, 19), ((Fin.ofNat 16 (w / 2 ^ 15)).val, 15), ((Fin.ofNat 8 (w / 2 ^ 8)).val, 8), ((Fin.ofNat 8 w).val, 0)] = op * 2 ^ 23 +
    w := by
  simp only [pack, Fin.val_ofNat]
  omega

theorem packs_like_pflag {op w : Nat} (hw : w < 2 ^ 23) (h : w / 8 % 32 = 0 ∧ w / 2 ^ 11 % 2 ^ 8 = 0) : pack op [((Fin.ofNat 16 (w / 2 ^
    19)).val, 19), ((Fin.ofNat 8 (w / 2 ^ 8)).val, 8), ((Fin.ofNat 8 w).val, 0)] = op * 2 ^ 23 + w := by
  simp only [pack, Fin.val_ofNat]
  omega

theorem packs_like_prng {op w : Nat} (hw : w < 2 ^ 23) (h : w / 8 % 8 = 0 ∧ w / 2 ^ 11 % 2 ^ 8 = 0) : pack op [((Fin.ofNat 16 (w / 2 ^
    19)).val, 19), ((Fin.ofNat 8 (w / 2 ^ 8)).val, 8), ((Fin.ofNat 4 (w / 64)).val, 6), ((Fin.ofNat 8 w).val, 0)] = op * 2 ^ 23 + w :=
    by
  simp only [pack, Fin.val_ofNat]
  omega

theorem packs_like_pscale {op w : Nat} (hw : w < 2 ^ 23) : pack op [((Fin.ofNat 16 (w / 2 ^ 19)).val, 19), ((Fin.ofNat 16 (w / 2 ^
    15)).val, 15), ((Fin.ofNat 64 (w / 2 ^ 9)).val, 9), ((Fin.ofNat 8 (w / 64)).val, 6), ((Fin.ofNat 8 (w / 8)).val, 3), ((Fin.ofNat 8
    w).val, 0)] = op * 2 ^ 23 + w := by
  simp only [pack, Fin.val_ofNat]
  omega

theorem packs_like_protRow {op w : Nat} (hw : w < 2 ^ 23) (h : w / 8 % 8 = 0) : pack op [((Fin.ofNat 16 (w / 2 ^ 19)).val, 19),
    ((Fin.ofNat 16 (w / 2 ^ 15)).val, 15), ((Fin.ofNat 128 ((w / 2 ^ 11 % 16) * 8 + w % 8)).val / 8, 11), ((Fin.ofNat 128 ((w / 2 ^ 11 %
    16) * 8 + w % 8)).val % 8, 0), ((Fin.ofNat 8 (w / 2 ^ 8)).val, 8), ((Fin.ofNat 4 (w / 64)).val, 6)] = op * 2 ^ 23 + w := by
  have high : (w / 2 ^ 11 % 16 * 8 + w % 8) % 128 / 8 = w / 2 ^ 11 % 16 := by omega
  have low : (w / 2 ^ 11 % 16 * 8 + w % 8) % 128 % 8 = w % 8 := by omega
  simp only [pack, Fin.val_ofNat, high, low]
  have : w / 64 = w / 8 / 8 := by omega
  have : w / 2 ^ 8 = w / 64 / 4 := by omega
  have : w / 2 ^ 15 = w / 2 ^ 11 / 16 := by omega
  have : w / 2 ^ 19 = w / 2 ^ 15 / 16 := by omega
  have : w / 2 ^ 11 = w / 2 ^ 8 / 8 := by omega
  omega

theorem packs_like_rvadd {op w : Nat} (hw : w < 2 ^ 23) (h : w / 8 % 32 = 0) : pack op [((Fin.ofNat 16 (w / 2 ^ 19)).val, 19),
    ((Fin.ofNat 16 (w / 2 ^ 15)).val, 15), ((Fin.ofNat 16 (w / 2 ^ 11)).val, 11), ((Fin.ofNat 8 (w / 2 ^ 8)).val, 8), ((Fin.ofNat 8
    w).val, 0)] = op * 2 ^ 23 + w := by
  simp only [pack, Fin.val_ofNat]
  omega

theorem packs_like_unadd {op w : Nat} (hw : w < 2 ^ 23) (h : w / 8 % 2 ^ 8 = 0) : pack op [((Fin.ofNat 16 (w / 2 ^ 19)).val, 19),
    ((Fin.ofNat 16 (w / 2 ^ 15)).val, 15), ((Fin.ofNat 16 (w / 2 ^ 11)).val, 11), ((Fin.ofNat 8 w).val, 0)] = op * 2 ^ 23 + w := by
  simp only [pack, Fin.val_ofNat]
  omega

theorem packs_like_rvnarrow {op w : Nat} (hw : w < 2 ^ 23) (h : w / 8 % 32 = 1) : pack op [(8, 0), ((Fin.ofNat 16 (w / 2 ^ 19)).val,
    19), ((Fin.ofNat 16 (w / 2 ^ 15)).val, 15), ((Fin.ofNat 16 (w / 2 ^ 11)).val, 11), ((Fin.ofNat 8 (w / 2 ^ 8)).val, 8), ((Fin.ofNat 8
    w).val, 0)] = op * 2 ^ 23 + w := by
  simp only [pack, Fin.val_ofNat]
  omega

theorem packs_like_unnarrow {op w : Nat} (hw : w < 2 ^ 23) (h : w / 8 % 2 ^ 8 = 1) : pack op [(8, 0), ((Fin.ofNat 16 (w / 2 ^ 19)).val,
    19), ((Fin.ofNat 16 (w / 2 ^ 15)).val, 15), ((Fin.ofNat 16 (w / 2 ^ 11)).val, 11), ((Fin.ofNat 8 w).val, 0)] = op * 2 ^ 23 + w := by
  simp only [pack, Fin.val_ofNat]
  omega

theorem packs_like_rvscale {op w : Nat} (hw : w < 2 ^ 23) (h : w / 8 % 8 = 0) : pack op [((Fin.ofNat 16 (w / 2 ^ 19)).val, 19),
    ((Fin.ofNat 16 (w / 2 ^ 15)).val, 15), ((Fin.ofNat 64 (w / 2 ^ 9)).val, 9), ((Fin.ofNat 8 (w / 64)).val, 6), ((Fin.ofNat 8 w).val,
    0)] = op * 2 ^ 23 + w := by
  simp only [pack, Fin.val_ofNat]
  omega

theorem packs_like_unscale {op w : Nat} (hw : w < 2 ^ 23) (h : w / 8 % 2 ^ 12 = 0) : pack op [((Fin.ofNat 16 (w / 2 ^ 19)).val, 19),
    ((Fin.ofNat 16 (w / 2 ^ 15)).val, 15), ((Fin.ofNat 8 w).val, 0)] = op * 2 ^ 23 + w := by
  simp only [pack, Fin.val_ofNat]
  omega

theorem packs_like_rvcvt {op w : Nat} (hw : w < 2 ^ 23) (h : w / 8 % 32 = 3) : pack op [(24, 0), ((Fin.ofNat 16 (w / 2 ^ 19)).val, 19),
    ((Fin.ofNat 16 (w / 2 ^ 15)).val, 15), ((Fin.ofNat 16 (w / 2 ^ 11)).val, 11), ((Fin.ofNat 8 (w / 2 ^ 8)).val, 8), ((Fin.ofNat 8
    w).val, 0)] = op * 2 ^ 23 + w := by
  simp only [pack, Fin.val_ofNat]
  omega

theorem packs_like_uncvt {op w : Nat} (hw : w < 2 ^ 23) (h : w / 8 % 2 ^ 8 = 3) : pack op [(24, 0), ((Fin.ofNat 16 (w / 2 ^ 19)).val,
    19), ((Fin.ofNat 16 (w / 2 ^ 15)).val, 15), ((Fin.ofNat 16 (w / 2 ^ 11)).val, 11), ((Fin.ofNat 8 w).val, 0)] = op * 2 ^ 23 + w := by
  simp only [pack, Fin.val_ofNat]
  omega

theorem packs_like_rvmark {op w : Nat} (hw : w < 2 ^ 23) (h : w / 8 % 64 = 0 ∧ w / 2 ^ 15 % 2 ^ 8 = 0) : pack op [((Fin.ofNat 64 (w / 2
    ^ 9)).val, 9), ((Fin.ofNat 8 w).val, 0)] = op * 2 ^ 23 + w := by
  simp only [pack, Fin.val_ofNat]
  omega

theorem packs_like_rvspill {op w : Nat} (hw : w < 2 ^ 23) (h : w / 2 % 2 ^ 8 = 0 ∧ w / 2 ^ 15 % 2 ^ 8 = 0) : pack op [((Fin.ofNat 64 (w
    / 2 ^ 9)).val, 9), ((w % 2 == 1).toNat, 0)] = op * 2 ^ 23 + w := by
  simp only [pack, Fin.val_ofNat, toNat_beq_one]
  omega

theorem packs_like_mma {op w : Nat} (hw : w < 2 ^ 23) (h : w % 8 = 0) : pack op [((Fin.ofNat 8 (w / 2 ^ 20)).val, 20), ((Fin.ofNat 16 (w
    / 2 ^ 16)).val, 16), ((Fin.ofNat 16 (w / 2 ^ 12)).val, 12), ((Fin.ofNat 32 (w / 2 ^ 7)).val, 7), ((w / 64 % 2 == 1).toNat, 6), ((w /
    32 % 2 == 1).toNat, 5), ((w / 16 % 2 == 1).toNat, 4), ((w / 8 % 2 == 1).toNat, 3)] = op * 2 ^ 23 + w := by
  simp only [pack, Fin.val_ofNat, toNat_beq_one]
  omega

theorem packs_like_mmag {op w : Nat} (hw : w < 2 ^ 23) : pack op [((Fin.ofNat 8 (w / 2 ^ 20)).val, 20), ((Fin.ofNat 16 (w / 2 ^
    16)).val, 16), ((Fin.ofNat 16 (w / 2 ^ 12)).val, 12), ((Fin.ofNat 32 (w / 2 ^ 7)).val, 7), ((Fin.ofNat 16 (w / 8)).val, 3), ((w / 4
    % 2 == 1).toNat, 2), ((w / 2 % 2 == 1).toNat, 1), ((w % 2 == 1).toNat, 0)] = op * 2 ^ 23 + w := by
  simp only [pack, Fin.val_ofNat, toNat_beq_one]
  omega

theorem packs_like_mret {op w : Nat} (hw : w < 2 ^ 23) : pack op [((Fin.ofNat 64 (w / 2 ^ 17)).val, 17), ((Fin.ofNat 64 (w / 2 ^
    11)).val, 11), ((Fin.ofNat 8 (w / 2 ^ 8)).val, 8), ((Fin.ofNat 8 (w / 32)).val, 5), ((w / 16 % 2 == 1).toNat, 4), ((w / 8 % 2 ==
    1).toNat, 3), ((Fin.ofNat 4 (w / 2)).val, 1), ((w % 2 == 1).toNat, 0)] = op * 2 ^ 23 + w := by
  simp only [pack, Fin.val_ofNat, toNat_beq_one]
  omega

theorem packs_like_mld {op w : Nat} (hw : w < 2 ^ 23) (h : w / 2 % 32 = 0) : pack op [((Fin.ofNat 64 (w / 2 ^ 17)).val, 17), ((Fin.ofNat
    64 (w / 2 ^ 11)).val, 11), ((Fin.ofNat 8 (w / 2 ^ 8)).val, 8), ((Fin.ofNat 4 (w / 64)).val, 6), ((w % 2 == 1).toNat, 0)] = op * 2 ^
    23 + w := by
  simp only [pack, Fin.val_ofNat, toNat_beq_one]
  omega

theorem packs_like_mwaitAll {op w : Nat} (hw : w < 2 ^ 23) (h : w % 2 ^ 23 = 64) : pack op [(64, 0)] = op * 2 ^ 23 + w := by simp only [pack]; omega

theorem packs_like_mprof {op w : Nat} (hw : w < 2 ^ 23) (h : w % 2 ^ 7 = 0 ∧ w / 2 ^ 12 % 2 ^ 11 = 0) : pack op [((Fin.ofNat 32 (w / 2 ^
    7)).val, 7)] = op * 2 ^ 23 + w := by
  simp only [pack, Fin.val_ofNat]
  omega

theorem packs_like_flow {op w : Nat} (hw : w < 2 ^ 23) (h : w / 2 % 2 ^ 10 = 4 ∧ w / 2 ^ 17 % 64 = 0) : pack op [(8, 0), ((Fin.ofNat 64
    (w / 2 ^ 11)).val, 11), ((Fin.ofNat 2 w).val, 0)] = op * 2 ^ 23 + w := by
  simp only [pack, Fin.val_ofNat]
  omega

theorem packs_like_fpoll {op w : Nat} (hw : w < 2 ^ 23) (h : w / 2 % 2 ^ 16 = 4) : pack op [(8, 0), ((Fin.ofNat 64 (w / 2 ^ 17)).val,
    17), ((Fin.ofNat 2 w).val, 0)] = op * 2 ^ 23 + w := by
  simp only [pack, Fin.val_ofNat]
  omega

theorem packs_like_fhalt {op w : Nat} (hw : w < 2 ^ 23) (h : w / 2 % 2 ^ 22 = 0) : pack op [((Fin.ofNat 2 w).val, 0)] = op * 2 ^ 23 + w
    := by
  simp only [pack, Fin.val_ofNat]
  omega

theorem packs_like_hdef {op w : Nat} (hw : w < 2 ^ 23) (h : w / 2 % 2 ^ 10 = 0) : pack op [((Fin.ofNat 64 (w / 2 ^ 17)).val, 17),
    ((Fin.ofNat 64 (w / 2 ^ 11)).val, 11), ((w % 2 == 1).toNat, 0)] = op * 2 ^ 23 + w := by
  simp only [pack, Fin.val_ofNat, toNat_beq_one]
  omega

theorem packs_like_hset {op w : Nat} (hw : w < 2 ^ 23) (h : w / 8 % 2 ^ 14 = 0) : pack op [((Fin.ofNat 64 (w / 2 ^ 17)).val, 17),
    ((Fin.ofNat 4 (w / 2)).val, 1), ((w % 2 == 1).toNat, 0)] = op * 2 ^ 23 + w := by
  simp only [pack, Fin.val_ofNat, toNat_beq_one]
  omega

theorem packs_like_await {op w : Nat} (hw : w < 2 ^ 23) (h : w / 4 % 2 ^ 15 = 0) : pack op [((Fin.ofNat 64 (w / 2 ^ 17)).val, 17), ((w /
    2 % 2 == 1).toNat, 1), ((w % 2 == 1).toNat, 0)] = op * 2 ^ 23 + w := by
  simp only [pack, Fin.val_ofNat, toNat_beq_one]
  omega

theorem packs_like_hrel {op w : Nat} (hw : w < 2 ^ 23) (h : w % 2 ^ 17 = 0) : pack op [((Fin.ofNat 64 (w / 2 ^ 17)).val, 17)] = op * 2 ^
    23 + w := by
  simp only [pack, Fin.val_ofNat]
  omega

theorem packs_like_wpost {op w : Nat} (hw : w < 2 ^ 23) (h : w % 32 = 8 ∧ w / 2 ^ 17 % 64 = 0) : pack op [(8, 0), ((Fin.ofNat 64 (w / 2
    ^ 11)).val, 11), ((Fin.ofNat 64 (w / 32)).val, 5)] = op * 2 ^ 23 + w := by
  simp only [pack, Fin.val_ofNat]
  omega

theorem packs_like_wpoll {op w : Nat} (hw : w < 2 ^ 23) (h : w % 2 ^ 11 = 8) : pack op [(8, 0), ((Fin.ofNat 64 (w / 2 ^ 17)).val, 17),
    ((Fin.ofNat 64 (w / 2 ^ 11)).val, 11)] = op * 2 ^ 23 + w := by
  simp only [pack, Fin.val_ofNat]
  omega

theorem packs_like_wcomm {op w : Nat} (hw : w < 2 ^ 23) (h : w / 8 % 2 ^ 8 = 0) : pack op [((Fin.ofNat 64 (w / 2 ^ 17)).val, 17),
    ((Fin.ofNat 64 (w / 2 ^ 11)).val, 11), ((Fin.ofNat 8 w).val, 0)] = op * 2 ^ 23 + w := by
  simp only [pack, Fin.val_ofNat]
  omega

theorem packs_like_wbar {op w : Nat} (hw : w < 2 ^ 23) (h : w % 2 ^ 11 = 0 ∧ w / 2 ^ 17 % 64 = 0) : pack op [((Fin.ofNat 64 (w / 2 ^
    11)).val, 11)] = op * 2 ^ 23 + w := by
  simp only [pack, Fin.val_ofNat]
  omega

theorem packs_like_atom {op w : Nat} (hw : w < 2 ^ 23) (h : w / 4 % 2 = 0) : pack op [((Fin.ofNat 64 (w / 2 ^ 17)).val, 17), ((Fin.ofNat
    64 (w / 2 ^ 11)).val, 11), ((Fin.ofNat 64 (w / 32)).val, 5), ((Width.ofCode (w / 8 % 4)).code, 3), ((w / 2 % 2 == 1).toNat, 1), ((w
    % 2 == 1).toNat, 0)] = op * 2 ^ 23 + w := by
  simp only [pack, Fin.val_ofNat, width_code_ofCode, toNat_beq_one]
  omega

theorem packs_like_cas {op w : Nat} (hw : w < 2 ^ 23) (h : w % 2 = 0 ∧ w / 4 % 2 = 0) : pack op [((Fin.ofNat 64 (w / 2 ^ 17)).val, 17),
    ((Fin.ofNat 64 (w / 2 ^ 11)).val, 11), ((Fin.ofNat 64 (w / 32)).val, 5), ((Width.ofCode (w / 8 % 4)).code, 3), ((w / 2 % 2 ==
    1).toNat, 1)] = op * 2 ^ 23 + w := by
  simp only [pack, Fin.val_ofNat, width_code_ofCode, toNat_beq_one]
  omega

theorem packs_like_oatomP {op w : Nat} (hw : w < 2 ^ 23) (h : w % 32 = 4 ∧ w / 2 ^ 15 % 4 = 0 ∧ w / 2 ^ 21 % 4 = 0) : pack op [(4, 0),
    ((Fin.ofNat 16 (w / 2 ^ 17)).val, 17), ((Fin.ofNat 16 (w / 2 ^ 11)).val, 11), ((Fin.ofNat 64 (w / 32)).val, 5)] = op * 2 ^ 23 + w :=
    by
  simp only [pack, Fin.val_ofNat]
  omega

theorem packs_like_ostep {op w : Nat} (hw : w < 2 ^ 23) (h : w % 2 ^ 11 = 0) : pack op [((Fin.ofNat 64 (w / 2 ^ 17)).val, 17),
    ((Fin.ofNat 64 (w / 2 ^ 11)).val, 11)] = op * 2 ^ 23 + w := by
  simp only [pack, Fin.val_ofNat]
  omega

theorem packs_like_trap {op w : Nat} (hw : w < 2 ^ 23) (h : w / 2 ^ 17 % 64 = 0) : pack op [((BitVec.ofNat 17 w).toNat, 0)] = op * 2 ^
    23 + w := by
  simp only [pack, BitVec.toNat_ofNat]
  omega

/-- By the opcodes in their order, a run of one form of word at a time. -/
theorem decodeOp_packs {op w : Nat} (hop : op < 256) (hw : w < 2 ^ 23) : Packs (op * 2 ^ 23 + w) (decodeOp op w) := by
  interval_cases op
  · exact .guard rfl fun h => packs_like_nop hw h
  iterate 20 exact .guard rfl fun h => packs_like_add hw h
  iterate 2 exact .guard rfl fun h => packs_like_mulh hw h
  iterate 4 exact .guard rfl fun h => packs_like_add hw h
  iterate 3 exact .guard rfl fun h => packs_like_clz hw h
  · exact .guard rfl fun h => packs_like_bext hw h
  · exact .guard rfl fun h => packs_like_add hw h
  iterate 10 exact .ok rfl (packs_like_addi hw)
  iterate 2 exact .ok rfl (packs_like_movi hw)
  · exact .guard rfl fun h => packs_like_add hw h
  · exact .ok rfl (packs_like_lea hw)
  · exact .guard rfl fun h => packs_like_clz hw h
  · exact .guard rfl fun h => packs_like_ext hw h
  iterate 4 exact .guard rfl fun h => packs_like_fadd hw h
  iterate 2 exact .guard rfl fun h => packs_like_mulh hw h
  iterate 2 exact .guard rfl fun h => packs_like_fadd hw h
  · exact .ok rfl (packs_like_movi hw)
  iterate 2 exact .ok rfl (packs_like_jmp hw)
  · exact .guard rfl fun h => packs_like_ret hw h
  · exact .ite (fun h => .ok rfl (packs_like_ret hw h)) fun _ => .guard rfl fun h => packs_like_jxl hw h
  · exact .guard rfl fun h => packs_like_loop hw h
  · exact .ok rfl (packs_like_loopi hw)
  · exact .ok rfl (packs_like_movi hw)
  iterate 4 exact .guard rfl fun h => packs_like_ldl hw h
  iterate 2 exact .guard rfl fun h => packs_like_add hw h
  · exact .guard rfl fun h => packs_like_ldl hw h
  iterate 2 exact .ok rfl (packs_like_addi hw)
  iterate 7 exact .error _
  iterate 2 exact .guard rfl fun h => packs_like_pld hw h
  iterate 2 exact .guard rfl fun h => packs_like_pldh hw h
  iterate 2 exact .guard rfl fun h => packs_like_pld hw h
  iterate 2 exact .guard rfl fun h => packs_like_pgather hw h
  · exact .guard rfl fun h => packs_like_scope hw h
  · exact .ok rfl (packs_like_jmp hw)
  iterate 6 exact .error _
  iterate 7 exact .ok rfl (packs_like_padd hw)
  iterate 2 exact .guard rfl fun h => packs_like_pabs hw h
  · exact .guard rfl fun h => packs_like_pcmp hw h
  · exact .guard rfl fun h => packs_like_psel hw h
  · exact .ok rfl (packs_like_padd hw)
  iterate 3 exact .guard rfl fun h => packs_like_psel hw h
  · exact .guard rfl fun h => packs_like_pnot hw h
  iterate 3 exact .ok rfl (packs_like_padd hw)
  · exact .guard rfl fun h => packs_like_pnot hw h
  iterate 2 exact .guard rfl fun h => packs_like_pbcs hw h
  · exact .guard rfl fun h => packs_like_pext hw h
  · exact .guard rfl fun h => packs_like_piota hw h
  iterate 3 exact .guard rfl fun h => packs_like_pmand hw h
  · exact .guard rfl fun h => packs_like_pmnot hw h
  · exact .guard rfl fun h => packs_like_pvote hw h
  · exact .guard rfl fun h => packs_like_pflag hw h
  · exact .guard rfl fun h => packs_like_prng hw h
  · exact .ok rfl (packs_like_pscale hw)
  · exact .ok rfl (packs_like_padd hw)
  iterate 2 exact .ok rfl (packs_like_pscale hw)
  · exact .ok rfl (packs_like_padd hw)
  · exact .guard rfl fun h => packs_like_pabs hw h
  · exact .ok rfl (packs_like_pscale hw)
  · exact .ok rfl (packs_like_padd hw)
  iterate 9 exact .error _
  iterate 4 exact .guard rfl fun h => packs_like_protRow hw h
  iterate 5 exact .guard rfl fun h => packs_like_pabs hw h
  · exact .ok rfl (packs_like_padd hw)
  · exact .guard rfl fun h => packs_like_pabs hw h
  · exact .error _
  · exact .guard rfl fun h => packs_like_pmand hw h
  iterate 2 exact .guard rfl fun h => packs_like_pmnot hw h
  · exact .error _
  · exact .guard rfl fun h => packs_like_rvadd hw h
  · exact .guard rfl fun h => packs_like_unadd hw h
  · exact .guard rfl fun h => packs_like_rvadd hw h
  · exact .guard rfl fun h => packs_like_unadd hw h
  · exact .guard rfl fun h => packs_like_rvnarrow hw h
  · exact .guard rfl fun h => packs_like_unnarrow hw h
  · exact .guard rfl fun h => packs_like_rvscale hw h
  · exact .guard rfl fun h => packs_like_unscale hw h
  · exact .guard rfl fun h => packs_like_rvadd hw h
  · exact .guard rfl fun h => packs_like_unscale hw h
  · exact .guard rfl fun h => packs_like_rvcvt hw h
  · exact .guard rfl fun h => packs_like_uncvt hw h
  iterate 2 exact .guard rfl fun h => packs_like_rvmark hw h
  · exact .guard rfl fun h => packs_like_rvspill hw h
  · exact .guard rfl fun h => packs_like_rvmark hw h
  iterate 2 exact .ok rfl (packs_like_addi hw)
  · exact .guard rfl fun h => packs_like_mma hw h
  · exact .ok rfl (packs_like_mmag hw)
  · exact .ok rfl (packs_like_mret hw)
  · exact .guard rfl fun h => packs_like_scope hw h
  · exact .guard rfl fun h => packs_like_mld hw h
  · exact .ite (fun h => .ok rfl (packs_like_scope hw h)) fun _ => .guard rfl fun h => packs_like_mwaitAll hw h
  · exact .guard rfl fun h => packs_like_mprof hw h
  iterate 7 exact .error _
  · exact .guard rfl fun h => packs_like_flow hw h
  · exact .guard rfl fun h => packs_like_fpoll hw h
  · exact .guard rfl fun h => packs_like_fhalt hw h
  · exact .guard rfl fun h => packs_like_hdef hw h
  · exact .guard rfl fun h => packs_like_hset hw h
  · exact .guard rfl fun h => packs_like_await hw h
  iterate 2 exact .guard rfl fun h => packs_like_hrel hw h
  · exact .guard rfl fun h => packs_like_wpost hw h
  · exact .guard rfl fun h => packs_like_wpoll hw h
  · exact .guard rfl fun h => packs_like_wcomm hw h
  · exact .guard rfl fun h => packs_like_wbar hw h
  iterate 4 exact .error _
  · exact .guard rfl fun h => packs_like_scope hw h
  · exact .guard rfl fun h => packs_like_nop hw h
  · exact .guard rfl fun h => packs_like_atom hw h
  · exact .guard rfl fun h => packs_like_cas hw h
  · exact .ite (fun h => .ok rfl (packs_like_cas hw h)) fun _ => .guard rfl fun h => packs_like_oatomP hw h
  · exact .guard rfl fun h => packs_like_scope hw h
  · exact .guard rfl fun h => packs_like_ostep hw h
  · exact .guard rfl fun h => packs_like_wbar hw h
  iterate 8 exact .error _
  · exact .guard rfl fun h => packs_like_trap hw h
  · exact .guard rfl fun h => packs_like_mulh hw h
  iterate 2 exact .guard rfl fun h => packs_like_nop hw h
  iterate 2 exact .ok rfl (packs_like_movi hw)
  · exact .guard rfl fun h => packs_like_trap hw h
  · exact .guard rfl fun h => packs_like_nop hw h
  · exact .ok rfl (packs_like_movi hw)
  iterate 23 exact .error _

/-- R143: the low 31 bits of a word are its opcode and its fields. -/
theorem opcode_fields (w : BitVec 32) :
    BitVec.ofNat 32 (w.toNat / 2 ^ 23 % 256 * 2 ^ 23 + w.toNat % 2 ^ 23) = w &&& 0x7FFFFFFF := by
  apply BitVec.eq_of_toNat_eq
  have mask : (w &&& 0x7FFFFFFF).toNat = w.toNat % 2 ^ 31 := by
    rw [BitVec.toNat_and, ← Nat.and_two_pow_sub_one_eq_mod]; rfl
  rw [mask, BitVec.toNat_ofNat]
  omega

end Sys2Proof

namespace Sys2Proof.Claims
open Sys2Proof.Machine

/-- Settles O2: each instruction's fields are read back from where its layout packs them. -/
theorem encodedInstructionDecodes : Obligations.EncodedInstructionDecodes := by
  intro i w wf he
  obtain ⟨n, hn, rfl⟩ := Option.map_eq_some_iff.1 he
  obtain ⟨small, decodes⟩ := encodeNat_decodes i n hn
  have toNat : (BitVec.ofNat 32 n).toNat = n := Nat.mod_eq_of_lt (by omega)
  have opcode : n / 2 ^ 23 % 256 = n / 2 ^ 23 := Nat.mod_eq_of_lt (by omega)
  simp only [decodeWord, toNat, opcode, decodes, wf, if_true]

/-- Settles O3: what the decoder reads of each layout packs to the fields that were read. -/
theorem decodedWordEncodes : Obligations.DecodedWordEncodes := by
  intro i w hd
  have packs := decodeOp_packs (Nat.mod_lt (w.toNat / 2 ^ 23) (by decide : 256 > 0)) (Nat.mod_lt w.toNat (by decide : 2 ^ 23 > 0))
  rw [← opcode_fields, encode]
  unfold decodeWord at hd
  split at hd
  · next j hj =>
    split at hd
    · cases hd
      rw [packs i hj, Option.map_some]
    · cases hd
  · cases hd

end Sys2Proof.Claims
end

section
/-! What every word and every event of the instruction set has in common: the checks of a word at issue (R147, R185, R186, R189), and
the outcome of an instruction. -/

namespace Sys2Proof.Machine

/-! ### The outcome of an instruction -/

/-- No path of an instruction stops the machine. -/
theorem exec_next (i : Instr) (s : State) : ∃ t, exec i s = .next t := by cases i <;> exact ⟨_, rfl⟩

/-- An event is a move of the device. -/
theorem exec_event_mark {i : Instr} {s t : State} (event : encode i = none) (h : exec i s = .next t) : t.mark = .ok := by
  cases i <;> cases event <;> cases h <;> rfl

/-- A word has a meaning behind the checks that every word passes. -/
theorem exec_word {i : Instr} (word : (encode i).isSome = true) : ∃ f, ∀ s, exec i s = s.word i f := by
  cases i <;> cases word <;> exact ⟨_, fun _ => rfl⟩

/-! ### The checks of a word -/

/-- R147, R154: the form of a word is one that its launch accepts. -/
def State.formOk (s : State) (i : Instr) : Prop := i.wf = true ∧ resourceOk (s.job s.turn) i = true ∧ extOk i s.bun.ext = true

/-- R147, R189: a word waits for its core, or for a busy register. -/
def State.waits (s : State) (i : Instr) : Prop := s.prior.mode ≠ .running ∨ ∃ r ∈ waitsOn i, s.prior.busy r = true

/-- R189: a word that waits. -/
theorem State.gate_waits {s : State} {i : Instr} (h : s.waits i) : s.gate i = .error .stall := by
  unfold State.gate
  rcases h with mode | ⟨r, hr, busy⟩
  · simp only [bne_iff_ne.2 mode, if_true, stalled]
  · have any : (waitsOn i).any s.prior.busy = true := List.any_eq_true.2 ⟨r, hr, busy⟩
    simp only [any, if_true, stalled, ite_self]

/-- R189: a word that does not wait. -/
theorem State.not_waits_iff {s : State} {i : Instr} :
    ¬ s.waits i ↔ s.prior.mode = .running ∧ ∀ r ∈ waitsOn i, s.prior.busy r = false := by
  simp only [State.waits, not_or, not_not, not_exists, not_and, Bool.not_eq_true]

/-- R147, R154: what the checks of a word that does not wait come to, by its form. -/
theorem State.gate_ready {s : State} {i : Instr} (h : ¬ s.waits i) :
    (s.formOk i → s.gate i = s.claimUnit i) ∧ (¬ s.formOk i → s.gate i = ienc) := by
  obtain ⟨mode, idle⟩ := State.not_waits_iff.1 h
  have any : (waitsOn i).any s.prior.busy = false := List.any_eq_false.2 fun r hr => Bool.eq_false_iff.1 (idle r hr)
  have form : (!legal i || !resourceOk (s.job s.turn) i || !extOk i s.bun.ext) = true ↔ ¬ s.formOk i := by
    simp only [State.formOk, Instr.wf, not_and_or, Bool.or_eq_true, Bool.not_eq_true', Bool.not_eq_true, or_assoc]
  unfold State.gate
  simp only [mode, any, bne_self_eq_false, Bool.false_eq_true, if_false]
  exact ⟨fun f => if_neg (form.not.2 (not_not.2 f)), fun f => if_pos (form.2 f)⟩

/-- R147, R154: a word that passes its checks claims its unit. -/
theorem State.gate_ok_iff {s t : State} {i : Instr} : s.gate i = .ok t ↔ ¬ s.waits i ∧ s.formOk i ∧ s.claimUnit i = .ok t := by
  by_cases w : s.waits i
  · simp [State.gate_waits w, w]
  · by_cases f : s.formOk i
    · simp [(State.gate_ready w).1 f, w, f]
    · simp [(State.gate_ready w).2 f, f, ienc, trapped]

/-- R186: the instances of a unit are numbered in rising order. -/
theorem unitIds_rising (u : UnitKind) : (unitIds u).Pairwise (· < ·) := by cases u <;> decide

/-- The first element that holds, of a list in rising order, is the least one. -/
theorem find?_rising {l : List Nat} {p : Nat → Bool} {j : Nat} (rising : l.Pairwise (· < ·)) :
    l.find? p = some j ↔ j ∈ l ∧ p j = true ∧ ∀ i ∈ l, p i = true → j ≤ i := by
  have least {j : Nat} (h : l.find? p = some j) : ∀ i ∈ l, p i = true → j ≤ i := fun i hi pi => by
    obtain ⟨-, pre, post, rfl, before⟩ := List.find?_eq_some_iff_append.1 h
    rcases List.mem_append.1 hi with hi | hi
    · exact absurd pi (by simpa using before i hi)
    · rcases List.mem_cons.1 hi with rfl | hi
      · exact le_rfl
      · exact ((List.pairwise_cons.1 (List.pairwise_append.1 rising).2.1).1 i hi).le
  refine ⟨fun h => ⟨List.mem_of_find?_eq_some h, List.find?_some h, least h⟩, fun ⟨hj, pj, hl⟩ => ?_⟩
  obtain ⟨i, hi⟩ := Option.isSome_iff_exists.1 (List.find?_isSome.2 ⟨j, hj, pj⟩)
  rw [hi, le_antisymm (least hi j hj pj) (hl i (List.mem_of_find?_eq_some hi) (List.find?_some hi))]

/-- R186: a word without a unit, or with one, of which it takes the lowest-numbered one that is free. -/
theorem State.claimUnit_ok_iff {s t : State} {i : Instr} : s.claimUnit i = .ok t ↔
    (unitOf i = none ∧ t = s) ∨
      ∃ u n j, unitOf i = some (u, n) ∧ j ∈ unitIds u ∧ Map.get 0 s.cur.units j ≤ s.cur.sched ∧
        (∀ k ∈ unitIds u, Map.get 0 s.cur.units k ≤ s.cur.sched → j ≤ k) ∧
        t = s.setCur { s.cur with units := Map.put s.cur.units j (s.cur.sched + n) } := by
  unfold State.claimUnit
  cases hu : unitOf i with
  | none => simp [eq_comm]
  | some un =>
    obtain ⟨u, n⟩ := un
    have lowest (j : Nat) := find?_rising (p := fun i => Map.get 0 s.cur.units i ≤ s.cur.sched) (j := j) (unitIds_rising u)
    simp only [decide_eq_true_eq] at lowest
    simp only [Core.takeUnit, reduceCtorEq, false_and, false_or, Option.some.injEq, Prod.mk.injEq]
    constructor
    · intro h
      split at h
      · next k hk =>
        split at hk
        · next j hj =>
          obtain ⟨hm, hf, hl⟩ := (lowest j).1 hj
          cases hk; cases h
          exact ⟨u, n, j, ⟨rfl, rfl⟩, hm, hf, hl, rfl⟩
        · cases hk
      · cases h
    · rintro ⟨_, _, j, ⟨rfl, rfl⟩, hm, hf, hl, rfl⟩
      rw [(lowest j).2 ⟨hm, hf, hl⟩]

/-- R186, R187: a word whose unit has none free. -/
theorem State.claimUnit_full {s : State} {i : Instr} {u : UnitKind} {n : Nat} (hu : unitOf i = some (u, n))
    (full : ∀ j ∈ unitIds u, s.cur.sched < Map.get 0 s.cur.units j) : s.claimUnit i = isch := by
  have none : (unitIds u).find? (fun j => Map.get 0 s.cur.units j ≤ s.cur.sched) = none :=
    List.find?_eq_none.2 fun j hj => by simpa using full j hj
  simp only [State.claimUnit, hu, Core.takeUnit, none]

/-- R186, R187: a claim of a unit that fails raises a fault. -/
theorem State.claimUnit_error {s : State} {i : Instr} {e : Stop} (h : s.claimUnit i = .error e) : ∃ x, e = .trap x := by
  unfold State.claimUnit at h
  split at h
  · cases h
  · split at h
    · cases h
    · cases h; exact ⟨_, rfl⟩

/-- R185: when a result collides with one of an earlier bundle. -/
theorem Core.collides_iff {k : Core} {due : Nat} {l : Landing} : k.collides due l = true ↔
    ∃ r, l.dest = some r ∧ ∃ f ∈ k.inflight, f.due = due ∧ f.at_ ≠ k.sched ∧ f.what.dest = some r := by
  cases h : l.dest <;> simp [Core.collides, h, and_assoc]

end Sys2Proof.Machine

namespace Sys2Proof.Claims
open Sys2Proof.Machine

/-- Settles O4: the checks as a conjunction, and the outcomes of those that fail, for every word at once. -/
theorem checksBeforeAWord : Obligations.ChecksBeforeAWord := by
  refine ⟨?passes, ?fails, ?kinds, ?collides, fun _ _ _ _ _ _ _ _ _ _ _ => ⟨rfl, rfl, rfl, rfl, rfl⟩⟩
  case passes =>
    intro s t i
    rw [State.gate_ok_iff, State.not_waits_iff, State.claimUnit_ok_iff]
    simp only [State.formOk, and_assoc]
  case fails =>
    intro i s word
    obtain ⟨f, hf⟩ := exec_word word
    refine ⟨fun h => ?_, fun x h => ?_, fun e h => ?_⟩
    · rw [hf, State.word, State.attempt, h]; rfl
    · rw [hf, State.word]
      rcases State.attempt_error (f := f) h with ha | ⟨d, ha⟩ | ha
      · exact .inr (.inl (by rw [ha]; rfl))
      · exact .inr (.inr ⟨d, by rw [ha]; rfl⟩)
      · exact .inl (by rw [ha]; rfl)
    · rcases State.gate_cases s i with hg | hg | hg
      · rw [hg] at h; cases h; exact .inl rfl
      · rw [hg] at h; cases h; exact .inr ⟨_, rfl⟩
      · exact .inr (State.claimUnit_error (hg.symm.trans h))
  case kinds =>
    intro s i waits formOk
    refine ⟨fun h => State.gate_waits h, fun hw hf => (State.gate_ready hw).2 hf, fun hw hf u n hu full => ?_⟩
    exact ((State.gate_ready hw).1 hf).trans (State.claimUnit_full hu full)
  case collides =>
    intro s lat ls
    simp only [State.clear, List.all_eq_false, Bool.not_eq_true, Bool.not_eq_false', Core.collides_iff]

/-- Settles O5: each arm of `exec` answers a state. -/
theorem everyInstructionAnswers : Obligations.EveryInstructionAnswers := fun i s =>
  have ⟨t, ht⟩ := exec_next i s
  ⟨t, ht, fun event => exec_event_mark event ht⟩

end Sys2Proof.Claims
end

section
/-! The scalar integer words (R196-R204): the model's operations on natural readings are those of `BitVec`. -/

namespace Sys2Proof.Machine

/-! ### The registers of a word -/

/-- R160: words joined stay below their width. -/
theorem joinWords_lt (ws : List Word) : joinWords ws < 2 ^ (32 * ws.length) := by
  induction ws with
  | nil => simp [joinWords]
  | cons w ws ih =>
    have hw := w.isLt
    rw [joinWords, List.length_cons, Nat.mul_succ, Nat.add_comm _ 32, Nat.pow_add]
    calc w.toNat + 2 ^ 32 * joinWords ws < 2 ^ 32 + 2 ^ 32 * joinWords ws := by omega
      _ = 2 ^ 32 * (joinWords ws + 1) := by ring
      _ ≤ 2 ^ 32 * 2 ^ (32 * ws.length) := Nat.mul_le_mul_left _ ih

/-- R160, R196: the value of a source as a pattern of its width. -/
theorem val_toNat (w : Width) (k : Core) (r : Nat) : (Claims.val w k r).toNat = k.rdW w r := by
  rw [Claims.val, BitVec.toNat_ofNat]
  refine Nat.mod_eq_of_lt ?_
  simpa [Core.rdW, bitsOf] using joinWords_lt ((List.range w.regs).map fun i => k.rd (r + i))

/-- R160: a single source. -/
theorem rdW_single (k : Core) (r : Nat) : k.rdW .s r = (k.rd r).toNat := by
  simp [Core.rdW, Width.regs, joinWords]

/-- R196: a width has bits. -/
theorem bitsOf_pos (w : Width) : 0 < bitsOf w := by cases w <;> decide

/-! ### Operations as those of `BitVec` -/

section
variable {n : Nat} (x y : BitVec n)

theorem cpl_toNat : cpl n y.toNat = (~~~y).toNat := by
  rw [cpl, low, Nat.mod_eq_of_lt y.isLt, BitVec.toNat_not]

theorem low_add : low n (x.toNat + y.toNat) = (x + y).toNat := (BitVec.toNat_add x y).symm

theorem low_sub : low n (x.toNat + 2 ^ n - y.toNat) = (x - y).toNat := by
  have := y.isLt
  rw [BitVec.toNat_sub, low]
  congr 1
  omega

theorem low_mul : low n (x.toNat * y.toNat) = (x * y).toNat := (BitVec.toNat_mul x y).symm

theorem low_madd (z : BitVec n) : low n (z.toNat + x.toNat * y.toNat) = (z + x * y).toNat := by
  rw [BitVec.toNat_add, BitVec.toNat_mul, Nat.add_mod_mod, low]

theorem low_shl (k : Nat) : low n (x.toNat * 2 ^ k) = (x <<< k).toNat := by
  rw [BitVec.toNat_shiftLeft, Nat.shiftLeft_eq, low]

theorem shr_toNat (k : Nat) : x.toNat / 2 ^ k = (x >>> k).toNat := by
  rw [BitVec.toNat_ushiftRight, Nat.shiftRight_eq_div_pow]

theorem sxt_toInt : sxt n x.toNat = x.toInt := sxt_toNat x

theorem sarN_toNat (b : Nat) : sarN n x.toNat b = (x.sshiftRight (b % n)).toNat := by
  rw [sarN, sxt_toNat, wrap_eq_toNat, BitVec.sshiftRight, Int.shiftRight_eq_div_pow]

theorem rotlN_toNat (hn : 0 < n) (b : Nat) : rotlN n x.toNat b = (x.rotateLeft (b % n)).toNat := by
  have hk : b % n < n := Nat.mod_lt _ hn
  rw [BitVec.toNat_rotateLeft, Nat.mod_mod, rotlN, low, low, Nat.mod_eq_of_lt x.isLt]
  generalize b % n = k at hk
  have split : 2 ^ n = 2 ^ (n - k) * 2 ^ k := by rw [← Nat.pow_add, Nat.sub_add_cancel hk.le]
  have above : x.toNat * 2 ^ k % 2 ^ n = (x.toNat % 2 ^ (n - k)) <<< k := by rw [split, Nat.mul_mod_mul_right, Nat.shiftLeft_eq]
  have below : x.toNat / 2 ^ (n - k) < 2 ^ k := Nat.div_lt_of_lt_mul (split ▸ x.isLt)
  rw [above, Nat.shiftLeft_add_eq_or_of_lt below, ← above, ← Nat.shiftLeft_eq, Nat.shiftRight_eq_div_pow]

theorem min_signed : (if sxt n x.toNat ≤ sxt n y.toNat then x.toNat else y.toNat) = (if x.sle y then x else y).toNat := by
  simp only [sxt_toNat, BitVec.sle, decide_eq_true_eq, apply_ite BitVec.toNat]

theorem max_signed : (if sxt n x.toNat ≤ sxt n y.toNat then y.toNat else x.toNat) = (if x.sle y then y else x).toNat := by
  simp only [sxt_toNat, BitVec.sle, decide_eq_true_eq, apply_ite BitVec.toNat]

theorem min_natural : min x.toNat y.toNat = (if x ≤ y then x else y).toNat := by
  rw [Nat.min_def, apply_ite BitVec.toNat]; rfl

theorem max_natural : max x.toNat y.toNat = (if x ≤ y then y else x).toNat := by
  rw [Nat.max_def, apply_ite BitVec.toNat]; rfl

end

/-- R197: a truth value. -/
theorem b2n_eq {p q : Prop} [Decidable p] [Decidable q] (h : p ↔ q) : b2n (decide p) = Claims.truth q := by
  by_cases hp : p
  · simp [b2n, Claims.truth, hp, h.1 hp]
  · simp [b2n, Claims.truth, hp, mt h.2 hp]

/-! ### Products (R198) -/

theorem mulh_toNat (x y : Word) :
    wrap 32 (x.toInt * y.toInt / ((2 ^ 32 : Nat) : Int)) = ((x.signExtend 64 * y.signExtend 64).extractLsb' 32 32).toNat := by
  have product : x.signExtend 64 * y.signExtend 64 = BitVec.ofInt 64 (x.toInt * y.toInt) := by
    rw [BitVec.ofInt_mul]; rfl
  rw [product, BitVec.extractLsb'_toNat, BitVec.toNat_ofInt, Nat.shiftRight_eq_div_pow, wrap]
  omega

theorem mulhn_toNat (x y : Word) :
    x.toNat * y.toNat / 2 ^ 32 = ((x.zeroExtend 64 * y.zeroExtend 64).extractLsb' 32 32).toNat := by
  have bound : x.toNat * y.toNat < 2 ^ 32 * 2 ^ 32 := Nat.mul_lt_mul'' x.isLt y.isLt
  rw [BitVec.extractLsb'_toNat, BitVec.toNat_mul, BitVec.toNat_setWidth, BitVec.toNat_setWidth, ← Nat.mul_mod,
    Nat.shiftRight_eq_div_pow]
  omega

/-! ### Bits (R200) -/

theorem popcN_eq (n x : Nat) : popcN n x = ((List.range n).filter x.testBit).length := by
  induction n generalizing x with
  | zero => rfl
  | succ n ih =>
    have shifted : x.testBit ∘ Nat.succ = (x / 2).testBit := funext fun i => Nat.testBit_succ x i
    rw [popcN, ih, List.range_succ_eq_map, List.filter_cons, List.filter_map, shifted, Nat.testBit_zero]
    rcases Nat.mod_two_eq_zero_or_one x with h | h <;> simp [h, Nat.add_comm]

theorem bitLen_le (n x : Nat) : bitLen n x ≤ n := by
  induction n with
  | zero => exact le_rfl
  | succ n ih => rw [bitLen]; split <;> omega

/-- R200: the places at or below the highest one bit. -/
theorem lt_bitLen_iff (n x j : Nat) : j < bitLen n x ↔ ∃ i < n, j ≤ i ∧ x.testBit i = true := by
  induction n with
  | zero => simp [bitLen]
  | succ n ih =>
    have top : x / 2 ^ n % 2 = 1 ↔ x.testBit n = true := by simp [Nat.testBit_eq_decide_div_mod_eq]
    rw [bitLen]
    split
    · next h =>
      refine ⟨fun hj => ⟨n, n.lt_succ_self, Nat.le_of_lt_succ hj, top.1 h⟩, fun ⟨i, hi, hji, _⟩ => by omega⟩
    · next h =>
      rw [ih]
      refine ⟨fun ⟨i, hi, hr⟩ => ⟨i, by omega, hr⟩, fun ⟨i, hi, hji, hb⟩ => ⟨i, ?_, hji, hb⟩⟩
      rcases Nat.lt_succ_iff_lt_or_eq.1 hi with hi | rfl
      · exact hi
      · exact absurd (top.2 hb) h

theorem length_filter_lt (n m : Nat) (h : m ≤ n) : ((List.range n).filter fun j => j < m).length = m := by
  obtain ⟨k, rfl⟩ := Nat.exists_eq_add_of_le h
  rw [List.range_add, List.filter_append, List.filter_eq_self.2 (by simp), List.filter_eq_nil_iff.2 (by simp)]
  simp

theorem clzN_eq {n : Nat} (x : BitVec n) :
    clzN n x.toNat = n - ((List.range n).filter fun j => (List.range n).any fun i => j ≤ i && x.getLsbD i).length := by
  have covered : (fun j => (List.range n).any fun i => decide (j ≤ i) && x.getLsbD i) = fun j => decide (j < bitLen n x.toNat) := by
    funext j
    rw [Bool.eq_iff_iff]
    simp [lt_bitLen_iff, BitVec.getLsbD]
  rw [covered, length_filter_lt _ _ (bitLen_le _ _), clzN]

theorem brevN_lt (n x : Nat) : brevN n x < 2 ^ n := by
  induction n generalizing x with
  | zero => exact Nat.one_pos
  | succ n ih =>
    have := ih (x / 2)
    rcases Nat.mod_two_eq_zero_or_one x with h | h <;> rw [brevN, h, Nat.pow_succ] <;> omega

theorem testBit_brevN (n x i : Nat) : (brevN n x).testBit i = (decide (i < n) && x.testBit (n - 1 - i)) := by
  induction n generalizing x with
  | zero => simp [brevN]
  | succ n ih =>
    rw [brevN, Nat.mul_comm, Nat.testBit_two_pow_mul_add _ (brevN_lt n _), ih]
    by_cases hi : i < n
    · have : n + 1 - 1 - i = n - 1 - i + 1 := by omega
      rw [if_pos hi, this, Nat.testBit_succ]
      simp [hi, Nat.lt_succ_of_lt hi]
    · rw [if_neg hi]
      by_cases hn : i = n
      · subst hn
        simp [Nat.testBit_zero]
      · obtain ⟨k, hk⟩ := Nat.exists_eq_add_of_lt (show n < i by omega)
        simp [hk, Nat.add_assoc, Nat.testBit_succ]

theorem brevN_toNat {n : Nat} (x : BitVec n) : brevN n x.toNat = x.reverse.toNat := by
  refine Nat.eq_of_testBit_eq fun i => ?_
  rw [testBit_brevN]
  show _ = x.reverse.getLsbD i
  rw [BitVec.getLsbD_reverse, BitVec.getMsbD_eq_getLsbD]
  rfl

/-! ### Fields (R201) -/

theorem fieldBits_le (n b : Nat) : fieldBits n b ≤ n := (Nat.min_le_right _ _).trans (Nat.sub_le _ _)

theorem bextN_toNat {n : Nat} (x : BitVec n) (b : Nat) (sx : Bool) :
    let f := x.extractLsb' (fieldPos b) (fieldBits n b)
    bextN n x.toNat b sx = (if sx then f.signExtend n else f.zeroExtend n).toNat := by
  intro f
  have field : x.toNat / 2 ^ fieldPos b % 2 ^ fieldBits n b = f.toNat := by
    rw [BitVec.extractLsb'_toNat, Nat.shiftRight_eq_div_pow]
  have fits : f.toNat < 2 ^ n := f.isLt.trans_le (Nat.pow_le_pow_right (by decide) (fieldBits_le n b))
  have sign : (decide (0 < fieldBits n b) && f.toNat.testBit (fieldBits n b - 1)) = f.msb := by
    rw [BitVec.msb_eq_getLsbD_last]
    by_cases hk : 0 < fieldBits n b
    · simp [hk, BitVec.getLsbD]
    · have : fieldBits n b = 0 := by omega
      simp [BitVec.getLsbD_of_ge, this]
  rw [bextN]
  simp only [field, Bool.and_assoc, sign]
  cases sx with
  | false => simp [Nat.mod_eq_of_lt fits]
  | true =>
    rw [if_pos rfl, BitVec.signExtend, ← wrap_eq_toNat, BitVec.toInt_eq_msb_cond]
    cases f.msb with
    | true => simp
    | false =>
      simp only [Bool.and_false, Bool.false_eq_true, if_false]
      rw [wrap_eq_toNat, BitVec.ofInt_natCast, BitVec.toNat_ofNat, Nat.mod_eq_of_lt fits]

theorem binsN_toNat {n : Nat} (z x : BitVec n) (b : Nat) :
    let m := BitVec.ofNat n (2 ^ fieldBits n b - 1)
    binsN n z.toNat x.toNat b = ((z &&& ~~~(m <<< fieldPos b)) ||| ((x &&& m) <<< fieldPos b)).toNat := by
  intro m
  have inside : fieldBits n b = 0 ∨ fieldPos b + fieldBits n b ≤ n := by unfold fieldBits; omega
  refine Nat.eq_of_testBit_eq fun i => ?_
  have mask (j : Nat) : m.getLsbD j = (decide (j < n) && decide (j < fieldBits n b)) := by
    rw [BitVec.getLsbD_ofNat, Nat.testBit_two_pow_sub_one]
  rw [binsN]
  generalize fieldBits n b = k at *
  generalize fieldPos b = p at *
  have low_lt : x.toNat % 2 ^ k * 2 ^ p + z.toNat % 2 ^ p < 2 ^ (p + k) := by
    have h1 := Nat.mod_lt x.toNat (Nat.two_pow_pos k)
    have h2 := Nat.mod_lt z.toNat (Nat.two_pow_pos p)
    rw [Nat.pow_add]
    calc _ < x.toNat % 2 ^ k * 2 ^ p + 2 ^ p := by omega
      _ = (x.toNat % 2 ^ k + 1) * 2 ^ p := by ring
      _ ≤ 2 ^ k * 2 ^ p := Nat.mul_le_mul_right _ h1
      _ = 2 ^ p * 2 ^ k := Nat.mul_comm _ _
  have parts : z.toNat % 2 ^ p + x.toNat % 2 ^ k * 2 ^ p + z.toNat / 2 ^ (p + k) * 2 ^ (p + k) =
      2 ^ (p + k) * (z.toNat / 2 ^ (p + k)) + (2 ^ p * (x.toNat % 2 ^ k) + z.toNat % 2 ^ p) := by ring
  rw [parts, Nat.testBit_two_pow_mul_add _ (by rwa [Nat.mul_comm (2 ^ p)]),
    Nat.testBit_two_pow_mul_add _ (Nat.mod_lt _ (Nat.two_pow_pos p))]
  show _ = BitVec.getLsbD _ i
  simp only [BitVec.getLsbD_or, BitVec.getLsbD_and, BitVec.getLsbD_not, BitVec.getLsbD_shiftLeft, mask,
    Nat.testBit_mod_two_pow, Nat.testBit_div_two_pow]
  have top : z.toNat.testBit i = true → i < n := BitVec.lt_of_getLsbD
  by_cases hp : i < p
  · simpa [hp, show i < p + k by omega, BitVec.getLsbD] using top
  by_cases hk : i < p + k
  · simp [hp, hk, show i - p < k by omega, show i < n by omega, show i - p < n by omega, BitVec.getLsbD]
  · simpa [hp, hk, show ¬ i - p < k by omega, show i - (p + k) + (p + k) = i by omega, BitVec.getLsbD] using top

/-! ### Addresses, extensions and immediates (R152, R202-R204) -/

theorem lea_toNat {n : Nat} (x : BitVec n) (y : Word) (nat : Bool) (s : Nat) :
    wrap n ((x.toNat : Int) + (if nat then (y.toNat : Int) else y.toInt) * ((2 ^ s : Nat) : Int)) =
      (x + ((if nat then y.zeroExtend n else y.signExtend n) <<< s)).toNat := by
  have ext : BitVec.ofInt n (if nat then (y.toNat : Int) else y.toInt) = if nat then y.zeroExtend n else y.signExtend n := by
    cases nat
    · rfl
    · simp [BitVec.ofInt_natCast]
  have pow : BitVec.ofNat n (2 ^ s) = BitVec.twoPow n s := BitVec.eq_of_toNat_eq (by rw [BitVec.toNat_ofNat, BitVec.toNat_twoPow])
  rw [wrap_eq_toNat, BitVec.ofInt_add, BitVec.ofInt_mul, ext, BitVec.ofInt_natCast, BitVec.ofInt_natCast, pow,
    BitVec.shiftLeft_eq_mul_twoPow, BitVec.ofNat_toNat, BitVec.setWidth_eq]

theorem extN_toNat (x : Word) :
    extN x.toNat 0 = ((x.extractLsb' 0 8).signExtend 32).toNat ∧ extN x.toNat 1 = ((x.extractLsb' 0 16).signExtend 32).toNat ∧
    extN x.toNat 2 = ((x.extractLsb' 0 8).zeroExtend 32).toNat ∧ extN x.toNat 3 = ((x.extractLsb' 0 16).zeroExtend 32).toNat ∧
    extN x.toNat 4 = (x.signExtend 64).toNat ∧ extN x.toNat 5 = (x.zeroExtend 64).toNat := by
  have low_eq (n : Nat) : BitVec.ofNat n x.toNat = x.extractLsb' 0 n := by
    apply BitVec.eq_of_toNat_eq; simp
  refine ⟨?_, ?_, ?_, ?_, ?_, ?_⟩
  · simp only [extN, wrap_eq_toNat, sxt_eq_toInt, low_eq]; rfl
  · simp only [extN, wrap_eq_toNat, sxt_eq_toInt, low_eq]; rfl
  · simp [extN, low]; omega
  · simp [extN, low]; omega
  · simp only [extN, wrap_eq_toNat, sxt_toNat]; rfl
  · have := x.isLt
    simp [extN, low]; omega

theorem State.imm32_eq (t : State) (imm : BitVec 11) : t.imm32 imm = match t.bun.ext with
    | none => imm.signExtend 32
    | some l => l.extractLsb' 0 21 ++ imm := by
  unfold State.imm32
  cases t.bun.ext with
  | none => rfl
  | some l =>
    apply BitVec.eq_of_toNat_eq
    have := imm.isLt
    simp only [toNat_append_eq_add, BitVec.extractLsb'_toNat, BitVec.toNat_ofNat]
    omega

theorem State.imm17_eq (t : State) (imm : BitVec 17) : t.imm17 imm = match t.bun.ext with
    | none => imm.signExtend 32
    | some l => l.extractLsb' 0 15 ++ imm := by
  unfold State.imm17
  cases t.bun.ext with
  | none => rfl
  | some l =>
    apply BitVec.eq_of_toNat_eq
    have := imm.isLt
    simp only [toNat_append_eq_add, BitVec.extractLsb'_toNat, BitVec.toNat_ofNat]
    omega

/-- R152, R202: a shift by an immediate takes no `limm` that changes it, and its count is below 32. -/
theorem State.imm32_shift {s t : State} {i : Instr} {imm : BitVec 11} (hg : s.gate i = .ok t) (wf : i.wf = true → imm.toNat < 32)
    (limm : ∀ l, limmOk l i = true → l.toNat = 0) : (t.imm32 imm).toNat < 32 := by
  obtain ⟨-, ⟨hw, -, hext⟩, -⟩ := State.gate_ok_iff.1 hg
  have hb : t.bun = s.bun := by rcases State.gate_ok hg with rfl | ⟨m, rfl⟩ <;> rfl
  have small := wf hw
  unfold State.imm32
  rw [hb]
  cases he : s.bun.ext with
  | none =>
    have positive : imm.msb = false := by rw [BitVec.msb_eq_false_iff_two_mul_lt]; omega
    show (imm.signExtend 32).toNat < 32
    rw [BitVec.signExtend_eq_setWidth_of_msb_false positive, BitVec.toNat_setWidth]
    omega
  | some l =>
    rw [he] at hext
    have zero := limm l hext
    simp only [zero, BitVec.toNat_ofNat]
    omega

end Sys2Proof.Machine

namespace Sys2Proof.Claims
open Sys2Proof.Machine

/-- Settles O6: each operation by its agreement with that of `BitVec`. -/
theorem integerWords : Obligations.IntegerWords := by
  refine ⟨fun d a b w => ?two_sources, fun d a b w => ⟨?mul, ?mulh, ?mulhn⟩, fun d a b w sx => ?bits_and_fields,
    ⟨fun d a imm => ?immediates, fun d imm => ⟨?movi, ?lui⟩⟩, fun d a b w nat sh => ⟨?madd, ?lea, ?mov⟩, fun d a w => ?extensions⟩
  case two_sources =>
    intro x y k
    refine ⟨?add, ?sub, ?and, ?or, ?xor, ?andn, ?orn, ?shl, ?shr, ?sar, ?rotl, ?min, ?max, ?minn, ?maxn, ?ceq, ?clt, ?cltn, ?cmov⟩ <;>
      refine computes_of (fun _ => rfl) fun _ t _ => ?_ <;> simp only [← val_toNat]
    case add => exact low_add _ _
    case sub => exact low_sub _ _
    case and => exact (BitVec.toNat_and _ _).symm
    case or => exact (BitVec.toNat_or _ _).symm
    case xor => exact (BitVec.toNat_xor _ _).symm
    case andn => rw [cpl_toNat, ← BitVec.toNat_and]
    case orn => rw [cpl_toNat, ← BitVec.toNat_or]
    case shl => exact low_shl _ _
    case shr => exact shr_toNat _ _
    case sar => exact sarN_toNat _ _
    case rotl => exact rotlN_toNat _ (bitsOf_pos w) _
    case min => exact min_signed _ _
    case max => exact max_signed _ _
    case minn => exact min_natural _ _
    case maxn => exact max_natural _ _
    case ceq => exact b2n_eq BitVec.toNat_inj
    case clt => exact b2n_eq (by rw [sxt_toNat, sxt_toNat]; exact BitVec.slt_iff_toInt_lt.symm)
    case cltn => exact b2n_eq Iff.rfl
    case cmov => exact (apply_ite BitVec.toNat _ _ _).symm
  case mul => exact computes_of (fun _ => rfl) fun _ t _ => by simp only [← val_toNat, low_mul]
  case mulh => exact computes_of (fun _ => rfl) fun _ _ _ => mulh_toNat _ _
  case mulhn => exact computes_of (fun _ => rfl) fun _ _ _ => mulhn_toNat _ _
  case bits_and_fields =>
    intro n x pos k
    refine ⟨?clz, ?popc, ?brev, ?bext, ?bins⟩ <;> refine computes_of (fun _ => rfl) fun _ t _ => ?_ <;> simp only [← val_toNat]
    case clz => exact clzN_eq _
    case popc => exact popcN_eq _ _
    case brev => exact brevN_toNat _
    case bext => exact bextN_toNat _ _ _
    case bins => exact binsN_toNat _ _ _
  case immediates =>
    intro x y
    have count {s t : State} {i : Instr} (hg : s.gate i = .ok t) (wf : i.wf = true → imm.toNat < 32)
        (limm : ∀ l, limmOk l i = true → l.toNat = 0) : (t.imm32 imm).toNat % 32 = (t.imm32 imm).toNat :=
      Nat.mod_eq_of_lt (State.imm32_shift hg wf limm)
    have hy : y = fun t => t.imm32 imm := funext fun t => (t.imm32_eq imm).symm
    rw [hy]
    refine ⟨?addi, ?andi, ?ori, ?xori, ?shli, ?shri, ?sari, ?ceqi, ?clti, ?cltni⟩ <;> refine computes_of (fun _ => rfl) fun s t hg => ?_
    case addi | andi | ori | xori => rfl
    case shli =>
      rw [count hg (fun h => of_decide_eq_true (Bool.and_eq_true_iff.1 h).2) fun _ => of_decide_eq_true]
      exact low_shl _ _
    case shri =>
      rw [count hg (fun h => of_decide_eq_true (Bool.and_eq_true_iff.1 h).2) fun _ => of_decide_eq_true]
      exact shr_toNat _ _
    case sari =>
      rw [sarN_toNat, count hg (fun h => of_decide_eq_true (Bool.and_eq_true_iff.1 h).2) fun _ => of_decide_eq_true]
    case ceqi => exact b2n_eq Iff.rfl
    case clti => exact b2n_eq BitVec.slt_iff_toInt_lt.symm
    case cltni => exact b2n_eq Iff.rfl
  case movi => exact computes_of (fun _ => rfl) fun _ t _ => congrArg BitVec.toNat (t.imm17_eq imm)
  case lui => exact computes_of (fun _ => rfl) fun _ t _ => by simp [BitVec.toNat_setWidth, Nat.shiftLeft_eq]; omega
  case madd => exact computes_of (fun _ => rfl) fun _ t _ => by simp only [← val_toNat, low_madd]
  case lea => exact computes_of (fun _ => rfl) fun _ t _ => by simp only [← val_toNat, lea_toNat]
  case mov => exact computes_of (fun _ => rfl) fun _ t _ => (val_toNat w t.cur a).symm
  case extensions =>
    refine ⟨?_, ?_, ?_, ?_, ?_, ?_⟩ <;> refine computes_of (fun _ => rfl) fun _ t _ => ?_ <;>
      obtain ⟨h0, h1, h2, h3, h4, h5⟩ := extN_toNat (t.cur.rd a)
    · exact h0
    · exact h1
    · exact h2
    · exact h3
    · exact h4
    · exact h5

end Sys2Proof.Claims
end

section
/-! The scalar-float words (R206-R209): their values, and that a NaN which the arithmetic gives is the canonical one. -/

namespace Sys2Proof.Machine

/-- R59: a code up to that of infinity is no NaN, with either sign. -/
theorem decode_signed_isNan {code : Nat} (neg : Bool) (h : code ≤ 0x7F800000) :
    (Fmt.f32.decode (Fmt.f32.signed neg code)).isNan = false := by
  have fields : (Fmt.f32.signed neg code) / 2 ^ 23 % 2 ^ 8 = 255 → (Fmt.f32.signed neg code) % 2 ^ 23 = 0 := by
    cases neg <;> simp only [Fmt.signed, Fmt.bits, Fmt.ebits, Fmt.mbits, Bool.false_eq_true, if_true, if_false] <;> omega
  generalize Fmt.f32.signed neg code = x at fields
  simp only [Fmt.decode, Fmt.mbits, Fmt.ebits, Fmt.hasInf, reduceCtorEq, decide_false, Bool.false_and, Bool.true_and,
    Bool.false_eq_true, if_false, decide_eq_true_eq, show (2 : Nat) ^ 8 - 1 = 255 from rfl]
  by_cases infinite : x / 2 ^ 23 % 2 ^ 8 = 255
  · exact congrArg Num.isNan ((if_pos infinite).trans (if_pos (fields infinite)))
  · by_cases zero : x / 2 ^ 23 % 2 ^ 8 = 0
    · exact congrArg Num.isNan ((if_neg infinite).trans (if_pos zero))
    · exact congrArg Num.isNan ((if_neg infinite).trans (if_neg zero))

/-- R64: an overflow gives an infinity or the largest magnitude. -/
theorem overflow_isNan (rm : Nat) (neg : Bool) : (Fmt.f32.decode (Fmt.f32.overflow rm false neg)).isNan = false := by
  unfold Fmt.overflow
  extract_lets infinite
  clear_value infinite
  cases infinite
  · exact decode_signed_isNan (code := 0x7F7FFFFF) neg (by decide)
  · exact decode_signed_isNan (code := 0x7F800000) neg (by decide)

/-- R63: a value that is not NaN converts to no NaN. -/
theorem convert_isNan {x : Num} (rm : Nat) (hx : x.isNan = false) : (Fmt.f32.decode (convert x .f32 rm false 0).1).isNan = false := by
  cases x with
  | nan sig => cases hx
  | inf neg => exact decode_signed_isNan neg (by decide)
  | fin neg m e st =>
    simp only [convert]
    split
    · exact decode_signed_isNan neg (by decide)
    split
    · exact overflow_isNan rm neg
    split
    · exact overflow_isNan rm neg
    · next fits => exact decode_signed_isNan neg (by simp only [Fmt.maxCode] at fits; omega)

/-- R206: a NaN that the arithmetic of a scalar-float word gives. -/
theorem fround_nan (ops : List Num) (x : Option Num) (rm : Nat) (h : (Fmt.f32.decode (fround ops x rm)).isNan = true) :
    fround ops x rm = 0x7FC00000 := by
  revert h
  unfold fround floatOp
  split
  · exact fun _ => rfl
  cases x with
  | none => exact fun _ => rfl
  | some v =>
    cases hv : v.isNan with
    | true =>
      cases v with
      | nan sig => exact fun _ => rfl
      | inf | fin => cases hv
    | false => exact fun h => absurd h (by rw [convert_isNan rm hv]; decide)

end Sys2Proof.Machine

namespace Sys2Proof.Claims
open Sys2Proof.Machine

/-- Settles O8: the words take the model's values; a NaN is either that of an operand or of an invalid operation. -/
theorem scalarFloatWords : Obligations.ScalarFloatWords := by
  refine ⟨fun d a b rm => ⟨?fadd, ?fsub, ?fmul, ?ffma, ?fmin, ?fmax, ?fcmp, ?fcvt⟩, fround_nan⟩ <;>
    refine floats_of (fun _ => rfl) fun t => ?_
  case fadd | fsub | fmul | ffma | fcvt => rfl
  case fmin | fmax => simp only [pickNum, Bool.or_eq_true]; rfl
  case fcmp => cases h : fcmpN rm (t.cur.rdF a) (t.cur.rdF b) <;> rfl

end Sys2Proof.Claims
end

section
/-! A landing local store of a gang with a checkpoint writes the undo log (R441), so device memory changes. -/

namespace Sys2Proof.Claims
open Sys2Proof.Machine Sys2Proof.Tests

/-- An empty checkpoint. -/
def noCheckpoint : Checkpoint := {
  cores := [], launches := [], nextLaunch := 0, pend := 0, queueStatus := [], nodes := [], held := [], fq := [], frames := [],
  comms := [], sump := [], sent := [], received := [], ostep := 0, mirrored := false }

/-- A device whose core 0 is of a gang with a checkpoint, and whose save area's header places an undo log of 1 MiB at 2³⁰. -/
def logging : State :=
  ({ args 0 0 0 0 with gangs := [(65536, { bareGang with ckpt := some noCheckpoint })] }).paWrite 0 256 [1, 0, 0, 0x40, 0, 0, 0, 0]

/-- The old bytes of line 0 of the slice join the undo log as a byte is stored there. -/
theorem logging_land : logging.canonical = true ∧ Map.get 0 logging.pmem (2 ^ 30) = 0 ∧
    Map.get 0 (logging.land 0 (.slice 0 [7])).pmem (2 ^ 30) = 1 := by decide +kernel

/-- Refutes O9: a local store of a gang that keeps a checkpoint adds an entry to the undo log in device memory, so `pmem` is not as before. -/
theorem not_resultsLand : ¬ Obligations.ResultsLand := by
  intro h
  obtain ⟨-, -, -, slice, -⟩ := h
  obtain ⟨canonical, before, after⟩ := logging_land
  obtain ⟨-, -, same, -⟩ := slice logging 0 0 0 [7] canonical
  rw [same, before] at after
  exact absurd after (by decide)

end Sys2Proof.Claims
end

section
/-! Jumps, links and the issue of a loop (R155, R212-R217). -/

namespace Sys2Proof.Machine

/-- R147: a word that passes its checks is well formed. -/
theorem State.gate_wf {s t : State} {i : Instr} (h : s.gate i = .ok t) : i.wf = true := (State.gate_ok_iff.1 h).2.1.1

/-- R160: a group of registers does not begin at s0. -/
theorem groupOk_ne_zero {n : Nat} {r : Fin 64} (h : groupOk n r = true) : (r : Nat) ≠ 0 :=
  bne_iff_ne.1 (Bool.and_eq_true_iff.1 (Bool.and_eq_true_iff.1 h).1).2

/-- R212: the address of the bundle that follows. -/
theorem State.returnAddr_eq (t : State) : t.returnAddr = (t.bun.start + t.bun.len) % 2 ^ 48 := by
  simp only [State.returnAddr, wrap]
  norm_cast

/-- R213: the value of an address pair. -/
theorem Core.pair_eq (k : Core) (a : Fin 64) : k.pair a = (k.rd a).toNat + 2 ^ 32 * (k.rd (a + 1)).toNat := rfl

/-- R212, R213: the landings of a link. -/
theorem State.link_eq (t : State) {r : Nat} (h : r ≠ 0) : t.link r = t.landAll 1
    [.reg r (BitVec.ofNat 32 t.returnAddr), .reg (r + 1) (BitVec.ofNat 32 (t.returnAddr / 2 ^ 32)),
      .latch t.bun.pipe (BitVec.ofNat 32 t.returnAddr)] := by
  unfold State.link State.putScalar regLandings
  rw [if_neg h]
  rfl

end Sys2Proof.Machine

namespace Sys2Proof.Claims
open Sys2Proof.Machine

/-- R155: a relative target as a word offset from the bundle's start. -/
def offTarget {n : Nat} (off : BitVec n) (t : State) : Nat := match t.bun.ext with
  | none => (((t.bun.start : Int) + off.toInt) % 2 ^ 48).toNat
  | some l => (((t.bun.start : Int) + (l ++ off).toInt) % 2 ^ 48).toNat

theorem offTarget_eq {n : Nat} (off : BitVec n) (t : State) : t.target n off.toNat = offTarget off t := by
  unfold offTarget
  split
  · next h => exact State.target_none off h
  · next l h => exact State.target_some off h

/-- R216, R217: a lead may issue the loop: the depth is at least its level, and its end is not before its start. -/
def LoopFits (fin : Nat) (lvl : Nat) (t : State) : Prop :=
  t.cur.fpos = 0 ∧ lvl ≤ t.cur.depth ∧ t.bun.start + t.bun.len ≤ t.bun.start + fin

/-- R217: a loop that fits goes on to its count. -/
theorem loopIssue_fits {fin lvl : Nat} {t : State} (k : Nat) (h : LoopFits fin lvl t) :
    t.loopIssue k fin lvl = if k = 0 then
      match (t.job t.turn).fetchBundle t.turn (t.bun.start + fin) with
      | none => ienc
      | some ws => .ok ((t.setCur { t.cur with depth := lvl }).goto true (t.bun.start + fin + ws.length))
    else .ok ((t.setCur { t.cur with
      depth := lvl + 1,
      loops := Map.put t.cur.loops lvl (LoopSet.mk (t.bun.start + t.bun.len) (t.bun.start + fin) (BitVec.ofNat 32 k)) }).goto true
        (t.bun.start + t.bun.len)) := by
  obtain ⟨lead, depth, order⟩ := h
  have follows : t.follows = false := by rw [State.follows, lead]; rfl
  have fits : (decide (t.cur.depth < lvl) || decide (t.bun.start + fin < t.bun.start + t.bun.len)) = false := by
    simp only [Bool.or_eq_false_iff, decide_eq_false_iff_not, not_lt]
    exact ⟨depth, order⟩
  simp only [State.loopIssue, follows, fits, Bool.false_eq_true, if_false] <;> rfl

/-- R217: a loop with a count opens its loop set. -/
theorem loopIssue_opens {fin lvl k : Nat} {t : State} (hk : k ≠ 0) (h : LoopFits fin lvl t) :
    t.loopIssue k fin lvl = .ok ((t.setCur { t.cur with
      depth := lvl + 1,
      loops := Map.put t.cur.loops lvl (LoopSet.mk (t.bun.start + t.bun.len) (t.bun.start + fin) (BitVec.ofNat 32 k)) }).jumping
        (t.bun.start + t.bun.len)) := by
  rw [loopIssue_fits k h, if_neg hk, State.goto_lead _ (by rw [State.cur_setCur]; exact h.1)]

/-- R217: a loop of count 0 is skipped. -/
theorem loopIssue_skips {fin lvl : Nat} {t : State} {ws : List Word} (h : LoopFits fin lvl t)
    (fetched : (t.job t.turn).fetchBundle t.turn (t.bun.start + fin) = some ws) :
    t.loopIssue 0 fin lvl = .ok ((t.setCur { t.cur with depth := lvl }).jumping (t.bun.start + fin + ws.length)) := by
  rw [loopIssue_fits 0 h, if_pos rfl, fetched]
  exact congrArg _ (State.goto_lead _ (by rw [State.cur_setCur]; exact h.1))

/-- R217: a loop that does not fit. -/
theorem loopIssue_faults {fin lvl : Nat} {t : State} (k : Nat)
    (h : t.cur.fpos = 0 ∧ (t.cur.depth < lvl ∨ t.bun.start + fin < t.bun.start + t.bun.len)) : t.loopIssue k fin lvl = ienc := by
  obtain ⟨lead, bad⟩ := h
  have follows : t.follows = false := by rw [State.follows, lead]; rfl
  have bad : (decide (t.cur.depth < lvl) || decide (t.bun.start + fin < t.bun.start + t.bun.len)) = true := by
    simpa only [Bool.or_eq_true, decide_eq_true_eq] using bad
  simp only [State.loopIssue, follows, bad, Bool.false_eq_true, if_false, if_true]

/-- Settles O11: the jumps go where they name, and a loop opens, is skipped, or faults. -/
theorem jumpsAndLoops : Obligations.JumpsAndLoops := by
  constructor
  · intro d a off target after pair goes link leads
    have target_eq (t : State) : t.target 23 off.toNat = target t := offTarget_eq off t
    have link_eq (r : Nat) (hr : r ≠ 0) (x : Nat) (t : State) : (t.jumping x).link r = (t.jumping x).landAll 1 (link r t) := by
      rw [State.link_eq _ hr, State.returnAddr_eq]; rfl
    refine ⟨acts_of (fun _ => rfl) fun _ t _ lead => ?jmp, takes_of (fun _ => rfl) fun _ t _ lead => ?call,
      acts_of (fun _ => rfl) fun _ t _ lead => ?ret, acts_of (fun _ => rfl) fun _ t _ lead => ?jx,
      takes_of (fun _ => rfl) fun s t gate lead => ?jxl⟩
    case jmp => rw [State.goto_lead _ lead, target_eq]
    case call => rw [State.goto_lead _ lead, target_eq]; exact link_eq 54 (by decide) _ t
    case ret | jx => rw [State.goto_lead _ lead, Core.pair_eq]
    case jxl =>
      have wf : (pairOk d && pairOk a) = true := State.gate_wf gate
      rw [State.goto_lead _ lead, Core.pair_eq]
      exact link_eq d (groupOk_ne_zero (Bool.and_eq_true_iff.1 wf).1) _ t
  · intro c n fin lvl body last fits opened skipped
    refine ⟨fun k hk => acts_of (fun _ => rfl) fun _ t _ ⟨fit, count⟩ => ?loop,
      fun hn => acts_of (fun _ => rfl) fun _ t _ fit => loopIssue_opens hn fit,
      fun ws => acts_of (fun _ => rfl) fun _ t _ ⟨fit, count, fetched⟩ => ?skip,
      fun ws => acts_of (fun _ => rfl) fun _ t _ ⟨fit, fetched⟩ => loopIssue_skips fit fetched,
      traps_of (fun _ => rfl) fun _ t _ bad => loopIssue_faults _ bad,
      traps_of (fun _ => rfl) fun _ t _ bad => loopIssue_faults _ bad⟩
    case loop => rw [count]; exact loopIssue_opens hk fit
    case skip => rw [count]; exact loopIssue_skips fit fetched

end Sys2Proof.Claims
end

section
/-! The end of a loop (R218), and the bundle that holds a control word there (R147, R423). -/

namespace Sys2Proof.Machine

/-! ### What a bundle leaves of the loops -/

/-- Reads that end leave all but the handles. -/
theorem Core.readsDone_eq (k : Core) (is : List Instr) : ∃ hs, k.readsDone is = { k with handles := hs } := by
  unfold Core.readsDone
  generalize is.filterMap readHandle = l
  induction l generalizing k with
  | nil => exact ⟨k.handles, rfl⟩
  | cons h l ih =>
    obtain ⟨hs, eq⟩ := ih (k.setHandle h (k.handle h).readDone)
    exact ⟨hs, eq⟩

/-- The counter's advance leaves all but what is in flight. -/
theorem Core.advanceRng_eq (k : Core) (is : List Instr) : ∃ fs, k.advanceRng is = { k with inflight := fs } := by
  unfold Core.advanceRng
  dsimp only
  split
  · exact ⟨k.inflight, rfl⟩
  · exact ⟨_, rfl⟩

/-- R215, R218: where control goes after a bundle, and the loop sets and the depth that it leaves. -/
theorem State.afterIssue_core (s : State) (c x len : Nat) (is : List Instr) (w : Nat) :
    let k := s.core c
    let r : Map LoopSet × Nat × Nat := match s.bun.next with
      | some t => (k.loops, k.depth, t)
      | none => loopNext k.loops x len k.depth
    let y := (s.afterIssue c x len is w).core c
    (y.loops, y.depth) = (s.leadLoops k (s.job c).skew).getD (r.1, r.2.1) ∧ y.pc = r.2.2 := by
  obtain ⟨hs, reads⟩ := (s.core c).readsDone_eq is
  obtain ⟨fs, advance⟩ := Core.advanceRng_eq { s.core c with handles := hs } is
  constructor <;> simp only [State.afterIssue, reads, advance, Core.keepFlags, Core.charge, State.core_setCore_self, State.leadLoops] <;> rfl

/-! ### Words by themselves -/

/-- R147: the marks of the words by themselves. -/
theorem State.runAlone_marks (o : State) (ps : List Placed) : (o.runAlone ps).marks = ps.flatMap fun p => (o.runWords [p]).marks := by
  induction ps with
  | nil => rfl
  | cons p ps ih => simp only [State.runAlone, ih, List.flatMap_cons]

/-- R340, R436: no word by itself acts in place of the bundle. -/
theorem State.runAlone_replaced {o : State} {ps : List Placed} (h : ∀ p ∈ ps, (o.runWords [p]).replaced = none) :
    (o.runAlone ps).replaced = none := by
  induction ps with
  | nil => rfl
  | cons p ps ih =>
    simp only [State.runAlone, h p List.mem_cons_self, ih fun q hq => h q (List.mem_cons_of_mem _ hq), Option.orElse_none]

/-- R147: one word that answers. -/
theorem State.runWords_single {o t : State} {p : Placed}
    (h : exec p.i { o with bun := { o.bun with ext := p.ext, pipe := p.pipe, draws := p.draws } } = .next t) :
    (o.runWords [p]).marks = [(p.idx, t.mark)] ∧ (t.mark ≠ .ok ∨ o.replaces p.i = false → (o.runWords [p]).replaced = none) := by
  simp only [State.runWords, h, true_and]
  rintro (mark | stays)
  · simp only [mark, decide_false, Bool.false_and, Bool.false_eq_true, if_false]
  · simp only [stays, Bool.and_false, Bool.false_and, Bool.false_eq_true, if_false]

/-! ### The verdict (R147, R423) -/

/-- R147: a stall holds the bundle. -/
theorem Run.verdict_stall {r : Run} (static : Bool) (h : ∃ m ∈ r.marks, m.2 = .stall) : r.verdict static = .held .stall := by
  obtain ⟨m, hm, stall⟩ := h
  exact if_pos (List.any_eq_true.2 ⟨m, hm, decide_eq_true stall⟩)

/-- R423: a bundle that breaks a rule, and that nothing holds, is an encoding fault. -/
theorem Run.verdict_illegal {r : Run} (h : ∀ m ∈ r.marks, m.2.stalls = false ∧ m.2 ≠ .tick) (stays : r.replaced = none) :
    r.verdict false = .fault { cls := 1 } := by
  have stall : (r.marks.any fun x => decide (x.2 = .stall)) = false :=
    List.any_eq_false.2 fun m hm => by
      have := (h m hm).1
      intro eq
      rw [of_decide_eq_true eq] at this
      exact absurd this (by decide)
  have held : (r.marks.find? fun x => x.2.stalls) = none :=
    List.find?_eq_none.2 fun m hm => Bool.eq_false_iff.1 (h m hm).1
  have tick : (r.marks.any fun x => decide (x.2 = .tick)) = false :=
    List.any_eq_false.2 fun m hm eq => (h m hm).2 (of_decide_eq_true eq)
  simp only [Run.verdict, stall, held, stays, tick, chooseTrap, Bool.false_eq_true, if_false, Bool.not_false, Bool.true_or, if_true]

/-- R147: a bundle that breaks a rule: its words run by themselves. -/
theorem State.tryIssue_illegal {s : State} {x : Nat} {ws : List (Option Instr)} (stray : List Instr) (h : s.bundleFits x ws = false) :
    let o := s.openBundle x ws.length (ws.filterMap id)
    let r := o.runAlone (s.orderedWords ws)
    s.tryIssue x ws stray = Run.verdict { r with marks := r.marks ++ o.strayMarks stray } false := by
  simp only [State.tryIssue, h, Bool.false_and, Bool.false_eq_true, if_false]

end Sys2Proof.Machine

namespace Sys2Proof.Claims
open Sys2Proof.Machine

/-- R218: a bundle with a control word at the end of the innermost active loop breaks a rule. -/
theorem bundleFits_loopEnd {s : State} {x d : Nat} {ws : List (Option Instr)} {i : Instr} (hi : some i ∈ ws) (control : slot i = .ct)
    (depth : s.cur.depth = d + 1) (ends : (Map.get { start := 0, fin := 0, cnt := 0 : LoopSet } s.cur.loops d).fin = x) :
    s.bundleFits x ws = false := by
  have member : i ∈ ws.filterMap id := List.mem_filterMap.2 ⟨some i, hi, rfl⟩
  have clash : loopEndClash s.cur x (ws.filterMap id) = true := by
    simp only [loopEndClash, depth, Nat.zero_lt_succ, decide_true, Bool.true_and, Nat.add_sub_cancel, ends, Bool.and_true]
    exact List.any_eq_true.2 ⟨i, member, decide_eq_true control⟩
  simp only [State.bundleFits, clash, Bool.not_true, Bool.and_false]

/-- Settles O12: the recursion of `loopNext`, what `afterIssue` makes of it, and the verdict on a bundle that breaks the rule. -/
theorem loopEndGoesRound : Obligations.LoopEndGoesRound := by
  rintro loops x len d l rfl
  refine ⟨fun other => ?other, fun ends more => ?round, fun ends last => ?closes, rfl, fun s c w is e member trail => ?member,
    fun s c w is lead => ?lead, fun s ws i hi control depth hloops ends stray => ?clash, fun o t p => State.runWords_single⟩
  case other => rw [loopNext]; exact if_neg other
  case round =>
    have left : ((Map.get { start := 0, fin := 0, cnt := 0 : LoopSet } loops d).cnt - 1 != 0) = true :=
      bne_iff_ne.2 fun zero => more (by rw [BitVec.sub_eq_iff_eq_add] at zero; rw [zero]; rfl)
    rw [loopNext]
    exact (if_pos ends).trans (if_pos left)
  case closes =>
    have left : ((Map.get { start := 0, fin := 0, cnt := 0 : LoopSet } loops d).cnt - 1 != 0) = false := by rw [last]; rfl
    rw [loopNext]
    refine (if_pos ends).trans ((if_neg (by rw [left]; decide)).trans ?_)
    rw [last]
    rfl
  case member =>
    obtain ⟨taken, -⟩ := s.afterIssue_core c x len is w
    simpa only [State.leadLoops, if_neg member, trail, Option.getD_some] using taken
  case lead =>
    obtain ⟨taken, pc⟩ := s.afterIssue_core c x len is w
    simp only [State.leadLoops, if_pos lead, Option.getD_none, Prod.mk.injEq] at taken
    obtain ⟨hl, hd⟩ := taken
    refine ⟨fun stays => ?_, fun a jumps => ?_⟩
    · rw [hl, hd, pc, stays]
    · rw [hl, hd, pc, jumps]
  case clash =>
    subst hloops
    have breaks := bundleFits_loopEnd hi control depth ends
    intro o ps ms
    have marks : (o.runAlone ps).marks ++ o.strayMarks stray = ms := congrArg (· ++ _) (o.runAlone_marks ps)
    rw [State.tryIssue_illegal stray breaks]
    refine ⟨fun stall => Run.verdict_stall _ (marks ▸ stall), fun free stays => Run.verdict_illegal (marks ▸ free) (State.runAlone_replaced stays)⟩

end Sys2Proof.Claims
end

section
/-! System words and system registers (R146, R152, R167, R205, R260, R308). -/

namespace Sys2Proof.Machine

/-- R260: the limits that a write of sr.rslim leaves. -/
theorem rslim_bounds (v : Nat) : 192 ≤ rslimHigh v ∧ rslimHigh v ≤ 2048 ∧ rslimLow v + 128 ≤ rslimHigh v := by
  simp only [rslimLow, rslimHigh]
  omega

/-- R260: HIGH is what is written where that is in its range. -/
theorem rslimHigh_of_range {v : Nat} (low : 192 ≤ v % 65536) (high : v % 65536 ≤ 2048) : rslimHigh v = v % 65536 := by
  have field : fld v 15 0 = v % 65536 := congrArg (· % 65536) (Nat.div_one v)
  rw [rslimHigh, field]
  omega

end Sys2Proof.Machine

namespace Sys2Proof.Claims
open Sys2Proof.Machine

/-- Settles O13: each system word by its meaning, and the registers by the cases of `Core.sysreg` and `Core.setSysreg`. -/
theorem systemWords : Obligations.SystemWords := by
  refine ⟨⟨acts_of (fun _ => rfl) fun _ _ _ _ => rfl, fun l => acts_of (fun _ => rfl) fun _ _ _ _ => rfl,
      fun a => acts_of (fun _ => rfl) fun _ _ _ _ => rfl, acts_of (fun _ => rfl) fun _ t _ idle => ?idle,
      stalls_of (fun _ => rfl) fun _ t _ busy => ?busy⟩,
    fun d n => ⟨lands_of (fun _ => rfl) fun _ _ _ => rfl, takes_of (fun _ => rfl) fun _ t _ may => ?write, ?read⟩,
    fun d => traps_of (fun _ => rfl) fun _ t _ held => ?base, fun k v => ?limits⟩
  case idle => simp only [idle, Option.isNone_none, Bool.and_self, if_true, id]
  case busy =>
    have : (t.cur.mill.active.isNone && t.cur.mill.shadow.isNone) = false := by
      simpa only [Bool.and_eq_false_iff, Option.isNone_eq_false_iff, Option.isSome_iff_ne_none] using busy
    simp only [this, Bool.false_eq_true, if_false, stalled]
  case write =>
    have : (decide (n.toNat = 0x31) && t.prior.tail.rsp != 0) = false := by
      simpa only [Bool.and_eq_false_iff, decide_eq_false_iff_not, bne_eq_false_iff_eq] using may
    simp only [this, Bool.false_eq_true, if_false, ← landAll_one]
    rfl
  case read => exact fun k c => ⟨rfl, rfl, rfl, rfl, rfl, rfl, rfl, rfl, rfl, rfl, rfl, rfl, rfl, rfl, rfl, rfl, rfl⟩
  case base => exact if_pos (Bool.and_eq_true_iff.2 ⟨rfl, bne_iff_ne.2 held⟩)
  case limits =>
    obtain ⟨least, most, gap⟩ := rslim_bounds v.toNat
    exact ⟨least, most, gap, rslimHigh_of_range, rfl, rfl⟩

end Sys2Proof.Claims
end

section
/-! Suspension, halts and system calls (R278, R370, R372, R436, R437, R445). -/

namespace Sys2Proof.Machine

/-! ### The pool entry (R370) -/

theorem leNat_lt (bs : List Byte) : leNat bs < 2 ^ (8 * bs.length) := by
  induction bs with
  | nil => exact Nat.one_pos
  | cons b bs ih =>
    have hb := b.isLt
    rw [leNat, List.length_cons, Nat.mul_succ, Nat.pow_add]
    omega

/-- R370: the first word of an entry with its program counter replaced, and ST and HW 0. -/
theorem poolField_yield {w : Nat} (p : Nat) (h : w < 2 ^ 64) :
    poolField (poolField (poolField w 0 48 (p % 2 ^ 48)) 48 4 0) 63 1 0 = p % 2 ^ 48 + w / 2 ^ 52 % 2 ^ 11 * 2 ^ 52 := by
  have hp : p % 2 ^ 48 < 2 ^ 48 := Nat.mod_lt _ (by decide)
  generalize p % 2 ^ 48 = p at hp
  simp only [poolField, fld, Nat.reducePow, Nat.reduceAdd, Nat.reduceSub] at *
  omega

/-- R372: the entry that a `yield` writes. -/
theorem suspendedEntry_yield (b : List Byte) (pc : Nat) (cs : List Word) :
    suspendedEntry b 1 0 false pc cs = leBytes 8 (pc % 2 ^ 48 + leNat (b.take 8) / 2 ^ 52 % 2 ^ 11 * 2 ^ 52) ++ (b.drop 8).take 8 ++
      cs.flatMap fun w => leBytes 4 w.toNat := by
  have bound : leNat (b.take 8) < 2 ^ 64 :=
    (leNat_lt _).trans_le (Nat.pow_le_pow_right (by decide) (by rw [List.length_take]; omega))
  simp only [suspendedEntry, one_ne_zero, if_false, if_true, poolField_yield pc bound]

/-- R372: a `yield` whose entry is read and written. -/
theorem State.suspendNow_yield {s r t : State} {c l : Nat} {b : List Byte} (job : (s.core c).job = some l)
    (read : s.poolRead (s.launch l).vd ((s.launch l).entryVa (s.core c).entry) = .ok (b, r))
    (write : r.poolWrite (s.launch l).vd ((s.launch l).entryVa (s.core c).entry)
      (suspendedEntry b 1 0 false (s.core c).pc (tabulate 12 fun i => (s.core c).rd (i + 1))) = .ok t) :
    s.suspendNow c 1 0 false [c] =
      (t.setLaunch l { t.launch l with suspended := (t.launch l).suspended ++ [((s.core c).entry, c, false)] }).setCore c (t.core c).rest := by
  simp only [State.suspendNow, job, read, write]
  rfl

/-! ### The halted state (R445) -/

theorem State.debugHalted_iff {t : State} {v : Nat} : t.debugHalted v = true ↔
    (t.vd v).halted = true ∨ ∃ e ∈ t.cores, e.2.mode = .halted ∧ ∃ l, e.2.job = some l ∧ t.launchVd l = v := by
  have own (j : Option Nat) : (match j with | some l => decide (t.launchVd l = v) | none => false) = true ↔
      ∃ l, j = some l ∧ t.launchVd l = v := by
    cases j <;> simp
  simp only [State.debugHalted, Bool.or_eq_true, List.any_eq_true, Bool.and_eq_true, decide_eq_true_eq]
  exact or_congr_right (exists_congr fun e => and_congr_right fun _ => and_congr_right fun _ => own e.2.job)

/-- R445: the core whose turn it is enters the halted state. -/
theorem State.haltCore_turn (t : State) : t.haltCore t.turn =
    (if t.debugHalted (t.coreVd t.turn) then t
      else t.setVd (t.coreVd t.turn) { t.vd (t.coreVd t.turn) with dbgSteps := 0, dbgStall := false }).setCur
        { t.cur with mode := .halted } := by
  unfold State.haltCore
  by_cases h : t.debugHalted (t.coreVd t.turn) = true
  · simp only [h, if_true]; rfl
  · simp only [h]; rfl

end Sys2Proof.Machine

namespace Sys2Proof.Claims
open Sys2Proof.Machine

/-- R278: a word that suspends a continuation whose Tailrace is empty. -/
theorem suspends {i : Instr} {kind h : Nat} {gen : Bool} (he : ∀ s, exec i s = s.word i fun s => s.suspend kind h gen) :
    Acts i (fun t => t.cur.tail.rsp = 0) (fun t => t.setCur { t.cur with mode := .suspending kind h gen }) ∧
      Traps i (fun t => ¬ t.cur.tail.rsp = 0) (fun _ => { cls := 15 }) :=
  ⟨acts_of he fun _ t _ empty => if_neg (by rw [empty]; decide), traps_of he fun _ t _ full => if_pos (bne_iff_ne.2 full)⟩

/-- Settles O14: the two words suspend where the Tailrace is empty, and a yield that commits writes its entry and rests the core. -/
theorem suspension : Obligations.Suspension := by
  obtain ⟨yields, yieldTraps⟩ := suspends (i := .yieldItem) (kind := 1) (h := 0) (gen := false) fun _ => rfl
  obtain ⟨ends, endTraps⟩ := suspends (i := .endItem) (kind := 0) (h := 0) (gen := false) fun _ => rfl
  refine ⟨⟨yields, ends, yieldTraps, endTraps⟩, fun s c l b r t job => ?_⟩
  intro k x w read write
  rw [← suspendedEntry_yield] at write
  rw [State.suspendNow_yield job read write]
  intro u
  have rested : u.core c = (t.core c).rest := State.core_setCore_self _ _ _
  rw [rested]
  refine ⟨rfl, rfl, ?_, rfl, rfl, fun d hd => State.core_setCore_ne _ _ (Ne.symm hd)⟩
  exact congrArg Launch.suspended (Map.get_put_self _ _ _ _)

/-- Settles O15: `haltCore` and `beginPark` are what the words do, and the trap is raised where the virtual device does not stop. -/
theorem trapsHaltsAndSystemCalls : Obligations.TrapsHaltsAndSystemCalls := by
  intro imm d vd halted
  have halts (t : State) : t.haltCore t.turn = halted t := t.haltCore_turn
  have stops {t : State} (code : Nat) (h : (vd t).tstop = true) : t.programTrap code = .ok (halted t) := by
    rw [← halts]; exact if_pos h
  have traps {t : State} (code : Nat) (h : (vd t).tstop = false) : t.programTrap code = .error (.trap { cls := 19, code := code }) :=
    if_neg (by rw [h]; decide)
  have attached {t : State} (h : (vd t).dbgEn = false) : (!(vd t).dbgEn) = true := by rw [h]; rfl
  refine ⟨fun t v => State.debugHalted_iff, traps_of (fun _ => rfl) fun _ t _ off => traps _ off,
    acts_of (fun _ => rfl) fun _ t _ on => stops _ on, acts_of (fun _ => rfl) fun _ t _ ⟨en, lead⟩ => ?halts,
    traps_of (fun _ => rfl) fun _ t _ ⟨en, off⟩ => (if_pos (attached en)).trans (traps 0 off),
    acts_of (fun _ => rfl) fun _ t _ ⟨en, on⟩ => (if_pos (attached en)).trans (stops 0 on),
    acts_of (fun _ => rfl) fun _ t _ _ => rfl⟩
  have led : t.follows = false := by rw [State.follows, lead]; rfl
  refine (if_neg ?_).trans ((if_neg ?_).trans (congrArg _ (halts t)))
  · rw [Bool.not_eq_true', Bool.not_eq_false]; exact en
  · rw [led]; decide

end Sys2Proof.Claims
end

section
/-! Results that land on a core (R185), and the taking of a fault (R424, R425, R448). -/

namespace Sys2Proof.Machine

/-! ### What a store of the G space leaves: all but the memories and the gang's undo log (R441) -/

theorem State.paWrite_eq (bs : List Byte) (s : State) (key pa : Nat) :
    ∃ p l, s.paWrite key pa bs = { s with pmem := p, lines := l } := by
  induction bs generalizing s pa with
  | nil => exact ⟨s.pmem, s.lines, rfl⟩
  | cons b bs ih =>
    obtain ⟨p, l, h⟩ := ih (s.paSet key pa b) (pa + 1)
    exact ⟨p, l, h⟩

theorem State.saveWrite_eq (s : State) (p key pa : Nat) (bs : List Byte) :
    ∃ m l, s.saveWrite p key pa bs = { s with pmem := m, lines := l } := by
  unfold State.saveWrite
  split
  · exact s.paWrite_eq bs key pa
  · exact ⟨s.pmem, s.lines, rfl⟩

theorem State.undoG_eq (s : State) (gid line : Nat) :
    ∃ g p l, s.undoG gid line = { s with gangs := g, pmem := p, lines := l } := by
  have entry (g : Gang) (u : UndoLine) : ∃ m p l, s.undoEntry gid g u = { s with gangs := m, pmem := p, lines := l } := by
    unfold State.undoEntry
    extract_lets off b t
    split
    · obtain ⟨p, l, h⟩ := t.saveWrite_eq g.part g.key (s.undoBase g + off) b
      exact ⟨_, p, l, h⟩
    · exact ⟨_, s.pmem, s.lines, rfl⟩
  unfold State.undoG
  split
  · split
    · exact entry _ _
    · exact ⟨s.gangs, s.pmem, s.lines, rfl⟩
  · exact ⟨s.gangs, s.pmem, s.lines, rfl⟩

theorem State.undoGs_eq (ls : List Nat) (s : State) (gid : Nat) :
    ∃ g p l, s.undoGs gid ls = { s with gangs := g, pmem := p, lines := l } := by
  induction ls generalizing s with
  | nil => exact ⟨s.gangs, s.pmem, s.lines, rfl⟩
  | cons l ls ih =>
    obtain ⟨g, p, m, first⟩ := s.undoG_eq gid l
    obtain ⟨g', p', m', rest⟩ := ih (s.undoG gid l)
    exact ⟨g', p', m', by rw [State.undoGs, rest, first]⟩

theorem State.gStore_eq (s : State) (gid a : Nat) (bs : List Byte) :
    ∃ m g p l, s.gStore gid a bs = { s with gmem := m, gangs := g, pmem := p, lines := l } := by
  obtain ⟨g, p, l, h⟩ := State.undoGs_eq (linesOf a bs.length) s gid
  exact ⟨_, g, p, l, by rw [State.gStore, h]; rfl⟩

theorem State.laneStore_eq (vs : List (Nat × Word)) (s : State) (c gid : Nat) :
    ∃ m g p l, s.laneStore c gid vs = { s with gmem := m, gangs := g, pmem := p, lines := l } := by
  induction vs generalizing s with
  | nil => exact ⟨s.gmem, s.gangs, s.pmem, s.lines, rfl⟩
  | cons e vs ih =>
    obtain ⟨m, g, p, l, first⟩ := s.gStore_eq gid (gAddr c e.1) (leBytes 4 e.2.toNat)
    obtain ⟨m', g', p', l', rest⟩ := ih (s.gStore gid (gAddr c e.1) (leBytes 4 e.2.toNat))
    exact ⟨m', g', p', l', by rw [State.laneStore, rest, first]⟩

/-! ### What a landing leaves -/

/-- The continuation that a core runs: its launch, where it is, its place in a flight. -/
def Core.seat (k : Core) : Option Nat × Nat × Nat := (k.job, k.pc, k.fpos)

/-- What is in flight on a core, and its schedule counter. -/
def Core.timing (k : Core) : List InFlight × Nat := (k.inflight, k.sched)

/-- The state but for core `c`, the memories and the gangs' undo logs: no result that lands on the core changes it. -/
structure State.SameBut (c : Nat) (s t : State) : Prop where
  others : ∀ d, d ≠ c → t.core d = s.core d
  launches : t.launches = s.launches
  seat : (t.core c).seat = (s.core c).seat

namespace State.SameBut

theorem refl (c : Nat) (s : State) : SameBut c s s := ⟨fun _ _ => rfl, rfl, rfl⟩

theorem trans {c : Nat} {s t u : State} (h : SameBut c s t) (g : SameBut c t u) : SameBut c s u :=
  ⟨fun d hd => (g.others d hd).trans (h.others d hd), g.launches.trans h.launches, g.seat.trans h.seat⟩

theorem setCore {c : Nat} {s : State} {k : Core} (h : k.seat = (s.core c).seat) : SameBut c s (s.setCore c k) :=
  ⟨fun _ hd => State.core_setCore_ne _ _ hd.symm, rfl, by rw [State.core_setCore_self, h]⟩

end State.SameBut

theorem Core.setSysreg_timing (k : Core) (n : Nat) (v : DWord) :
    (k.setSysreg n v).timing = k.timing ∧ (k.setSysreg n v).seat = k.seat := by
  unfold Core.setSysreg
  split <;> exact ⟨rfl, rfl⟩

/-- R185: a landing changes registers or memory alone. -/
theorem State.land_leaves (s : State) (c : Nat) (l : Landing) :
    SameBut c s (s.land c l) ∧ ((s.land c l).core c).timing = (s.core c).timing := by
  have onCore (k : Core) (ht : k.timing = (s.core c).timing) (hs : k.seat = (s.core c).seat) :
      SameBut c s (s.setCore c k) ∧ ((s.setCore c k).core c).timing = (s.core c).timing :=
    ⟨.setCore hs, by rw [State.core_setCore_self, ht]⟩
  have lanes (vs : List (Nat × Word)) : SameBut c s (s.laneStore c (s.coreGid c) vs) ∧
      ((s.laneStore c (s.coreGid c) vs).core c).timing = (s.core c).timing := by
    obtain ⟨m, g, p, l, h⟩ := State.laneStore_eq vs s c (s.coreGid c)
    rw [h]
    exact ⟨⟨fun _ _ => rfl, rfl, rfl⟩, rfl⟩
  cases l with
  | slice a v =>
    obtain ⟨m, g, p, l, h⟩ := s.gStore_eq (s.coreGid c) (gAddr c a) v
    rw [State.land, h]
    exact ⟨⟨fun _ _ => rfl, rfl, rfl⟩, rfl⟩
  | lanes v => exact lanes v
  | bank h a v => exact lanes _
  | sysreg n v => exact onCore _ ((s.core c).setSysreg_timing n v).1 ((s.core c).setSysreg_timing n v).2
  | reg | latch | plane | pred | flags | xslot | treg | part | tail => exact onCore _ rfl rfl

/-- R171: what the pending loads of a bundle keep. -/
theorem State.keepOld_leaves (s : State) (c : Nat) (f : InFlight) :
    SameBut c s (s.keepOld c f) ∧ ((s.keepOld c f).core c).timing = (s.core c).timing := by
  unfold State.keepOld
  dsimp only
  split
  · exact ⟨.setCore rfl, by rw [State.core_setCore_self]; rfl⟩
  · exact ⟨.refl c s, rfl⟩

theorem State.landList_leaves (fs : List InFlight) (s : State) (c : Nat) :
    SameBut c s (s.landList c fs) ∧ ((s.landList c fs).core c).timing = (s.core c).timing := by
  induction fs generalizing s with
  | nil => exact ⟨.refl c s, rfl⟩
  | cons f fs ih =>
    obtain ⟨kept, timing⟩ := s.keepOld_leaves c f
    obtain ⟨kept', timing'⟩ := (s.keepOld c f).land_leaves c f.what
    obtain ⟨kept'', timing''⟩ := ih ((s.keepOld c f).land c f.what)
    exact ⟨(kept.trans kept').trans kept'', timing''.trans (timing'.trans timing)⟩

/-- R185: what is due lands, and the rest stays in flight. -/
theorem State.landDue_leaves (s : State) (c : Nat) : SameBut c s (s.landDue c) ∧
    ((s.landDue c).core c).timing = ((s.core c).inflight.filter fun f => (s.core c).sched < f.due, (s.core c).sched) := by
  unfold State.landDue
  obtain ⟨kept, timing⟩ := State.landList_leaves (s.core c).due
    (s.setCore c { s.core c with inflight := (s.core c).inflight.filter fun f => (s.core c).sched < f.due }) c
  rw [State.core_setCore_self] at timing
  exact ⟨SameBut.trans (SameBut.setCore (by rfl)) kept, timing⟩

/-- R183, R185: a schedule cycle: the counter advances, and what is not due stays in flight. -/
theorem State.schedStep_leaves (s : State) (c : Nat) : SameBut c s (s.schedStep c) ∧
    ((s.schedStep c).core c).timing =
      ((s.core c).inflight.filter fun f => (s.core c).sched + 1 < f.due, (s.core c).sched + 1) := by
  obtain ⟨kept, timing⟩ := (s.setCore c { s.core c with sched := (s.core c).sched + 1 }).landDue_leaves c
  rw [State.core_setCore_self] at timing
  exact ⟨SameBut.trans (SameBut.setCore (by rfl)) kept, timing⟩

theorem State.drainFlight_leaves (n : Nat) (s : State) (c : Nat) : SameBut c s (s.drainFlight c n) := by
  induction n generalizing s with
  | zero => exact .refl c s
  | succ n ih =>
    unfold State.drainFlight
    split
    · exact .refl c s
    · exact (s.schedStep_leaves c).1.trans (ih _)

/-- R425: what is due within `n` cycles has landed after as many. -/
theorem State.drainFlight_lands (n : Nat) (s : State) (c : Nat) :
    (∀ f ∈ (s.core c).inflight, (s.core c).sched < f.due ∧ f.due ≤ (s.core c).sched + n) → ((s.drainFlight c n).core c).inflight = [] := by
  induction n generalizing s with
  | zero =>
    intro h
    refine List.eq_nil_iff_forall_not_mem.2 fun f hf => ?_
    obtain ⟨after, before⟩ := h f hf
    omega
  | succ n ih =>
    intro h
    unfold State.drainFlight
    split
    · next empty => exact List.isEmpty_iff.1 empty
    · obtain ⟨flight, sched⟩ := Prod.mk.inj (s.schedStep_leaves c).2
      refine ih _ fun f hf => ?_
      rw [flight, List.mem_filter, decide_eq_true_eq] at hf
      obtain ⟨-, before⟩ := h f hf.1
      rw [sched]
      exact ⟨hf.2, by omega⟩

/-- R425: likewise where some of it is overdue. -/
theorem State.drainFlight_lands_all (n : Nat) (s : State) (c : Nat)
    (h : ∀ f ∈ (s.core c).inflight, f.due ≤ (s.core c).sched + (n + 1)) : ((s.drainFlight c (n + 1)).core c).inflight = [] := by
  unfold State.drainFlight
  split
  · next empty => exact List.isEmpty_iff.1 empty
  · obtain ⟨flight, sched⟩ := Prod.mk.inj (s.schedStep_leaves c).2
    refine State.drainFlight_lands n _ c fun f hf => ?_
    rw [flight, List.mem_filter, decide_eq_true_eq] at hf
    rw [sched]
    exact ⟨hf.2, by have := h f hf.1; omega⟩

/-! ### The fault (R425) and the snapshot trigger (R448) -/

/-- R448: the snapshot trigger leaves all but the virtual devices and what leaves the device. -/
theorem State.faultSeen_eq (s : State) (v cls : Nat) :
    ∃ vs fr m o, s.faultSeen v cls = { s with vds := vs, fresh := fr, snap := m, out := o } := by
  unfold State.faultSeen
  split
  · cases latched : (s.vd v).latched with
    | true => exact ⟨s.vds, s.fresh, s.snap, s.out, State.fireSnapshot_latched cls 3 latched⟩
    | false =>
      obtain ⟨m, o, h⟩ := State.fireSnapshot_unlatched cls 3 latched
      exact ⟨_, _, m, o, h⟩
  · exact ⟨s.vds, s.fresh, s.snap, s.out, rfl⟩

theorem State.faultSeen_off {s : State} {v : Nat} (cls : Nat) (h : (s.vd v).snCtl.getLsbD 2 = false ∨ (s.vd v).latched = true) :
    s.faultSeen v cls = s := by
  unfold State.faultSeen
  rcases h with off | latched
  · rw [off]; rfl
  · rw [State.fireSnapshot_latched cls 3 latched, ite_self]

theorem State.faultSeen_latches {s : State} {v : Nat} (cls : Nat) (on : (s.vd v).snCtl.getLsbD 2 = true) (h : (s.vd v).latched = false) :
    ((s.faultSeen v cls).vd v).latched = true ∧ ((s.faultSeen v cls).vd v).snTag = BitVec.ofNat 17 cls ∧
      ((s.faultSeen v cls).vd v).snSrc = 3 := by
  obtain ⟨m, o, fires⟩ := State.fireSnapshot_unlatched cls 3 h
  have vd : (s.faultSeen v cls).vd v =
      { s.vd v with latched := true, snTag := BitVec.ofNat 17 cls, snSrc := BitVec.ofNat 3 3 } := by
    rw [State.faultSeen, if_pos on, fires]
    exact State.vd_setVd_self _ _ _
  rw [vd]
  exact ⟨rfl, rfl, rfl⟩

/-- R425: the core and the launch of a fault, before the trigger. -/
def State.faulted (u : State) (c l : Nat) (x : Trap) : State :=
  (u.setCore c { u.core c with mode := .faulted, trap := some x, barrier := none }).setLaunch l { u.launch l with
    state := .ending
    fault := match (u.launch l).fault with | some f => some f | none => some (c - (u.core c).fpos, x) }

/-- R425: a fault that ends its launch. -/
theorem State.takeFault_eq {s : State} {c l : Nat} (x : Trap) (job : (s.core c).job = some l) :
    s.takeFault c x = ((s.drainFlight c 64).faulted c l x).faultSeen ((s.drainFlight c 64).launch l).vd x.cls := by
  unfold State.takeFault
  rw [job]
  rfl

end Sys2Proof.Machine

namespace Sys2Proof.Claims
open Sys2Proof.Machine

/-- R425: what a fault that ends its launch leaves of the core, the launches and the memories. -/
theorem faulted_leaves {u : State} {c l : Nat} (x : Trap) {t : State} {vs fr m o}
    (ht : t = { u.faulted c l x with vds := vs, fresh := fr, snap := m, out := o }) :
    t.core c = { u.core c with mode := .faulted, trap := some x, barrier := none } ∧ t.gmem = u.gmem ∧ t.pmem = u.pmem ∧
      (t.launch l).state = .ending ∧
      (t.launch l).fault = (match (u.launch l).fault with | some f => some f | none => some (c - (u.core c).fpos, x)) ∧
      (∀ d, d ≠ c → t.core d = u.core d) ∧ ∀ n, n ≠ l → t.launch n = u.launch n := by
  subst ht
  refine ⟨State.core_setCore_self u c _, rfl, rfl, ?_, ?_, fun d hd => State.core_setCore_ne u _ hd.symm,
    fun n hn => Map.get_put_ne _ _ _ hn.symm⟩
  · exact congrArg Launch.state (Map.get_put_self _ u.launches l _)
  · exact congrArg Launch.fault (Map.get_put_self _ u.launches l _)

/-- Settles O18: what lands on the core, then the core and the launch, then the trigger, each of which leaves the rest. -/
theorem takingAFault : Obligations.TakingAFault := by
  intro s c l x job
  refine ⟨fun ends => ?_, fun parks => ?_⟩
  · intro t u y
    obtain ⟨others, launches, seat⟩ : State.SameBut c s u := State.drainFlight_leaves 64 s c
    obtain ⟨hjob, hpc, hfpos⟩ : (u.core c).job = (s.core c).job ∧ (u.core c).pc = (s.core c).pc ∧ (u.core c).fpos = (s.core c).fpos := by
      simpa only [Core.seat, Prod.mk.injEq] using seat
    have hlaunch (n : Nat) : u.launch n = s.launch n := congrArg (fun m => Map.get Launch.reset m n) launches
    have taken : t = (u.faulted c l x).faultSeen (s.launch l).vd x.cls := by
      rw [← hlaunch l]
      exact (if_neg ends).trans (State.takeFault_eq x job)
    have lands : (∀ f ∈ (s.core c).inflight, f.due ≤ (s.core c).sched + 64) → (u.core c).inflight = [] := State.drainFlight_lands_all 63 s c
    clear_value t u
    obtain ⟨vs, fr, m, o, seen⟩ := (u.faulted c l x).faultSeen_eq (s.launch l).vd x.cls
    obtain ⟨core, gmem, pmem, state, fault, cores, rest⟩ := faulted_leaves x (taken.trans seen)
    refine ⟨core, fun due => ?_, gmem, pmem, ?_, ?_, state, ?_, fun d hd => (cores d hd).trans (others d hd),
      fun n hn => (rest n hn).trans (hlaunch n), fun off => ?_, fun on unlatched => ?_⟩
    · rw [core]; exact lands due
    · rw [core]; exact hjob.trans job
    · rw [core]; exact hpc
    · rw [fault, hlaunch, hfpos] <;> rfl
    · rw [taken, State.faultSeen_off (s := u.faulted c l x) x.cls off]; exact ⟨rfl, rfl⟩
    · rw [taken]; exact State.faultSeen_latches (s := u.faulted c l x) x.cls on unlatched
  · intro p
    have vd : p.coreVd c = s.coreVd c := by
      unfold State.coreVd
      rw [State.core_setCore_self] <;> rfl
    calc s.raise c x = s.beginPark c x := if_pos parks
      _ = p.faultSeen (p.coreVd c) x.cls := if_neg fun none_ => absurd (parks.symm.trans none_) (by decide)
      _ = p.faultSeen (s.coreVd c) 5 := by rw [vd, parks]

end Sys2Proof.Claims
end

section
/-! The return from a park (R428, R434), and the fault of a bundle (R423). -/

namespace Sys2Proof.Machine

/-- R435: a context as it is under the schedule counter of the core to which it returns. -/
def Core.returned (saved : Core) (sched : Nat) (moved : Bool) : Core := (saved.rebase sched).arrive moved

/-- R435: what is in flight in the context keeps what it lands and its remaining delay. -/
theorem Core.returned_eq (saved : Core) (sched : Nat) (moved : Bool) :
    ∃ fs, saved.returned sched moved =
        { saved with
          sched := saved.sched + (sched - saved.sched), inflight := fs,
          units := saved.units.map fun e => (e.1, e.2 + (sched - saved.sched)) } ∧
      fs.map (·.what) = saved.inflight.map (·.what) ∧
      ∀ x ∈ saved.inflight, ∃ y ∈ fs, y.what = x.what ∧ y.due = x.due + (sched - saved.sched) := by
  cases moved with
  | false =>
    refine ⟨_, rfl, ?_, fun x hx => ⟨_, List.mem_map_of_mem hx, rfl, rfl⟩⟩
    rw [List.map_map]; rfl
  | true =>
    refine ⟨_, rfl, ?_, fun x hx => ⟨_, List.mem_map_of_mem (List.mem_map_of_mem hx), rfl, rfl⟩⟩
    simp only [Core.rebase, List.map_map]; rfl

/-- R434: the saved accesses of a queue whose bit of the mask is 1, to be replayed. -/
theorem replayed_eq (board : List Access) (mask : Nat) (m : Bool) (p : Access → Bool) (hp : ∀ x, p x = decide (x.m = m)) :
    (((board.zipIdx.filter fun e => mask.testBit e.2).map fun e => { e.1 with faulted := false, replay := true }).filter p) =
      (board.zipIdx.filter fun e => e.1.m = m && mask.testBit e.2).map fun e => { e.1 with faulted := false, replay := true } := by
  rw [List.filter_map, List.filter_filter]
  refine congrArg _ (List.filter_congr fun e _ => ?_)
  simp only [Function.comp, hp]

/-- R91: the cores once the stores of a context are no longer away from core `frm`. -/
theorem State.core_regain (s : State) (frm : Nat) (as : List Nat) (d : Nat) :
    ∃ a, (s.setCore frm ((s.core frm).regain as)).core d = { s.core d with away := a } := by
  by_cases h : frm = d
  · subst h; exact ⟨_, State.core_setCore_self _ _ _⟩
  · exact ⟨(s.core d).away, State.core_setCore_ne _ _ h⟩

/-- R434: the accesses of a parked context whose bit of the mask is 1. -/
def Core.replays (r : Core) (mask : Nat) : List Access :=
  (r.board.zipIdx.filter fun e => mask.testBit e.2).map fun e => { e.1 with faulted := false, replay := true }

/-- R428: core `k` with the context `r`: what belongs to the core stays. -/
def Core.resumed (k r : Core) (lead mask : Nat) : Core :=
  { r with
    away := k.away, mode := r.after, handles := k.handles, flume := k.flume, sq := k.sq, oseq := k.oseq, phaseCount := k.phaseCount,
    gq := (r.replays mask).filter (!·.m), mq := (r.replays mask).filter (·.m), board := [], trap := none, lead := lead,
    freeze := k.freeze, cycle := k.cycle, wall := k.wall, charges := k.charges,
    tail := { r.tail with flight := r.tail.flight ++ k.tail.flight } }

/-- R428: the core that takes a context back. -/
theorem State.unpark_core (s : State) (c frm lead : Nat) (saved : Core) (mask : Nat) :
    ∃ a, (s.unpark c frm lead saved mask).core c =
      Core.resumed { s.core c with away := a } (saved.returned (s.core c).sched (frm != c)) lead mask := by
  obtain ⟨a, own⟩ := s.core_regain frm saved.stores c
  refine ⟨a, (State.core_setCore_self _ _ _).trans ?_⟩
  rw [own]
  rfl

/-- R428, R91: of another core only the stores that were away from it come back. -/
theorem State.unpark_other (s : State) (c frm lead : Nat) (saved : Core) (mask : Nat) {d : Nat} (h : d ≠ c) :
    (s.unpark c frm lead saved mask).core d = (s.setCore frm ((s.core frm).regain saved.stores)).core d :=
  State.core_setCore_ne _ _ h.symm

/-! ### Which fault (R423) -/

/-- The faults among the marks of a bundle's words. -/
def trapsOf (ms : List (Nat × Mark)) : List (Nat × Trap) :=
  ms.filterMap fun (n, m) => match m with | .trap t => some (n, t) | _ => none

theorem mem_trapsOf {ms : List (Nat × Mark)} {n : Nat} {x : Trap} : (n, x) ∈ trapsOf ms ↔ (n, Mark.trap x) ∈ ms := by
  unfold trapsOf
  rw [List.mem_filterMap]
  constructor
  · rintro ⟨⟨m, mark⟩, hm, eq⟩
    cases mark with
    | trap t => cases eq; exact hm
    | ok | stall | tail | freeze | tick => cases eq
  · exact fun h => ⟨_, h, rfl⟩

theorem chooseTrap_eq (static : Bool) (ms : List (Nat × Mark)) : chooseTrap static ms =
    if !static || (trapsOf ms).any (fun x => x.2.cls = 1) then some { cls := 1 }
    else if (trapsOf ms).any (fun x => x.2.cls = 2) then some { cls := 2 }
    else (List.range 8).findSome? fun n => ((trapsOf ms).find? fun x => x.1 = n).map (·.2) := rfl

/-- A fault of a class among the marks, or none. -/
theorem any_cls {ms : List (Nat × Mark)} {k n : Nat} {x : Trap} (h : (n, Mark.trap x) ∈ ms) (hk : x.cls = k) :
    ((trapsOf ms).any fun y => y.2.cls = k) = true := List.any_eq_true.2 ⟨(n, x), mem_trapsOf.2 h, decide_eq_true hk⟩

theorem any_cls_false {ms : List (Nat × Mark)} {k : Nat} (h : ∀ m y, (m, Mark.trap y) ∈ ms → y.cls ≠ k) :
    ((trapsOf ms).any fun y => y.2.cls = k) = false :=
  List.any_eq_false.2 fun e he => by simpa using h e.1 e.2 (mem_trapsOf.1 he)

/-- The fault of the lowest-numbered word. -/
theorem findSome_lowest {l : List (Nat × Trap)} {n : Nat} {x : Trap} (h : (n, x) ∈ l) (hn : n < 8)
    (low : ∀ m y, (m, y) ∈ l → n ≤ m ∧ (m = n → y = x)) :
    ((List.range 8).findSome? fun j => (l.find? fun e : Nat × Trap => e.1 = j).map (·.2)) = some x := by
  have here : (l.find? fun e : Nat × Trap => e.1 = n).map (·.2) = some x := by
    cases found : l.find? fun e : Nat × Trap => decide (e.1 = n) with
    | none => exact absurd rfl (of_decide_eq_false (Bool.eq_false_iff.2 (List.find?_eq_none.1 found _ h)))
    | some e =>
      have number : e.1 = n := of_decide_eq_true (List.find?_some (p := fun e : Nat × Trap => decide (e.1 = n)) found)
      exact congrArg some ((low e.1 e.2 (List.mem_of_find?_eq_some found)).2 number)
  have before : ∀ j ∈ List.range n, (l.find? fun e : Nat × Trap => e.1 = j).map (·.2) = none := fun j hj => by
    rw [Option.map_eq_none_iff, List.find?_eq_none]
    intro e he eq
    have := (low e.1 e.2 he).1
    have := of_decide_eq_true eq
    have := List.mem_range.1 hj
    omega
  have parts : List.range 8 = List.range n ++ n :: (List.range (8 - n - 1)).map (n + 1 + ·) := by
    rw [show 8 = n + (1 + (8 - n - 1)) by omega, List.range_add, List.range_add]
    simp [Nat.add_assoc]
  rw [parts, List.findSome?_append, List.findSome?_eq_none_iff.2 before, Option.none_or, List.findSome?_cons, here]

end Sys2Proof.Machine

namespace Sys2Proof.Claims
open Sys2Proof.Machine

/-- Settles O19: the core takes the context as it is under its own counter. -/
theorem returnFromAPark : Obligations.ReturnFromAPark := by
  intro s c frm lead mask saved t k replayed
  obtain ⟨a, core⟩ := s.unpark_core c frm lead saved mask
  obtain ⟨fs, context, whats, delays⟩ := saved.returned_eq (s.core c).sched (frm != c)
  rw [context] at core
  have core : k = _ := core
  have sched : k.sched = saved.sched + ((s.core c).sched - saved.sched) := by rw [core]; rfl
  have flight : k.inflight = fs := by rw [core]; rfl
  rw [flight, sched]
  refine ⟨?mode, ?pc, ?sregs, ?planes, ?preds, ?loops, ?depth, ?widx, ?trap, ?lead, ?board, ?tail, by omega, ?handles, ?flume, ?sq, whats,
    fun x hx _ => ?delay, ?gq, ?mq, fun d hc hf => ?other, fun d hc => ?away, rfl, rfl⟩
  case delay =>
    obtain ⟨y, hy, what, due⟩ := delays x hx
    exact ⟨y, hy, what, by omega⟩
  case gq => rw [core]; exact replayed_eq saved.board mask false (!·.m) fun x => by cases x.m <;> rfl
  case mq => rw [core]; exact replayed_eq saved.board mask true (·.m) fun x => by cases x.m <;> rfl
  case other => exact (s.unpark_other c frm lead saved mask hc).trans (State.core_setCore_ne _ _ hf.symm)
  case away =>
    obtain ⟨a, own⟩ := s.core_regain frm saved.stores d
    exact ⟨a, (s.unpark_other c frm lead saved mask hc).trans own⟩
  all_goals rw [core]; rfl

/-- Settles O20: by the three stages of `chooseTrap`. -/
theorem oneFaultOfABundle : Obligations.OneFaultOfABundle := by
  intro static ms
  simp only [chooseTrap_eq]
  refine ⟨fun bad => by rw [bad]; rfl, fun n x h cls => ?_, fun n x ok free h cls => ?_, fun n x ok low h hn => ?_, fun none => ?_⟩
  · rw [any_cls h cls, Bool.or_true, if_pos rfl]
  · rw [ok, any_cls_false free, any_cls h cls]; rfl
  · rw [ok, any_cls_false fun m y hy => (low m y hy).1, any_cls_false fun m y hy => (low m y hy).2.1]
    exact findSome_lowest (mem_trapsOf.2 h) hn fun m y hy => (low m y (mem_trapsOf.1 hy)).2.2
  · have nil : trapsOf ms = [] := List.eq_nil_iff_forall_not_mem.2 fun e he => none e.1 e.2 (mem_trapsOf.1 he)
    rw [nil]; rfl

end Sys2Proof.Claims
end

section
/-! The loads and stores of the slice, of the G and M spaces, and through a handle: their checks, what they wait for, and what they send or
land (R127, R135, R136, R219-R227, R235-R237). -/

namespace Sys2Proof.Machine

/-! ### The own slice (R127, R220, R363) -/

/-- R220: an address that is a multiple of the access's size. -/
theorem not_odd {a n : Nat} (h : a % n = 0) : ¬ (a % n != 0) = true := by rw [h]; decide

theorem State.lCheck_inside {t : State} {a n unit : Nat} (h : t.inSlice a n unit) : t.lCheck a n unit = none := by
  obtain ⟨aligned, inside⟩ := h
  exact (if_neg (not_odd aligned)).trans (if_neg (Nat.not_lt.2 inside))

theorem State.lCheck_odd {t : State} {a unit : Nat} (n : Nat) (h : a % unit ≠ 0) : t.lCheck a n unit = some { cls := 4, addr := a } :=
  if_pos (bne_iff_ne.2 h)

theorem State.lCheck_out {t : State} {a n unit : Nat} (h : a % unit = 0)
    (out : min 2097152 ((t.job t.turn).gran * 65536) < a + n) : t.lCheck a n unit = some { cls := 3, addr := a } :=
  (if_neg (not_odd h)).trans (if_pos out)

/-- R127: taking granules changes their tags alone. -/
theorem State.holding_eq (t : State) (a n : Nat) : ∃ gs, t.holding a n = { t with granules := gs } := by
  have take (t : State) (gid g : Nat) : ∃ gs, t.takeGranule gid g = { t with granules := gs } := by
    unfold State.takeGranule
    split
    · exact ⟨t.granules, rfl⟩
    · exact ⟨_, rfl⟩
  obtain ⟨gs, first⟩ := take t (t.coreGid t.turn) (gAddr t.turn a / Config.granuleBytes)
  obtain ⟨gs', second⟩ := take (t.takeGranule (t.coreGid t.turn) (gAddr t.turn a / Config.granuleBytes)) (t.coreGid t.turn)
    ((gAddr t.turn a + n - 1) / Config.granuleBytes)
  exact ⟨gs', by rw [State.holding, second, first]⟩

@[simp] theorem State.holding_cur (t : State) (a n : Nat) : (t.holding a n).cur = t.cur := by
  obtain ⟨gs, h⟩ := t.holding_eq a n
  rw [h]; rfl

@[simp] theorem State.holding_turn (t : State) (a n : Nat) : (t.holding a n).turn = t.turn := by
  obtain ⟨gs, h⟩ := t.holding_eq a n
  rw [h]

@[simp] theorem State.holding_lRead (t : State) (a n c b m : Nat) : (t.holding a n).lRead c b m = t.lRead c b m := by
  obtain ⟨gs, h⟩ := t.holding_eq a n
  rw [h]; rfl

/-- R127, R220: an access that passes its checks goes on in the state in which the gang holds its granules. -/
theorem State.local_ok {t : State} {a n unit : Nat} (f : State → Eff) (inside : t.inSlice a n unit) (owned : t.ownsSlice a n) :
    t.local a n unit f = f (t.holding a n) := by
  obtain ⟨first, last⟩ := owned
  simp only [State.local, State.lCheck_inside inside, State.touch, first, last, Bool.and_self, if_true]
  rfl

theorem State.local_fault {t : State} {a n unit : Nat} {x : Trap} (f : State → Eff) (h : t.lCheck a n unit = some x) :
    t.local a n unit f = .error (.trap x) := by
  simp only [State.local, h]

/-! ### The G and the M space (R220, R227) -/

theorem gCheck_inside {a n unit : Nat} (aligned : a % unit = 0) (inside : a + n ≤ 0xA0000000) : gCheck a n unit = none :=
  (if_neg (not_odd aligned)).trans (if_neg (Nat.not_lt.2 inside))

theorem gCheck_odd {a unit : Nat} (n : Nat) (h : a % unit ≠ 0) : gCheck a n unit = some { cls := 4, addr := a } := if_pos (bne_iff_ne.2 h)

theorem gCheck_out {a n unit : Nat} (h : a % unit = 0) (out : 0xA0000000 < a + n) : gCheck a n unit = some { cls := 3, addr := a } :=
  (if_neg (not_odd h)).trans (if_pos out)

/-- R220, R227: the end of the space of an access. -/
def State.windowEnd (t : State) (m : Bool) : Nat := if m then ((t.vd (t.coreVd t.turn)).lastPg.toNat + 1) * 4096 else 0xA0000000

theorem State.remote_ok {t : State} {x : Access} (aligned : x.addr % x.size = 0) (inside : x.addr + x.size ≤ t.windowEnd x.m) :
    t.remote x = t.push x := by
  unfold State.remote
  unfold State.windowEnd at inside
  cases hm : x.m with
  | false =>
    rw [hm] at inside
    simp only [Bool.false_eq_true, if_false, gCheck_inside aligned inside]
  | true =>
    rw [hm, if_pos rfl] at inside
    simp only [if_true, State.mWindow, aligned, bne_self_eq_false, Bool.false_eq_true, if_false, Nat.not_lt.2 inside]

theorem State.remote_odd {t : State} {x : Access} (h : x.addr % x.size ≠ 0) : t.remote x = .error (.trap { cls := 4, addr := x.addr }) := by
  unfold State.remote
  cases x.m with
  | false => simp only [Bool.false_eq_true, if_false, gCheck_odd _ h]
  | true => simp only [if_true, State.mWindow, bne_iff_ne.2 h, trapOf]

theorem State.remote_out {t : State} {x : Access} (aligned : x.addr % x.size = 0) (out : t.windowEnd x.m < x.addr + x.size) :
    t.remote x = .error (.trap { cls := 3, addr := x.addr }) := by
  unfold State.remote
  unfold State.windowEnd at out
  cases hm : x.m with
  | false =>
    rw [hm] at out
    simp only [Bool.false_eq_true, if_false, gCheck_out aligned out]
  | true =>
    rw [hm, if_pos rfl] at out
    simp only [if_true, State.mWindow, aligned, bne_self_eq_false, Bool.false_eq_true, if_false, out, trapOf]

/-- R224: a store for which the store queue has no line left. -/
theorem State.push_overflows {t : State} {x : Access} (store : x.op = .store ∨ x.op = .planeStore)
    (room : t.cur.gq.length + t.cur.mq.length < 16) (new : (t.stamped x).newLines t.cur.sqAhead ≠ [])
    (full : 512 < t.cur.sqAhead.length + ((t.stamped x).newLines t.cur.sqAhead).length) : t.push x = trapped 14 x.addr := by
  unfold State.push
  refine (if_neg (Nat.not_le.2 room)).trans ((if_pos (by simpa using store)).trans (if_pos ?_))
  refine Bool.and_eq_true_iff.2 ⟨?_, decide_eq_true full⟩
  rw [Bool.not_eq_true', List.isEmpty_eq_false_iff]
  exact new

/-! ### Handles (R135, R136) -/

/-- R152, R226: the low bit of an effective immediate is the word's own. -/
theorem State.imm32_bit0 (t : State) (imm : BitVec 11) : (t.imm32 imm).getLsbD 0 = imm.getLsbD 0 := by
  rw [State.imm32_eq]
  split
  · rw [BitVec.getLsbD_signExtend, if_pos (by decide)]; rfl
  · rw [BitVec.getLsbD_append, if_pos (by decide)]

/-- R136: a reader may issue. -/
def Handle.ready (x : Handle) (gen : Bool) : Prop := (x.state = 2 ∨ x.state = 3) ∧ x.gen = gen ∧ x.shs ≠ 2 ∧ x.rdr < 255

theorem Handle.readable_iff (x : Handle) (gen : Bool) : x.readable gen = true ↔ x.ready gen := by
  simp [Handle.readable, Handle.ready, and_assoc]

theorem Handle.at_inside {x : Handle} {off : Int} {n : Nat} (h : 0 ≤ off ∧ off + n ≤ x.bankSize) :
    x.at_ off n = some (x.visible + off.toNat) :=
  if_pos (by simpa only [Bool.and_eq_true, decide_eq_true_eq] using h)

theorem Handle.at_outside {x : Handle} {off : Int} {n : Nat} (h : off < 0 ∨ x.bankSize < off + n) : x.at_ off n = none :=
  if_neg (by simp only [Bool.and_eq_true, decide_eq_true_eq]; omega)

theorem Handle.stored_some {x : Handle} (h : x.state ≠ 3) : x.stored = some (if x.state = 0 then { x with state := 1 } else x) := by
  by_cases empty : x.state = 0
  · rw [Handle.stored, if_pos empty, if_pos empty]
  · rw [Handle.stored, if_neg empty, if_neg empty, if_neg h]

theorem Handle.stored_draining {x : Handle} (h : x.state = 3) : x.stored = none := by
  simp only [Handle.stored, h]; rfl

section
variable {t : State} {h : Fin 64} {off : Int} {n : Nat} {gen : Bool} {f : Nat → State → Eff}

theorem State.handleRead_busy (busy : (t.prior.handle h).mretBusy ≠ 0) : t.handleRead h gen off n f = stalled := if_pos (bne_iff_ne.2 busy)

theorem State.handleWrite_busy (busy : (t.prior.handle h).mretBusy ≠ 0) : t.handleWrite h off n f = stalled := if_pos (bne_iff_ne.2 busy)

variable (free : (t.prior.handle h).mretBusy = 0)
include free

theorem State.handleRead_undefined (undef : (t.cur.handle h).defd = false) : t.handleRead h gen off n f = trapped 16 h :=
  (if_neg (by rw [free]; decide)).trans (if_pos (by rw [undef]; rfl))

theorem State.handleWrite_violation (bad : (t.cur.handle h).defd = false ∨ (t.cur.handle h).state = 3) :
    t.handleWrite h off n f = trapped 16 h := by
  refine (if_neg (by rw [free]; decide)).trans ?_
  cases defd : (t.cur.handle h).defd with
  | false => rfl
  | true => simp only [Handle.stored_draining (bad.resolve_left (by rw [defd]; decide)), Bool.not_true, Bool.false_eq_true, if_false]

variable (defd : (t.cur.handle h).defd = true)
include defd

theorem State.handleRead_waits (wait : ¬ (t.cur.handle h).ready gen) : t.handleRead h gen off n f = stalled := by
  have unreadable : (t.cur.handle h).readable gen = false := Bool.eq_false_iff.2 (mt (Handle.readable_iff _ _).1 wait)
  exact (if_neg (by rw [free]; decide)).trans ((if_neg (by rw [defd]; decide)).trans (if_pos (by rw [unreadable]; rfl)))

/-- R135, R226: a read whose handle is ready goes on to the bank's window. -/
theorem State.handleRead_ready (ready : (t.cur.handle h).ready gen) :
    t.handleRead h gen off n f = match (t.cur.handle h).at_ off n with
      | none => trapped 3
      | some a => t.local a n 1 fun s =>
          f a (s.setCur (s.cur.setHandle h { t.cur.handle h with rdr := (t.cur.handle h).rdr + 1 })) := by
  unfold State.handleRead
  simp only [free, defd, (Handle.readable_iff _ _).2 ready, bne_self_eq_false, Bool.not_true, Bool.false_eq_true, if_false] <;> rfl

/-- R135, R226: likewise a store to a handle that takes it. -/
theorem State.handleWrite_taken (taken : (t.cur.handle h).state ≠ 3) :
    t.handleWrite h off n f = match (t.cur.handle h).at_ off n with
      | none => trapped 3
      | some a => t.local a n 1 fun s =>
          f a (s.setCur (s.cur.setHandle h
            (if (t.cur.handle h).state = 0 then { t.cur.handle h with state := 1 } else t.cur.handle h))) := by
  unfold State.handleWrite
  simp only [free, defd, Handle.stored_some taken, bne_self_eq_false, Bool.not_true, Bool.false_eq_true, if_false] <;> rfl

end

end Sys2Proof.Machine

namespace Sys2Proof.Claims
open Sys2Proof.Machine

/-! ### Words of each kind -/

theorem Traps.mono {i : Instr} {bad bad' : State → Prop} {x : State → Trap} (h : Traps i bad x) (hi : ∀ t, bad' t → bad t) :
    Traps i bad' x := fun s t hg hb => h s t hg (hi t hb)

theorem Stalls.mono {i : Instr} {busy busy' : State → Prop} (h : Stalls i busy) (hi : ∀ t, busy' t → busy t) : Stalls i busy' :=
  fun s t hg hb => h s t hg (hi t hb)

theorem Takes.mono {i : Instr} {ok ok' : State → Prop} {g : State → State} {lat : Nat} {ls : State → List Landing}
    (h : Takes i ok g lat ls) (hi : ∀ t, ok' t → ok t) : Takes i ok' g lat ls := fun s t hg ho => h s t hg (hi t ho)

/-- R220: what a word that accesses the slice rejects. -/
theorem rejects_local {i : Instr} {a : State → Nat} {n : Nat} {f : State → State → Eff}
    (he : ∀ s, exec i s = s.word i fun s => s.local (a s) n n (f s)) :
    Rejects i a n fun t => min 2097152 ((t.job t.turn).gran * 65536) :=
  ⟨traps_of he fun _ _ _ odd => State.local_fault _ (State.lCheck_odd _ odd),
    traps_of he fun _ _ _ ⟨aligned, out⟩ => State.local_fault _ (State.lCheck_out aligned out)⟩

/-- R219: a word of the slice that lands results. -/
theorem takes_local {i : Instr} {a : State → Nat} {n lat : Nat} {f : State → State → Eff} {ls : State → List Landing}
    (he : ∀ s, exec i s = s.word i fun s => s.local (a s) n n (f s))
    (hf : ∀ t, f t (t.holding (a t) n) = (t.holding (a t) n).landAll lat (ls t)) :
    Takes i (fun t => t.inSlice (a t) n n ∧ t.ownsSlice (a t) n) (fun t => t.holding (a t) n) lat ls :=
  takes_of he fun _ t _ ⟨inside, owned⟩ => (State.local_ok _ inside owned).trans (hf t)

section
variable {i : Instr} {x : State → Access} {a : State → Nat} {n : Nat} {last : State → Nat}
  (he : ∀ s, exec i s = s.word i fun s => s.remote (x s)) (addr : ∀ t, (x t).addr = a t) (size : ∀ t, (x t).size = n)
  (ends : ∀ t : State, t.windowEnd (x t).m = last t)
include he addr size ends

/-- R220, R227: what a word of the G or the M space rejects. -/
theorem rejects_remote : Rejects i a n last := by
  refine ⟨traps_of he fun _ t _ odd => ?_, traps_of he fun _ t _ ⟨aligned, out⟩ => ?_⟩ <;> rw [← addr]
  · exact State.remote_odd (by rw [addr, size]; exact odd)
  · exact State.remote_out (by rw [addr, size]; exact aligned) (by rw [addr, size, ends]; exact out)

/-- R219, R227: what it sends. -/
theorem sends_remote : Sends i (fun t => a t % n = 0 ∧ a t + n ≤ last t) x :=
  sends_of he fun t ⟨aligned, inside⟩ =>
    State.remote_ok (by rw [addr, size]; exact aligned) (by rw [addr, size, ends]; exact inside)

/-- R224: where the store queue has no line left. -/
theorem overflows_remote (store : ∀ t, (x t).op = .store ∨ (x t).op = .planeStore) :
    Overflows i (fun t => a t % n = 0 ∧ a t + n ≤ last t) x :=
  traps_of he fun _ t _ ⟨⟨aligned, inside⟩, room, new, full⟩ =>
    (State.remote_ok (by rw [addr, size]; exact aligned) (by rw [addr, size, ends]; exact inside)).trans
      (State.push_overflows (store t) room new full)

end

/-- R224: a word that sends a store without other checks, where the store queue has no line left. -/
theorem overflows_of {i : Instr} {ok : State → Prop} {x : State → Access} {f : State → Eff} (he : ∀ s, exec i s = s.word i f)
    (hf : ∀ t, ok t → f t = t.push (x t)) (store : ∀ t, (x t).op = .store ∨ (x t).op = .planeStore) : Overflows i ok x :=
  traps_of he fun _ t _ ⟨hok, room, new, full⟩ => (hf t hok).trans (State.push_overflows (store t) room new full)

/-! ### Words through a handle -/

/-- R226: an access of `n` bytes at an offset is free, and finds its handle defined. -/
def usable (h : Fin 64) (t : State) : Prop := (t.prior.handle h).mretBusy = 0 ∧ (t.cur.handle h).defd = true

/-- R135: the slice offset of an access through a handle. -/
def bankAt (h : Fin 64) (off : State → Int) (t : State) : Nat := (t.cur.handle h).visible + (off t).toNat

/-- R135: outside the visible bank. -/
def outside (h : Fin 64) (off : State → Int) (n : Nat) (t : State) : Prop := off t < 0 ∨ (t.cur.handle h).bankSize < off t + n

/-- R363: inside the bank, but beyond what the launch may reach. -/
def past (h : Fin 64) (off : State → Int) (n : Nat) (t : State) : Prop :=
  ¬ outside h off n t ∧ min 2097152 ((t.job t.turn).gran * 65536) < bankAt h off t + n

/-- R135, R363: inside the bank and the launch's slice, on granules that the gang holds or may take. -/
def insideBank (h : Fin 64) (off : State → Int) (n : Nat) (t : State) : Prop :=
  0 ≤ off t ∧ off t + n ≤ (t.cur.handle h).bankSize ∧ t.inSlice (bankAt h off t) n 1 ∧ t.ownsSlice (bankAt h off t) n

/-- R127, R136: the state in which the gang holds the granules and the handle is `x`. -/
def accessing (h : Fin 64) (off : State → Int) (n : Nat) (x : State → Handle) (t : State) : State :=
  let u := t.holding (bankAt h off t) n
  u.setCur (u.cur.setHandle h (x t))

section
variable {i : Instr} {h : Fin 64} {off : State → Int} {n lat : Nat} {gen : Bool} {f : Nat → State → Eff}

/-- R136: the handle with one reader more, and the handle that a store leaves. -/
def counted (h : Fin 64) (t : State) : Handle := { t.cur.handle h with rdr := (t.cur.handle h).rdr + 1 }
def filling (h : Fin 64) (t : State) : Handle :=
  if (t.cur.handle h).state = 0 then { t.cur.handle h with state := 1 } else t.cur.handle h

theorem not_outside {t : State} (inside : ¬ outside h off n t) : 0 ≤ off t ∧ off t + n ≤ (t.cur.handle h).bankSize := by
  unfold outside at inside
  omega

/-- R135, R136, R226: a load through a handle. -/
theorem reads_of {ls : State → List Landing} (he : ∀ s, exec i s = s.word i fun s => s.handleRead h gen (off s) n f)
    (hf : ∀ t, f (bankAt h off t) (accessing h off n (counted h) t) = (accessing h off n (counted h) t).landAll lat (ls t)) :
    Traps i (fun t => (t.prior.handle h).mretBusy = 0 ∧ (t.cur.handle h).defd = false) (fun _ => { cls := 16, addr := h }) ∧
    Stalls i (fun t => ¬ (t.prior.handle h).mretBusy = 0 ∨ (t.cur.handle h).defd = true ∧ ¬ (t.cur.handle h).ready gen) ∧
    Traps i (fun t => usable h t ∧ (t.cur.handle h).ready gen ∧ outside h off n t) (fun _ => { cls := 3 }) ∧
    Traps i (fun t => usable h t ∧ (t.cur.handle h).ready gen ∧ past h off n t) (fun t => { cls := 3, addr := bankAt h off t }) ∧
    Takes i (fun t => (usable h t ∧ insideBank h off n t) ∧ (t.cur.handle h).ready gen) (accessing h off n (counted h)) lat ls := by
  refine ⟨traps_of he fun _ t _ ⟨free, undef⟩ => State.handleRead_undefined free undef, stalls_of he fun _ t _ busy => ?_,
    traps_of he fun _ t _ ⟨⟨free, defd⟩, ready, out⟩ => ?_, traps_of he fun _ t _ ⟨⟨free, defd⟩, ready, inside, out⟩ => ?_,
    takes_of he fun _ t _ ⟨⟨⟨free, defd⟩, low, high, inside, owned⟩, ready⟩ => ?_⟩
  · by_cases free : (t.prior.handle h).mretBusy = 0
    · obtain ⟨defd, wait⟩ := busy.resolve_left (not_not.2 free)
      exact State.handleRead_waits free defd wait
    · exact State.handleRead_busy free
  · rw [State.handleRead_ready free defd ready, Handle.at_outside out]; rfl
  · rw [State.handleRead_ready free defd ready, Handle.at_inside (not_outside inside)]
    exact State.local_fault _ (State.lCheck_out (Nat.mod_one _) out)
  · rw [State.handleRead_ready free defd ready, Handle.at_inside ⟨low, high⟩]
    exact (State.local_ok _ inside owned).trans (hf t)

/-- R135, R136, R226: a store through a handle. -/
theorem writes_of {ls : State → List Landing} (he : ∀ s, exec i s = s.word i fun s => s.handleWrite h (off s) n f)
    (hf : ∀ t, f (bankAt h off t) (accessing h off n (filling h) t) = (accessing h off n (filling h) t).landAll lat (ls t)) :
    Traps i (fun t => (t.prior.handle h).mretBusy = 0 ∧ ((t.cur.handle h).defd = false ∨ (t.cur.handle h).state = 3))
      (fun _ => { cls := 16, addr := h }) ∧
    Stalls i (fun t => ¬ (t.prior.handle h).mretBusy = 0) ∧
    Traps i (fun t => usable h t ∧ (t.cur.handle h).state ≠ 3 ∧ outside h off n t) (fun _ => { cls := 3 }) ∧
    Traps i (fun t => usable h t ∧ (t.cur.handle h).state ≠ 3 ∧ past h off n t) (fun t => { cls := 3, addr := bankAt h off t }) ∧
    Takes i (fun t => (usable h t ∧ insideBank h off n t) ∧ (t.cur.handle h).state ≠ 3) (accessing h off n (filling h)) lat ls := by
  refine ⟨traps_of he fun _ t _ ⟨free, bad⟩ => State.handleWrite_violation free bad,
    stalls_of he fun _ t _ busy => State.handleWrite_busy busy,
    traps_of he fun _ t _ ⟨⟨free, defd⟩, taken, out⟩ => ?_, traps_of he fun _ t _ ⟨⟨free, defd⟩, taken, inside, out⟩ => ?_,
    takes_of he fun _ t _ ⟨⟨⟨free, defd⟩, low, high, inside, owned⟩, taken⟩ => ?_⟩
  · rw [State.handleWrite_taken free defd taken, Handle.at_outside out]; rfl
  · rw [State.handleWrite_taken free defd taken, Handle.at_inside (not_outside inside)]
    exact State.local_fault _ (State.lCheck_out (Nat.mod_one _) out)
  · rw [State.handleWrite_taken free defd taken, Handle.at_inside ⟨low, high⟩]
    exact (State.local_ok _ inside owned).trans (hf t)

end

/-! ### The scalar words -/

/-- Settles O21: both words go through `State.local`. -/
theorem localLoadsAndStores : Obligations.LocalLoadsAndStores := by
  refine ⟨fun d a b w sh => ⟨takes_local (fun _ => rfl) fun t => ?_, takes_local (fun _ => rfl) fun t => ?_⟩, fun d a b w sh => ?_⟩
  · simp only [State.localLoad, State.holding_cur, State.holding_turn, State.holding_lRead]; rfl
  · simp only [State.holding_cur, ← landAll_one]; rfl
  · obtain ⟨loadOdd, loadOut⟩ := rejects_local (i := .ldl d a b w sh) fun _ => rfl
    obtain ⟨storeOdd, storeOut⟩ := rejects_local (i := .stl d a b w sh) fun _ => rfl
    exact ⟨loadOdd, storeOdd, loadOut, storeOut⟩

/-- R222: the constant window. -/
theorem ldk_rejects (d a b : Fin 64) (w : Width) (sh : Fin 4) :
    Rejects (.ldk d a b w sh) (fun t => t.cur.addr a b sh) (bytesW w) fun _ => 65536 :=
  ⟨traps_of (fun _ => rfl) fun _ _ _ odd => if_pos (bne_iff_ne.2 odd),
    traps_of (fun _ => rfl) fun _ _ _ ⟨aligned, out⟩ => (if_neg (not_odd aligned)).trans (if_pos out)⟩

/-- Settles O22: four words go through `State.remote`, the fifth reads the constant window. -/
theorem remoteLoadsAndStores : Obligations.RemoteLoadsAndStores := by
  intro d a b w sh n at_ far inG inM load store got
  have fromG (p : State → Nat) (t : State) : t.windowEnd (load false p t).m = 0xA0000000 := rfl
  have toG (p : State → Nat) (t : State) : t.windowEnd (store false p t).m = 0xA0000000 := rfl
  refine ⟨sends_remote (fun _ => rfl) (fun _ => rfl) (fun _ => rfl) (fromG at_), sends_remote (fun _ => rfl) (fun _ => rfl) (fun _ => rfl) (toG at_),
    sends_remote (fun _ => rfl) (fun _ => rfl) (fun _ => rfl) fun _ => rfl, sends_remote (fun _ => rfl) (fun _ => rfl) (fun _ => rfl) fun _ => rfl,
    ⟨rejects_remote (fun _ => rfl) (fun _ => rfl) (fun _ => rfl) (fromG at_), rejects_remote (fun _ => rfl) (fun _ => rfl) (fun _ => rfl) (toG at_),
      rejects_remote (fun _ => rfl) (fun _ => rfl) (fun _ => rfl) fun _ => rfl,
      rejects_remote (fun _ => rfl) (fun _ => rfl) (fun _ => rfl) fun _ => rfl, ldk_rejects d a b w sh,
      overflows_remote (fun _ => rfl) (fun _ => rfl) (fun _ => rfl) (toG at_) fun _ => .inl rfl,
      overflows_remote (fun _ => rfl) (fun _ => rfl) (fun _ => rfl) (fun _ => rfl) fun _ => .inl rfl⟩,
    takes_of (fun _ => rfl) fun _ t _ ⟨aligned, inside⟩ => ?_⟩
  exact (if_neg (not_odd aligned)).trans (if_neg (Nat.not_lt.2 inside))

/-- R136, R226: the reader of one word is done. -/
theorem readsDone_one (k : Core) (i : Instr) (h : Fin 64) (reads : readHandle i = some h.val) :
    (k.readsDone [i]).handle h = (k.handle h).readDone := by
  simp only [Core.readsDone, List.filterMap_cons, reads, List.filterMap_nil, List.foldl_cons, List.foldl_nil]
  exact Map.get_put_self _ _ _ _

theorem Handle.readDone_eq (x : Handle) : x.readDone.rdr = x.rdr - 1 ∧
    x.readDone.state = if x.state = 3 ∧ x.rdr - 1 = 0 ∧ x.releases = 0 then 0 else x.state := by
  by_cases done : x.state = 3 ∧ x.rdr - 1 = 0 ∧ x.releases = 0
  · have settles : (decide (x.state = 3) && decide (x.rdr - 1 = 0) && decide (x.releases = 0)) = true := by simpa [and_assoc] using done
    have done' : x.readDone = { x with rdr := x.rdr - 1, state := 0 } := if_pos settles
    rw [done', if_pos done]
    exact ⟨rfl, rfl⟩
  · have stays : ¬ (decide (x.state = 3) && decide (x.rdr - 1 = 0) && decide (x.releases = 0)) = true := by simpa [and_assoc] using done
    have open' : x.readDone = { x with rdr := x.rdr - 1 } := if_neg stays
    rw [open', if_neg done]
    exact ⟨rfl, rfl⟩

/-- R127, R136: an access through a handle changes granules and the handle alone. -/
theorem accessing_eq (h : Fin 64) (off : State → Int) (n : Nat) (x : State → Handle) (t : State) :
    (accessing h off n x t).cur = t.cur.setHandle h (x t) ∧ (accessing h off n x t).turn = t.turn ∧
      ∀ c a m, (accessing h off n x t).lRead c a m = t.lRead c a m := by
  unfold accessing
  refine ⟨?_, State.holding_turn _ _ _, fun c a m => State.holding_lRead t _ _ _ _ _⟩
  rw [State.cur_setCur, State.holding_cur]

/-- Settles O23: both words go through `State.handleRead` and `State.handleWrite`. -/
theorem handleLoadsAndStores : Obligations.HandleLoadsAndStores := by
  intro h r imm x off at_ ok ready filling got free outside past
  have low (t : State) : (t.imm32 imm).getLsbD 0 = imm.getLsbD 0 := t.imm32_bit0 imm
  obtain ⟨undefined, waits, leaves, beyond, loads⟩ :=
    reads_of (i := .ldh h r imm) (off := off) (lat := 3)
      (ls := fun t => regLandings r [BitVec.ofNat 32 (got t)] ++ [.latch 3 (BitVec.ofNat 32 (got t))]) (fun _ => rfl) fun t => by
        obtain ⟨-, turn, read⟩ := accessing_eq h off 4 (counted h) t
        simp only [State.localLoad, turn, read]
        rfl
  obtain ⟨violates, busy, leaves', beyond', stores⟩ :=
    writes_of (i := .sth h r imm) (off := off) (lat := 2)
      (ls := fun t => [.bank h (at_ t) (leBytes 4 (t.cur.rd r).toNat)]) (fun _ => rfl) fun t => by
        obtain ⟨cur, -, -⟩ := accessing_eq h off 4 (Claims.filling h) t
        rw [cur, landAll_one]
        rfl
  have ready_iff (t : State) : ready t ↔ (x t).ready (imm.getLsbD 0) := by simp only [ready, Handle.ready, low]
  exact ⟨undefined, leaves.mono fun t ⟨hf, hd, hr, ho⟩ => ⟨⟨hf, hd⟩, (ready_iff t).1 hr, ho⟩,
    beyond.mono fun t ⟨hf, hd, hr, hp⟩ => ⟨⟨hf, hd⟩, (ready_iff t).1 hr, hp⟩,
    leaves'.mono fun t ⟨hf, hd, hs, ho⟩ => ⟨⟨hf, hd⟩, hs, ho⟩, beyond'.mono fun t ⟨hf, hd, hs, hp⟩ => ⟨⟨hf, hd⟩, hs, hp⟩,
    fun k => by rw [readsDone_one k _ h rfl]; exact Handle.readDone_eq _,
    loads.mono fun t ⟨⟨hf, hd, inside⟩, hr⟩ => ⟨⟨⟨hf, hd⟩, inside⟩, (ready_iff t).1 hr⟩,
    waits.mono fun t => Or.imp_right fun ⟨hd, hr⟩ => ⟨hd, mt (ready_iff t).2 hr⟩,
    stores.mono fun t ⟨⟨hf, hd, inside⟩, hs⟩ => ⟨⟨⟨hf, hd⟩, inside⟩, hs⟩, busy, violates⟩

end Sys2Proof.Claims
end

section
/-! Device memory under keys (R48, R52): a byte reads back under the key it was written under, and every other byte as before. -/

namespace Sys2Proof.Machine

/-- A lookup after listing a value. -/
theorem Map.lookup_put {α : Type} (m : Map α) (k j : Nat) (v : α) :
    (Map.put m k v).lookup j = if k = j then some v else m.lookup j := by
  induction m with
  | nil =>
    by_cases h : k = j
    · simp [Map.put, h]
    · simp [Map.put, List.lookup, h, beq_eq_false_iff_ne.2 (Ne.symm h)]
  | cons e t ih =>
    obtain ⟨i, w⟩ := e
    by_cases h : k = j
    · subst h
      rw [if_pos rfl]
      unfold Map.put
      split
      · next lt => simp [List.lookup, beq_eq_false_iff_ne.2 (Nat.ne_of_gt lt), ih]
      · split <;> simp [List.lookup]
    · have other : (j == k) = false := beq_eq_false_iff_ne.2 (Ne.symm h)
      rw [if_neg h] at ih ⊢
      unfold Map.put
      split
      · simp only [List.lookup, ih]
      · split
        · next eq => subst eq; simp only [List.lookup, other]
        · simp only [List.lookup, other]

/-- The tag of a line after a byte is written. -/
theorem State.lineTag_paSet (s : State) (key pa x : Nat) (b : Byte) :
    (s.paSet key pa b).lineTag x = if pa / 64 = x / 64 then some (s.tagAfter key pa) else s.lineTag x := Map.lookup_put _ _ _ _

/-- R48: a byte of the line comes under the key with which another is written. -/
theorem State.tagAfter_mat (s : State) (key pa : Nat) : (s.tagAfter key pa).mat = s.cipher key := by
  unfold State.tagAfter
  split
  · split
    · assumption
    · rfl
  · rfl

/-- The bit of one byte of a line. -/
theorem getLsbD_byteBit {i j : Nat} (hj : j < 64) : ((1#64) <<< i).getLsbD j = decide (j = i) := by
  rw [BitVec.getLsbD_shiftLeft, BitVec.getLsbD_one]
  by_cases h : j = i
  · subst h; simp [hj]
  · have : decide (j - i = 0) = false ∨ decide (j < i) = true := by simp only [decide_eq_false_iff_not, decide_eq_true_eq]; omega
    rcases this with h' | h' <;> simp [h, h']

/-- R48: the bytes that have been written under the line's key. -/
theorem State.ownByte_paSet (s : State) (key pa x : Nat) (b : Byte) (t : LineTag) :
    (s.paSet key pa b).ownByte t x = if x = pa then (if t.mask.getLsbD (x % 64) then b else t.rest.getD (x % 64) 0) else s.ownByte t x := by
  have read : Map.get 0 (s.paSet key pa b).pmem x = if pa = x then b else Map.get 0 s.pmem x := Map.get_set _ _ _ _ _
  unfold State.ownByte
  by_cases h : x = pa
  · subst h; simp only [read, if_true]
  · simp only [read, h, Ne.symm h, if_false]

/-- R48: what the new tag gives for the bytes of the line. -/
theorem State.ownByte_tagAfter {s : State} {key pa x : Nat} (line : x / 64 = pa / 64) (h : x ≠ pa) :
    s.ownByte (s.tagAfter key pa) x = s.paByte key x := by
  have bit : ((1#64) <<< (pa % 64)).getLsbD (x % 64) = false := by
    rw [getLsbD_byteBit (Nat.mod_lt _ (by decide))]
    exact decide_eq_false (by omega)
  have tag : s.lineTag x = s.lineTag pa := by rw [State.lineTag, line, State.lineTag]
  have new : s.ownByte (s.tagNew key pa) x = (s.decrypted key (x / 64)).getD (x % 64) 0 := by
    simp only [State.ownByte, State.tagNew, bit, Bool.false_eq_true, if_false, line]
  unfold State.paByte State.tagAfter
  rw [tag]
  split
  · split
    · simp only [State.ownByte, BitVec.getLsbD_or, bit, Bool.or_false]
    · exact new
  · exact new

/-- R52: a line that is not written reads as before under any key. -/
theorem State.decrypted_paSet {s : State} {key pa line : Nat} (b : Byte) (k : Nat) (h : line ≠ pa / 64) :
    (s.paSet key pa b).decrypted k line = s.decrypted k line := by
  have tag : (s.paSet key pa b).lines.lookup line = s.lines.lookup line :=
    (Map.lookup_put _ _ _ _).trans (if_neg h.symm)
  have bytes (t : LineTag) : (tabulate 64 fun i => (s.paSet key pa b).ownByte t (64 * line + i)) =
      tabulate 64 fun i => s.ownByte t (64 * line + i) := by
    refine List.map_congr_left fun i hi => ?_
    have := List.mem_range.1 hi
    rw [State.ownByte_paSet, if_neg (by omega)]
  have cipher : (s.paSet key pa b).ciphertext line = s.ciphertext line := by
    unfold State.ciphertext
    rw [tag]
    split
    · rw [bytes]
    · rfl
  unfold State.decrypted
  rw [cipher]
  rfl

theorem State.paByte_paSet_other {s : State} {key pa x : Nat} (b : Byte) (k : Nat) (h : x / 64 ≠ pa / 64) :
    (s.paSet key pa b).paByte k x = s.paByte k x := by
  have own (t : LineTag) : (s.paSet key pa b).ownByte t x = s.ownByte t x := by
    rw [State.ownByte_paSet, if_neg fun e : x = pa => h (e ▸ rfl)]
  unfold State.paByte
  rw [State.lineTag_paSet, if_neg (Ne.symm h), State.decrypted_paSet b k h]
  simp only [own]
  rfl

theorem State.paByte_paSet_line {s : State} {key pa x : Nat} (b : Byte) (line : x / 64 = pa / 64) :
    (s.paSet key pa b).paByte key x = (s.paSet key pa b).ownByte (s.tagAfter key pa) x := by
  unfold State.paByte
  rw [State.lineTag_paSet, if_pos line.symm]
  exact if_pos (s.tagAfter_mat key pa)

theorem State.tagAfter_bit (s : State) (key pa : Nat) : (s.tagAfter key pa).mask.getLsbD (pa % 64) = true := by
  have bit : ((1#64) <<< (pa % 64)).getLsbD (pa % 64) = true := by
    rw [getLsbD_byteBit (Nat.mod_lt _ (by decide)), decide_eq_true rfl]
  unfold State.tagAfter
  split
  · split
    · rw [BitVec.getLsbD_or, bit, Bool.or_true]
    · exact bit
  · exact bit

end Sys2Proof.Machine

namespace Sys2Proof.Claims
open Sys2Proof.Machine

/-- Settles O24: within the line by the tag that the write leaves, outside it because the line's tag is as before. -/
theorem memoryReadsBackUnderItsKey : Obligations.MemoryReadsBackUnderItsKey := by
  refine fun s key pa b => ⟨?_, fun x h => ?_, fun k x => State.paByte_paSet_other b k, rfl, rfl⟩
  · rw [State.paByte_paSet_line b rfl, State.ownByte_paSet, if_pos rfl, if_pos (s.tagAfter_bit key pa)]
  · by_cases line : x / 64 = pa / 64
    · rw [State.paByte_paSet_line b line, State.ownByte_paSet, if_neg h, State.ownByte_tagAfter line h]
    · exact State.paByte_paSet_other b key line

end Sys2Proof.Claims
end

section
/-! Plane memory (R235-R237). -/

namespace Sys2Proof.Machine

/-- R165: all lanes are enabled. -/
theorem enabledLanes_all : enabledLanes (BitVec.allOnes 1024) = List.range 1024 :=
  List.filter_eq_self.2 fun i hi => by
    rw [BitVec.getLsbD_allOnes]
    exact decide_eq_true (List.mem_range.1 hi)

/-- R235: the words of the enabled lanes of an image, at their addresses. -/
theorem laneWrites_imageLanes (v : List Word) (m : BitVec 1024) (a : Nat) :
    laneWrites v (imageLanes m a) = (((List.range 1024).filter fun i => m.getLsbD i).map fun i => (a + 4 * i, lane v i)) := by
  rw [laneWrites, imageLanes, List.map_map]
  rfl

/-- R236: the bytes of a whole plane. -/
theorem laneBytes_all (v : List Word) (a : Nat) :
    laneBytes v (imageLanes (BitVec.allOnes 1024) a) = (List.range 1024).flatMap fun i => leBytes 4 (lane v i).toNat := by
  rw [laneBytes, imageLanes, enabledLanes_all, List.flatMap_map]

/-- A word of the own slice by its address in G. -/
theorem State.lWord_eq (t : State) (c a i : Nat) :
    t.lWord c (a + i) = BitVec.ofNat 32 (leNat (t.gRead (c * 2097152 + a + i) 4)) := by
  rw [Nat.add_assoc]; rfl

@[simp] theorem State.holding_gRead (t : State) (a n b m : Nat) : (t.holding a n).gRead b m = t.gRead b m := by
  obtain ⟨gs, h⟩ := t.holding_eq a n
  rw [h]; rfl

/-- R236: a whole plane read from the slice. -/
theorem State.planeLoad_all (t : State) (d a : Nat) : t.planeLoad d a (BitVec.allOnes 1024) =
    t.landAt 8 (.plane d (BitVec.allOnes 1024) (tabulate 1024 fun i => t.lWord t.turn (a + 4 * i))) := by
  unfold State.planeLoad
  refine congrArg (fun l => t.landAt 8 (.plane d _ l)) (List.map_congr_left fun i hi => if_pos ?_)
  rw [BitVec.getLsbD_allOnes]
  exact decide_eq_true (List.mem_range.1 hi)

/-- R237: the first failing lane after lanes that pass. -/
theorem State.gatherCheck_append {s : State} {pre post : List (Nat × Nat)} {i x : Nat} {g : Bool} {y : Trap}
    (before : s.gatherCheck pre g = none) (fails : s.gatherCheck [(i, x)] g = some y) :
    s.gatherCheck (pre ++ (i, x) :: post) g = some y := by
  unfold State.gatherCheck at *
  rw [List.findSome?_append, before, Option.none_or, List.findSome?_cons]
  rw [List.findSome?_singleton] at fails
  rw [fails]

/-- R122, R220: the check of one lane of the G space. -/
theorem State.gatherCheck_far (s : State) (i x : Nat) : s.gatherCheck [(i, x)] true =
    (gCheck x 4 4).orElse fun _ => if s.ownsG (s.coreVd s.turn) x then none else some (trapOf 6 x) := by
  rw [State.gatherCheck, List.findSome?_singleton]; rfl

/-- R220: the check of one lane of the slice. -/
theorem State.gatherCheck_near (s : State) (i x : Nat) : s.gatherCheck [(i, x)] false = s.lCheck x 4 4 := by
  rw [State.gatherCheck, List.findSome?_singleton]; rfl

end Sys2Proof.Machine

namespace Sys2Proof.Claims
open Sys2Proof.Machine

/-- R235: the plane words by address. -/
theorem planeImages (d k : Fin 16) (r : Fin 64) (mask : Fin 8) :
    let at_ (t : State) : Nat := (t.cur.rd r).toNat + k.val * 4096
    let m (t : State) : BitVec 1024 := t.cur.pred mask
    Takes (.pld d k r mask) (fun t => t.inSlice (at_ t) 4096 4096 ∧ t.ownsSlice (at_ t) 4096) (fun t => t.holding (at_ t) 4096) 8
      (fun t => [.plane d (m t) (tabulate 1024 fun i =>
        if (m t).getLsbD i then BitVec.ofNat 32 (leNat (t.gRead (t.turn * 2097152 + at_ t + 4 * i) 4)) else 0)]) ∧
    Takes (.pst d k r mask) (fun t => t.inSlice (at_ t) 4096 4096 ∧ t.ownsSlice (at_ t) 4096) (fun t => t.holding (at_ t) 4096) 8
      (fun t => [.lanes (((List.range 1024).filter fun i => (m t).getLsbD i).map fun i => (at_ t + 4 * i, lane (t.cur.plane d) i))]) := by
  intro at_ m
  constructor
  · refine takes_local (fun _ => rfl) fun t => ?_
    simp only [State.planeLoad, State.holding_cur, State.holding_turn, State.holding_gRead, State.lWord_eq, landAll_one]
    rfl
  · refine takes_local (fun _ => rfl) fun t => ?_
    simp only [State.planeStore, State.holding_cur, landAll_one, laneWrites_imageLanes]
    rfl

/-- Settles O25: by address, through a handle, and lane by lane. -/
theorem planeLoadsAndStores : Obligations.PlaneLoadsAndStores := by
  refine ⟨fun d k r mask => ?image, fun h p imm => ?handle, fun d a mask => ?gather⟩
  case image =>
    intro at_ ok m far
    obtain ⟨loads, stores⟩ := planeImages d k r mask
    have end_ : ∀ t : State, t.windowEnd false = 0xA0000000 := fun _ => rfl
    refine ⟨loads, stores, sends_remote (fun _ => rfl) (fun _ => rfl) (fun _ => rfl) end_,
      sends_remote (fun _ => rfl) (fun _ => rfl) (fun _ => rfl) end_, rejects_local fun _ => rfl, rejects_local fun _ => rfl,
      rejects_remote (fun _ => rfl) (fun _ => rfl) (fun _ => rfl) end_, rejects_remote (fun _ => rfl) (fun _ => rfl) (fun _ => rfl) end_,
      overflows_remote (fun _ => rfl) (fun _ => rfl) (fun _ => rfl) end_ fun _ => .inr rfl⟩
  case handle =>
    intro x off at_ ok ready free outside past
    have low (t : State) : (t.imm32 imm).getLsbD 0 = imm.getLsbD 0 := t.imm32_bit0 imm
    have ready_iff (t : State) : ready t ↔ (x t).ready (imm.getLsbD 0) := by simp only [ready, Handle.ready, low]
    obtain ⟨undefined, waits, leaves, beyond, loads⟩ :=
      reads_of (i := .pldh h p imm) (off := off) (lat := 8)
        (ls := fun t => [.plane p (BitVec.allOnes 1024) (tabulate 1024 fun i =>
          BitVec.ofNat 32 (leNat (t.gRead (t.turn * 2097152 + at_ t + 4 * i) 4)))]) (fun _ => rfl) fun t => by
          obtain ⟨-, turn, read⟩ := accessing_eq h off 4096 (counted h) t
          have word (a : Nat) : (accessing h off 4096 (counted h) t).lWord t.turn a = t.lWord t.turn a := by
            rw [State.lWord, read]; rfl
          simp only [State.planeLoad_all, turn, word, State.lWord_eq, landAll_one]
          rfl
    obtain ⟨violates, busy, leaves', beyond', stores⟩ :=
      writes_of (i := .psth h p imm) (off := off) (lat := 8)
        (ls := fun t => [.bank h (at_ t) ((List.range 1024).flatMap fun i => leBytes 4 (lane (t.cur.plane p) i).toNat)]) (fun _ => rfl)
        fun t => by
          obtain ⟨cur, -, -⟩ := accessing_eq h off 4096 (Claims.filling h) t
          rw [cur, landAll_one, laneBytes_all]
          rfl
    exact ⟨undefined, violates, waits.mono fun t => Or.imp_right fun ⟨hd, hr⟩ => ⟨hd, mt (ready_iff t).2 hr⟩, busy,
      leaves.mono fun t ⟨hf, hd, hr, ho⟩ => ⟨⟨hf, hd⟩, (ready_iff t).1 hr, ho⟩,
      beyond.mono fun t ⟨hf, hd, hr, hp⟩ => ⟨⟨hf, hd⟩, (ready_iff t).1 hr, hp⟩,
      leaves'.mono fun t ⟨hf, hd, hs, ho⟩ => ⟨⟨hf, hd⟩, hs, ho⟩, beyond'.mono fun t ⟨hf, hd, hs, hp⟩ => ⟨⟨hf, hd⟩, hs, hp⟩,
      loads.mono fun t ⟨⟨hf, hd, inside⟩, hr⟩ => ⟨⟨⟨hf, hd⟩, inside⟩, (ready_iff t).1 hr⟩,
      stores.mono fun t ⟨⟨hf, hd, inside⟩, hs⟩ => ⟨⟨⟨hf, hd⟩, inside⟩, hs⟩⟩
  case gather =>
    intro ls first m
    refine ⟨fun u => takes_of (fun _ => rfl) fun _ t _ ⟨good, touched, gmem, cores, turn⟩ => ?near,
      fun u => takes_of (fun _ => rfl) fun _ t _ ⟨good, touched, cores, turn⟩ => ?store,
      sends_of (fun _ => rfl) fun t good => ?send, sends_of (fun _ => rfl) fun t good => ?sendStore,
      fun g x => ⟨traps_of (fun _ => rfl) fun _ t _ bad => ?bad, traps_of (fun _ => rfl) fun _ t _ bad => ?badStore⟩,
      fun s pre post i x g before => ⟨fun odd => ?odd, fun aligned out => ?out, fun aligned inside far foreign => ?foreign⟩,
      overflows_of (fun _ => rfl) (fun t good => ?full) fun _ => .inr rfl⟩
    case near =>
      have cur : (u t).cur = t.cur := by rw [State.cur, State.cur, State.core, State.core, cores, turn]
      simp only [show t.gatherCheck (t.cur.gatherLanes a mask) false = none from good,
        show t.touchLanes (t.cur.gatherLanes a mask) = .ok (u t) from touched, landAll_one, cur, State.lWord, State.lRead, State.gRead,
        gmem, turn]
      rfl
    case store =>
      have cur : (u t).cur = t.cur := by rw [State.cur, State.cur, State.core, State.core, cores, turn]
      simp only [show t.gatherCheck (t.cur.gatherLanes a mask) false = none from good,
        show t.touchLanes (t.cur.gatherLanes a mask) = .ok (u t) from touched, landAll_one, cur]
      rfl
    case send | sendStore | full => simp only [show t.gatherCheck (t.cur.gatherLanes a mask) true = none from good]; rfl
    case bad | badStore => simp only [show t.gatherCheck (t.cur.gatherLanes a mask) g = some x from bad]
    case odd =>
      refine State.gatherCheck_append before ?_
      cases g with
      | false => rw [State.gatherCheck_near, State.lCheck_odd _ odd]
      | true => rw [State.gatherCheck_far, gCheck_odd _ odd]; rfl
    case out =>
      refine State.gatherCheck_append before ?_
      cases g with
      | false => rw [State.gatherCheck_near]; exact State.lCheck_out aligned out
      | true => rw [State.gatherCheck_far, gCheck_out aligned out]; rfl
    case foreign =>
      refine State.gatherCheck_append before ?_
      have owns : s.ownsG (s.coreVd s.turn) x = false := by
        rw [State.ownsG, Nat.div_div_eq_div_mul]
        exact foreign
      rw [far, State.gatherCheck_far, gCheck_inside aligned inside, owns]
      rfl

end Sys2Proof.Claims
end

section
/-! Plane arithmetic (R228-R232, R238-R241): the words element by element, and how the elements of a lane are read, computed and packed. -/

namespace Sys2Proof.Machine

/-! ### Packing (R163, R164) -/

/-- The digits `f k` to the base `b`, of which there are `n`. -/
def fromDigits (b n : Nat) (f : Nat → Nat) : Nat := ((List.range n).map fun k => f k % b * b ^ k).sum

theorem fromDigits_succ (b n : Nat) (f : Nat → Nat) : fromDigits b (n + 1) f = fromDigits b n f + f n % b * b ^ n := by
  rw [fromDigits, List.range_succ, List.map_append, List.sum_append, List.map_singleton, List.sum_singleton, fromDigits]

theorem fromDigits_lt {b : Nat} (hb : 0 < b) (n : Nat) (f : Nat → Nat) : fromDigits b n f < b ^ n := by
  induction n with
  | zero => exact Nat.one_pos
  | succ n ih =>
    have digit := Nat.mod_lt (f n) hb
    calc fromDigits b (n + 1) f = fromDigits b n f + f n % b * b ^ n := fromDigits_succ b n f
      _ < b ^ n + f n % b * b ^ n := Nat.add_lt_add_right ih _
      _ = (f n % b + 1) * b ^ n := by ring
      _ ≤ b * b ^ n := Nat.mul_le_mul_right _ digit
      _ = b ^ (n + 1) := by ring

/-- A digit is read back. -/
theorem digit_fromDigits {b : Nat} (hb : 0 < b) (f : Nat → Nat) {n k : Nat} (hk : k < n) : fromDigits b n f / b ^ k % b = f k % b := by
  induction n with
  | zero => omega
  | succ n ih =>
    rw [fromDigits_succ]
    rcases Nat.lt_succ_iff_lt_or_eq.1 hk with before | rfl
    · have above : f n % b * b ^ n = b ^ k * (b * (f n % b * b ^ (n - k - 1))) := by
        have : n = k + 1 + (n - k - 1) := by omega
        conv_lhs => rw [this, Nat.pow_add, Nat.pow_succ]
        have : k + 1 + (n - k - 1) = n := by omega
        rw [this]
        ring
      rw [above, Nat.add_mul_div_left _ _ (Nat.pow_pos hb), Nat.add_mul_mod_self_left, ih before]
    · rw [Nat.add_mul_div_right _ _ (Nat.pow_pos hb), Nat.div_eq_of_lt (fromDigits_lt hb k f), Nat.zero_add, Nat.mod_mod]

/-- The digits of a number make it up. -/
theorem fromDigits_digit (b n w : Nat) : (fromDigits b n fun k => w / b ^ k % b) = w % b ^ n := by
  induction n with
  | zero => rw [Nat.pow_zero, Nat.mod_one]; rfl
  | succ n ih => rw [fromDigits_succ, ih, Nat.mod_mod, Nat.mod_pow_succ, Nat.mul_comm]

/-- R164: the elements of a lane have 32 bits together. -/
theorem lane_bits (ty : Fin 8) : (2 ^ elemBits ty) ^ elems ty = 2 ^ 32 := by
  rw [← Nat.pow_mul]
  exact congrArg _ (by revert ty; decide)

/-- R164: a lane as digits. -/
theorem packLane_toNat (ty : Fin 8) (f : Nat → Nat) : (packLane ty f).toNat = fromDigits (2 ^ elemBits ty) (elems ty) f := by
  have sum : ((List.range (elems ty)).map fun k => f k % 2 ^ elemBits ty * 2 ^ (elemBits ty * k)).sum =
      fromDigits (2 ^ elemBits ty) (elems ty) f := by
    simp only [fromDigits, Nat.pow_mul]
  rw [packLane, sum, BitVec.toNat_ofNat, ← lane_bits ty]
  exact Nat.mod_eq_of_lt (fromDigits_lt (Nat.two_pow_pos _) _ _)

/-- R164: an element written into a lane is read back. -/
theorem elemOf_packLane (ty : Fin 8) (f : Nat → Nat) {k : Nat} (hk : k < elems ty) :
    elemOf ty k (packLane ty f) = f k % 2 ^ elemBits ty := by
  rw [elemOf, packLane_toNat, Nat.pow_mul]
  exact digit_fromDigits (Nat.two_pow_pos _) f hk

/-- R163: the elements of a lane make up the lane. -/
theorem packLane_elemOf (ty : Fin 8) (w : Word) : (packLane ty fun k => elemOf ty k w) = w := by
  apply BitVec.eq_of_toNat_eq
  rw [packLane_toNat]
  simp only [elemOf, Nat.pow_mul]
  rw [fromDigits_digit, lane_bits ty]
  exact Nat.mod_eq_of_lt w.isLt

/-- R163: a lane all of whose elements have all bits, or none. -/
theorem packLane_ones (ty : Fin 8) : (packLane ty fun _ => 2 ^ 32 - 1) = BitVec.allOnes 32 := by revert ty; decide

theorem packLane_zero (ty : Fin 8) : (packLane ty fun _ => 0) = 0 := by revert ty; decide

/-! ### Integer elements of 32 bits (R231) -/

/-- A lane of one element. -/
theorem laneOf_word {ty : Nat} (n : elems ty = 1) (b : elemBits ty = 32) (f : Nat → Nat × Flags) :
    (laneOf ty f).1 = BitVec.ofNat 32 (f 0).1 := by
  simp only [laneOf, packLane, n, b, List.range_one, List.map_cons, List.map_nil, List.sum_cons, List.sum_nil, List.getD_cons_zero,
    Nat.mul_zero, Nat.pow_zero, Nat.mul_one, Nat.add_zero]
  apply BitVec.eq_of_toNat_eq
  simp only [BitVec.toNat_ofNat, Nat.mod_mod]

theorem ofNat_wrap (z : Int) : BitVec.ofNat 32 (wrap 32 z) = BitVec.ofInt 32 z := by
  rw [wrap_eq_toNat, BitVec.ofNat_toNat, BitVec.setWidth_eq]

theorem ofInt_difference (x y : Int) : BitVec.ofInt 32 (x - y) = BitVec.ofInt 32 x - BitVec.ofInt 32 y := by
  rw [Int.sub_eq_add_neg, BitVec.ofInt_add, BitVec.ofInt_neg, BitVec.sub_eq_add_neg]

/-- R231: does the word saturate? -/
theorem satOf_int {ty : Nat} (h : ty ≤ 5) (sub : Nat) : satOf ty sub = decide (sub % 2 = 1) := by
  rw [satOf, if_pos h, bit, Nat.testBit_zero]

/-- R231: the exact result of a signed word of one element. -/
theorem signed_lane (x y : Word) (sub rb : Nat) (ff : List Num → Option Num) (fi : List Int → Int) :
    (laneOf 4 fun k => elemArith 4 sub rb ff fi [elemOf 4 k x, elemOf 4 k y]).1 =
      BitVec.ofInt 32 (if sub % 2 = 1 then max (-2147483648) (min 2147483647 (fi [x.toInt, y.toInt])) else fi [x.toInt, y.toInt]) := by
  have value (w : Word) : intElem 4 sub (elemOf 4 0 w) = w.toInt := by
    have whole : elemOf 4 0 w = w.toNat := by
      rw [elemOf, Nat.mul_zero, Nat.pow_zero, Nat.div_one]; exact Nat.mod_eq_of_lt w.isLt
    rw [whole]; exact sxt_toNat w
  rw [laneOf_word rfl rfl, ← ofNat_wrap]
  simp only [elemArith, List.map_cons, List.map_nil, value, show ¬ (4 ≤ 2) by decide, if_false]
  rw [intOut, satOf_int (by decide)]
  simp only [fmtOf, decide_eq_true_eq]
  rfl

/-- R231: likewise of a natural word. -/
theorem natural_lane (x y : Word) (sub rb : Nat) (ff : List Num → Option Num) (fi : List Int → Int) :
    (laneOf 5 fun k => elemArith 5 sub rb ff fi [elemOf 5 k x, elemOf 5 k y]).1 =
      BitVec.ofInt 32 (if sub % 2 = 1 then max 0 (min 4294967295 (fi [(x.toNat : Int), (y.toNat : Int)]))
        else fi [(x.toNat : Int), (y.toNat : Int)]) := by
  have value (w : Word) : intElem 5 sub (elemOf 5 0 w) = (w.toNat : Int) := by
    have whole : elemOf 5 0 w = w.toNat := by
      rw [elemOf, Nat.mul_zero, Nat.pow_zero, Nat.div_one]; exact Nat.mod_eq_of_lt w.isLt
    rw [whole]; exact congrArg _ (Nat.mod_eq_of_lt w.isLt)
  rw [laneOf_word rfl rfl, ← ofNat_wrap]
  simp only [elemArith, List.map_cons, List.map_nil, value, show ¬ (5 ≤ 2) by decide, if_false]
  rw [intOut, satOf_int (by decide)]
  simp only [fmtOf, decide_eq_true_eq]
  rfl

end Sys2Proof.Machine

namespace Sys2Proof.Claims
open Sys2Proof.Machine

/-- R241: an element written into one lane of a plane, where the mask enables it. -/
theorem pins_lands (d : Fin 16) (r : Fin 64) (mask : Fin 8) (ty sub : Fin 8) :
    Lands (.pins d r mask ty sub) 6 fun t =>
      let n := (t.cur.rd (r + 1)).toNat % (1024 * elems ty)
      let on := (t.cur.pred mask).getLsbD (n / elems ty)
      [.part d (n / elems ty) (packLane ty fun k => if on = true ∧ k = n % elems ty then 0 else 2 ^ 32 - 1)
        (packLane ty fun k => if on = true ∧ k = n % elems ty then (t.cur.rd r).toNat else 0)] := by
  refine lands_of (fun _ => rfl) fun _ t _ => ?_
  rw [landAll_one]
  refine congrArg (t.landAt 6) ?_
  by_cases on : (t.cur.pred mask).getLsbD (t.cur.elemIndex r ty / elems ty) = true
  · refine (if_pos on).trans (congrArg₂ (Landing.part d _) (congrArg (packLane ty) ?_) (congrArg (packLane ty) ?_)) <;>
    · funext k
      exact if_congr (iff_and_self.2 fun _ => on) rfl rfl
  · refine (if_neg on).trans (congrArg₂ (Landing.part d _) ?_ ?_)
    · refine (packLane_ones ty).symm.trans (congrArg (packLane ty) ?_)
      funext k
      exact (if_neg fun h => on h.1).symm
    · refine (packLane_zero ty).symm.trans (congrArg (packLane ty) ?_)
      funext k
      exact (if_neg fun h => on h.1).symm

/-- Settles O26: each word by its meaning, element by element. -/
theorem planeArithmeticWords : Obligations.PlaneArithmeticWords := by
  intro d a b r mask pw ty sub x y z e go
  have immediate : (fun l : List Int => l.headD 0 + sxt 6 r.val) = fun l => l.headD 0 + (BitVec.ofNat 6 r.val).toInt := by
    funext l; rw [sxt_eq_toInt]
  refine ⟨planes_of fun _ => rfl, planes_of fun _ => rfl, planes_of fun _ => rfl, planes_of fun _ => rfl, planes_of fun _ => rfl,
    planes_of fun _ => rfl, planes_of fun _ => rfl, planes_of fun _ => rfl, ?_, planes_of fun _ => rfl, planes_of fun _ => rfl,
    planes_of fun _ => rfl, planes_of fun _ => rfl, planes_of fun _ => rfl, planes_of fun _ => rfl, planes_of fun _ => rfl,
    planes_of fun _ => rfl, quiet_of fun _ => rfl, pins_lands d r mask ty sub, lands_of (fun _ => rfl) fun _ _ _ => rfl⟩
  rw [← immediate]
  exact planes_of fun _ => rfl

/-- Settles O27: an element of 32 bits is the lane; the packing of smaller ones by their number. -/
theorem elementsOfALane : Obligations.ElementsOfALane := by
  refine ⟨fun x y sub rb => ?_, fun ty => ⟨fun f k hk => elemOf_packLane ty f hk, packLane_elemOf ty⟩⟩
  intro signed natural
  have signed_eq (ff fi) : signed ff fi = _ := signed_lane x y sub rb ff fi
  have natural_eq (ff fi) : natural ff fi = _ := natural_lane x y sub rb ff fi
  have hx := x.isLt
  have hy := y.isLt
  simp only [signed_eq, natural_eq]
  refine ⟨fun even => ?_, fun odd => ?_⟩
  · simp only [even, zero_ne_one, if_false, add2, sub2, mul2, BitVec.ofInt_add, ofInt_difference, BitVec.ofInt_mul, BitVec.ofInt_toInt,
      BitVec.ofInt_natCast, BitVec.ofNat_toNat, BitVec.setWidth_eq, and_self]
  · have natural_sum (z : Int) (n : Nat) (h : max 0 (min 4294967295 z) = (n : Int)) :
        BitVec.ofInt 32 (max 0 (min 4294967295 z)) = BitVec.ofNat 32 n := by rw [h, BitVec.ofInt_natCast]
    simp only [odd, if_true, add2, sub2, mul2, true_and]
    refine ⟨natural_sum _ _ (by omega), natural_sum _ _ (by omega), natural_sum _ _ ?_⟩
    rw [← Nat.cast_mul]
    omega

end Sys2Proof.Claims
end

section
/-! The plane words of bits, predicates, conversion, random numbers, axes, special functions and the crossbar (R242-R258). -/

namespace Sys2Proof.Machine

/-! ### Lanes and masks -/

/-- A lane depends on its elements modulo their width. -/
theorem packLane_congr {ty : Nat} {f g : Nat → Nat} (h : ∀ k < elems ty, f k % 2 ^ elemBits ty = g k % 2 ^ elemBits ty) :
    packLane ty f = packLane ty g := by
  unfold packLane
  refine congrArg _ (congrArg _ (List.map_congr_left fun k hk => ?_))
  rw [h k (List.mem_range.1 hk)]

theorem laneMask_congr {f g : Nat → Bool} (h : ∀ i < 1024, f i = g i) : laneMask f = laneMask g :=
  congrArg BitVec.ofFnLE (funext fun i => h i i.isLt)

theorem tabulate_congr {α : Type} {n : Nat} {f g : Nat → α} (h : ∀ i < n, f i = g i) : tabulate n f = tabulate n g :=
  List.map_congr_left fun i hi => h i (List.mem_range.1 hi)

theorem map_tabulate {α β : Type} (n : Nat) (f : Nat → α) (g : α → β) : (tabulate n f).map g = tabulate n fun i => g (f i) :=
  List.map_map

theorem getElem?_tabulate {α : Type} {n k : Nat} (f : Nat → α) (h : k < n) : (tabulate n f)[k]? = some (f k) := by
  rw [tabulate, List.getElem?_map, List.getElem?_range h]; rfl

theorem getD_tabulate {α : Type} {n k : Nat} (f : Nat → α) (d : α) (h : k < n) : (tabulate n f).getD k d = f k := by
  rw [List.getD_eq_getElem?_getD, getElem?_tabulate f h, Option.getD_some]

/-- R228, R232: what lands depends on the lanes of the group's planes alone. -/
theorem planeLands_congr {m : BitVec 1024} {n : Nat} {d : Fin 16} {f g : Nat → Nat → Word × Flags}
    (h : ∀ j < n, ∀ i < 1024, f j i = g j i) : Claims.planeLands m n d f = Claims.planeLands m n d g := by
  have same : (tabulate n fun j => tabulate lanes (f j)) = tabulate n fun j => tabulate lanes (g j) :=
    tabulate_congr fun j hj => tabulate_congr fun i hi => h j hj i hi
  simp only [Claims.planeLands, same]

/-- A lane depends on the elements that it has. -/
theorem laneOf_congr {ty : Nat} {f g : Nat → Nat × Flags} (h : ∀ k < elems ty, f k = g k) : laneOf ty f = laneOf ty g := by
  have same : (List.range (elems ty)).map f = (List.range (elems ty)).map g :=
    List.map_congr_left fun k hk => h k (List.mem_range.1 hk)
  simp only [laneOf, same]

/-! ### Philox (R68) -/

/-- Four words. -/
def Words4 (c : Nat × Nat × Nat × Nat) : Prop := c.1 < 2 ^ 32 ∧ c.2.1 < 2 ^ 32 ∧ c.2.2.1 < 2 ^ 32 ∧ c.2.2.2 < 2 ^ 32

theorem philoxRound_words {k0 k1 : Nat} {c : Nat × Nat × Nat × Nat} (h0 : k0 < 2 ^ 32) (h1 : k1 < 2 ^ 32) (hc : Words4 c) :
    Words4 (philoxRound k0 k1 c) := by
  obtain ⟨a, b, x, y⟩ := hc
  have high {n : Nat} (m : Nat) (hm : m < 2 ^ 32) (hn : n < 2 ^ 32) : m * n / 2 ^ 32 < 2 ^ 32 :=
    Nat.div_lt_of_lt_mul (Nat.mul_lt_mul'' hm hn)
  exact ⟨Nat.xor_lt_two_pow (Nat.xor_lt_two_pow (high _ (by decide) x) b) h0, Nat.mod_lt _ (Nat.two_pow_pos _),
    Nat.xor_lt_two_pow (Nat.xor_lt_two_pow (high _ (by decide) a) y) h1, Nat.mod_lt _ (Nat.two_pow_pos _)⟩

theorem philoxRounds_words (n : Nat) {k0 k1 : Nat} {c : Nat × Nat × Nat × Nat} (h0 : k0 < 2 ^ 32) (h1 : k1 < 2 ^ 32) (hc : Words4 c) :
    Words4 (philoxRounds n k0 k1 c) := by
  induction n generalizing k0 k1 c with
  | zero => exact hc
  | succ n ih => exact ih (Nat.mod_lt _ (Nat.two_pow_pos _)) (Nat.mod_lt _ (Nat.two_pow_pos _)) (philoxRound_words h0 h1 hc)

/-- R68: a random word has 32 bits. -/
theorem philox_lt (key : DWord) (c0 c1 c2 c3 j : Nat) : philox key c0 c1 c2 c3 j < 2 ^ 32 := by
  have word (x : Nat) : x % 2 ^ 32 < 2 ^ 32 := Nat.mod_lt _ (Nat.two_pow_pos _)
  have high : key.toNat / 2 ^ 32 < 2 ^ 32 := by have := key.isLt; omega
  have words := philoxRounds_words 10 (word key.toNat) high (c := (c0 % 2 ^ 32, c1 % 2 ^ 32, c2 % 2 ^ 32, c3 % 2 ^ 32))
    ⟨word _, word _, word _, word _⟩
  revert words
  unfold philox
  generalize philoxRounds 10 _ _ _ = r
  rintro ⟨a, b, c, d⟩
  dsimp only
  split <;> assumption

/-! ### The draws of a bundle (R234) -/

/-- R234: what is in flight after a bundle that draws. -/
theorem Core.advanceRng_inflight (k : Core) (is : List Instr) :
    let n := (is.filter (drawsBits (k.fctl.toNat % 8))).length
    (k.advanceRng is).inflight = if n = 0 ∨ ∃ i ∈ is, Res.sr 0x21 ∈ dests i then k.inflight
      else k.inflight ++ [{
        at_ := k.sched, due := k.sched + 1, what := .sysreg 0x21 ((k.rngctr + BitVec.ofNat 32 n).zeroExtend 64) }] := by
  intro n
  have quiet : (decide (n = 0) || is.any fun i => (dests i).contains (.sr 0x21)) = true ↔
      n = 0 ∨ ∃ i ∈ is, Res.sr 0x21 ∈ dests i := by
    simp only [Bool.or_eq_true, decide_eq_true_eq, List.any_eq_true, List.contains_iff_mem]
  unfold Core.advanceRng
  by_cases h : n = 0 ∨ ∃ i ∈ is, Res.sr 0x21 ∈ dests i
  · rw [if_pos h]; exact congrArg Core.inflight (if_pos (quiet.2 h))
  · rw [if_neg h]; exact congrArg Core.inflight (if_neg (mt quiet.1 h))

/-- R170: flags that are ORed again are no system registers. -/
theorem Core.keepFlags_inflight (k : Core) : ∃ fs, k.keepFlags.inflight = k.inflight ++ fs ∧
    ∀ f ∈ fs, ∃ q v, f.what = .flags q v := by
  refine ⟨_, rfl, fun f hf => ?_⟩
  obtain ⟨g, -, hf⟩ := List.mem_flatMap.1 hf
  split at hf
  · obtain ⟨e, -, he⟩ := List.mem_filterMap.1 hf
    split at he
    · split at he
      · cases he; exact ⟨_, _, rfl⟩
      · cases he
    · cases he
  · cases hf

/-- R234: what is in flight after a bundle. -/
theorem State.afterIssue_inflight (s : State) (c x len : Nat) (is : List Instr) (w : Nat) :
    ∃ fs, ((s.afterIssue c x len is w).core c).inflight = ((s.core c).advanceRng is).inflight ++ fs ∧
      ∀ f ∈ fs, ∃ q v, f.what = .flags q v := by
  obtain ⟨hs, reads⟩ := (s.core c).readsDone_eq is
  have same : (Core.advanceRng { s.core c with handles := hs } is).inflight = ((s.core c).advanceRng is).inflight := by
    simp only [Core.advanceRng_inflight]
  obtain ⟨fs, flight, flags⟩ := (Core.advanceRng { s.core c with handles := hs } is).keepFlags_inflight
  refine ⟨fs, ?_, flags⟩
  rw [← same, ← flight]
  unfold State.afterIssue
  rw [reads, State.core_setCore_self]
  rfl

/-- R234: the counter is advanced by the drawing words before a word of the bundle. -/
theorem placeWords_draws (frm : Nat) {i : Instr} (is : List Instr) (n idx : Nat) (ext : Option (BitVec 23)) (pipe draws : Nat)
    (h : is[n]? = some i) : ∃ p ∈ placeWords frm idx ext pipe draws (is.map some),
      p.idx = idx + n ∧ p.i = i ∧ p.draws = draws + ((is.take n).filter (drawsBits frm)).length := by
  induction is generalizing n idx ext pipe draws with
  | nil => cases h
  | cons j is ih =>
    rw [List.map_cons, placeWords]
    cases n with
    | zero => cases h; exact ⟨_, List.mem_cons_self, rfl, rfl, rfl⟩
    | succ n =>
      obtain ⟨p, hp, number, word, count⟩ := ih n (idx + 1) (isLimm j) _ (if drawsBits frm j then draws + 1 else draws) h
      refine ⟨p, List.mem_cons_of_mem _ hp, by omega, word, ?_⟩
      rw [count, List.take_succ_cons, List.filter_cons]
      split
      · rw [List.length_cons]; omega
      · rfl

/-! ### The crossbar's collisions (R256) -/

theorem getLsbD_place {x j : Nat} (hj : j < 1024) : ((1#1024) <<< x).getLsbD j = decide (j = x) := by
  rw [BitVec.getLsbD_shiftLeft, BitVec.getLsbD_one]
  by_cases h : j = x
  · subst h; simp [hj]
  · have : decide (j - x = 0) = false ∨ decide (j < x) = true := by simp only [decide_eq_false_iff_not, decide_eq_true_eq]; omega
    rcases this with h' | h' <;> simp [h, h']

/-- R256: the enabled lane at place `j` of the list has a destination that was seen before the list, or that an enabled lane before it has. -/
def Clash (en : BitVec 1024) (i : Nat) (dst : List Nat) (seen : BitVec 1024) (j : Nat) : Prop :=
  ∃ x, dst[j]? = some x ∧ en.getLsbD (i + j) = true ∧
    (seen.getLsbD x = true ∨ ∃ l, l < j ∧ dst[l]? = some x ∧ en.getLsbD (i + l) = true)

/-- The first lane clashes with what was seen alone. -/
theorem clash_zero (en : BitVec 1024) (i x : Nat) (xs : List Nat) (seen : BitVec 1024) :
    Clash en i (x :: xs) seen 0 ↔ en.getLsbD i = true ∧ seen.getLsbD x = true := by
  simp [Clash]

/-- A later lane clashes likewise in the rest of the list, once the first one is seen. -/
theorem clash_succ {en : BitVec 1024} {i x : Nat} {xs : List Nat} {seen seen' : BitVec 1024} (j : Nat) (bound : ∀ y ∈ xs, y < 1024)
    (first : ∀ y < 1024, seen'.getLsbD y = true ↔ seen.getLsbD y = true ∨ (en.getLsbD i = true ∧ y = x)) :
    Clash en i (x :: xs) seen (j + 1) ↔ Clash en (i + 1) xs seen' j := by
  have place (j : Nat) : i + (j + 1) = i + 1 + j := by omega
  unfold Clash
  rw [List.getElem?_cons_succ, place j]
  refine exists_congr fun y => and_congr_right fun hy => and_congr_right fun _ => ?_
  rw [first y (bound y (List.mem_of_getElem? hy)), ← Nat.or_exists_add_one, or_assoc]
  refine or_congr_right (or_congr ⟨fun ⟨_, h, e⟩ => ⟨e, (Option.some.inj h).symm⟩, fun ⟨e, h⟩ => ⟨Nat.succ_pos _, congrArg some h.symm, e⟩⟩
    (exists_congr fun l => ?_))
  rw [List.getElem?_cons_succ, place l, Nat.add_lt_add_iff_right]

/-- R256: the scan finds a clash where there is one. -/
theorem collides_iff (en : BitVec 1024) (dst : List Nat) (i : Nat) (seen : BitVec 1024) (bound : ∀ x ∈ dst, x < 1024) :
    collides en i dst seen = true ↔ ∃ j, Clash en i dst seen j := by
  induction dst generalizing i seen with
  | nil => simp [collides, Clash]
  | cons x xs ih =>
    have inside : ∀ y ∈ xs, y < 1024 := fun y hy => bound y (List.mem_cons_of_mem _ hy)
    rw [← Nat.or_exists_add_one, clash_zero, collides]
    by_cases hen : en.getLsbD i = true
    · by_cases old : seen.getLsbD x = true
      · simp only [hen, old, if_true, and_self, true_or]
      · simp only [hen, old, if_true, Bool.false_eq_true, if_false, and_false, false_or]
        rw [ih _ _ inside]
        refine exists_congr fun j => (clash_succ j inside fun y hy => ?_).symm
        rw [BitVec.getLsbD_or, getLsbD_place hy, Bool.or_eq_true, decide_eq_true_eq]
        simp only [hen, true_and]
    · rw [Bool.not_eq_true] at hen
      simp only [hen, Bool.false_eq_true, if_false, false_and, false_or]
      rw [ih _ _ inside]
      exact exists_congr fun j => (clash_succ j inside fun y _ => by
        simp only [hen, Bool.false_eq_true, false_and, or_false]).symm

theorem getLsbD_laneMask (f : Nat → Bool) {i : Nat} (h : i < 1024) : (laneMask f).getLsbD i = f i := by
  rw [laneMask, BitVec.getLsbD_ofFnLE, dif_pos h]

theorem getElem?_tabulate_eq_some {α : Type} {n k : Nat} {f : Nat → α} {x : α} : (tabulate n f)[k]? = some x ↔ k < n ∧ f k = x := by
  by_cases h : k < n
  · rw [getElem?_tabulate f h, Option.some.injEq, and_iff_right h]
  · rw [List.getElem?_eq_none (by simpa [tabulate] using h)]
    simp [h]

/-- R256: two enabled lanes of a pattern share a destination. -/
theorem pattern_collides (en : Nat → Bool) (dst : Nat → Nat) (bound : ∀ i, dst i < 1024) :
    collides (laneMask en) 0 (tabulate 1024 dst) 0 =
      (List.range 1024).any fun j => (List.range j).any fun i => en i && en j && decide (dst i = dst j) := by
  have inside : ∀ x ∈ tabulate 1024 dst, x < 1024 := fun x hx => by
    obtain ⟨i, -, rfl⟩ := List.mem_map.1 hx
    exact bound i
  rw [Bool.eq_iff_iff, collides_iff _ _ _ _ inside]
  simp only [List.any_eq_true, List.mem_range, Bool.and_eq_true, decide_eq_true_eq]
  refine exists_congr fun j => ?_
  have unseen (x : Nat) : ¬ (0 : BitVec 1024).getLsbD x = true := by simp
  unfold Clash
  simp only [getElem?_tabulate_eq_some, Nat.zero_add, unseen, Bool.false_eq_true, false_or]
  constructor
  · rintro ⟨x, ⟨hj, rfl⟩, enj, l, hl, ⟨hl', same⟩, enl⟩
    rw [getLsbD_laneMask _ hj] at enj
    rw [getLsbD_laneMask _ hl'] at enl
    exact ⟨hj, l, hl, ⟨enl, enj⟩, same⟩
  · rintro ⟨hj, l, hl, ⟨enl, enj⟩, same⟩
    have hl' : l < 1024 := hl.trans hj
    rw [← getLsbD_laneMask en hj] at enj
    rw [← getLsbD_laneMask en hl'] at enl
    exact ⟨dst j, ⟨hj, rfl⟩, enj, l, hl, ⟨hl', same⟩, enl⟩

end Sys2Proof.Machine

namespace Sys2Proof.Claims
open Sys2Proof.Machine

/-- Settles O28: each word by its meaning; a shift is that of `BitVec` modulo the element's width. -/
theorem planeBitWords : Obligations.PlaneBitWords := by
  intro d a b mask pw ty sub x y n e by_
  have shift {w : Instr} {f : Nat → Nat → Nat → Nat} (he : ∀ s, exec w s = s.word w fun s => s.planeShift d a b mask pw ty f)
      (g : (t : State) → Nat → Nat → Nat → BitVec n)
      (h : ∀ t j i k, f n (elemOf ty k (x t j i)) (by_ t j i k) % 2 ^ n = (g t j i k).toNat) :
      Quiet w 6 pw d mask fun t j i => packLane ty fun k => (g t j i k).toNat := by
    refine quiet_of fun s => (he s).trans (congrArg (s.word w) (funext fun t => ?_))
    refine congrArg (t.planeQuiet 6 (pwPlanes pw) d mask) (funext fun j => funext fun i => packLane_congr fun k _ => ?_)
    exact (h t j i k).trans (Nat.mod_eq_of_lt (g t j i k).isLt).symm
  have elem (w : Word) (k : Nat) : elemOf ty k w = (e w k).toNat := by
    rw [BitVec.toNat_ofNat]; exact (Nat.mod_eq_of_lt (Nat.mod_lt _ (Nat.two_pow_pos _))).symm
  have count (t : State) (j i k : Nat) : by_ t j i k % n = by_ t j i k := Nat.mod_mod _ _
  refine ⟨quiet_of fun _ => rfl, quiet_of fun _ => rfl, quiet_of fun _ => rfl, quiet_of fun _ => rfl, quiet_of fun _ => rfl,
    shift (fun _ => rfl) _ fun t j i k => ?shl, shift (fun _ => rfl) _ fun t j i k => ?shr, shift (fun _ => rfl) _ fun t j i k => ?sar,
    quiet_of fun _ => rfl⟩
  case shl => rw [elem]; exact low_shl _ _
  case shr => rw [elem, shr_toNat]; exact Nat.mod_eq_of_lt (BitVec.isLt _)
  case sar =>
    have := sarN_toNat (e (x t j i) k) (by_ t j i k)
    rw [sarN, count] at this
    rw [elem, this]
    exact Nat.mod_eq_of_lt (BitVec.isLt _)

/-- R246: a vote into every lane of a predicate. -/
theorem vote_plane (d a : Fin 16) (mask sub : Fin 8) (h : sub.val ≤ 2) : Lands (.pvote d a mask sub) 14 fun t =>
    [.pred d (BitVec.allOnes 1024) (if voteBit sub (t.cur.pred a) (t.cur.pred mask) then BitVec.allOnes 1024 else 0)] :=
  lands_of (fun _ => rfl) fun _ _ _ => by rw [landAll_one]; exact if_pos h

/-- R246: a vote into a scalar. -/
theorem vote_scalar (d a : Fin 16) (mask sub : Fin 8) (h : ¬ sub.val ≤ 2) : Lands (.pvote d a mask sub) 14 fun t => regLandings d
    [BitVec.ofNat 32 (if sub.val = 6 then voteCount (t.cur.pred a) (t.cur.pred mask)
      else b2n (voteBit sub (t.cur.pred a) (t.cur.pred mask)))] :=
  lands_of (fun _ => rfl) fun _ _ _ => if_neg h

theorem Lands.congr {i : Instr} {lat : Nat} {ls ls' : State → List Landing} (h : Lands i lat ls) (same : ∀ t, ls t = ls' t) :
    Lands i lat ls' := (funext same : ls = ls') ▸ h

/-- R243: a comparison lane by lane. -/
theorem pcmp_lands (d a b : Fin 16) (mask ty sub : Fin 8) :
    let c (t : State) (i : Nat) : Bool × Flags := cmpLane ty sub (t.cur.at_ a 0 i) (t.cur.at_ b 0 i)
    Lands (.pcmp d a b mask ty sub) 6 fun t => .pred d (t.cur.pred mask) (laneMask fun i => (c t i).1) ::
      flagLandings (t.cur.pred mask) [tabulate 1024 fun i => (c t i).2] := by
  intro c
  refine lands_of (fun _ => rfl) fun _ t _ => ?_
  have lanes_ : (laneMask fun i => ((tabulate 1024 (c t)).getD i (false, 0)).1) = laneMask fun i => (c t i).1 :=
    laneMask_congr fun i hi => by rw [getD_tabulate _ _ hi]
  rw [← lanes_, ← map_tabulate 1024 (c t)]
  rfl

/-- Settles O29: each word by its meaning; a vote by its three questions. -/
theorem predicateWords : Obligations.PredicateWords := by
  intro d a b mask pw ty sub m x y c
  have single {i : Instr} {f : State → BitVec 1024} (he : ∀ s, exec i s = s.word i fun s => s.predOut d mask (f s)) :
      Lands i 6 fun t => [.pred d (m t) (f t)] := lands_of he fun _ _ _ => (landAll_one _ _ _).symm
  have truth_eq {p : Prop} [Decidable p] {v : Bool} (h : v = true ↔ p) : b2n v = truth p := by
    cases v <;> simp_all [b2n, truth]
  refine ⟨pcmp_lands d a b mask ty sub, lands_of (fun _ => rfl) fun _ _ _ => rfl, single fun _ => rfl, single fun _ => rfl,
    single fun _ => rfl, single fun _ => rfl, (vote_plane d a mask 0 (by decide)).congr fun t => ?any,
    (vote_plane d a mask 1 (by decide)).congr fun t => ?all, (vote_plane d a mask 2 (by decide)).congr fun t => ?none,
    (vote_scalar d a mask 4 (by decide)).congr fun t => ?anyScalar, (vote_scalar d a mask 5 (by decide)).congr fun t => ?allScalar,
    (vote_scalar d a mask 6 (by decide)).congr fun t => ?count, single fun _ => rfl, single fun _ => rfl, lands_of (fun _ => rfl) fun _ _ _ => rfl⟩
  case any => exact congrArg (fun v => [Landing.pred d (BitVec.allOnes 1024) v]) (if_congr bne_iff_ne rfl rfl)
  case all | none => exact congrArg (fun v => [Landing.pred d (BitVec.allOnes 1024) v]) (if_congr decide_eq_true_iff rfl rfl)
  case count => exact congrArg (fun n => regLandings d [BitVec.ofNat 32 n]) (if_pos rfl)
  case anyScalar => exact congrArg (fun n => regLandings d [BitVec.ofNat 32 n]) (truth_eq bne_iff_ne)
  case allScalar => exact congrArg (fun n => regLandings d [BitVec.ofNat 32 n]) (truth_eq decide_eq_true_iff)

/-- Settles O30: the conversion and the draws by their meaning, the counter by what a bundle puts in flight. -/
theorem conversionAndRandomWords : Obligations.ConversionAndRandomWords := by
  refine ⟨fun d a b mask pw ty sub => ⟨lands_of (fun _ => rfl) fun _ _ _ => rfl, quiet_of fun _ => rfl, fun other => quiet_of fun s => ?value⟩,
    fun s t j i k key item launch counter => ⟨?draw, philox_lt _ _ _ _ _ _⟩, fun s c x len w is => ?bundle,
    fun frm n is i h => ?words, fun d a b r mask pw ty sub frm => ⟨rfl, fun float i member => ?draws⟩⟩
  case value =>
    refine congrArg (s.word _) (funext fun t => congrArg (t.planeQuiet 6 _ d mask) (funext fun j => funext fun i => ?_))
    exact congrArg (BitVec.ofNat 32) (if_neg fun zero => other (Fin.ext zero))
  case draw => simp only [State.rbits, if_true, key, item, launch, counter]
  case bundle =>
    intro k u n l
    obtain ⟨fs, flight, flags⟩ := s.afterIssue_inflight c x len is w
    have flight : u.inflight = (k.advanceRng is).inflight ++ fs := flight
    rw [flight, Core.advanceRng_inflight]
    refine ⟨fun some_ free => ?_, fun quiet f hf sysreg => ?_⟩
    · rw [if_neg (not_or.2 ⟨some_, fun ⟨i, hi, writes⟩ => free i hi writes⟩)]
      exact List.mem_append_left _ (List.mem_append_right _ (List.mem_singleton.2 rfl))
    · rw [if_pos quiet] at hf
      refine (List.mem_append.1 hf).resolve_right fun h => ?_
      obtain ⟨v, is_⟩ := sysreg
      obtain ⟨q, u, is'⟩ := flags f h
      cases is_.symm.trans is'
  case words =>
    obtain ⟨p, hp, number, word, count⟩ := placeWords_draws frm is n 0 none 0 0 h
    exact ⟨p, hp, number.trans (Nat.zero_add n), word, count.trans (Nat.zero_add _)⟩
  case draws =>
    have four : decide (sub.val = 4) = decide (sub = 4) := decide_eq_decide.2 ⟨fun h => Fin.ext h, fun h => congrArg Fin.val h⟩
    simp only [List.mem_cons, List.not_mem_nil, or_false] at member
    rcases member with rfl | rfl | rfl | rfl | rfl | rfl | rfl | rfl | rfl | rfl | rfl | rfl | rfl <;>
      simp only [drawsBits, decide_eq_true float, four, Bool.true_and]

/-- R252: a reduction word, whose groups are reduced once each. -/
theorem planeReduce_of {α : Type} {i : Instr} {lat : Nat} {row : Bool} {d a : Fin 16} {mask : Fin 8} {pw : Fin 4} {ty : Fin 8}
    {f : List Nat → α} {fin : State → Nat → Nat → Nat → α → Nat × Flags}
    (he : ∀ s, exec i s = s.word i fun s => s.planeReduce lat row d a mask pw ty f (fin s)) :
    Planes i lat 4 pw d mask fun t j i => laneOf ty fun e =>
      fin t j i e (f (t.cur.contrib a mask row ty j (if row then i / 64 else i % 64) e)) := by
  refine lands_of he fun _ t _ => ?_
  refine congrArg (t.landAll _) (planeLands_congr fun j hj i hi => laneOf_congr fun e he => ?_)
  have group : axisOf row i < if row then 16 else 64 := by
    cases row
    · exact Nat.mod_lt _ (by decide)
    · exact Nat.div_lt_of_lt_mul hi
  rw [getD_tabulate _ _ hj, getD_tabulate _ _ group, getElem?_tabulate _ he]
  rfl

/-- Settles O31: each word by its meaning. -/
theorem axisAndSpecialFunctionWords : Obligations.AxisAndSpecialFunctionWords := by
  refine ⟨fun d a k mask pw ty sub => ?_, fun d a b mask pw ty sub => ⟨planes_of fun _ => rfl, planes_of fun _ => rfl, planes_of fun _ => rfl⟩⟩
  intro x grp sums tops
  refine ⟨quiet_of fun _ => rfl, quiet_of fun _ => rfl, quiet_of fun _ => rfl, quiet_of fun _ => rfl, ?_, ?_, ?_, ?_⟩
  · exact planeReduce_of (f := sumReduce ty sub) (fin := fun s j i k => sumFinish ty sub (s.rbits sub j i k)) (row := true) fun _ => rfl
  · exact planeReduce_of (f := sumReduce ty sub) (fin := fun s j i k => sumFinish ty sub (s.rbits sub j i k)) (row := false) fun _ => rfl
  · exact planeReduce_of (f := extreme ty sub) (fin := fun _ _ _ _ r => r) (row := true) fun _ => rfl
  · exact planeReduce_of (f := extreme ty sub) (fin := fun _ _ _ _ r => r) (row := false) fun _ => rfl

/-- Settles O32: the scan of `collides` finds two lanes with one destination; the rest is the words' meaning. -/
theorem crossbarWords : Obligations.CrossbarWords := by
  intro d a b mask en dst slot from_
  refine ⟨lands_of (fun _ => rfl) fun _ t _ => ?set, takes_of (fun _ => rfl) fun _ t _ clear => ?bar,
    traps_of (fun _ => rfl) fun _ t _ hit => if_pos hit, quiet_of fun _ => ?transpose⟩
  case set =>
    rw [landAll_one]
    have dsts : (tabulate lanes fun i => (t.cur.at_ a 0 i).toNat % 1024) = tabulate 1024 (dst t) :=
      tabulate_congr fun i _ => by simp only [dst, BitVec.extractLsb'_toNat, Nat.shiftRight_zero, Nat.reducePow]
    have coll := pattern_collides (en t) (dst t) fun i => by
      simp only [dst, BitVec.extractLsb'_toNat]
      exact Nat.mod_lt _ (by decide)
    rw [← coll]
    exact congrArg (fun ds => t.landAt 6 (.xslot d (laneMask (en t)) ds (collides (laneMask (en t)) 0 ds 0))) dsts
  case bar =>
    rw [landAll_one]
    have open_ : ¬ (t.cur.xslot b).coll = true := by rw [show (t.cur.xslot b).coll = false from clear]; decide
    refine (if_neg open_).trans (congrArg (fun v => t.landAt 6 (.plane d (t.cur.pred mask) v)) (tabulate_congr fun i _ => ?_))
    have found : (t.cur.xslot b).source i = from_ t i := by simp only [XSlot.source, from_, slot, lanes]
    rewrite [found]
    cases from_ t i <;> rfl
  case transpose =>
    refine congrArg (State.word _ _) (funext fun t => congrArg (t.planeQuiet 6 1 d mask) (funext fun _ => funext fun i => ?_))
    rw [Nat.add_assoc]

end Sys2Proof.Claims
end

section
/-! The reversible words and the Tailrace words (R262-R274): the lanes of the forward words, the formulas of the undo words, entry headers,
and spilling. -/

namespace Sys2Proof.Machine

/-! ### Bytes (R5) -/

theorem leNat_leBytes (n x : Nat) : leNat (leBytes n x) = x % 256 ^ n := by
  induction n generalizing x with
  | zero => rw [Nat.pow_zero, Nat.mod_one]; rfl
  | succ n ih =>
    rw [leBytes, leNat, ih, BitVec.toNat_ofNat]
    conv_rhs => rw [Nat.pow_succ', Nat.mod_mul]

theorem leBytes_take {n m : Nat} (h : m ≤ n) (x : Nat) : (leBytes n x).take m = leBytes m x := by
  induction m generalizing n x with
  | zero => rfl
  | succ m ih =>
    obtain ⟨k, rfl⟩ := Nat.exists_eq_succ_of_ne_zero (Nat.ne_of_gt (Nat.lt_of_lt_of_le (Nat.succ_pos m) h))
    rw [leBytes, leBytes, List.take_succ_cons, ih (Nat.le_of_succ_le_succ h)]

/-! ### Entry headers (R263) -/

theorem Header.bytes_length (h : Header) : h.bytes.length = 64 := by
  simp only [Header.bytes, List.length_append, Claims.leBytes_length, List.length_replicate]

/-- R263: the fields of a header stand apart in its first word. -/
theorem Header.fields {h : Header} (op : h.op < 256) (tag : h.tag < 8) (ty : h.ty < 8) (var : h.var < 2) (param : h.param < 4)
    (shift : h.shift < 16) (nesc : h.nesc < 2048) (size : h.size < 65536) :
    h.word0 < 2 ^ 64 ∧ fld h.word0 63 56 = h.op ∧ fld h.word0 55 53 = h.tag ∧ fld h.word0 52 50 = h.ty ∧ fld h.word0 49 49 = h.var ∧
      fld h.word0 48 47 = h.param ∧ fld h.word0 46 43 = h.shift ∧ fld h.word0 42 32 = h.nesc ∧ fld h.word0 31 16 = h.size := by
  simp only [Header.word0, fld, Nat.reduceAdd, Nat.reduceSub, Nat.reducePow]
  omega

/-- R263: a header is read back from its bytes. -/
theorem Header.ofBytes_bytes {h : Header} (op : h.op < 256) (tag : h.tag < 8) (ty : h.ty < 8) (var : h.var < 2) (param : h.param < 4)
    (shift : h.shift < 16) (nesc : h.nesc < 2048) (size : h.size < 65536) (arg : h.arg < 2 ^ 32) (index : h.index < 2 ^ 32) :
    Header.ofBytes h.bytes = h := by
  have part (x : Nat) (rest : List Byte) : (leBytes 8 x ++ rest).drop 8 = rest := List.drop_left' (Claims.leBytes_length 8 x)
  have head (x m : Nat) (rest : List Byte) (hm : m ≤ 8) : (leBytes 8 x ++ rest).take m = leBytes m x := by
    rw [List.take_append_of_le_length (by rw [Claims.leBytes_length]; exact hm), leBytes_take hm]
  have word : h.bytes = leBytes 8 h.word0 ++ (leBytes 8 h.arg ++ (leBytes 8 h.index ++ List.replicate 40 0)) := by
    simp only [Header.bytes, List.append_assoc]
  have second : h.bytes.drop 16 = leBytes 8 h.index ++ List.replicate 40 0 := by
    rw [show 16 = 8 + 8 from rfl, ← List.drop_drop, word, part, part]
  obtain ⟨bound, f1, f2, f3, f4, f5, f6, f7, f8⟩ := Header.fields op tag ty var param shift nesc size
  have w : leNat (h.bytes.take 8) = h.word0 := by
    rw [word, head _ 8 _ le_rfl, leNat_leBytes]; exact Nat.mod_eq_of_lt bound
  have a : leNat ((h.bytes.drop 8).take 4) = h.arg := by
    rw [word, part, head _ 4 _ (by decide), leNat_leBytes]; exact Nat.mod_eq_of_lt arg
  have i : leNat ((h.bytes.drop 16).take 4) = h.index := by
    rw [second, head _ 4 _ (by decide), leNat_leBytes]; exact Nat.mod_eq_of_lt index
  simp only [Header.ofBytes, w, a, i, f1, f2, f3, f4, f5, f6, f7, f8]

/-! ### Spilling (R273, R275) -/

theorem markSpill_extents (lim left : Nat) (es : List TailEnt) :
    (markSpill lim left es).map (fun e => (e.base, e.size)) = es.map fun e => (e.base, e.size) := by
  induction es generalizing left with
  | nil => rfl
  | cons e es ih =>
    unfold markSpill
    split
    · split
      · simp only [List.map_cons, ih]
      · rfl
    · simp only [List.map_cons, ih]

/-- R273: a spill marks entries, and moves none. -/
theorem Tail.spillTo_leaves (t : Tail) (lim : Nat) (top : Bool) : (t.spillTo lim top).rsp = t.rsp ∧ (t.spillTo lim top).ring = t.ring ∧
    (t.spillTo lim top).ents.map (fun e => (e.base, e.size)) = t.ents.map fun e => (e.base, e.size) := by
  have marked (left : Nat) (es : List TailEnt) :
      (markSpill lim left es.reverse).reverse.map (fun e => (e.base, e.size)) = es.map fun e => (e.base, e.size) := by
    rw [List.map_reverse, markSpill_extents, List.map_reverse, List.reverse_reverse]
  unfold Tail.spillTo
  cases h : t.ents with
  | nil => exact ⟨rfl, rfl, by rw [h]⟩
  | cons e es =>
    cases top with
    | true => exact ⟨rfl, rfl, marked _ _⟩
    | false => exact ⟨rfl, rfl, congrArg (List.cons (e.base, e.size)) (marked _ _)⟩

/-- R273: is a spill still to land? -/
theorem Tail.spilling_iff (t : Tail) : t.spilling = true ↔ t.flight ≠ [] ∨ ∃ e ∈ t.ents, e.st = 1 := by
  simp only [Tail.spilling, Bool.or_eq_true, Bool.not_eq_true', List.isEmpty_eq_false_iff, List.any_eq_true, decide_eq_true_eq]

/-- R274: the top entry's escape count and size as they stand in its header. -/
theorem Tail.read_drop (t : Tail) (off : Nat) : (t.read off 8).drop 4 = t.read (off + 4) 4 := by
  have at_ (i : Nat) : off + (4 + i) = off + 4 + i := by omega
  simp only [Tail.read, tabulate, ← List.map_drop, show (List.range 8).drop 4 = (List.range 4).map (4 + ·) from rfl, List.map_map,
    Function.comp_def, at_]

/-- R274: what `rvinfo 0` reads of the top entry. -/
theorem Tail.info_top {t : Tail} (top : t.rsp = 0 ∨ ∃ e, t.ents.head? = some e ∧ e.st ≤ 1) :
    t.info 0 = some (if t.rsp = 0 then 0 else leNat (t.read (t.rsp - 64 + 4) 4)) := by
  by_cases empty : t.rsp = 0
  · exact (if_pos empty).trans (congrArg some (if_pos empty).symm)
  obtain ⟨e, here, there⟩ := top.resolve_left empty
  obtain ⟨es, ents⟩ := List.head?_eq_some_iff.1 here
  rw [if_neg empty, Tail.info, if_neg empty, ents, ← Tail.read_drop]
  exact if_pos there

/-- R274: it is not there while the top entry is not. -/
theorem Tail.info_away {t : Tail} (some_ : 0 < t.rsp) (gone : ∀ e, t.ents.head? = some e → 1 < e.st) : t.info 0 = none := by
  rw [Tail.info, if_neg (Nat.ne_of_gt some_)]
  cases ents : t.ents with
  | nil => rfl
  | cons e es => exact if_neg (Nat.not_le.2 (gone e (congrArg List.head? ents)))

/-! ### The lanes of the forward words (R268-R271) -/

/-- R270: the carry bit stands above the low half. -/
theorem carry_eq (m n : Nat) : (if m = n then 0 else 2 ^ 16) = 65536 * Claims.truth (m ≠ n) := by
  by_cases same : m = n
  · have zero : Claims.truth (m ≠ n) = 0 := if_neg (not_not.2 same)
    rw [if_pos same, zero]
  · have one : Claims.truth (m ≠ n) = 1 := if_pos same
    rw [if_neg same, one]
    rfl

/-- R270: a bit of the carry map. -/
theorem b2n_getLsbD {n : Nat} (x : BitVec n) (i : Nat) : b2n (x.getLsbD i) = (x.extractLsb' i 1).toNat := by
  rw [BitVec.extractLsb'_toNat, Nat.shiftRight_eq_div_pow, Nat.pow_one, BitVec.getLsbD, Nat.testBit_eq_decide_div_mod_eq]
  rcases Nat.mod_two_eq_zero_or_one (x.toNat / 2 ^ i) with h | h <;> simp [b2n, h]

end Sys2Proof.Machine

namespace Sys2Proof.Claims
open Sys2Proof.Machine

/-- A forward word whose lanes are claimed in another form. -/
theorem Forwards.congr {i : Instr} {lat : Nat} {d a : Fin 16} {mask : Fin 8} {h : State → Header} {l l' : State → Nat → Fwd}
    {fixed : State → BitVec 1024 → List Fwd → List Byte} (w : Forwards i lat d a mask h l fixed) (same : ∀ t j, l t j = l' t j) :
    Forwards i lat d a mask h l' fixed := (funext fun t => funext (same t) : l = l') ▸ w

theorem Undoes.congr {i : Instr} {lat : Nat} {d : Fin 16} {op tag ty var param fixed : Nat} {f f' : State → Header → List Byte → Nat → Word}
    (w : Undoes i lat d op tag ty var param fixed f) (same : ∀ t h e j, f t h e j = f' t h e j) :
    Undoes i lat d op tag ty var param fixed f' :=
  (funext fun t => funext fun h => funext fun e => funext (same t h e) : f = f') ▸ w

/-- Settles O33: the lanes of each word are those of the model. -/
theorem forwardWords : Obligations.ForwardWords := by
  intro d a b r mask sub x z f32 special diff exact tiny scaled some_
  refine ⟨(forwards_of (l := fun t i => fwdExact false (t.cur.at_ a 0 i) (t.cur.at_ b 0 i)) fun _ => rfl).congr fun t i => ?add,
    (forwards_of (l := fun t i => fwdExact true (t.cur.at_ a 0 i) (t.cur.at_ b 0 i)) fun _ => rfl).congr fun t i => ?mul,
    (forwards_of (l := fun t i => fwdScale (t.cur.at_ a 0 i) (t.cur.rd r).toInt) fun _ => rfl).congr fun t i => rfl,
    (forwards_of (l := fun t i => fwdLrelu (t.cur.at_ a 0 i) (b.val + 1)) fun _ => rfl).congr fun t i => ?lrelu,
    (forwards_of (l := fun t i => fwdNarrow b (t.cur.at_ a 0 i) (t.cur.at_ d 0 i)) fun _ => rfl).congr fun t i => ?narrow,
    (forwards_of (l := fun t i => fwdCvt (sub.val % 2) b (t.cur.at_ a 0 i) (t.cur.at_ d 0 i)) fun _ => rfl).congr fun t i => ?cvt⟩
  case add =>
    simp only [fwdExact, Bool.false_and, Bool.or_false, Bool.false_eq_true, if_false]
    rfl
  case mul =>
    simp only [fwdExact, Bool.true_and, if_true, ← Bool.or_assoc]
    rfl
  case lrelu => rfl
  case narrow =>
    exact congrArg (fun n => Fwd.mk _ _ _ (_ + n)) (carry_eq _ _)
  case cvt => rfl

/-- Settles O34: the formula of each word is that of the model. -/
theorem undoWords : Obligations.UndoWords := by
  intro d a b sub f32 x z rem round by_ fp8
  refine ⟨undoes_of fun _ => rfl, (undoes_of fun _ => rfl).congr fun t h e i => rfl, undoes_of fun _ => rfl, undoes_of fun _ => rfl,
    (undoes_of fun _ => rfl).congr fun t h e i => ?narrow, (undoes_of fun _ => rfl).congr fun t h e i => rfl⟩
  rw [b2n_getLsbD]
  rfl

/-- Settles O36: headers field by field, a spill by what it marks, and the words by their meaning. -/
theorem tailraceWords : Obligations.TailraceWords := by
  refine ⟨fun h op tag ty var param shift nesc size arg index =>
    ⟨Header.ofBytes_bytes op tag ty var param shift nesc size arg index, h.bytes_length⟩, Tail.spillTo_leaves, fun r sub => ?_⟩
  intro value mark top marked info
  have query (q : Fin 8) (v : State → Nat) (hv : ∀ t : State, t.cur.tail.info q = some (v t)) : info q v :=
    takes_of (fun _ => rfl) fun _ t _ _ => by simp only [hv]; rfl
  refine ⟨acts_of (fun _ => rfl) fun _ t _ room => State.pushEntry_nil _ _ _ room,
    traps_of (fun _ => rfl) fun _ t _ full => State.pushEntry_full _ _ _ [] full,
    asks_of (fun _ => rfl) fun _ t _ ⟨fits, wait⟩ => State.pushEntry_wait _ _ _ [] fits wait,
    acts_of (fun _ => rfl) fun _ t _ ⟨here, is_, arg⟩ => ?pop, traps_of (fun _ => rfl) fun _ t _ ⟨here, other⟩ => ?other,
    traps_of (fun _ => rfl) fun _ t _ empty => ?empty, asks_of (fun _ => rfl) fun _ t _ ⟨some_, gone⟩ => ?gone,
    acts_of (fun _ => rfl) fun _ t _ _ => rfl, acts_of (fun _ => rfl) fun _ t _ ⟨landed, none_⟩ => ?landed,
    asks_of (fun _ => rfl) fun _ t _ spilling => ?spilling,
    takes_of (fun _ => rfl) fun _ t _ top => ?info, asks_of (fun _ => rfl) fun _ t _ ⟨some_, gone⟩ => ?refill,
    query 1 _ fun _ => rfl, query 2 _ fun _ => rfl, query 3 _ fun _ => rfl⟩
  case pop => rw [← show t.cur.tail.header.arg = (t.cur.rd r).toNat from arg, State.popEntry_mark _ _ _ _ _ _ here is_]; rfl
  case other => rw [State.popEntry_unmarked _ _ _ _ _ _ _ here (fun h => other ⟨h.1, h.2.symm⟩)]; rfl
  case empty => rw [State.popEntry_empty _ _ _ _ _ _ _ empty]; rfl
  case gone => rw [State.popEntry_refill _ _ _ _ _ _ _ some_ gone]; rfl
  case landed =>
    refine if_neg fun wait => ?_
    exact ((Tail.spilling_iff _).1 (Bool.and_eq_true_iff.1 wait).2).elim (absurd landed) fun ⟨e, mem, st⟩ => none_ e mem st
  case spilling => exact if_pos (Bool.and_eq_true_iff.2 ⟨rfl, (Tail.spilling_iff _).2 spilling⟩)
  case info =>
    have read : t.cur.tail.info (0 : Fin 8).val = _ := Tail.info_top top
    simp only [read, id]
  case refill =>
    have read : t.cur.tail.info (0 : Fin 8).val = none := Tail.info_away some_ gone
    simp only [read]

end Sys2Proof.Claims
end

section
/-! `rvnarrow` is undone exactly (R270): the BF16 pattern of an f32 value is its high half, or one more. -/

namespace Sys2Proof.Machine

/-- R59: an f32 pattern that is not a NaN is an infinity, a subnormal value, or a normal one. -/
theorem f32_cases {x : Nat} (value : (Fmt.f32.decode x).isNan = false) :
    (Fmt.f32.decode x = .inf (bit x 31) ∧ x / 8388608 % 256 = 255 ∧ x % 8388608 = 0) ∨
    (Fmt.f32.decode x = .fin (bit x 31) (x % 8388608) (-149) false ∧ x / 8388608 % 256 = 0) ∨
    ∃ k, x / 8388608 % 256 = k + 1 ∧ k < 254 ∧ Fmt.f32.decode x = .fin (bit x 31) (x % 8388608 + 8388608) ((k : Int) - 149) false := by
  have decoded : Fmt.f32.decode x =
      if x / 8388608 % 256 = 255 then
        (if x % 8388608 = 0 then .inf (bit x 31) else .nan (true && !bit (x % 8388608) 22))
      else if x / 8388608 % 256 = 0 then .fin (bit x 31) (x % 8388608) (-149) false
      else .fin (bit x 31) (x % 8388608 + 8388608) (-149 + (((x / 8388608 % 256 : Nat) : Int) - 1)) false := by
    have other : (Fmt.f32 != .e5m2) = true := rfl
    simp [Fmt.decode, Fmt.mbits, Fmt.ebits, Fmt.bits, Fmt.hasInf, Fmt.emin, Fmt.bias, other] <;>
    exact if_congr decide_eq_true_iff rfl rfl
  rw [decoded] at value ⊢
  by_cases top : x / 8388608 % 256 = 255
  · rw [if_pos top] at value ⊢
    by_cases zero : x % 8388608 = 0
    · exact .inl ⟨if_pos zero, top, zero⟩
    · rw [if_neg zero] at value
      cases value
  rw [if_neg top]
  by_cases low : x / 8388608 % 256 = 0
  · exact .inr (.inl ⟨if_pos low, low⟩)
  · refine .inr (.inr ⟨x / 8388608 % 256 - 1, by omega, by omega, ?_⟩)
    rw [if_neg low]
    exact congrArg (Num.fin _ _ · _) (by omega)

/-- R63: rounding gives one of the two grid points around the magnitude. -/
theorem roundAt_near {q e : Int} (rm : Nat) (neg : Bool) (m : Nat) (st : Bool) (rb : Nat) (coarse : e < q) :
    (roundAt q rm neg m e st rb).1 = m / 2 ^ (q - e).toNat ∨ (roundAt q rm neg m e st rb).1 = m / 2 ^ (q - e).toNat + 1 := by
  simp only [roundAt, if_neg (Int.not_le.2 coarse)]
  split
  · exact .inr rfl
  · exact .inl rfl

/-- R63, R64: a magnitude on a BF16 grid 16 bits coarser than its own exponent is taken to the code of the grid point below it or the
next one, an infinity being the code after the last. -/
theorem convert_bf16_near (neg : Bool) {m k : Nat} {e : Int} (some_ : m ≠ 0) (at_ : e = (k : Int) - 149)
    (grid : Fmt.bf16.gridExp m e = (k : Int) - 133) (small : e + (Nat.log2 m : Int) ≤ 300) (bound : k * 128 + m / 65536 ≤ 32639) :
    ∃ c, (convert (.fin neg m e false) .bf16 0 false 0).1 = Fmt.bf16.signed neg c ∧ (c = k * 128 + m / 65536 ∨ c = k * 128 + m / 65536 + 1) := by
  have shift : ((k : Int) - 133 - e).toNat = 16 := by omega
  have near := roundAt_near (q := (k : Int) - 133) (e := e) 0 neg m false 0 (by omega)
  rw [shift] at near
  have base : ((k : Int) - 133 - Fmt.bf16.emin).toNat * 2 ^ Fmt.bf16.mbits = k * 128 := by
    rw [show Fmt.bf16.emin = -133 from rfl, show (k : Int) - 133 - -133 = k by omega]
    rfl
  have converted : convert (.fin neg m e false) .bf16 0 false 0 =
      let r := roundAt ((k : Int) - 133) 0 neg m e false 0
      let code := k * 128 + r.1
      if 32639 < code then (Fmt.bf16.signed neg 32640, 20)
      else (Fmt.bf16.signed neg code, (if r.2 then 16 else 0) + (if r.2 && code < 2 ^ Fmt.bf16.mbits then 8 else 0)) := by
    have nonzero : (decide (m = 0) && !false) = false := by rw [decide_eq_false some_]; rfl
    simp only [convert, nonzero, Bool.false_eq_true, if_false, if_neg (Int.not_lt.2 small), grid, base]
    rfl
  rw [converted]
  by_cases over_ : 32639 < k * 128 + (roundAt ((k : Int) - 133) 0 neg m e false 0).1
  · refine ⟨32640, congrArg Prod.fst (if_pos over_), ?_⟩
    omega
  · refine ⟨_, congrArg Prod.fst (if_neg over_), ?_⟩
    omega

/-- R59: the sign of a BF16 pattern stands above its code. -/
theorem bf16_signed (x c : Nat) (bound : x < 4294967296) : Fmt.bf16.signed (bit x 31) c = x / 2147483648 * 32768 + c := by
  have sign : bit x 31 = decide (x / 2147483648 % 2 = 1) := Nat.testBit_eq_decide_div_mod_eq
  rw [sign]
  by_cases h : x / 2147483648 % 2 = 1
  · rw [decide_eq_true h]
    show 32768 + c = _
    omega
  · rw [decide_eq_false h]
    show c = _
    omega

/-- R270: the BF16 pattern of an f32 value that is not a NaN is its high half, or one more. -/
theorem narrow_near {x : Nat} (bound : x < 4294967296) (value : (Fmt.f32.decode x).isNan = false) :
    let y := (convert (Fmt.f32.decode x) .bf16 0 false 0).1
    y < 65536 ∧ (y = x / 65536 ∨ y = x / 65536 + 1) := by
  obtain ⟨is, top, frac⟩ | ⟨is, low⟩ | ⟨k, ex, kb, is⟩ := f32_cases value
  case inl =>
    have y : (convert (.inf (bit x 31)) .bf16 0 false 0).1 = Fmt.bf16.signed (bit x 31) 32640 := rfl
    rw [is, y, bf16_signed x _ bound]
    constructor <;> omega
  case inr.inl =>
    rw [is]
    by_cases zero : x % 8388608 = 0
    · have y : (convert (.fin (bit x 31) 0 (-149) false) .bf16 0 false 0).1 = Fmt.bf16.signed (bit x 31) 0 := rfl
      rw [zero, y, bf16_signed x _ bound]
      constructor <;> omega
    have log : Nat.log2 (x % 8388608) < 23 := (Nat.log2_lt zero).2 (Nat.mod_lt _ (by decide))
    have grid : Fmt.bf16.gridExp (x % 8388608) (-149) = ((0 : Nat) : Int) - 133 := by
      simp only [Fmt.gridExp, Fmt.emin, Fmt.bias, Fmt.mbits]
      omega
    obtain ⟨c, y, near⟩ := convert_bf16_near (bit x 31) (k := 0) (e := -149) zero rfl grid (by omega) (by omega)
    rw [y, bf16_signed x _ bound]
    constructor <;> omega
  case inr.inr =>
    have log : Nat.log2 (x % 8388608 + 8388608) = 23 := by
      rw [Nat.log2_eq_iff (by omega)]
      constructor <;> omega
    have grid : Fmt.bf16.gridExp (x % 8388608 + 8388608) ((k : Int) - 149) = (k : Int) - 133 := by
      simp only [Fmt.gridExp, Fmt.emin, Fmt.bias, Fmt.mbits, log]
      omega
    obtain ⟨c, y, near⟩ := convert_bf16_near (bit x 31) (k := k) (by omega) rfl grid (by rw [log]; omega) (by omega)
    rw [is, y, bf16_signed x _ bound]
    constructor <;> omega

end Sys2Proof.Machine

namespace Sys2Proof.Claims
open Sys2Proof.Machine

/-- Settles O35: the pattern keeps the high half up to the carry, which the remainder tells. -/
theorem narrowIsUndoneExactly : Obligations.NarrowIsUndoneExactly := by
  intro a d h hh value r y
  obtain ⟨bound, near⟩ := narrow_near a.isLt value
  have elem (k : Nat) (hk : k < 2) : elemOf 1 k r.y =
      (if k = h then (convert (Fmt.f32.decode a.toNat) .bf16 0 false 0).1 else elemOf 1 k d) % 65536 :=
    elemOf_packLane 1 _ hk
  have here : y = (convert (Fmt.f32.decode a.toNat) .bf16 0 false 0).1 := by
    rw [show y = elemOf 1 h r.y from rfl, elem h hh, if_pos rfl, Nat.mod_eq_of_lt bound]
  refine ⟨value, here ▸ near, ?_, ?_⟩
  · rw [elem (1 - h) (by omega), if_neg (by omega)]
    exact Nat.mod_mod _ _
  · have rem : r.rem = a.toNat % 65536 + (if y = a.toNat / 65536 then 0 else 65536) := by rw [here]; rfl
    rw [← here] at near
    rw [rem]
    split <;> omega

end Sys2Proof.Claims
end

section
/-! The matrix words at issue (R282-R310): the order of a product's checks, the claims, and the command that enters a set. -/

namespace Sys2Proof.Machine

/-! ### The command sets (R283) -/

theorem Mill.room_iff (m : Mill) : m.room = true ↔ m.shadow = none := Option.isNone_iff_eq_none

/-- R283: a command goes into the active set where that is empty. -/
theorem Mill.enter_active {m : Mill} {x : Cmd} (room : m.shadow = none) (empty : m.active = none) :
    m.enter x = { m with active := some x } := by
  rw [Mill.enter, room, empty]
  rfl

theorem Mill.enter_shadow {m : Mill} {x y : Cmd} (busy : m.active = some y) : m.enter x = { m with shadow := some x } := by
  rw [Mill.enter, busy]
  rfl

theorem State.issueCmd_room {s : State} {x : Cmd} (room : s.cur.mill.shadow = none) :
    s.issueCmd x = .ok (s.setCur { s.cur with mill := s.cur.mill.enter x }) :=
  if_pos ((Mill.room_iff _).2 room)

/-- R294: the claims change handles alone. -/
theorem State.claimAll_mill (s : State) (c : Nat) (hs : List Nat) :
    ((s.claimAll c hs).core c).mill = (s.core c).mill ∧ (s.claimAll c hs).turn = s.turn := by
  induction hs generalizing s with
  | nil => exact ⟨rfl, rfl⟩
  | cons h hs ih =>
    obtain ⟨mill, turn⟩ := ih (s.updHandle c h Handle.claim)
    have claimed : (s.updHandle c h Handle.claim).core c = (s.core c).setHandle h ((s.core c).handle h).claim := State.core_setCore_self s c _
    exact ⟨mill.trans (by rw [claimed]; rfl), turn⟩

theorem State.claimAll_cur (s : State) (hs : List Nat) : (s.claimAll s.turn hs).cur.mill = s.cur.mill := by
  obtain ⟨mill, turn⟩ := s.claimAll_mill s.turn hs
  rw [State.cur, turn, mill]
  rfl

/-! ### A product at issue (R293, R294, R310) -/

/-- R283, R294, R310: what a product waits for. -/
def State.millReady (t : State) (acc : Nat) (clr : Bool) (a b : Nat) : Prop :=
  t.cur.mill.shadow = none ∧ t.cur.accFree acc clr = true ∧ t.cur.handlesReady [t.cur.treg a, t.cur.treg b] = true

theorem State.millReady_iff (t : State) (acc : Nat) (clr : Bool) (a b : Nat) :
    (!t.cur.mill.room || !t.cur.accFree acc clr || !t.cur.handlesReady [t.cur.treg a, t.cur.treg b]) = true ↔ ¬ t.millReady acc clr a b := by
  simp only [State.millReady, ← Mill.room_iff, Bool.or_eq_true, Bool.not_eq_true']
  cases t.cur.mill.room <;> cases t.cur.accFree acc clr <;> cases t.cur.handlesReady [t.cur.treg a, t.cur.treg b] <;> decide

/-- R293: the operands of a product as its layout is checked. -/
def State.operands (t : State) (op : MOp) (acc a b : Nat) (ix : List Word) : Cmd :=
  { t.cur.command op acc with a := t.cur.treg a, b := t.cur.treg b, ix := ix }

/-- R86: those operands with the codebooks that they read at their use. -/
def State.booked (t : State) (op : MOp) (acc a b : Nat) (ix : List Word) : Cmd :=
  { t.operands op acc a b ix with a := t.withCodebook t.turn (t.cur.treg a), b := t.withCodebook t.turn (t.cur.treg b) }

section
variable {t : State} {op : MOp} {acc : Fin 8} {clr : Bool} {pf : Fin 32} {a b : Fin 16} {ix : List Word}

theorem State.issueProduct_waits (busy : ¬ t.millReady acc clr a b) : t.issueProduct op acc clr pf a b ix = stalled :=
  if_pos ((t.millReady_iff acc clr a b).2 busy)

variable (ready : t.millReady acc clr a b)
include ready

theorem State.issueProduct_ready :
    t.issueProduct op acc clr pf a b ix =
      if 8 ≤ pf.val then trapped 10
      else if !(t.operands op acc a b ix).layoutOk pf then trapped 8
      else match (t.cur.handleCheck (t.cur.treg a)).orElse fun _ => t.cur.handleCheck (t.cur.treg b) with
        | some x => .error (.trap x)
        | none =>
          let x := t.booked op acc a b ix
          if !t.elementsOk t.turn x.a x.placesA || !t.elementsOk t.turn x.b x.placesB then trapped 3
          else (t.claimAll t.turn (x.a.named ++ x.b.named)).issueCmd { x with readers := x.a.named ++ x.b.named } :=
  if_neg fun waits => (t.millReady_iff acc clr a b).1 waits ready

theorem State.issueProduct_profile (bad : 8 ≤ pf.val) : t.issueProduct op acc clr pf a b ix = trapped 10 :=
  (State.issueProduct_ready ready).trans (if_pos bad)

variable (prof : pf.val < 8)
include prof

theorem State.issueProduct_layout (bad : ¬ (t.operands op acc a b ix).layoutOk pf = true) :
    t.issueProduct op acc clr pf a b ix = trapped 8 :=
  (State.issueProduct_ready ready).trans ((if_neg (Nat.not_le.2 prof)).trans (if_pos (by rw [Bool.eq_false_of_not_eq_true bad]; rfl)))

variable (layout : (t.operands op acc a b ix).layoutOk pf = true)
include layout

theorem State.issueProduct_checks :
    t.issueProduct op acc clr pf a b ix =
      match (t.cur.handleCheck (t.cur.treg a)).orElse fun _ => t.cur.handleCheck (t.cur.treg b) with
        | some x => .error (.trap x)
        | none =>
          let x := t.booked op acc a b ix
          if !t.elementsOk t.turn x.a x.placesA || !t.elementsOk t.turn x.b x.placesB then trapped 3
          else (t.claimAll t.turn (x.a.named ++ x.b.named)).issueCmd { x with readers := x.a.named ++ x.b.named } :=
  (State.issueProduct_ready ready).trans ((if_neg (Nat.not_le.2 prof)).trans (if_neg (by rw [layout]; decide)))

theorem State.issueProduct_faultA {x : Trap} (fault : t.cur.handleCheck (t.cur.treg a) = some x) :
    t.issueProduct op acc clr pf a b ix = .error (.trap x) := by
  rw [State.issueProduct_checks ready prof layout, fault]
  rfl

variable (goodA : t.cur.handleCheck (t.cur.treg a) = none)
include goodA

theorem State.issueProduct_faultB {x : Trap} (fault : t.cur.handleCheck (t.cur.treg b) = some x) :
    t.issueProduct op acc clr pf a b ix = .error (.trap x) := by
  rw [State.issueProduct_checks ready prof layout, goodA, fault]
  rfl

variable (goodB : t.cur.handleCheck (t.cur.treg b) = none)
include goodB

theorem State.issueProduct_elements :
    t.issueProduct op acc clr pf a b ix =
      let x := t.booked op acc a b ix
      if !t.elementsOk t.turn x.a x.placesA || !t.elementsOk t.turn x.b x.placesB then trapped 3
      else (t.claimAll t.turn (x.a.named ++ x.b.named)).issueCmd { x with readers := x.a.named ++ x.b.named } := by
  rw [State.issueProduct_checks ready prof layout, goodA, goodB]
  rfl

theorem State.issueProduct_window
    (out : ¬ (t.elementsOk t.turn (t.booked op acc a b ix).a (t.booked op acc a b ix).placesA = true ∧
      t.elementsOk t.turn (t.booked op acc a b ix).b (t.booked op acc a b ix).placesB = true)) :
    t.issueProduct op acc clr pf a b ix = trapped 3 := by
  rw [State.issueProduct_elements ready prof layout goodA goodB]
  exact if_pos (by rw [Bool.or_eq_true, Bool.not_eq_true', Bool.not_eq_true', ← Bool.not_eq_true, ← Bool.not_eq_true]
                   exact not_and_or.1 out)

theorem State.issueProduct_ok
    (inA : t.elementsOk t.turn (t.booked op acc a b ix).a (t.booked op acc a b ix).placesA = true)
    (inB : t.elementsOk t.turn (t.booked op acc a b ix).b (t.booked op acc a b ix).placesB = true) :
    t.issueProduct op acc clr pf a b ix =
      (t.claimAll t.turn ((t.booked op acc a b ix).a.named ++ (t.booked op acc a b ix).b.named)).issueCmd
        { t.booked op acc a b ix with readers := (t.booked op acc a b ix).a.named ++ (t.booked op acc a b ix).b.named } := by
  rw [State.issueProduct_elements ready prof layout goodA goodB]
  exact if_neg (by rw [inA, inB]; decide)

end

/-- R293: an operand that is not loaded is a layout fault. -/
theorem Cmd.layoutOk_loaded {x : Cmd} {pf : Nat} (ok : x.layoutOk pf = true) : x.a.loaded = true ∧ x.b.loaded = true := by
  simp only [Cmd.layoutOk, Bool.and_eq_true, and_assoc] at ok
  exact ⟨ok.1, ok.2.1⟩

/-! ### The checks of a register at its use (R71, R81, R85, R86) -/

theorem TReg.named_of {v : TReg} (loaded : v.loaded = true) (rel : v.space = 3) : v.named = [v.handle] :=
  if_pos (by rw [loaded, rel]; rfl)

theorem TReg.named_none {v : TReg} (other : v.loaded = false ∨ v.space ≠ 3) : v.named = [] := by
  refine if_neg fun both => ?_
  obtain ⟨loaded, rel⟩ := Bool.and_eq_true_iff.1 both
  exact other.elim (fun no => absurd (loaded.symm.trans no) (by decide)) fun no => no (of_decide_eq_true rel)

theorem TReg.mem_named {v : TReg} {h : Nat} : h ∈ v.named ↔ v.loaded = true ∧ v.space = 3 ∧ h = v.handle := by
  by_cases both : v.loaded = true ∧ v.space = 3
  · rw [TReg.named_of both.1 both.2, List.mem_singleton]
    exact ⟨fun is => ⟨both.1, both.2, is⟩, fun is => is.2.2⟩
  · rw [TReg.named_none (by rwa [← Bool.not_eq_true, ← not_and_or])]
    exact ⟨(fun mem => nomatch mem), fun is => absurd ⟨is.1, is.2.1⟩ both⟩

theorem Core.handleCheck_none {k : Core} {v : TReg} (other : v.loaded = false ∨ v.space ≠ 3) : k.handleCheck v = none := by
  rw [Core.handleCheck, TReg.named_none other]
  rfl

/-- R85, R86, R135: the violation, the swizzle, then the regions. -/
theorem Core.handleCheck_of {k : Core} {v : TReg} (loaded : v.loaded = true) (rel : v.space = 3) :
    k.handleCheck v = if !(k.handle v.handle).defd then some (trapOf 16 v.handle)
      else if (k.handle v.handle).vtag != v.swz then some (trapOf 9 0) else v.regionFault k.handles := by
  rw [Core.handleCheck, TReg.named_of loaded rel, List.findSome?_singleton]

/-- R71, R86: the regions of a version lie inside a bank of the handle that its base names. -/
def TReg.sound (v : TReg) (hs : Map Handle) (n : Nat) : Prop :=
  (Map.get Handle.reset hs (v.handleAt n)).defd = true ∧
    (v.bs = true → v.scbase + (n + 1) * v.scaleBytes ≤ (Map.get Handle.reset hs (v.handleAt n)).bankSize) ∧
    (v.fmt = 12 → v.cbbase + (n + 1) * 4096 ≤ (Map.get Handle.reset hs (v.handleAt n)).bankSize)

theorem TReg.bankOk_iff (v : TReg) (n : Nat) (h : Handle) : v.bankOk n h = true ↔
    (v.bs = true → v.scbase + (n + 1) * v.scaleBytes ≤ h.bankSize) ∧ (v.fmt = 12 → v.cbbase + (n + 1) * 4096 ≤ h.bankSize) := by
  simp only [TReg.bankOk, Bool.and_eq_true, Bool.or_eq_true, Bool.not_eq_true', decide_eq_true_eq, bne_iff_ne, ne_eq]
  rw [← Bool.not_eq_true, ← imp_iff_not_or, ← imp_iff_not_or]

/-- The check of one version. -/
def TReg.versionFault (v : TReg) (hs : Map Handle) (n : Nat) : Option Trap :=
  if !(Map.get Handle.reset hs (v.handleAt n)).defd then some (trapOf 16 (v.handleAt n))
  else if v.bankOk n (Map.get Handle.reset hs (v.handleAt n)) then none else some (trapOf 8 0)

theorem TReg.regionFault_none {v : TReg} (hs : Map Handle) (plain : v.bs = false) (other : v.fmt ≠ 12) : v.regionFault hs = none :=
  if_pos (by rw [plain, bne_iff_ne.2 other]; rfl)

theorem TReg.regionFault_of {v : TReg} (hs : Map Handle) (checked : v.bs = true ∨ v.fmt = 12) :
    v.regionFault hs = (List.range v.versions).findSome? (v.versionFault hs) := by
  refine if_neg fun no => ?_
  obtain ⟨plain, other⟩ := Bool.and_eq_true_iff.1 no
  rw [Bool.not_eq_true'] at plain
  exact checked.elim (fun bs => absurd (bs.symm.trans plain) (by decide)) fun fmt => bne_iff_ne.1 other fmt

theorem TReg.versionFault_sound {v : TReg} {hs : Map Handle} {n : Nat} (sound : v.sound hs n) : v.versionFault hs n = none := by
  rw [TReg.versionFault, sound.1]
  exact if_pos ((v.bankOk_iff n _).2 sound.2)

theorem TReg.versionFault_bad {v : TReg} {hs : Map Handle} {n : Nat} (bad : ¬ v.sound hs n) :
    v.versionFault hs n = some (if (Map.get Handle.reset hs (v.handleAt n)).defd then { cls := 8 } else { cls := 16, addr := v.handleAt n }) := by
  unfold TReg.versionFault
  cases defd : (Map.get Handle.reset hs (v.handleAt n)).defd with
  | false => rfl
  | true => exact if_neg fun inside => bad ⟨defd, (v.bankOk_iff n _).1 inside⟩

/-- The first of a list of numbers at which a check fails gives the fault. -/
theorem findSome?_range_first {α : Type} {f : Nat → Option α} {n m : Nat} {x : α} (lt : n < m) (before : ∀ k < n, f k = none) (here : f n = some x) :
    (List.range m).findSome? f = some x := by
  obtain ⟨k, rfl⟩ := Nat.exists_eq_add_of_lt lt
  have none_ : (List.range n).findSome? f = none := List.findSome?_eq_none_iff.2 fun k hk => before k (List.mem_range.1 hk)
  rw [Nat.add_assoc, List.range_add, List.findSome?_append, none_, List.range_succ_eq_map]
  simp only [List.map_cons, List.findSome?_cons, Nat.add_zero, here, Option.none_or]

/-- R136, R294: what the readers' condition asks of each handle. -/
theorem Core.handlesReady_iff (k : Core) (vs : List TReg) : k.handlesReady vs = true ↔
    ∀ v ∈ vs, v.loaded = true → v.space = 3 → (k.handle v.handle).defd = true →
      (k.handle v.handle).ready v.eg ∧ (k.handle v.handle).rdr + (vs.flatMap TReg.named).count v.handle ≤ 255 ∧ (k.handle v.handle).mretBusy = 0 := by
  simp only [Core.handlesReady, List.all_eq_true, TReg.mem_named, Bool.or_eq_true, Bool.and_eq_true, Bool.not_eq_true', decide_eq_true_eq,
    Handle.readable_iff, and_assoc]
  refine forall₂_congr fun v _ => ⟨fun all loaded rel defd => ?_, fun all h ⟨loaded, rel, is⟩ => ?_⟩
  · exact (all _ ⟨loaded, rel, rfl⟩).resolve_left (by rw [defd]; decide)
  · rw [is]
    cases defd : (k.handle v.handle).defd with
    | false => exact .inl rfl
    | true => exact .inr (all loaded rel defd)

/-! ### Tiles (R302-R305) -/

theorem State.tileFits_iff (t : State) (x : Handle) (bank o size : Nat) : t.tileFits x bank o size = true ↔
    o % 256 = 0 ∧ o + 16384 * size ≤ x.bankSize ∧ bank + o + 16384 * size ≤ min 2097152 ((t.job t.turn).gran * 65536) := by
  simp only [State.tileFits, Bool.and_eq_true, decide_eq_true_eq, and_assoc]
  rfl

/-- R136: may a filler take the handle? -/
def Handle.fillable (x : Handle) : Prop := if x.dbl then x.shs ≠ 2 else x.state ≠ 2 ∧ x.state ≠ 3

/-- R136, R304: the handle that an `mret` fills. -/
def Handle.filling (x : Handle) : Handle :=
  if x.dbl then { x with shs := 1, stag := 0, fillers := x.fillers + 1 } else { x with state := 1, vtag := 0, fillers := x.fillers + 1 }

theorem Handle.fill_none {x : Handle} (no : ¬ x.fillable) : x.fill 0 = none := by
  unfold Handle.fillable at no
  unfold Handle.fill
  split
  case isTrue dbl => exact if_pos (not_not.1 (by rwa [if_pos dbl] at no))
  case isFalse dbl =>
    refine if_pos ?_
    rw [if_neg dbl, not_and_or, not_not, not_not] at no
    simpa only [Bool.or_eq_true, decide_eq_true_eq] using no

theorem Handle.fill_some {x : Handle} (ok : x.fillable) : x.fill 0 = some x.filling := by
  unfold Handle.fillable at ok
  unfold Handle.fill Handle.filling
  split
  case isTrue dbl => exact if_neg (by rwa [if_pos dbl] at ok)
  case isFalse dbl =>
    refine if_neg fun full => ?_
    rw [if_neg dbl] at ok
    simp only [Bool.or_eq_true, decide_eq_true_eq] at full
    exact full.elim ok.1 ok.2

/-- R309: the groups of the profiles. -/
theorem group_of : ∀ n < 8, profileGroup n = [0, 1, 2, 3, 1, 0, 1, 2].getD n 0 := by decide

/-- R289: the parts of a view by their number. -/
theorem TReg.tset_eq (v : TReg) (n : BitVec 11) (x y : Word) : v.tset n.toNat x y =
    if n = 0 then { v with row0 := x.toNat, col0 := y.toNat } else if n = 1 then { v with i2 := x.toNat, i3 := y.toNat }
    else if n = 2 then { v with wr := x.toNat, wc := y.toNat } else if n = 3 then { v with rs := x, cs := y }
    else { v with eg := x.getLsbD 0 } := by
  have not_ {k : BitVec 11} (ne : n ≠ k) : n.toNat ≠ k.toNat := fun is => ne (BitVec.eq_of_toNat_eq is)
  by_cases h0 : n = 0
  · rw [h0]; rfl
  by_cases h1 : n = 1
  · rw [h1]; rfl
  by_cases h2 : n = 2
  · rw [h2]; rfl
  by_cases h3 : n = 3
  · rw [h3]; rfl
  rw [if_neg h0, if_neg h1, if_neg h2, if_neg h3]
  unfold TReg.tset
  split
  · exact absurd ‹_› (not_ h0)
  · exact absurd ‹_› (not_ h1)
  · exact absurd ‹_› (not_ h2)
  · exact absurd ‹_› (not_ h3)
  · rfl

end Sys2Proof.Machine

namespace Sys2Proof.Claims
open Sys2Proof.Machine

/-- A word that commands a tile from or into a handle waits while the handle or the command sets are busy. -/
theorem tile_waits (t : State) (h : Nat) :
    ((t.cur.handle h).mretBusy != 0 || !t.cur.mill.room) = true ↔ (t.cur.handle h).mretBusy ≠ 0 ∨ ¬ t.cur.mill.shadow = none := by
  rw [Bool.or_eq_true, bne_iff_ne, Bool.not_eq_true', ← Bool.not_eq_true, Mill.room_iff]

theorem tile_goes {t : State} {h : Nat} (room : t.cur.mill.shadow = none) (free : (t.cur.handle h).mretBusy = 0) :
    ¬ ((t.cur.handle h).mretBusy != 0 || !t.cur.mill.room) = true := by
  rw [tile_waits]
  exact fun waits => waits.elim (· free) (· room)

/-- Settles O37: each word against its checks in their order. -/
theorem matrixWords : Obligations.MatrixWords := by
  intro acc fmt a b p h r e prof rm lf gen clr ret ta tb sat yes n room enter product idle checked issued rows hd off free fillable filling
    ready none_ mul gather
  have entered (x : Cmd) (t : State) (ok : room t) : t.issueCmd x = .ok (enter x t) := by
    rw [State.issueCmd_room ok]
    refine congrArg (fun m => Except.ok (t.setCur { t.cur with mill := m })) ?_
    cases active : t.cur.mill.active with
    | none => exact Mill.enter_active ok active
    | some y => exact Mill.enter_shadow active
  have product_ok (op : MOp) (ix : State → List Word) (t : State) (ok : checked op ix t) :
      t.issueProduct op acc clr prof a b (ix t) = .ok (issued op ix t) := by
    obtain ⟨idle, prof, layout, goodA, goodB, inA, inB⟩ := ok
    rw [State.issueProduct_ok idle prof layout goodA goodB inA inB]
    exact entered _ _ ((congrArg Mill.shadow (State.claimAll_cur t _)).trans idle.1)
  refine ⟨acts_of (fun _ => rfl) fun _ t _ ok => product_ok mul none_ t ok, acts_of (fun _ => rfl) fun _ t _ ok => product_ok gather rows t ok,
    fun i op ix which => ?products, fun k v => ?checks, fun v hs n => ?regions, fun k vs => ?readers,
    stalls_of (fun _ => rfl) fun _ t _ waits => ?retWaits, traps_of (fun _ => rfl) fun _ t _ ⟨ok, idle, undef⟩ => ?retUndef,
    stalls_of (fun _ => rfl) fun _ t _ ⟨⟨ok, idle, defd⟩, no⟩ => ?retFull,
    traps_of (fun _ => rfl) fun _ t _ ⟨⟨ok, idle, defd⟩, fills, out⟩ => ?retOut,
    stalls_of (fun _ => rfl) fun _ t _ waits => ?loadWaits, traps_of (fun _ => rfl) fun _ t _ ⟨ok, idle, undef⟩ => ?loadUndef,
    stalls_of (fun _ => rfl) fun _ t _ ⟨⟨ok, idle, defd⟩, no⟩ => ?loadAwaits,
    traps_of (fun _ => rfl) fun _ t _ ⟨⟨ok, idle, defd⟩, reads, out⟩ => ?loadOut,
    State.tileFits_iff, acts_of (fun _ => rfl) fun _ t _ ⟨⟨ok, idle, defd⟩, fills, fits⟩ => ?ret,
    acts_of (fun _ => rfl) fun _ t _ ⟨⟨ok, idle, defd⟩, reads, fits⟩ => ?load,
    acts_of (fun _ => rfl) fun _ t _ ok => entered _ t ok, stalls_of (fun _ => rfl) fun _ t _ full => ?clear,
    acts_of (fun _ => rfl) fun _ t _ ⟨good, active, shadow⟩ => ?prepare, acts_of (fun _ => rfl) fun _ t _ ⟨good, busy⟩ => ?busy,
    traps_of (fun _ => rfl) fun _ t _ bad => if_pos bad, lands_of (fun _ => rfl) fun _ t _ => ?set,
    sends_of (fun _ => rfl) fun t good => if_neg (Nat.not_le.2 good), traps_of (fun _ => rfl) fun _ t _ bad => if_pos bad⟩
  case products =>
    intro fit
    have word : ∀ s, exec i s = s.word i fun t => t.issueProduct op acc clr prof a b (ix t) := by
      obtain ⟨rfl, rfl, rfl⟩ | ⟨rfl, rfl, rfl⟩ := which <;> exact fun _ => rfl
    refine ⟨stalls_of word fun _ t _ busy => State.issueProduct_waits busy,
      traps_of word fun _ t _ ⟨idle, bad⟩ => State.issueProduct_profile idle bad,
      traps_of word fun _ t _ ⟨idle, good, bad⟩ => State.issueProduct_layout idle good fun ok => bad ⟨idle, good, ok⟩,
      traps_of word fun _ t _ ⟨idle, good, bad⟩ => State.issueProduct_layout idle good fun ok => ?_,
      fun x => ⟨traps_of word fun _ t _ ⟨⟨idle, good, layout⟩, fault⟩ => State.issueProduct_faultA idle good layout fault,
        traps_of word fun _ t _ ⟨⟨idle, good, layout⟩, goodA, fault⟩ => State.issueProduct_faultB idle good layout goodA fault⟩,
      traps_of word fun _ t _ ⟨⟨idle, good, layout⟩, goodA, goodB, out⟩ => State.issueProduct_window idle good layout goodA goodB out⟩
    obtain ⟨loadedA, loadedB⟩ := Cmd.layoutOk_loaded ok
    exact bad.elim (fun no => absurd (loadedA.symm.trans no) (by decide)) fun no => absurd (loadedB.symm.trans no) (by decide)
  case checks =>
    intro x
    refine ⟨fun other => ⟨Core.handleCheck_none other, TReg.named_none other⟩, fun loaded rel => ⟨TReg.named_of loaded rel, ?_⟩⟩
    rw [Core.handleCheck_of loaded rel]
    refine ⟨fun undef => if_pos (by rw [undef]; rfl), fun defd other => ?_, fun defd same => ?_⟩
    · exact (if_neg (by rw [defd]; decide)).trans (if_pos (bne_iff_ne.2 other))
    · exact (if_neg (by rw [defd]; decide)).trans (if_neg (by rw [bne_iff_ne]; exact not_not.2 same))
  case regions =>
    intro at_ sound
    refine ⟨TReg.regionFault_none hs, fun all => ?_, fun checked lt before bad => ?_⟩
    · by_cases checked : v.bs = true ∨ v.fmt = 12
      · rw [TReg.regionFault_of hs checked, List.findSome?_eq_none_iff]
        exact fun m hm => TReg.versionFault_sound (all m (List.mem_range.1 hm))
      · rw [not_or, Bool.not_eq_true] at checked
        exact TReg.regionFault_none hs checked.1 checked.2
    · rw [TReg.regionFault_of hs checked]
      exact findSome?_range_first lt (fun m hm => TReg.versionFault_sound (before m hm)) (TReg.versionFault_bad bad)
  case readers =>
    rw [Core.handlesReady_iff]
    exact forall₅_congr fun v _ _ _ _ => ⟨fun ⟨⟨s, g, h, r⟩, m, b⟩ => ⟨s, g, h, r, b, m⟩, fun ⟨s, g, h, r, b, m⟩ => ⟨⟨s, g, h, r⟩, m, b⟩⟩
  case retWaits => exact if_pos ((tile_waits t h).2 waits)
  case retUndef => exact (if_neg (tile_goes ok idle)).trans (if_pos (by rw [undef]; rfl))
  case retFull =>
    refine (if_neg (tile_goes ok idle)).trans ((if_neg (by rw [defd]; decide)).trans ?_)
    rw [Handle.fill_none no] <;> rfl
  case retOut =>
    refine (if_neg (tile_goes ok idle)).trans ((if_neg (by rw [defd]; decide)).trans ?_)
    rw [Handle.fill_some fills]
    exact if_pos (by rw [out]; rfl)
  case loadWaits => exact if_pos ((tile_waits t h).2 waits)
  case loadUndef => exact (if_neg (tile_goes ok idle)).trans (if_pos (by rw [undef]; rfl))
  case loadAwaits =>
    refine (if_neg (tile_goes ok idle)).trans ((if_neg (by rw [defd]; decide)).trans (if_pos ?_))
    rw [Bool.not_eq_true', ← Bool.not_eq_true, Handle.readable_iff]
    exact no
  case loadOut =>
    refine (if_neg (tile_goes ok idle)).trans ((if_neg (by rw [defd]; decide)).trans ((if_neg ?_).trans (if_pos (by rw [out]; rfl))))
    rw [(Handle.readable_iff _ _).2 reads]
    decide
  case ret =>
    refine (if_neg (tile_goes ok idle)).trans ((if_neg (by rw [defd]; decide)).trans ?_)
    rw [Handle.fill_some fills]
    refine (if_neg (by rw [fits]; decide)).trans ?_
    have fills_ : { (hd t).filling with mretBusy := 1 } = filling t := by
      show { Handle.filling _ with mretBusy := 1 } = ite _ _ _
      unfold Handle.filling
      split <;> rfl
    rw [fills_]
    exact entered _ _ (by rw [show room _ = _ from congrArg (fun k : Core => k.mill.shadow = none) (State.cur_setCur t _)]; exact ok)
  case load =>
    refine (if_neg (tile_goes ok idle)).trans ((if_neg (by rw [defd]; decide)).trans ((if_neg ?_).trans ((if_neg (by rw [fits]; decide)).trans ?_)))
    · rw [(Handle.readable_iff _ _).2 reads]
      decide
    · exact entered _ _ ((congrArg Mill.shadow (State.claimAll_cur t _)).trans ok)
  case clear => exact if_neg (mt (Mill.room_iff _).1 full)
  case prepare =>
    have group : profileGroup prof = [0, 1, 2, 3, 1, 0, 1, 2].getD prof.val 0 := group_of prof.val good
    rw [← group]
    refine (if_neg (Nat.not_le.2 good)).trans (congrArg Except.ok (if_pos ?_))
    rw [active, shadow]
    rfl
  case busy =>
    refine (if_neg (Nat.not_le.2 good)).trans (congrArg Except.ok (if_neg ?_))
    rw [Bool.and_eq_true, Option.isNone_iff_eq_none, Option.isNone_iff_eq_none, not_and_or]
    exact busy
  case set =>
    refine Eq.trans ?_ (landAll_one _ _ _).symm
    exact congrArg (fun v => t.landAt 1 (Landing.treg e v)) (TReg.tset_eq (t.cur.treg e) n (t.cur.rd h) (t.cur.rd (h + 1)))

end Sys2Proof.Claims
end

section
/-! The words that command the engines (R335-R346): channels, communicators and handles. -/

namespace Sys2Proof.Machine

/-! ### Channels (R90, R117, R337) -/

theorem Map.get_of_lookup {α : Type} (d : α) (m : Map α) (k : Nat) : Map.get d m k = (m.lookup k).getD d := by
  induction m with
  | nil => rfl
  | cons e m ih =>
    obtain ⟨j, v⟩ := e
    rw [Map.get, List.lookup]
    by_cases h : j = k
    · rw [if_pos h, beq_iff_eq.2 h.symm]
      rfl
    · rw [if_neg h, beq_eq_false_iff_ne.2 (Ne.symm h)]
      exact ih

theorem Core.channel_setChannel (k : Core) (n : Nat) (x : Channel) : (k.setChannel n x).channel n = x := Map.get_put_self _ k.flume n x

theorem Core.tregBusy_iff (k : Core) : k.tregBusy = true ↔ ∃ n < 16, k.busy (.t n) = true := by
  simp only [Core.tregBusy, List.any_eq_true, List.mem_range]

/-- R90: a chain becomes active on a channel that is idle or halted. -/
theorem Channel.enter_active {x : Channel} (ch : Chain) (idle : x.state = 0 ∨ x.state = 4) :
    x.enter ch = { x with state := 1, active := some ch, next := some ch.ptr } :=
  if_pos (by simpa only [Bool.or_eq_true, decide_eq_true_eq] using idle)

theorem Channel.enter_shadow {x : Channel} (ch : Chain) (run : x.state ≠ 0 ∧ x.state ≠ 4) : x.enter ch = { x with shadow := some ch } := by
  refine if_neg ?_
  simp only [Bool.or_eq_true, decide_eq_true_eq, not_or]
  exact run

/-- R337: a channel that is not restoring loses its chains and its unstarted records. -/
theorem State.haltChannel_channel (s : State) (c n : Nat) (run : ((s.core c).channel n).state ≠ 5) :
    ((s.haltChannel c n).core c).channel n = ((s.core c).channel n).cut := by
  unfold State.haltChannel
  rw [if_neg run]
  exact (congrArg (Core.channel · n) (State.core_setCore_self _ c _)).trans (Core.channel_setChannel _ n _)

/-- R337: a channel without a record is halted at once. -/
theorem State.haltChannel_empty {s : State} {c n : Nat} (run : ((s.core c).channel n).state ≠ 5) (empty : ((s.core c).channel n).recs = []) :
    s.haltChannel c n = s.setCore c ((s.core c).setChannel n
      { (s.core c).channel n with state := 4, active := none, shadow := none, next := none, parkedSeq := 0 }) := by
  have cut : ((s.core c).channel n).cut =
      { (s.core c).channel n with state := 4, active := none, shadow := none, next := none, parkedSeq := 0 } := by
    rw [Channel.cut, show ((s.core c).channel n).recs.filter _ = ((s.core c).channel n).recs by rw [empty]; rfl]
    rw [show ((s.core c).channel n).recs.isEmpty = true by rw [empty]; rfl] <;> rfl
  unfold State.haltChannel
  rw [if_neg run, cut, show s.abandonAll c _ = s by rw [empty]; rfl]

theorem Comm.fact_eq (m : Comm) (q : Fin 8) :
    m.fact q = if q = 0 then m.rank else if q = 1 then m.size else if q = 2 then m.prio else m.quota := by
  fin_cases q <;> rfl

/-! ### Handles (R133-R136, R338-R340) -/

/-- R134, R338: the region of `hdef`, and the window of the launch. -/
theorem State.regionFits_iff (t : State) (base size : Nat) (dbl : Bool) :
    t.regionFits base size (Handle.define (fld base 20 8) (size / 256 - 1) dbl) = true ↔
      base % 256 = 0 ∧ size % 256 = 0 ∧ 0 < size ∧ size ≤ 2097152 ∧
        base % 2097152 + size * (if dbl then 2 else 1) ≤ min 2097152 ((t.job t.turn).gran * 65536) := by
  have banks : 1 + b2n dbl = if dbl = true then 2 else 1 := by cases dbl <;> rfl
  have whole (hs : size % 256 = 0) (pos : size ≠ 0) : (size / 256 - 1 + 1) * 256 = size := by omega
  have start (hb : base % 256 = 0) : fld base 20 8 * 256 = base % 2097152 := by
    simp only [fld, Nat.reduceAdd, Nat.reduceSub, Nat.reducePow]
    omega
  simp only [State.regionFits, Handle.regionOk, Bool.and_eq_true, decide_eq_true_eq, bne_iff_ne, and_assoc]
  refine and_congr_right fun hb => and_congr_right fun hs => ?_
  rw [Nat.pos_iff_ne_zero]
  refine and_congr_right fun pos => and_congr_right fun _ => ?_
  simp only [Handle.define, Handle.bankSize, banks, start hb, whole hs pos]
  exact ⟨fun both => both.2, fun lim => ⟨Nat.le_trans lim (Nat.min_le_left _ _), lim⟩⟩

/-- R339: a store of an earlier bundle to the handle is still in flight. -/
theorem Core.storing_iff (k : Core) (h : Nat) : k.storing h = true ↔ ∃ f ∈ k.inflight, f.at_ < k.sched ∧ ∃ a v, f.what = .bank h a v := by
  simp only [Core.storing, List.any_eq_true, Bool.and_eq_true, decide_eq_true_eq]
  refine exists_congr fun f => and_congr_right fun _ => and_congr_right fun _ => ?_
  cases what : f.what with
  | bank n a v =>
    simp only [decide_eq_true_eq, Landing.bank.injEq]
    exact ⟨fun is => ⟨a, v, is, rfl, rfl⟩, fun ⟨_, _, is, _⟩ => is⟩
  | _ => simp

theorem State.onHandle_free {t : State} {h : Nat} {f : Handle → Eff} (free : (t.prior.handle h).mretBusy = 0) :
    t.onHandle h f = f (t.cur.handle h) :=
  if_neg (by rw [bne_iff_ne]; exact not_not.2 free)

theorem State.onHandle_busy {t : State} {h : Nat} {f : Handle → Eff} (busy : ¬ (t.prior.handle h).mretBusy = 0) : t.onHandle h f = stalled :=
  if_pos (bne_iff_ne.2 busy)

theorem Handle.idle_iff (x : Handle) : x.idle = true ↔ x.defd = false ∨ x.rdr = 0 ∧ x.fillers = 0 ∧ x.engineReads = 0 := by
  simp only [Handle.idle, Bool.or_eq_true, Bool.not_eq_true', Bool.and_eq_true, decide_eq_true_eq, and_assoc]

theorem Handle.set_eq (x : Handle) (tag : Nat) (gen : Bool) :
    x.set tag gen = if x.state = 0 ∧ x.shs = 0 ∧ x.rdr = 0 then some { x with gen := gen, vtag := tag } else none :=
  if_congr (by simp only [Bool.and_eq_true, decide_eq_true_eq, and_assoc]) rfl rfl

theorem Handle.awaited_iff (x : Handle) (gen : Bool) : x.awaited gen = true ↔ (x.state = 2 ∨ x.state = 3) ∧ x.gen = gen ∧ x.shs ≠ 2 := by
  simp only [Handle.awaited, Bool.and_eq_true, Bool.or_eq_true, decide_eq_true_eq, bne_iff_ne, ne_eq, and_assoc]

theorem Handle.release_some {x : Handle} (held : x.state = 2 ∨ x.state = 3) :
    x.release = some { x with state := if x.rdr = 0 then 0 else 3 } := by
  unfold Handle.release
  rw [if_pos (by simpa only [Bool.or_eq_true, decide_eq_true_eq] using held)]
  split <;> rfl

theorem Handle.release_none {x : Handle} (other : x.state ≠ 2 ∧ x.state ≠ 3) : x.release = none := by
  refine if_neg ?_
  simp only [Bool.or_eq_true, decide_eq_true_eq, not_or]
  exact other

/-- R136: may the handle be published? -/
def Handle.publishable (x : Handle) : Prop := if x.dbl then x.shs = 1 else x.state = 0 ∨ x.state = 1

theorem Handle.publish_some {x : Handle} (ok : x.publishable) :
    x.publish = some (if x.dbl then { x with shs := 2 } else { x with state := 2, gen := !x.gen }) := by
  unfold Handle.publishable at ok
  unfold Handle.publish
  split
  case isTrue dbl => exact if_pos (by rwa [if_pos dbl] at ok)
  case isFalse dbl =>
    rw [if_neg dbl] at ok
    exact if_pos (by simpa only [Bool.or_eq_true, decide_eq_true_eq] using ok)

theorem Handle.publish_none {x : Handle} (no : ¬ x.publishable) : x.publish = none := by
  unfold Handle.publishable at no
  unfold Handle.publish
  split
  case isTrue dbl => exact if_neg (by rwa [if_pos dbl] at no)
  case isFalse dbl =>
    rw [if_neg dbl] at no
    exact if_neg (by simpa only [Bool.or_eq_true, decide_eq_true_eq] using no)

/-- A word that passes its checks and waits for a schedule cycle. -/
theorem State.word_tick {s t : State} {i : Instr} {f : State → Eff} (hg : s.gate i = .ok t) (hf : f t = .error .tick) :
    s.word i f = .next { s with mark := .tick } := by
  simp [State.word, State.attempt, State.close, hg, hf]

end Sys2Proof.Machine

namespace Sys2Proof.Claims
open Sys2Proof.Machine

/-- Settles O39: the channel words by the channel's state, and the communicator words by the communicator that their register names. -/
theorem flumeAndWindlassWords : Obligations.FlumeAndWindlassWords := by
  refine ⟨fun d a ch => ?channels, fun d a b sub => ?communicators⟩
  case channels =>
    intro x chain loads put
    have waits (t : State) : ((x t).shadow.isSome || t.prior.tregBusy) = true ↔ (x t).shadow ≠ none ∨ loads t := by
      rw [Bool.or_eq_true, Core.tregBusy_iff, Option.isSome_iff_ne_none]
    have goes (t : State) (none_ : (x t).shadow = none) (quiet : ¬ loads t) : ¬ ((x t).shadow.isSome || t.prior.tregBusy) = true := by
      rw [waits]
      exact fun busy => busy.elim (· none_) quiet
    refine ⟨acts_of (fun _ => rfl) fun _ t _ ⟨none_, quiet, idle⟩ => ?active, acts_of (fun _ => rfl) fun _ t _ ⟨none_, quiet, run⟩ => ?shadow,
      stalls_of (fun _ => rfl) fun _ t _ busy => if_pos ((waits t).2 busy), lands_of (fun _ => rfl) fun _ t _ => ?status,
      acts_of (fun _ => rfl) fun _ t _ ⟨run, empty⟩ => ?halt, acts_of (fun _ => rfl) fun _ t _ restoring => congrArg Except.ok (if_pos restoring),
      fun s t hg run => ⟨_, State.word_ok hg rfl, ?halted⟩⟩
    case active =>
      refine (if_neg (goes t none_ quiet)).trans ?_
      rw [Channel.enter_active _ idle]
    case shadow =>
      refine (if_neg (goes t none_ quiet)).trans ?_
      rw [Channel.enter_shadow _ run]
    case status =>
      refine congrArg (fun n => t.landAll 1 (regLandings d (splitWords 2 n))) ?_
      have pending : b2n (x t).shadow.isSome = truth ((x t).shadow ≠ none) := by cases h : (x t).shadow <;> rfl
      exact congrArg (fun n => _ + n * 2 ^ 28 + _) pending
    case halt => exact congrArg Except.ok (State.haltChannel_empty run empty)
    case halted =>
      have cut : ((t.haltChannel t.turn ch).core t.turn).channel ch = (x t).cut := t.haltChannel_channel t.turn ch run
      intro y
      rw [show y = (x t).cut from cut]
      refine ⟨rfl, rfl, rfl, rfl, ?_⟩
      exact if_congr List.isEmpty_iff rfl rfl
  case communicators =>
    intro v n names none_ post
    have named (m : Comm) (t : State) (ok : names m t) (f : Nat → Comm → Eff) : t.onComm a f = f (n t) m := by
      rw [State.onComm, show (t.vd (t.coreVd t.turn)).comms.lookup (t.cur.rd a).toNat = some m from ok]
    have fact (m : Comm) (t : State) (ok : names m t) : Map.get Comm.reset (t.vd (v t)).comms (n t) = m := by
      rw [Map.get_of_lookup, ok, Option.getD_some]
    refine ⟨fun m => ⟨acts_of (fun _ => rfl) fun _ t _ ⟨ok, room⟩ => ?post, acts_of (fun _ => rfl) fun _ t _ ⟨ok, room⟩ => ?barrier,
        stalls_of (fun _ => rfl) fun _ t _ ⟨ok, full⟩ => ?postWaits, stalls_of (fun _ => rfl) fun _ t _ ⟨ok, full⟩ => ?barrierWaits,
        takes_of (fun _ => rfl) fun _ t _ ok => ?poll, takes_of (fun _ => rfl) fun _ t _ ok => ?fact⟩,
      takes_of (fun _ => rfl) fun _ t _ ok => ?noFact, fun i hi => ?none_⟩
    case post => exact (named m t ok _).trans (if_neg (Nat.not_le.2 room))
    case barrier => exact (named m t ok _).trans (if_neg (Nat.not_le.2 room))
    case postWaits => exact (named m t ok _).trans (if_pos full)
    case barrierWaits => exact (named m t ok _).trans (if_pos full)
    case poll => exact named m t ok _
    case fact =>
      refine congrArg (fun x => t.landAll 1 (regLandings d [BitVec.ofNat 32 x])) ?_
      rw [← Comm.fact_eq]
      exact congrArg (Comm.fact · sub) (fact m t ok)
    case noFact =>
      have zero : (Map.get Comm.reset (t.vd (v t)).comms (n t)).fact sub = 0 := by
        rw [Map.get_of_lookup, ok, Option.getD_none, Comm.fact_eq]
        simp only [Comm.reset, ite_self]
      exact congrArg (fun x => t.landAll 1 (regLandings d [BitVec.ofNat 32 x])) zero
    case none_ =>
      have refused (t : State) (no : none_ t) (f : Nat → Comm → Eff) : t.onComm a f = trapped 6 := by
        rw [State.onComm, show (t.vd (t.coreVd t.turn)).comms.lookup (t.cur.rd a).toNat = none from no]
      obtain rfl | rfl | rfl := hi <;> exact traps_of (fun _ => rfl) fun _ t _ no => refused t no _

/-- Settles O40: each word by the state of the handle. -/
theorem handleWords : Obligations.HandleWords := by
  intro h r dbl gen y tag x free put base size low fits quiet readied fault
  have region (t : State) : t.regionFits (base t) (size t) (Handle.define (fld (base t) 20 8) (size t / 256 - 1) dbl) = true ↔ fits t :=
    t.regionFits_iff _ _ dbl
  have awaits (t : State) (ok : free t) (defd : (x t).defd = true) (f g : Eff) :
      (t.onHandle h fun x => if !x.defd then trapped 16 h else if x.awaited gen then f else g) = if (x t).awaited gen then f else g :=
    (State.onHandle_free ok).trans (if_neg (by rw [show (t.cur.handle h).defd = true from defd]; decide))
  have publishes (t : State) (ok : free t) (defd : (x t).defd = true) (filled : (t.prior.handle h).fillers = 0) (f : Eff) (g : Handle → Eff) :
      (t.onHandle h fun x => if !x.defd then trapped 16 h else if (t.prior.handle h).fillers != 0 then stalled
        else if t.cur.storing h then f else g x) = if t.cur.storing h then f else g (x t) :=
    (State.onHandle_free ok).trans ((if_neg (by rw [show (t.cur.handle h).defd = true from defd]; decide)).trans
      (if_neg (by rw [filled]; decide)))
  refine ⟨acts_of (fun _ => rfl) fun _ t _ ⟨ok, inside, idle⟩ => ?define, traps_of (fun _ => rfl) fun _ t _ ⟨ok, out⟩ => ?outside,
    fun i hi => ?busy, traps_of (fun _ => rfl) fun _ t _ ⟨ok, inside, used⟩ => ?used,
    acts_of (fun _ => rfl) fun _ t _ ⟨ok, defd, at_⟩ => ?set, traps_of (fun _ => rfl) fun _ t _ ⟨ok, bad⟩ => ?setBad,
    acts_of (fun _ => rfl) fun _ t _ ⟨ok, defd, here⟩ => ?await, stalls_of (fun _ => rfl) fun _ t _ ⟨ok, defd, away⟩ => ?awaitStalls,
    acts_of (fun _ => rfl) fun _ t _ ⟨ok, defd, away, lead, empty⟩ => ?awaitYields,
    stalls_of (fun _ => rfl) fun _ t _ ⟨ok, defd, away, follows⟩ => ?awaitFollows,
    traps_of (fun _ => rfl) fun _ t _ ⟨ok, defd, away, lead, entries⟩ => ?awaitEntries,
    traps_of (fun _ => rfl) fun _ t _ ⟨ok, undef⟩ => ?awaitUndef,
    acts_of (fun _ => rfl) fun _ t _ ⟨ok, defd, held⟩ => ?release, traps_of (fun _ => rfl) fun _ t _ ⟨ok, bad⟩ => ?releaseBad,
    acts_of (fun _ => rfl) fun _ t _ ⟨ok, defd, filled, landed, may⟩ => ?publish,
    stalls_of (fun _ => rfl) fun _ t _ ⟨ok, defd, filling⟩ => ?publishFilling,
    fun s t hg ok defd filled storing => State.word_tick hg ?publishWaits, fun k => k.storing_iff h,
    traps_of (fun _ => rfl) fun _ t _ ⟨ok, undef⟩ => ?publishUndef,
    traps_of (fun _ => rfl) fun _ t _ ⟨ok, defd, filled, landed, not_⟩ => ?publishBad⟩
  case define =>
    rw [State.onHandle_free ok]
    refine (if_neg (by rw [(region t).2 inside]; decide)).trans ?_
    rw [if_pos ((Handle.idle_iff _).2 idle)]
    have start : fld (base t) 20 8 = low t / 256 := by
      simp only [fld, low, Nat.reduceAdd, Nat.reduceSub, Nat.reducePow]
      omega
    rw [start] <;> rfl
  case outside =>
    rw [State.onHandle_free ok]
    exact if_pos (by rw [Bool.not_eq_true', ← Bool.not_eq_true]; exact mt (region t).1 out)
  case busy =>
    simp only [List.mem_cons, List.not_mem_nil, or_false] at hi
    obtain rfl | rfl | rfl | rfl | rfl := hi <;> exact stalls_of (fun _ => rfl) fun _ t _ busy => State.onHandle_busy busy
  case used =>
    rw [State.onHandle_free ok]
    refine (if_neg (by rw [(region t).2 inside]; decide)).trans ?_
    rw [if_neg (mt (Handle.idle_iff _).1 used)] <;> rfl
  case set =>
    rw [State.onHandle_free ok, if_pos defd, Handle.set_eq, if_pos at_] <;> rfl
  case setBad =>
    rw [State.onHandle_free ok]
    have none_ : (if (x t).defd = true then (x t).set tag gen else none) = none := by
      cases defd : (x t).defd with
      | false => rfl
      | true =>
        rw [if_pos rfl, Handle.set_eq, if_neg]
        rw [not_and_or, not_and_or]
        exact bad.resolve_left (by rw [defd]; decide)
    exact congrArg (t.changeHandle h) none_
  case await => exact (awaits t ok defd _ _).trans (if_pos ((Handle.awaited_iff _ _).2 here))
  case awaitStalls => exact (awaits t ok defd _ _).trans ((if_neg (mt (Handle.awaited_iff _ _).1 away)).trans rfl)
  case awaitYields =>
    refine (awaits t ok defd _ _).trans ((if_neg (mt (Handle.awaited_iff _ _).1 away)).trans ((if_pos (by rw [lead]; decide)).trans ?_))
    exact if_neg (by rw [empty]; decide)
  case awaitFollows =>
    exact (awaits t ok defd _ _).trans ((if_neg (mt (Handle.awaited_iff _ _).1 away)).trans (if_neg (by rw [follows]; decide)))
  case awaitEntries =>
    refine (awaits t ok defd _ _).trans ((if_neg (mt (Handle.awaited_iff _ _).1 away)).trans ((if_pos (by rw [lead]; decide)).trans ?_))
    exact if_pos (bne_iff_ne.2 entries)
  case awaitUndef =>
    rw [State.onHandle_free ok]
    exact if_pos (by rw [undef]; rfl)
  case release =>
    rw [State.onHandle_free ok, if_pos defd, Handle.release_some held]
  case releaseBad =>
    rw [State.onHandle_free ok]
    have none_ : (if (x t).defd = true then (x t).release else none) = none := by
      cases defd : (x t).defd with
      | false => rfl
      | true => exact Handle.release_none (bad.resolve_left (by rw [defd]; decide))
    rw [none_] <;> rfl
  case publish =>
    refine (publishes t ok defd filled _ _).trans ((if_neg (by rw [landed]; decide)).trans ?_)
    rw [Handle.publish_some may] <;> rfl
  case publishFilling =>
    rw [State.onHandle_free ok]
    refine (if_neg (by rw [show (t.cur.handle h).defd = true from defd]; decide)).trans (if_pos (bne_iff_ne.2 filling))
  case publishWaits => exact (publishes t ok defd filled _ _).trans (if_pos storing)
  case publishUndef =>
    rw [State.onHandle_free ok]
    exact if_pos (by rw [undef]; rfl)
  case publishBad =>
    refine (publishes t ok defd filled _ _).trans ((if_neg (by rw [landed]; decide)).trans ?_)
    rw [Handle.publish_none not_] <;> rfl

end Sys2Proof.Claims
end

section
/-! The events of a core's queues (R185-R191, R223-R225, R288, R329-R331, R432). -/

namespace Sys2Proof.Claims
open Sys2Proof.Machine

/-- An event that makes of a state what is claimed. -/
theorem moves_of {i : Instr} {ok : State → Prop} {f g : State → State} (he : ∀ s, exec i s = s.move g) (hf : ∀ s, ok s → g s = f s) :
    Moves i ok f :=
  fun s h => (he s).trans (by rw [State.move_eq, hf s h])

/-- An event that leaves a state as it is. -/
theorem rests_of {i : Instr} {off : State → Prop} {g : State → State} (he : ∀ s, exec i s = s.move g) (hf : ∀ s, off s → g s = s) :
    Rests i off :=
  fun s h => (he s).trans (by rw [State.move_eq, hf s h])

end Sys2Proof.Claims

namespace Sys2Proof.Machine

/-! ### Granules (R127) -/

theorem State.takeGranule_eq (s : State) (gid g : Nat) : ∃ gs, s.takeGranule gid g = { s with granules := gs } := by
  unfold State.takeGranule
  split
  · exact ⟨s.granules, rfl⟩
  · exact ⟨_, rfl⟩

/-- R127: granules that a gang takes change nothing but who owns them. -/
theorem State.takeAll_eq (s : State) (gid : Nat) (l : List Nat) : ∃ gs, s.takeAll gid l = { s with granules := gs } := by
  induction l generalizing s with
  | nil => exact ⟨s.granules, rfl⟩
  | cons g l ih =>
    obtain ⟨a, ha⟩ := s.takeGranule_eq gid g
    obtain ⟨b, hb⟩ := ih (s.takeGranule gid g)
    exact ⟨b, by rw [State.takeAll, hb, ha]⟩

theorem State.takeAll_gid (s : State) (c gid : Nat) (l : List Nat) :
    (s.takeAll gid l).coreGid c = s.coreGid c ∧ (s.takeAll gid l).core c = s.core c := by
  obtain ⟨gs, eq⟩ := s.takeAll_eq gid l
  rw [eq]
  exact ⟨rfl, rfl⟩

theorem State.touching_free {s : State} {gid : Nat} {gs : List Nat} (f : State → State) (free : s.granulesOk gid gs = true) :
    s.touching gid gs f = f (s.takeAll gid gs) := if_pos free

theorem State.touching_waits {s : State} {gid : Nat} {gs : List Nat} (f : State → State) (waits : ¬ s.granulesOk gid gs = true) :
    s.touching gid gs f = s.want gid gs := if_neg waits

/-! ### What an access needs (R224, R288) -/

/-- R127: a store touches its granules when a phase releases it. -/
theorem Access.granules_store {x : Access} (store : x.op = .store ∨ x.op = .planeStore) : x.granules = [] := by
  refine if_pos ?_
  simp only [Bool.or_eq_true, decide_eq_true_eq]
  exact store.elim (fun h => .inl (.inr h)) .inr

/-- R224: only a store needs lines of the store queue. -/
theorem Access.overflows_other {x : Access} (q : List SqLine) (other : x.op ≠ .store) (plane : x.op ≠ .planeStore) : x.overflows q = false := by
  have lines : x.newLines q = [] := by
    unfold Access.newLines
    cases op : x.op with
    | store => exact absurd op other
    | planeStore => exact absurd op plane
    | _ => rfl
  rw [Access.overflows, lines]
  rfl

theorem Access.overflows_full {x : Access} {q : List SqLine} (new : x.newLines q ≠ []) (full : 512 < q.length + (x.newLines q).length) :
    x.overflows q = true := by
  rw [Access.overflows, List.isEmpty_eq_false_iff.2 new, decide_eq_true full]
  rfl

theorem Access.outside_false {x : Access} (inside : x.op = .tload → x.addr + 128 ≤ leNat x.data2) : x.outside = false := by
  rw [Access.outside, Bool.and_eq_false_iff, decide_eq_false_iff_not, decide_eq_false_iff_not]
  by_cases load : x.op = .tload
  · exact .inr (Nat.not_lt.2 (inside load))
  · exact .inl load

theorem Access.outside_true {x : Access} (load : x.op = .tload) (out : leNat x.data2 < x.addr + 128) : x.outside = true := by
  rw [Access.outside, decide_eq_true load, decide_eq_true out]
  rfl

/-! ### The events -/

section
variable {s : State} {c : Nat} {x : Access}

/-- R188, R190: the head of a queue that lands and passes its checks is performed once its granules are there. -/
theorem State.hiddenLand (head : (s.core c).gq.head? = some x) (passes : s.headPasses c x = true) (lands : x.lands = true)
    (due : s.landsLater c x = false) :
    exec (.hiddenResultLand c .g) s = .next { s.touching (s.coreGid c) x.granules (·.performHead c false x) with mark := .ok } := by
  have here : (s.core c).head (decide (Queue.g = .m)) = some x := head
  refine congrArg (fun t : State => Host.Outcome.next { t with mark := .ok }) ?_
  simp only [here, lands, passes, due, Bool.not_false, Bool.and_self, if_true]
  rfl

/-- R329: the atomic unit performs the head of a queue once its granules are there. -/
theorem State.atomicPerforms (head : (s.core c).gq.head? = some x) (passes : s.headPasses c x = true) (atomic : x.isAtomic = true)
    (free : s.granulesOk (s.coreGid c) x.granules = true) :
    exec (.atomicPerform c .g) s =
      .next { (s.takeAll (s.coreGid c) x.granules).performAtomic c false x with mark := .ok } := by
  have here : (s.core c).head (decide (Queue.g = .m)) = some x := head
  refine congrArg (fun t : State => Host.Outcome.next { t with mark := .ok }) ?_
  simp only [here, atomic, passes, Bool.and_self, if_true]
  exact State.touching_free _ free

theorem mkind_read {x : Access} (op : x.op = .load ∨ x.op = .tload) : x.mkind = .read := by
  unfold Access.mkind Access.kind
  obtain op | op := op <;> rw [op] <;> rfl

theorem mkind_write {x : Access} (op : x.op = .store) : x.mkind = .write := by
  unfold Access.mkind Access.kind
  rw [op] <;> rfl

theorem store_lands {x : Access} (store : x.op = .store ∨ x.op = .planeStore) (space : x.m = false) : x.lands = true := by
  unfold Access.lands
  obtain op | op := store <;> rw [op, space] <;> rfl

/-- R432: a store that is performed enters the store queue. -/
theorem performHead_store {x : Access} (c : Nat) (m : Bool) (store : x.op = .store ∨ x.op = .planeStore) (s : State) :
    s.performHead c m x = let t := s.setCore c { s.core c with sq := x.enter (s.core c).sq }; t.setCore c ((t.core c).pop m) := by
  unfold State.performHead
  obtain op | op := store <;> rw [op]

/-- R188, R223, R225: a load of G lands what memory holds under the core's queued stores. -/
theorem performHead_load {x : Access} (c : Nat) (load : x.op = .load) (space : x.m = false) (s : State) :
    s.performHead c false x =
      let t := s.landHidden c x.reg x.width (leNat (s.seen c false x.addr (x.asBefore x.addr (s.gRead x.addr x.size))))
      t.setCore c ((t.core c).pop false) := by
  unfold State.performHead
  simp only [load, space, Bool.false_eq_true, if_false]

/-- R432: on a running core the fault of the oldest access is raised. -/
theorem lateFault_running {s : State} {c : Nat} {x : Access} {t : Trap} (oldest : s.oldestFault c = some (x, t))
    (running : (s.core c).mode = .running) :
    exec (.lateFault c) s = .next { (s.setCore c ((s.core c).setHead x.m { x with faulted := true })).raise c t with mark := .ok } := by
  refine congrArg (fun t : State => Host.Outcome.next { t with mark := .ok }) ?_
  simp only [oldest, running]

/-- R188: a hidden result in one register, where nothing is in flight. -/
theorem landHidden_one (u : State) (v : Nat) {c d : Nat} (named : 0 < d) (empty : (u.core c).inflight = []) :
    (u.landHidden c d 1 v).core c = { u.core c with sregs := Map.put (u.core c).sregs d (BitVec.ofNat 32 v) } := by
  have one : regLandings d (splitWords 1 v) = [.reg d (BitVec.ofNat 32 v)] := if_neg (Nat.ne_of_gt named)
  have same : { u.core c with inflight := [] } = u.core c := by rw [← empty]
  simp only [State.landHidden, State.landOver, empty, List.filter_nil, State.landList, one, List.map_cons, List.map_nil, same]
  have kept (t : State) : t.keepOld c { at_ := 0, due := 0, what := .reg d (BitVec.ofNat 32 v) } = t := by
    unfold State.keepOld
    exact if_neg (by simp only [Landing.isStore, Bool.false_and, Bool.false_eq_true, not_false_eq_true])
  rw [kept]
  exact (State.core_setCore_self _ c _).trans (by simp only [State.core_setCore_self, empty])

/-- R35-R43: the walk for the head of the M queue. -/
theorem State.walks {a b : Nat} {lf : Leaf} (head : (s.core c).mq.head? = some x) (sound : x.faulted = false) (there : x.op ≠ .returned)
    (room : x.overflows (s.core c).sq = false) (inside : x.outside = false) (leaf : s.translate (s.coreVd c) x.addr x.mkind = .ok (a, b, lf)) :
    exec (.tableWalk c) s = .next { (if x.op = .store then (s.noteLeaf (s.coreVd c) x.addr lf x.mkind).performHead c true x
      else s.noteLeaf (s.coreVd c) x.addr lf x.mkind) with mark := .ok } := by
  refine congrArg (fun t : State => Host.Outcome.next { t with mark := .ok }) ?_
  simp only [head, sound, room, inside, decide_eq_false there, Bool.or_self, Bool.false_eq_true, if_false, leaf]

end

end Sys2Proof.Machine

namespace Sys2Proof.Claims
open Sys2Proof.Machine

/-- Settles O41: each event against the head of its queue. -/
theorem queueEvents : Obligations.QueueEvents := by
  refine ⟨fun c x t u new reg a b lf => ?events, fun s c x rest queue load space passes due free => ?load⟩
  case load =>
    intro u got
    have head : (s.core c).gq.head? = some x := congrArg List.head? queue
    have now : exec (.hiddenResultLand c .g) s =
        .next { (let w := u.landHidden c x.reg x.width got; w.setCore c { w.core c with gq := (w.core c).gq.tail }) with mark := .ok } := by
      rw [State.hiddenLand head passes (by rw [Access.lands, load]) due, State.touching_free _ free]
      exact congrArg (fun t : State => Host.Outcome.next { t with mark := .ok }) (performHead_load c load space u)
    refine ⟨now, fun empty named single t is => ?_⟩
    have keeps : u.core c = s.core c := (s.takeAll_gid c (s.coreGid c) x.granules).2
    have landed : (u.landHidden c x.reg 1 got).core c = { u.core c with sregs := Map.put (u.core c).sregs x.reg (BitVec.ofNat 32 got) } :=
      landHidden_one u got named (keeps.symm ▸ empty)
    rw [single] at now
    rw [← Host.Outcome.next.inj (now.symm.trans is)]
    have core := State.core_setCore_self (u.landHidden c x.reg 1 got) c
      { (u.landHidden c x.reg 1 got).core c with gq := ((u.landHidden c x.reg 1 got).core c).gq.tail }
    constructor
    · refine (congrArg Core.gq core).trans ?_
      rw [landed, keeps, queue]
      rfl
    · refine (congrArg (fun k : Core => Map.get 0 k.sregs x.reg) core).trans ?_
      rw [landed]
      exact Map.get_put_self _ _ _ _
  case events =>
    intro gid gHead free mHead pop popM enter old
    have lands (s : State) (h : gHead s) (due : s.landsLater c x = false) (is : x.lands = true) :
        exec (.hiddenResultLand c .g) s = .next { s.touching (gid s) x.granules (·.performHead c false x) with mark := .ok } :=
      State.hiddenLand h.1 h.2.2 is due
    refine ⟨moves_of (fun _ => rfl) fun s _ => rfl, fun s ⟨head, store, due⟩ => ?store, fun s ⟨head, load, due, ok⟩ => ?plane,
      fun s ⟨head, is, due, waits⟩ => ?waits, rests_of (fun _ => rfl) fun s ⟨head, later⟩ => ?later,
      fun s ⟨head, load, leaf⟩ => ?walk, fun s ⟨head, space, store, leaf, room⟩ => ?walkStore,
      fun op s ⟨head, atom, ok⟩ => ?atom, fun s ⟨head, cas, ok⟩ => ?cas,
      moves_of (fun _ => rfl) fun s ⟨head, load, reads, ok⟩ => ?tload,
      fun s ⟨oldest, space, running⟩ => ?fault,
      moves_of (fun _ => rfl) fun s ⟨first, room⟩ => ?arrive,
      fun s ⟨head, load, inside, leaf⟩ => ?walkTload, rests_of (fun _ => rfl) fun s ⟨head, load, out⟩ => ?walkOut,
      fun s load out => ?window, fun s store new full => ?overflow,
      rests_of (fun _ => rfl) fun s none_ => ?noWalk, rests_of (fun _ => rfl) fun s none_ => ?noLoad,
      fun q => ⟨rests_of (fun _ => rfl) fun s none_ => ?noAtom, rests_of (fun _ => rfl) fun s none_ => ?noLand⟩,
      rests_of (fun _ => rfl) fun s none_ => ?noFault, rests_of (fun _ => rfl) fun s none_ => ?noUpdate⟩
    case store =>
      rw [lands s head due (store_lands store head.2.1), Access.granules_store store, State.touching_free (gs := []) _ rfl]
      exact congrArg (fun t : State => Host.Outcome.next { t with mark := .ok }) (performHead_store c false store s)
    case plane =>
      rw [lands s head due (by rw [Access.lands, load]), State.touching_free _ ok]
      unfold State.performHead
      rw [load] <;> rfl
    case waits => rw [lands s head due is, State.touching_waits _ waits]
    case later =>
      have here : (s.core c).head (decide (Queue.g = .m)) = some x := head.1
      simp only [here, later, Bool.not_true, Bool.and_false, Bool.false_eq_true, if_false]
    case walk =>
      rw [State.walks head.1 head.2 (by rw [load]; decide) (Access.overflows_other _ (by rw [load]; decide) (by rw [load]; decide))
        (Access.outside_false fun h => absurd (load.symm.trans h) (by decide)) ((congrArg _ (mkind_read (.inl load))).trans leaf),
        mkind_read (.inl load), if_neg (by rw [load]; decide)]
    case walkStore =>
      rw [State.walks head.1 head.2 (by rw [store]; decide) room (Access.outside_false fun h => absurd (store.symm.trans h) (by decide))
        ((congrArg _ (mkind_write store)).trans leaf), mkind_write store, if_pos store]
      exact congrArg (fun t : State => Host.Outcome.next { t with mark := .ok }) (performHead_store c true (.inl store) _)
    case atom =>
      rw [State.atomicPerforms head.1 head.2.2 (by rw [Access.isAtomic, Access.kind, atom] <;> rfl) ok]
      refine congrArg (fun t : State => Host.Outcome.next { t with mark := .ok }) ?_
      obtain ⟨keeps, -⟩ := s.takeAll_gid c (gid s) x.granules
      unfold State.performAtomic
      rw [if_neg (by rw [head.2.1]; decide), State.atomDone]
      rw [show ((s.takeAll (gid s) x.granules).vd ((s.takeAll (gid s) x.granules).coreVd c)).gid = gid s from keeps]
      rw [show x.returns = false by rw [Access.returns, atom], show x.atomValue = fun old => atomNew op (8 * x.size) old (leNat x.data) by
        funext old; rw [Access.atomValue, atom]]
      rfl
    case cas =>
      rw [State.atomicPerforms head.1 head.2.2 (by rw [Access.isAtomic, Access.kind, cas] <;> rfl) ok]
      refine congrArg (fun t : State => Host.Outcome.next { t with mark := .ok }) ?_
      obtain ⟨keeps, -⟩ := s.takeAll_gid c (gid s) x.granules
      unfold State.performAtomic
      rw [if_neg (by rw [head.2.1]; decide), State.atomDone]
      rw [show ((s.takeAll (gid s) x.granules).vd ((s.takeAll (gid s) x.granules).coreVd c)).gid = gid s from keeps]
      rw [show x.returns = true by rw [Access.returns, cas],
        show x.atomValue = fun old => if old = leNat x.data then leNat x.data2 else old by funext old; rw [Access.atomValue, cas]]
      rfl
    case tload =>
      simp only [head.1, head.2, load, reads, show s.granulesOk (s.coreGid c) (reg.codebookGranules c) = true from ok, bne_self_eq_false, Bool.or_self, Bool.false_eq_true, if_false, Bool.not_true]
      rfl
    case fault =>
      rw [lateFault_running oldest running, space]
      rfl
    case arrive => simp only [first, if_pos room]
    case walkTload =>
      rw [State.walks head.1 head.2 (by rw [load]; decide) (Access.overflows_other _ (by rw [load]; decide) (by rw [load]; decide))
        (Access.outside_false fun _ => inside) ((congrArg _ (mkind_read (.inr load))).trans leaf),
        mkind_read (.inr load), if_neg (by rw [load]; decide)]
    case walkOut =>
      simp only [head.1, head.2, Access.outside_true load out, Bool.or_true, if_true]
    case window =>
      have outside : s.tensorLoad c x = .error (trapOf 3 x.addr) := by
        rw [State.tensorLoad]
        exact if_pos (Access.outside_true load out)
      rw [State.headFault, Access.overflows_other _ (by rw [load]; decide) (by rw [load]; decide), outside]
      rw [if_neg (by rw [load]; decide), if_neg (by decide), if_pos load] <;> rfl
    case overflow =>
      have over_ : x.overflows (s.core c).sq = true := Access.overflows_full new full
      refine ⟨by rw [State.headPasses, over_, Bool.not_true, Bool.and_false, Bool.false_and], fun alone => ?_⟩
      have first : (s.core c).storesAhead x = false := by
        rw [Core.storesAhead, List.any_eq_false]
        intro y hy ahead
        rw [Bool.and_eq_true, Bool.or_eq_true, decide_eq_true_eq, decide_eq_true_eq, decide_eq_true_eq] at ahead
        obtain ⟨not_, plane⟩ := alone y hy ahead.1
        exact ahead.2.elim not_ plane
      rw [State.headFault, if_neg (by obtain op | op := store <;> rw [op] <;> decide), if_pos over_, if_neg (by rw [first]; decide)]
    case noWalk => simp only [none_, List.head?_nil]
    case noLoad => simp only [none_, List.head?_nil]
    case noAtom => cases q <;> simp only [Core.head, none_.1, none_.2, List.head?_nil, ite_self]
    case noLand => cases q <;> simp only [Core.head, none_.1, none_.2, List.head?_nil, ite_self]
    case noFault =>
      have none_ : s.oldestFault c = none := by simp only [State.oldestFault, Core.head, none_.1, none_.2, List.head?_nil, ite_self]
      simp only [none_]
    case noUpdate =>
      have none_ : s.held.find? (fun w => w.core = c && w.place = 0) = none :=
        List.find?_eq_none.2 fun w hw is => none_ w hw (of_decide_eq_true (Bool.and_eq_true_iff.1 is).1)
      simp only [none_]

end Sys2Proof.Claims
end

section
/-! The events that complete phases, barriers and votes, and that move granules (R127-R130, R323-R326, R333, R372). -/

namespace Sys2Proof.Machine

theorem State.launchVd_eq (s : State) (l : Nat) : s.launchVd l = (s.launch l).vd := by
  rw [State.launchVd, State.launch, Map.get_of_lookup]
  cases s.launches.lookup l <;> rfl

/-- A map changed at every key that it lists, where an unlisted key reads alike. -/
theorem Map.get_map {α : Type} {d : α} {f : α → α} (fixed : f d = d) (m : Map α) (k : Nat) :
    Map.get d (m.map fun e => (e.1, f e.2)) k = f (Map.get d m k) := by
  induction m with
  | nil => exact fixed.symm
  | cons e m ih =>
    rw [List.map_cons, Map.get, Map.get]
    split
    · rfl
    · exact ih

/-! ### Barrier words -/

/-- R323: a core that waits at a barrier word, with its launch and its participants. -/
theorem State.waitingAt_of {s : State} {c l : Nat} {b : Barrier} (at_ : (s.core c).barrier = some b ∧ (s.core c).job = some l) :
    s.waitingAt c b.kind = some (b, l, (s.launch l).scopeInst b.scope c) := by
  simp only [State.waitingAt, at_.1, at_.2, if_true]

theorem State.waitingAt_none {s : State} {c : Nat} (k : Nat) (none_ : (s.core c).barrier = none) : s.waitingAt c k = none := by
  unfold State.waitingAt
  rw [none_]

/-- R323: have all arrived whom the launch still has? -/
theorem State.allArrived_iff (s : State) (l : Nat) (b : Barrier) (cs : List Nat) :
    s.allArrived l b cs = true ↔ s.taken l = false ∧ ∀ d ∈ cs, s.arrived l d b = true ∧ s.quietCore d = true := by
  simp only [State.allArrived, Bool.and_eq_true, Bool.not_eq_true', List.all_eq_true]

theorem State.allArrived_false {s : State} {l : Nat} {b : Barrier} {cs : List Nat}
    (waits : s.taken l = true ∨ ∃ d ∈ cs, s.arrived l d b = false ∨ s.quietCore d = false) : ¬ s.allArrived l b cs = true := by
  rw [State.allArrived_iff]
  rintro ⟨taken, all⟩
  obtain is | ⟨d, hd, is⟩ := waits
  · exact absurd (is.symm.trans taken) (by decide)
  · obtain ⟨arrived, quiet⟩ := all d hd
    exact is.elim (fun no => absurd (arrived.symm.trans no) (by decide)) fun no => absurd (quiet.symm.trans no) (by decide)

/-- R323: a word of a narrower scope than the gang needs no other member. -/
theorem State.gangGate_narrow (s : State) (v : Nat) {w : GangWord} (narrow : w.scope ≠ 4) : s.gangGate v w = .complete s := by
  unfold State.gangGate
  split
  · rfl
  · exact if_pos (by rw [bne_iff_ne.2 narrow]; rfl)

/-- R324: a phase that no other member has part in, and before which nothing else happens. -/
theorem State.endPhase_narrow {s : State} {v : Nat} {w : GangWord} {cs : List Nat} (narrow : w.scope ≠ 4)
    (first : s.settleFirst v w.scope cs = none) : s.endPhase v w cs = (s.settle v w.scope cs).leavePhase cs := by
  unfold State.endPhase
  rw [first, s.gangGate_narrow v narrow]

theorem State.endBar_narrow {s : State} {v : Nat} {w : GangWord} {cs : List Nat} (narrow : w.scope ≠ 4) :
    s.endBar v w cs = s.leaveBar cs := by
  unfold State.endBar
  rw [s.gangGate_narrow v narrow]

/-- R492: where no other member has arrived there is nothing to answer. -/
theorem State.answerBarrier_sole {s : State} {gid : Nat}
    (sole : ∀ x, s.gangs.lookup gid = some x → ∀ e ∈ x.arrivals, e.1 = s.devnum.toNat) : s.answerBarrier gid = s := by
  unfold State.answerBarrier
  cases gang : s.gangs.lookup gid with
  | none => rfl
  | some g =>
    have none_ : g.arrivals.filter (fun e => e.1 != s.devnum.toNat && e.2.scope = 4) = [] :=
      List.filter_eq_nil_iff.2 fun e he is => bne_iff_ne.1 (Bool.and_eq_true_iff.1 is).1 (sole g gang e he)
    simp only [none_, List.map_nil, List.eraseDups_nil, State.answerWords]

/-- R333: a vote of a gang of one has the flag of its cores as its result. -/
theorem State.voteGate_alone (s : State) (gid : Nat) {g : Gang} (f : GangFlag) (alone : g.members.length ≤ 1) :
    s.voteGate gid g f = .result f.flag s := if_pos alone

/-! ### Granules -/

/-- R127: another gang's granule that nothing holds there. -/
theorem State.spillable_iff (s : State) (gid g : Nat) : s.spillable gid g = true ↔
    (s.granule g).gid ≠ 0 ∧ (s.granule g).gid ≠ gid ∧ (s.granule g).pin = 0 ∧ s.landsIn g = false := by
  simp only [State.spillable, Bool.and_eq_true, bne_iff_ne, decide_eq_true_eq, Bool.not_eq_true', and_assoc, ne_eq]

/-- R136: when the swap may happen. -/
theorem Handle.canSwap_iff (x : Handle) : x.canSwap = true ↔ x.dbl = true ∧ x.shs = 2 ∧ x.rdr = 0 ∧ x.fillers = 0 := by
  simp only [Handle.canSwap, Bool.and_eq_true, decide_eq_true_eq, and_assoc]

/-- R394: does a core run a launch of the gang? -/
def State.runsGang (s : State) (x : Gang) (d : Nat) : Bool :=
  match (s.core d).job with | some l => s.launchVd l = x.vd && (s.launch l).state = .running | none => false

/-- R50, R394: a fault of the save area ends a launch of the gang that runs here. -/
theorem State.saveTrap_eq {s : State} {gid : Nat} {x : Gang} (gang : s.gangs.lookup gid = some x) (c cls addr : Nat) :
    s.saveTrap gid c cls addr = match (c :: s.cores.map (·.1)).find? (State.runsGang s x) with
      | some d => s.takeFault d (trapOf cls addr)
      | none => s := by
  unfold State.saveTrap
  rw [gang] <;> rfl

/-- R126: a granule that is free and zero. -/
def State.freed (s : State) (g : Nat) : State := { s.zeroGranule g with granules := Map.put s.granules g Granule.reset }

section
variable {s : State} {g : Nat} {x : Gang} (gang : s.gangs.lookup (s.granule g).gid = some x)
include gang

/-- R128: a spill by the owner that is known. -/
theorem State.spillGranule_of : s.spillGranule g =
    if x.retired then s.freed g
    else match s.slotFault x g with
      | some cls => (s.freed g).saveTrap (s.granule g).gid (g / 32) cls (s.spillSlot x g)
      | none => State.freed ((s.setSpillBit (s.granule g).gid g true).saveWrite x.part x.key (s.spillSlot x g) (s.granuleBytes g)) g := by
  simp only [State.spillGranule, gang] <;> rfl

theorem State.spillGranule_retired (retired : x.retired = true) : s.spillGranule g = s.freed g :=
  (State.spillGranule_of gang).trans (if_pos retired)

theorem State.spillGranule_kept (kept : x.retired = false) (there : s.slotFault x g = none) : s.spillGranule g =
    State.freed ((s.setSpillBit (s.granule g).gid g true).saveWrite x.part x.key (s.spillSlot x g) (s.granuleBytes g)) g := by
  rw [State.spillGranule_of gang, kept, there] <;> rfl

theorem State.spillGranule_fault {cls : Nat} (kept : x.retired = false) (fault : s.slotFault x g = some cls) :
    s.spillGranule g = (s.freed g).saveTrap (s.granule g).gid (g / 32) cls (s.spillSlot x g) := by
  rw [State.spillGranule_of gang, kept, fault] <;> rfl

end

end Sys2Proof.Machine

namespace Sys2Proof.Claims
open Sys2Proof.Machine

/-- Settles O42: each event by what it waits for. -/
theorem phaseAndGranuleEvents : Obligations.PhaseAndGranuleEvents := by
  intro c l h b g cs v at_ all gran alone flag sole
  have waiting (k : Nat) (s : State) (at_ : at_ k s) : s.waitingAt c k = some (b, l, cs s) := by
    obtain ⟨bar, job, rfl⟩ := at_
    exact State.waitingAt_of ⟨bar, job⟩
  have away (k : Nat) (s : State) (none_ : (s.core c).barrier = none) : s.waitingAt c k = none := State.waitingAt_none k none_
  refine ⟨moves_of (fun _ => rfl) fun s ⟨here, ready, narrow, first⟩ => ?phase,
    fun t => moves_of (fun _ => rfl) fun s ⟨here, ready, first⟩ => ?phaseFirst, rests_of (fun _ => rfl) fun s off => ?phaseRests,
    fun s => ⟨rfl, rfl, fun bar => ?held, fun bar => ?flows⟩,
    moves_of (fun _ => rfl) fun s ⟨here, ready, narrow⟩ => ?barrier, rests_of (fun _ => rfl) fun s off => ?barrierRests,
    moves_of (fun _ => rfl) fun s ⟨here, ⟨gang, single⟩, free, arrived⟩ => ?vote,
    rests_of (fun _ => rfl) fun s ⟨here, off⟩ => ?voteRests, fun n gid => ?spill,
    fun s gid cls addr gang => ?trap, fun n => rests_of (fun _ => rfl) fun s off => ?spillRests,
    fun n gid cls => moves_of (fun _ => rfl) fun s ⟨touch, gang, free, bit, fault⟩ => ?restoreFault,
    fun n gid => moves_of (fun _ => rfl) fun s ⟨touch, gang, free, bit, there⟩ => ?restore,
    fun n => rests_of (fun _ => rfl) fun s off => ?restoreRests,
    moves_of (fun _ => rfl) fun s swaps => ?swap, fun k => ?swapAll, rests_of (fun _ => rfl) fun s off => ?swapRests,
    fun kind gen => moves_of (fun _ => rfl) fun s ⟨suspending, calm, trail⟩ => ?commit,
    rests_of (fun _ => rfl) fun s running => ?commitRests⟩
  case phase =>
    simp only [waiting 0 s here, (s.allArrived_iff l b (cs s)).2 ready, if_true, s.launchVd_eq]
    exact State.endPhase_narrow (w := s.gangWord l b) narrow first
  case phaseFirst =>
    simp only [waiting 0 s here, (s.allArrived_iff l b (cs s)).2 ready, if_true, s.launchVd_eq]
    unfold State.endPhase
    rw [show s.settleFirst (s.launch l).vd (s.gangWord l b).scope (cs s) = some t from first]
  case phaseRests =>
    obtain ⟨none_, alone⟩ | ⟨here, waits⟩ := off
    · simp only [away 0 s none_]
      exact State.answerBarrier_sole alone
    · simp only [waiting 0 s here, if_neg (State.allArrived_false waits)]
  case held => exact if_pos (by rw [bar]; rfl)
  case flows => exact if_neg (by rw [bar]; decide)
  case barrier =>
    simp only [waiting 1 s here, (s.allArrived_iff l b (cs s)).2 ready, if_true, s.launchVd_eq]
    exact State.endBar_narrow (w := s.gangWord l b) narrow
  case barrierRests =>
    obtain none_ | ⟨here, waits⟩ := off
    · simp only [away 1 s none_]
    · simp only [waiting 1 s here, if_neg (State.allArrived_false waits)]
  case vote =>
    have voted : (s.taken l || !((cs s).all fun d => s.arrived l d b)) = false := by
      rw [free, List.all_eq_true.2 arrived]
      rfl
    have known : s.gangOf (s.launch l).vd = some g := gang
    simp only [waiting 2 s here, voted, Bool.false_eq_true, if_false, s.launchVd_eq, known, s.voteGate_alone _ _ single, State.endVote]
    rfl
  case voteRests =>
    have waits : (s.taken l || !((cs s).all fun d => s.arrived l d b)) = true := by
      rw [Bool.or_eq_true, Bool.not_eq_true', List.all_eq_false]
      exact off.imp_right fun ⟨d, hd, no⟩ => ⟨d, hd, by rw [no]; decide⟩
    simp only [waiting 2 s here, waits, if_true]
  case spill =>
    intro owned free then_
    have moved (s : State) (is : owned s) (u : State) (spilled : s.spillGranule (gran n) = u) :
        exec (.granuleSpill c n) s = .next { then_ u with mark := .ok } := by
      obtain ⟨touch, some_, other, pin, still, gang⟩ := is
      have may : s.spillable gid (granuleOf c n) = true := (s.spillable_iff gid (gran n)).2 ⟨some_, other, pin, still⟩
      refine congrArg (fun t : State => Host.Outcome.next { t with mark := .ok }) ?_
      simp only [show s.touches.lookup (granuleOf c n) = some gid from touch, may, if_true, State.spillFor,
        show s.spillGranule (granuleOf c n) = u from spilled]
      rfl
    exact ⟨fun s ⟨is, kept, there⟩ => moved s is _ (State.spillGranule_kept is.2.2.2.2.2 kept there),
      fun s ⟨is, retired⟩ => moved s is _ (State.spillGranule_retired is.2.2.2.2.2 retired),
      fun cls s ⟨is, kept, fault⟩ => moved s is _ (State.spillGranule_fault is.2.2.2.2.2 kept fault)⟩
  case trap =>
    refine ⟨fun job vd running => ?_, fun none_ => ?_⟩
    · have runs : State.runsGang s g c = true := by
        simp only [State.runsGang, job, vd, running, decide_true, Bool.and_self]
      exact (State.saveTrap_eq gang c cls addr).trans (by rw [List.find?_cons_of_pos runs] <;> rfl)
    · have idle (d : Nat) : ¬ State.runsGang s g d = true := by
        unfold State.runsGang
        cases job : (s.core d).job with
        | none => exact Bool.false_ne_true
        | some m =>
          rw [Bool.and_eq_true, decide_eq_true_eq, decide_eq_true_eq]
          exact fun is => none_ d m job is.1 is.2
      exact (State.saveTrap_eq gang c cls addr).trans (by rw [List.find?_eq_none.2 fun d _ => idle d])
  case spillRests =>
    cases touch : s.touches.lookup (granuleOf c n) with
    | none => simp only [touch]
    | some gid =>
      have held : ¬ s.spillable gid (granuleOf c n) = true := by
        rw [State.spillable_iff]
        rintro ⟨some_, -, pin, -⟩
        obtain none_ | free | pinned := off
        · exact absurd (touch.symm.trans none_) (by simp)
        · exact some_ free
        · exact pinned pin
      simp only [touch, if_neg held]
  case restoreFault =>
    have may : ((s.granule (granuleOf c n)).gid = 0 && s.spillBit gid (granuleOf c n)) = true :=
      Bool.and_eq_true_iff.2 ⟨decide_eq_true free, bit⟩
    simp only [show s.touches.lookup (granuleOf c n) = some gid from touch, may, if_true, State.restoreGranule, gang,
      show s.slotFault g (granuleOf c n) = some cls from fault]
    rfl
  case restore =>
    have may : ((s.granule (gran n)).gid = 0 && s.spillBit gid (gran n)) = true := Bool.and_eq_true_iff.2 ⟨decide_eq_true free, bit⟩
    simp only [show granuleOf c n = gran n from rfl, touch, may, if_true, State.restoreGranule, gang, there, Config.granuleBytes,
      State.settleTouch]
  case restoreRests =>
    cases touch : s.touches.lookup (granuleOf c n) with
    | none => simp only [touch]
    | some gid =>
      have owned : (s.granule (granuleOf c n)).gid ≠ 0 := off.resolve_left fun none_ => absurd (touch.symm.trans none_) (by simp)
      simp only [touch, decide_eq_false owned, Bool.false_and, Bool.false_eq_true, if_false]
  case swap =>
    obtain ⟨idle, dbl, full, unread, filled⟩ := swaps
    have may : ((s.core c).mode != .running && ((s.core c).handle h).canSwap) = true :=
      Bool.and_eq_true_iff.2 ⟨bne_iff_ne.2 idle, (Handle.canSwap_iff _).2 ⟨dbl, full, unread, filled⟩⟩
    simp only [may, if_true]
    rfl
  case swapAll =>
    intro x
    refine (Map.get_map (f := fun x : Handle => if x.canSwap then x.swap else x) rfl k.handles h).trans ?_
    exact if_congr (Handle.canSwap_iff _) rfl rfl
  case swapRests =>
    have not_ : ¬ ((s.core c).mode != .running && ((s.core c).handle h).canSwap) = true := by
      rw [Bool.and_eq_true, bne_iff_ne, Handle.canSwap_iff]
      rintro ⟨idle, dbl, full, unread, filled⟩
      obtain is | is | is | is | is := off
      · exact idle is
      · exact absurd (dbl.symm.trans is) (by decide)
      · exact is full
      · exact is unread
      · exact is filled
    simp only [if_neg not_]
  case commit =>
    have may : (((s.crew c).all fun m => (s.core m).calm) && (s.core c).trail.all (· = 0)) = true := by
      rw [Bool.and_eq_true, List.all_eq_true, List.all_eq_true]
      exact ⟨calm, fun n hn => decide_eq_true (trail n hn)⟩
    simp only [suspending, may, if_true]
  case commitRests => simp only [running]

end Sys2Proof.Claims
end

section
/-! The events of the Flume (R90-R118). -/

namespace Sys2Proof.Machine

/-! ### Pins (R129) -/

theorem nodup_eraseDups (l : List Nat) : l.eraseDups.Nodup := by
  generalize size : l.length = n
  induction n using Nat.strong_induction_on generalizing l with
  | _ n ih =>
    cases l with
    | nil => exact List.nodup_nil
    | cons a l =>
      rw [List.eraseDups_cons, List.nodup_cons, List.mem_eraseDups]
      refine ⟨fun mem => ?_, ih _ ?_ _ rfl⟩
      · exact absurd (List.mem_filter.1 mem).2 (by simp)
      · exact size ▸ Nat.lt_succ_of_le (List.length_filter_le _ l)

/-- R129: a granule is pinned once for each time that it is listed. -/
theorem State.granule_pin (s : State) (gs : List Nat) (g : Nat) :
    (s.pin gs).granule g = { s.granule g with pin := (s.granule g).pin + gs.count g } := by
  induction gs generalizing s with
  | nil => rfl
  | cons h gs ih =>
    have pinned : State.granule { s with granules := Map.modify Granule.reset s.granules h fun t => { t with pin := t.pin + 1 } } g =
        if h = g then { s.granule g with pin := (s.granule g).pin + 1 } else s.granule g := by
      rw [State.granule, Map.modify, Map.get_put]
      split
      · next is => rw [is]; rfl
      · rfl
    rw [State.pin, ih, pinned, List.count_cons]
    by_cases is : h = g
    · rw [if_pos is, if_pos (beq_iff_eq.2 is), Nat.add_assoc, Nat.add_comm 1]
    · rw [if_neg is, if_neg (by rwa [beq_iff_eq])]
      rfl

/-- R129: a record pins the granules that it claims and has not yet pinned. -/
theorem State.pinFor_granule (s : State) (x : FlumeRec) (gs : List Nat) (g : Nat) :
    ((s.pinFor x gs).1.granule g).pin = (s.granule g).pin + (if g ∈ gs ∧ g ∉ x.pins then 1 else 0) ∧
      ((s.pinFor x gs).1.granule g).gid = (s.granule g).gid := by
  have new : g ∈ (gs.filter (!x.pins.contains ·)).eraseDups ↔ g ∈ gs ∧ g ∉ x.pins := by
    rw [List.mem_eraseDups, List.mem_filter, Bool.not_eq_true', List.contains_eq_mem, decide_eq_false_iff_not]
  have pinned : (s.pinFor x gs).1.granule g = _ := s.granule_pin _ g
  rw [pinned]
  refine ⟨congrArg ((s.granule g).pin + ·) ?_, rfl⟩
  rw [(nodup_eraseDups _).count]
  exact if_congr new rfl rfl

theorem State.pinFor_pins (s : State) (x : FlumeRec) (gs : List Nat) (g : Nat) : g ∈ (s.pinFor x gs).2.pins ↔ g ∈ x.pins ∨ g ∈ gs := by
  refine List.mem_append.trans ?_
  rw [List.mem_eraseDups, List.mem_filter, Bool.not_eq_true', List.contains_eq_mem, decide_eq_false_iff_not]
  by_cases mem : g ∈ x.pins
  · simp only [mem, true_or]
  · simp only [mem, false_or, not_false_eq_true, and_true]

/-! ### Records (R93, R110, R111, R115, R117) -/

theorem State.core_updChannel (s : State) (c n : Nat) (f : Channel → Channel) :
    ((s.updChannel c n f).core c).channel n = f ((s.core c).channel n) :=
  (congrArg (Core.channel · n) (State.core_setCore_self s c _)).trans (Core.channel_setChannel _ n _)

/-- R117: the oldest record waits for its release. -/
theorem State.headWaits_iff (s : State) (c n : Nat) : s.headWaits c n = true ↔
    ∃ r, ((s.core c).channel n).recs.head? = some r ∧ r.closing = true ∧ s.releaseFree c r = false := by
  simp only [State.headWaits, Option.any_eq_true, Bool.and_eq_true, Bool.not_eq_true']

/-- R93, R111: what a record that has not started waits for. -/
theorem Channel.awaits_iff (y : Channel) (x : FlumeRec) : y.awaits x = true ↔
    x.wait = true ∧ y.recs.head?.any (·.started) = true ∨ y.publishesFirst x = true := by
  simp only [Channel.awaits, Bool.or_eq_true, Bool.and_eq_true]

/-- R111: what a record comes to by the claims of its handles. -/
def State.afterClaim (s : State) (c n : Nat) (x : FlumeRec) : Claim → State
  | .fault t => s.recordFault c n x t
  | .wait s x => s.waitRecord c n 2 x
  | .done s x => s.startRecord c n x

section
variable {s : State} {c : Nat} {ch : Fin 2} {x : FlumeRec}

/-- R110: the first fault of a record's start. -/
theorem State.startRecord_fault {t : Trap} (fault : s.startCheck c x = some t ∨ s.startCheck c x = none ∧ s.listFault c x = some t) (n : Nat) :
    s.startRecord c n x = s.recordFault c n x t := by
  have first : ((s.startCheck c x).orElse fun _ => s.listFault c x) = some t := by
    obtain h | ⟨h, h'⟩ := fault
    · rw [h]; rfl
    · rw [h]; exact h'
  simp only [State.startRecord, first]

theorem State.startRecord_ok {n : Nat} (good : s.startCheck c x = none) (list : s.listFault c x = none)
    (there : (s.waitRecord c n 1 x).granulesOk (s.coreGid c) (s.engineGranules c (x.listAccs ++ x.cbAccs)) = true) :
    s.startRecord c n x =
      let p := ((s.waitRecord c n 1 x).takeAll (s.coreGid c) (s.engineGranules c (x.listAccs ++ x.cbAccs))).pinFor x
        (s.engineGranules c (x.listAccs ++ x.cbAccs))
      p.1.openExtent c n p.2 := by
  have first : ((s.startCheck c x).orElse fun _ => s.listFault c x) = none := by rw [good]; exact list
  simp only [State.startRecord, first]
  exact State.touching_free _ there

/-- R110: an extent that passes its checks streams once its granules are there. -/
theorem State.openExtent_ok {n : Nat}
    (good : s.extentCheck c (x.listAccs ++ x.cbAccs ++ x.srcAccs (s.gatherList c x) ++ x.ocpAccs (s.gatherList c x)) x.dstAccs = none)
    (there : (s.waitRecord c n 1 x).granulesOk (s.coreGid c) (s.engineGranules c
      (x.listAccs ++ x.cbAccs ++ x.srcAccs (s.gatherList c x) ++ x.ocpAccs (s.gatherList c x) ++ x.dstAccs)) = true) :
    let gs := s.engineGranules c
      (x.listAccs ++ x.cbAccs ++ x.srcAccs (s.gatherList c x) ++ x.ocpAccs (s.gatherList c x) ++ x.dstAccs)
    s.openExtent c n x = ((s.waitRecord c n 1 x).takeAll (s.coreGid c) gs).beginStream c n x (s.gatherList c x) gs := by
  have none_ : s.extentFault c x (s.gatherList c x) = none := good
  simp only [State.openExtent, none_]
  exact State.touching_free _ there

/-- R110, R129: a record that is good is read, and its granule stays pinned. -/
theorem State.fetchRecord_ok {n : Nat} (aligned : recordPtrOk x.ptr.toNat = true)
    (landed : locSpace x.ptr.toNat = 2 → (s.core c).storesLanded x.issued = true)
    (inside : s.engineCheck c .read [recAcc x.ptr.toNat 0 128] = none)
    (there : s.granulesOk (s.coreGid c) (s.engineGranules c [recAcc x.ptr.toNat 0 128]) = true) :
    let a := recAcc x.ptr.toNat 0 128
    let gs := s.engineGranules c [a]
    let t := ((s.takeAll (s.coreGid c) gs).engineNote (s.coreVd c) .read (pagesOf [a])).chargeLines (s.coreVd c) (mLines [a])
    let y := x.withWords (t.engineRead c a)
    y.own = true → y.check (t.vd (t.coreVd c)).gscope ((t.job c).levScope 0) = 0 →
      s.fetchRecord c n x = (t.pin gs).updChannel c n fun z => z.fetched { y with pins := gs } := by
  intro a gs t y own good
  have slice : (decide (locSpace x.ptr.toNat = 2) && !(s.core c).storesLanded x.issued) = false := by
    rw [Bool.and_eq_false_iff, decide_eq_false_iff_not, Bool.not_eq_false']
    exact imp_iff_not_or.1 landed
  have vd : (s.takeAll (s.coreGid c) gs).coreVd c = s.coreVd c := by
    obtain ⟨m, eq⟩ := s.takeAll_eq (s.coreGid c) gs
    rw [eq]
    rfl
  simp only [State.fetchRecord, aligned, slice, inside, Bool.not_true, Bool.false_eq_true, if_false, State.touching_free _ there]
  rw [vd]
  refine (if_neg (by rw [show (FlumeRec.withWords x _).own = true from own]; decide)).trans (if_neg ?_)
  rw [show FlumeRec.check _ _ _ = 0 from good]
  decide

/-- R93, R111: the first record that has not started, on a channel that runs. -/
theorem State.flumeStarts (first : ((s.core c).channel ch).recs.find? (fun r => !r.started) = some x) (free : s.flumeStops c = false)
    (read : x.words ≠ []) (run : ((s.core c).channel ch).state = 1 ∨ ((s.core c).channel ch).state = 2) :
    exec (.flumeRecordStart c ch) s = .next { (
      if ((s.core c).channel ch).awaits x then s.waitRecord c ch 2 x
      else if x.usesSlice && !(s.core c).storesLanded x.issued then s.waitRecord c ch 1 x
      else s.afterClaim c ch x (s.claimHandles c x)) with mark := .ok } := by
  refine congrArg (fun t : State => Host.Outcome.next { t with mark := .ok }) ?_
  have runs : (s.flumeStops c || x.words.isEmpty || (((s.core c).channel ch).state != 1 && ((s.core c).channel ch).state != 2)) = false := by
    rw [free, List.isEmpty_eq_false_iff.2 read]
    obtain h | h := run <;> rw [h] <;> rfl
  simp only [first, runs, Bool.false_eq_true, if_false, State.afterClaim] <;> rfl

/-- R110: the oldest record of a channel closes once it has started. -/
theorem State.flumeCompletes (head : ((s.core c).channel ch).recs.head? = some x) (started : x.started = true)
    (sound : ((s.core c).channel ch).state ≠ 5) (free : s.flumeStops c = false) :
    exec (.flumeRecordComplete c ch) s = .next { s.closeRecord c ch x with mark := .ok } := by
  refine congrArg (fun t : State => Host.Outcome.next { t with mark := .ok }) ?_
  simp only [head, started, bne_iff_ne.2 sound, free, Bool.not_false, Bool.and_self, if_true]

end

end Sys2Proof.Machine

namespace Sys2Proof.Claims
open Sys2Proof.Machine

/-- Settles O43: each event by the record that it concerns. -/
theorem flumeEvents : Obligations.FlumeEvents := by
  intro c ch x y u k free acc gs read first alive started closing
  have goes (s : State) (is : started s) : exec (.flumeRecordStart c ch) s = .next { s.afterClaim c ch x (s.claimHandles c x) with mark := .ok } := by
    obtain ⟨⟨first, free, words, run⟩, now, landed⟩ := is
    rw [State.flumeStarts first free words run]
    refine congrArg (fun t : State => Host.Outcome.next { t with mark := .ok }) ?_
    exact (if_neg (by rw [now]; decide)).trans (if_neg (by rw [landed]; decide))
  refine ⟨moves_of (fun _ => rfl) fun s ⟨next, go, ptr, landed, good, there, is, own, check⟩ => ?fetch,
    moves_of (fun _ => rfl) fun s ⟨next, go, ptr⟩ => ?fetchFault, rests_of (fun _ => rfl) fun s off => ?fetchRests,
    fun s ⟨is, claimed, good, list, there⟩ => ?start,
    fun s gs g => ⟨(s.pinFor_granule x gs g).1, (s.pinFor_granule x gs g).2, s.pinFor_pins x gs g⟩, fun s st => ?waits,
    fun t => ⟨fun s ⟨is, claimed, fault⟩ => ?startFault, fun s ⟨is, claimed⟩ => ?claimFault⟩,
    fun s => ?opens, fun s ⟨is, claimed⟩ => ?claimWaits, fun s ⟨is, wait⟩ => ?awaits, fun s ⟨is, now, slice, flying⟩ => ?lands,
    fun s ⟨head, started, sound, go, good, sum, held⟩ => ?releaseWaits, fun s next wait run => ?still, fun z state run head more => ?advance,
    rests_of (fun _ => rfl) fun s off => ?startRests, fun s ⟨head, started, sound, go, good, sum, may, done⟩ => ?complete,
    rests_of (fun _ => rfl) fun s off => ?completeRests⟩
  case fetch =>
    subst is
    simp only [show ((s.core c).channel ch).toFetch = some x from next, show s.flumeStops c = false from go, Bool.false_eq_true, if_false]
    exact State.fetchRecord_ok ptr landed good there own check
  case fetchFault =>
    simp only [show ((s.core c).channel ch).toFetch = some x from next, show s.flumeStops c = false from go, Bool.false_eq_true, if_false, State.fetchRecord, ptr, Bool.not_false, if_true]
    rfl
  case fetchRests =>
    cases next : ((s.core c).channel ch).toFetch with
    | none => rfl
    | some r =>
      have stops : s.flumeStops c = true := Bool.of_not_eq_false (off.resolve_left fun none_ => absurd (next.symm.trans none_) (by simp))
      simp only [stops, if_true]
  case start =>
    rw [goes s is, claimed]
    exact congrArg (fun t : State => Host.Outcome.next { t with mark := .ok }) (State.startRecord_ok good list there)
  case waits =>
    intro z
    have channel : z.channel ch = _ := s.core_updChannel c ch _
    rw [channel]
    exact ⟨rfl, rfl, s.headWaits_iff c ch⟩
  case startFault =>
    rw [goes s is, claimed]
    exact congrArg (fun t : State => Host.Outcome.next { t with mark := .ok }) (State.startRecord_fault fault ch)
  case claimFault => rw [goes s is, claimed] <;> rfl
  case opens =>
    intro list reads gs w good there
    exact State.openExtent_ok good there
  case claimWaits => rw [goes s is, claimed] <;> rfl
  case awaits =>
    obtain ⟨first, free, words, run⟩ := is
    rw [State.flumeStarts first free words run, if_pos ((Channel.awaits_iff _ x).2 wait)]
  case lands =>
    obtain ⟨first, free, words, run⟩ := is
    rw [State.flumeStarts first free words run, if_neg (by rw [now]; decide), if_pos (by rw [slice, flying]; rfl)]
  case releaseWaits =>
    rw [State.flumeCompletes head started sound go]
    refine congrArg (fun t : State => Host.Outcome.next { t with mark := .ok }) ?_
    simp only [State.closeRecord, good, sum, held, Bool.or_self, Bool.false_eq_true, if_false]
  case still =>
    have waits : Channel.awaits { k s with recs := (k s).recs.tail } x = true := (Channel.awaits_iff _ x).2 (.inl ⟨wait, run⟩)
    simp only [State.stillWaits, show ((s.core c).channel ch).recs.tail.find? (fun r => !r.started && !r.words.isEmpty) = some x from next]
    rw [show Channel.awaits { (s.core c).channel ch with recs := ((s.core c).channel ch).recs.tail } x = true from waits, Bool.true_or]
  case advance =>
    have goes_on (waits : Bool) : z.advance waits =
        { z with recs := z.recs.tail, done := z.done + 1, stat := 0, state := if z.state = 2 && !waits then 1 else z.state } := by
      have chain : z.active.isNone = false := Option.isNone_eq_false_iff.2 (Option.isSome_iff_ne_none.2 run)
      simp only [Channel.advance, head, Option.map_some, Option.getD_some, more, chain, Bool.false_eq_true, if_false]
    rw [goes_on true, goes_on false, state]
    exact ⟨rfl, rfl, rfl, rfl⟩
  case startRests =>
    cases first : ((s.core c).channel ch).recs.find? (fun r => !r.started) with
    | none => simp only [first]
    | some r =>
      have stops : s.flumeStops c = true := by
        refine Bool.of_not_eq_false (off.resolve_left fun all => ?_)
        exact absurd (List.find?_some first) (by rw [all r (List.mem_of_find?_eq_some first)]; decide)
      simp only [first, stops, Bool.true_or, if_true]
  case complete =>
    rw [State.flumeCompletes head started sound go]
    refine congrArg (fun t : State => Host.Outcome.next { t with mark := .ok }) ?_
    have sums : (if x.ckm != 0 then (s.engineStore (s.coreVd c) x.writes).recWrite c x.ptr.toNat 0x60 (leBytes 4 x.crc)
        else s.engineStore (s.coreVd c) x.writes) =
        if x.ckm = 0 then s.engineStore (s.coreVd c) x.writes
        else (s.engineStore (s.coreVd c) x.writes).recWrite c x.ptr.toNat 0x60 (leBytes 4 x.crc) := by
      by_cases none_ : x.ckm = 0
      · rw [if_pos none_, if_neg (by rw [none_]; decide)]
      · rw [if_neg none_, if_pos (bne_iff_ne.2 none_)]
    simp only [State.closeRecord, good, sum, may, Bool.or_true, if_true, State.completeRecord, sums, Bool.false_eq_true, if_false]
    rw [show State.completeHandles _ c x = some u from done]
  case completeRests =>
    cases head : ((s.core c).channel ch).recs.head? with
    | none => simp only [head]
    | some r =>
      have stops : s.flumeStops c = true := by
        refine Bool.of_not_eq_false (off.resolve_left fun none_ => ?_)
        exact absurd (head.symm.trans (congrArg List.head? none_)) (by simp)
      simp only [head, stops, Bool.not_true, Bool.and_false, Bool.false_eq_true, if_false]

end Sys2Proof.Claims
end

section
/-! The events of faults and of the debugger (R425-R435, R445-R448). -/

namespace Sys2Proof.Claims
open Sys2Proof.Machine

/-- What an event makes of one state. -/
theorem moved {i : Instr} {s t : State} {g : State → State} (he : ∀ s, exec i s = s.move g) (hf : g s = t) :
    exec i s = .next { t with mark := .ok } := (he s).trans (by rw [State.move_eq, hf])

theorem lowest (w : DWord) : w.truncate 16 = w.extractLsb' 0 16 := by
  apply BitVec.eq_of_toNat_eq
  simp [BitVec.extractLsb'_toNat, BitVec.toNat_setWidth]

/-- R429: the upper bits of a written value. -/
theorem shifted (w : DWord) : (w >>> 20).truncate 44 = w.extractLsb' 20 44 := by
  apply BitVec.eq_of_toNat_eq
  simp [BitVec.extractLsb'_toNat, BitVec.toNat_setWidth]

/-- R425: a launch may close: its last granules are taken, or asked for. -/
theorem closeLaunch (s : State) (l : Nat) : s.touching (s.vd (s.launch l).vd).gid (s.endGranules l) (·.endLaunch l) =
    if s.granulesOk (s.vd (s.launch l).vd).gid (s.endGranules l) = true
    then (s.takeAll (s.vd (s.launch l).vd).gid (s.endGranules l)).endLaunch l
    else s.want (s.vd (s.launch l).vd).gid (s.endGranules l) := rfl

/-- R425: the event on a core of a launch that is ending. -/
theorem launchFaultEnds {s : State} {c l : Nat} (ending : (s.core c).job = some l ∧ (s.launch l).state = .ending) (t : State)
    (dealt : (if (s.core c).mode = .faulted && (s.core c).boardReady && (s.core c).tail.still then s.endCore l c else s) = t) :
    exec (.launchFaultEnd c) s = .next { (if t.endReady l then t.touching (t.vd (t.launch l).vd).gid (t.endGranules l) (·.endLaunch l)
      else t) with mark := .ok } := by
  refine moved (fun _ => rfl) ?_
  simp only [ending.1]
  refine (if_neg ?_).trans ?_
  · rw [ending.2]; decide
  · rw [dealt]

/-- R445: does the core run a launch of the virtual device? -/
theorem serves_iff (s : State) (v c : Nat) : s.serves v c = true ↔ (s.core c).job.isSome = true ∧ s.coreVd c = v := by
  rw [State.serves, Bool.and_eq_true, decide_eq_true_eq]

/-! The address of a frame is arithmetic on large numerals, which the kernel must not evaluate: in the next two lemmas the frame and its
checks are variables, and `id` keeps them so in the proof. -/

/-- R50, R54: a load from a frame that faults. -/
theorem dbgLoad_fault {s : State} {v c i : Nat} {t : Trap} (may : (s.debugHalted v && s.serves v c) = true)
    (frame : s.faultFrame v = some i) (fault : s.frameFault v i = some t) : exec (.dbgLoad v c) s = .next { s.takeFault c t with mark := .ok } := by
  refine moved (fun _ => rfl) ?_
  refine (if_pos may).trans ?_
  generalize s.faultFrame v = frame_ at frame ⊢
  generalize s.frameAt v = at_
  generalize s.frameFault v = fault_ at fault ⊢
  revert frame_ at_ fault_
  refine id ?_
  intro frame_ frame at_ fault_ fault
  simp only [frame, fault]

/-- R445: a load from the fault frame. -/
theorem dbgLoad_ok {s : State} {v c i pa : Nat} (may : (s.debugHalted v && s.serves v c) = true)
    (frame : s.faultFrame v = some i) (good : s.frameFault v i = none) (there : s.frameAt v i = some pa) :
    exec (.dbgLoad v c) s =
      .next { s.putFrame c (s.loadFrame (s.saveKey v) pa (s.job c) ((s.vd v).dump.getD (s.core c)) (s.core c)) with mark := .ok } := by
  refine moved (fun _ => rfl) ?_
  refine (if_pos may).trans ?_
  generalize s.faultFrame v = frame_ at frame ⊢
  generalize s.frameAt v = at_ at there ⊢
  generalize s.frameFault v = fault_ at good ⊢
  revert frame_ at_ fault_
  refine id ?_
  intro frame_ frame at_ there fault_ good
  simp only [frame, good, there]

/-- Settles O45: each event by what it finds. -/
theorem faultAndDebugEvents : Obligations.FaultAndDebugEvents := by
  refine ⟨⟨fun v c m n t => ?entries, fun c l => ?ends, fun v seq c mask val e => ?restores, fun v w => ?frames⟩, fun v c pa => ?debugger⟩
  case entries =>
    intro first
    refine ⟨moves_of (fun _ => rfl) fun s ⟨⟨room, waits⟩, fits⟩ => ?flight, moves_of (fun _ => rfl) fun s ⟨room, waits⟩ => ?channel,
      rests_of (fun _ => rfl) fun s off => ?rests⟩
    case flight =>
      simp only [room, waits, Bool.not_true, Bool.false_eq_true, if_false]
      exact if_pos (List.all_eq_true.2 fits)
    case channel => simp only [room, waits, Bool.not_true, Bool.false_eq_true, if_false]
    case rests =>
      obtain full | none_ := off
      · simp only [full, Bool.not_false, if_true]
      · have quiet : (s.coresOf v).findSome? s.waiter = none := List.findSome?_eq_none_iff.2 none_
        simp only [quiet, ite_self]
  case ends =>
    intro ending
    refine ⟨fun s ⟨is, faulted, board, still, ready⟩ => ?more, ?closing, rests_of (fun _ => rfl) fun s none_ => by simp only [none_]⟩
    case more =>
      rw [launchFaultEnds is _ (if_pos (by rw [faulted, board, still]; rfl)), if_neg (by rw [ready]; decide)]
    case closing =>
      intro free close
      have other (s : State) (run : (s.core c).mode ≠ .faulted) :
          (if (s.core c).mode = .faulted && (s.core c).boardReady && (s.core c).tail.still then s.endCore l c else s) = s :=
        if_neg (by rw [decide_eq_false run, Bool.false_and, Bool.false_and]; decide)
      refine ⟨fun s ⟨is, faulted, board, still, ready, ok⟩ => ?last, fun s ⟨is, run, ready, ok⟩ => ?all, fun s ⟨is, run, ready, wait⟩ => ?waits⟩
      case last =>
        rw [launchFaultEnds is _ (if_pos (by rw [faulted, board, still]; rfl)), if_pos ready, closeLaunch]
        exact congrArg (fun t : State => Host.Outcome.next { t with mark := .ok }) (if_pos ok)
      case all =>
        rw [launchFaultEnds is _ (other s run), if_pos ready, closeLaunch]
        exact congrArg (fun t : State => Host.Outcome.next { t with mark := .ok }) (if_pos ok)
      case waits =>
        rw [launchFaultEnds is _ (other s run), if_pos ready, closeLaunch]
        exact congrArg (fun t : State => Host.Outcome.next { t with mark := .ok }) (if_neg wait)
  case restores =>
    refine ⟨moves_of (fun _ => rfl) fun s ⟨found, resolved, is, good, there⟩ => ?restore,
      fun t => moves_of (fun _ => rfl) fun s ⟨found, resolved, is, fault⟩ => ?fault, rests_of (fun _ => rfl) fun s none_ => ?rests⟩
    case restore =>
      simp only [found, resolved, is, if_true, good]
      exact State.touching_free _ there
    case fault => simp only [found, resolved, is, if_true, fault]
    case rests => simp only [none_, List.find?_nil]
  case frames =>
    intro free
    have idle (s : State) (is : free s) :
        ((s.launches.any fun (_, y) => y.vd = v && y.live) || !(s.vd v).frames.isEmpty) = false := by
      rw [Bool.or_eq_false_iff, List.any_eq_false, is.1]
      refine ⟨fun e he live => ?_, rfl⟩
      obtain ⟨vd, live⟩ := Bool.and_eq_true_iff.1 live
      exact absurd (live.symm.trans (is.2 e he (of_decide_eq_true vd))) (by decide)
    refine ⟨moves_of (fun _ => rfl) fun s is => ?count, moves_of (fun _ => rfl) fun s is => ?base,
      fun b => rests_of (fun _ => rfl) fun s used => ?used⟩
    case count =>
      rw [if_neg (by rw [idle s is]; decide)]
      exact congrArg (fun n => s.setVd v { s.vd v with pfCount := n }) (lowest w)
    case base =>
      rw [if_neg (by rw [idle s is]; decide)]
      exact congrArg (fun n => s.setVd v { s.vd v with pfBase := n }) (shifted w)
    case used => exact if_pos (by rw [List.isEmpty_eq_false_iff.2 used, Bool.not_false, Bool.or_true])
  case debugger =>
    intro mine held serves
    have commands (s : State) (h : held s) (is : serves s) : (s.debugHalted v && s.serves v c) = true :=
      Bool.and_eq_true_iff.2 ⟨h, (serves_iff s v c).2 is⟩
    refine ⟨moves_of (fun _ => rfl) fun s some_ => if_neg (by rwa [List.isEmpty_iff]), moves_of (fun _ => rfl) fun s _ => rfl,
      moves_of (fun _ => rfl) fun s h => ?step, rests_of (fun _ => rfl) fun s not_ => if_pos (by rw [Bool.eq_false_of_not_eq_true not_]; rfl),
      moves_of (fun _ => rfl) fun s ⟨h, is, active⟩ => ?mill, fun t => moves_of (fun _ => rfl) fun s ⟨h, is, fault⟩ => ?dumpFault,
      moves_of (fun _ => rfl) fun s ⟨h, is, good⟩ => ?dump, fun i t => fun s ⟨h, is, frame, fault⟩ => dbgLoad_fault (commands s h is) frame fault,
      fun i => fun s ⟨h, is, frame, good, at_⟩ => dbgLoad_ok (commands s h is) frame good at_, fun s k => rfl, rests_of (fun _ => rfl) fun s off => ?loadRests,
      moves_of (fun _ => rfl) fun s on => if_pos on, rests_of (fun _ => rfl) fun s off => if_neg (by rw [off]; decide),
      moves_of (fun _ => rfl) fun s on => if_pos on, rests_of (fun _ => rfl) fun s off => if_neg (by rw [off]; decide)⟩
    case step =>
      refine (if_neg (by rw [show s.debugHalted v = true from h]; decide)).trans ?_
      simp only [List.isEmpty_iff]
    case mill => exact if_pos (by rw [commands s h is, Option.isSome_iff_ne_none.2 active]; rfl)
    case dumpFault => simp only [commands s h is, if_true, fault]
    case dump => simp only [commands s h is, if_true, good]
    case loadRests =>
      by_cases both : (s.debugHalted v && s.serves v c) = true
      · obtain ⟨h, is⟩ := Bool.and_eq_true_iff.1 both
        have none_ : s.faultFrame v = none := (off.resolve_left (not_not.2 h)).resolve_left (not_not.2 ((serves_iff s v c).1 is))
        simp only [none_, ite_self]
      · simp only [if_neg both]

end Sys2Proof.Claims
end

section
/-! The registers of the management window (R7, R45-R56, R194, R400-R402, R426, R445, R448, R480, R486). -/

namespace Sys2Proof.Machine

/-! ### Fields of a written value -/

/-- R7: a field of a register value. -/
theorem bits_eq (v : DWord) (hi lo n : Nat) (width : hi + 1 - lo = n) : BitVec.ofNat n (bits v hi lo) = v.extractLsb' lo n := by
  apply BitVec.eq_of_toNat_eq
  rw [BitVec.toNat_ofNat, BitVec.extractLsb'_toNat, bits, fld, width, Nat.mod_mod, Nat.shiftRight_eq_div_pow]

theorem truncate_eq (v : DWord) (n : Nat) : v.truncate n = v.extractLsb' 0 n := by
  apply BitVec.eq_of_toNat_eq
  rw [BitVec.truncate_eq_setWidth, BitVec.toNat_setWidth, BitVec.extractLsb'_toNat, Nat.shiftRight_zero]

/-! ### Cycles (R477, R478, R482) -/

/-- R477: ACKs that leave change only what is on its way to the host. -/
theorem State.leaveAcks_eq (s : State) (l : List Output) : ∃ o a w, s.leaveAcks l = { s with out := o, acks := a, seustOwed := w } := by
  induction l generalizing s with
  | nil => exact ⟨s.out, [], s.seustOwed, rfl⟩
  | cons x l ih =>
    cases x with
    | ack f t st d n =>
      obtain ⟨o, a, w, eq⟩ := ih { s with
        out := .ack f t st d (if ackFlits d = 1 then 0 else min 65535 (Map.get 0 s.seustOwed f)) :: s.out
        seustOwed := Map.modify 0 s.seustOwed f (· - if ackFlits d = 1 then 0 else min 65535 (Map.get 0 s.seustOwed f)) }
      exact ⟨o, a, w, eq⟩
    | _ => exact ih s

theorem State.leaveSeust_eq (s : State) : ∃ o a w, s.leaveSeust = { s with out := o, acks := a, seustOwed := w } := by
  unfold State.leaveSeust
  split
  · exact ⟨s.out, s.acks, s.seustOwed, rfl⟩
  · obtain ⟨o, a, w, eq⟩ := s.leaveAcks_eq s.acks
    exact ⟨_, a, [], by rw [eq]⟩

theorem State.flushCredits_eq (s : State) (l : List Nat) : ∃ p o, s.flushCredits l = { s with ports := p, out := o } := by
  induction l generalizing s with
  | nil => exact ⟨s.ports, s.out, rfl⟩
  | cons q l ih =>
    unfold State.flushCredits
    split
    · obtain ⟨p, o, eq⟩ := ih { s.setPort q { s.port q with creditsDue := [] } with
        out := ((s.port q).creditsDue.map (Output.credit q)).reverse ++ s.out }
      exact ⟨p, o, eq⟩
    · exact ih s

end Sys2Proof.Machine

namespace Sys2Proof.Claims
open Sys2Proof.Machine

/-- Settles O46: each register by its fields. -/
theorem registerEvents : Obligations.RegisterEvents := by
  refine ⟨fun v d => ?registers, fun s w => ?cycle, fun d b w => ?limiters⟩
  case registers =>
    intro set always keep
    have vd (r : MReg) (f : State → VDev → VDev) (is : ∀ s : State, s.writeReg r v = s.setVd d ((s.vd d).write s.fresh v r))
        (same : ∀ (s : State) (x : VDev), x.write s.fresh v r = f s x) : Moves (.registerWrite r v) always (set f) :=
      moves_of (fun _ => rfl) fun s _ => (is s).trans (congrArg (s.setVd d) (same s (s.vd d)))
    have set_eq (f : State → VDev → VDev) (s : State) : set f s = s.setVd d (f s (s.vd d)) := rfl
    clear_value set
    have page : BitVec.ofNat 52 (bits v 63 12) = v.extractLsb' 12 52 := bits_eq v 63 12 52 rfl
    refine ⟨⟨vd _ _ (fun _ => rfl) fun _ x => ?mtroot, vd _ _ (fun _ => rfl) fun _ x => ?mwlim, vd _ _ (fun _ => rfl) fun _ x => ?mtinva,
        vd _ _ (fun _ => rfl) fun _ x => rfl, vd _ _ (fun _ => rfl) fun _ x => ?tidbase, vd _ _ (fun _ => rfl) fun _ x => ?tidn,
        vd _ _ (fun _ => rfl) fun _ x => ?olbase, vd _ _ (fun _ => rfl) fun _ x => ?olsize⟩,
      ⟨vd _ _ (fun _ => rfl) fun _ x => ?fqbase, vd _ _ (fun _ => rfl) fun _ x => ?fqctl, vd _ _ (fun _ => rfl) fun _ x => ?fqhead,
        vd _ _ (fun _ => rfl) fun _ x => ?fqrval, vd _ _ (fun _ => rfl) fun _ x => rfl, vd _ _ (fun _ => rfl) fun _ x => rfl,
        vd _ _ (fun _ => rfl) fun _ x => rfl, vd _ _ (fun _ => rfl) fun _ x => ?snctl, vd _ _ (fun _ => rfl) fun _ x => rfl,
        vd _ _ (fun _ => rfl) fun _ x => rfl⟩,
      fun q => ⟨moves_of (fun _ => rfl) fun s h => ?qcfg, rests_of (fun _ => rfl) fun s h => if_neg (Nat.not_lt.2 h),
        moves_of (fun _ => rfl) fun s h => if_pos h, rests_of (fun _ => rfl) fun s h => if_neg (Nat.not_lt.2 h),
        moves_of (fun _ => rfl) fun s h => if_pos h, rests_of (fun _ => rfl) fun s h => if_neg (Nat.not_lt.2 h),
        moves_of (fun _ => rfl) fun s h => if_pos h, rests_of (fun _ => rfl) fun s h => if_neg (Nat.not_lt.2 h)⟩,
      moves_of (fun _ => rfl) fun s _ => ?ksel, moves_of (fun _ => rfl) fun s _ => rfl, moves_of (fun _ => rfl) fun s _ => rfl,
      moves_of (fun _ => rfl) fun s _ => ?devctl, fun s reset => ?reset, moves_of (fun _ => rfl) fun s _ => ?govctl⟩
    case mtroot => simp only [VDev.write, bits_eq v 39 12 28 rfl]
    case mwlim => simp only [VDev.write, page]
    case mtinva => simp only [VDev.write, page]
    case tidbase => simp only [VDev.write, bits_eq v 63 7 57 rfl]
    case tidn => simp only [VDev.write, truncate_eq]
    case olbase => simp only [VDev.write, page]
    case olsize => simp only [VDev.write, truncate_eq]
    case fqbase => simp only [VDev.write, page]
    case fqctl => simp only [VDev.write, truncate_eq] <;> rfl
    case fqhead => simp only [VDev.write, truncate_eq]
    case fqrval => simp only [VDev.write, truncate_eq]
    case snctl => simp only [VDev.write, truncate_eq]
    case qcfg =>
      refine (if_pos h).trans ?_
      simp only [set_eq, VDev.write, page, bits_eq v 11 8 4 rfl]
    case ksel => exact congrArg (fun n => { s with ksel := n }) (truncate_eq v 12)
    case devctl =>
      have number : BitVec.ofNat 11 (bits v 42 32) = v.extractLsb' 32 11 := bits_eq v 42 32 11 rfl
      refine (show s.writeDevctl v = _ from ?_)
      simp only [State.writeDevctl, number]
    case reset =>
      have write : s.windowWrite 0x08 v = if v.getLsbD 0 then afterStep s (execDeviceReset s) else s.plain .devctl v := rfl
      rw [write, if_pos reset]
      rfl
    case govctl =>
      have limit : bits v 19 0 = (v.extractLsb' 0 20).toNat := by
        rw [BitVec.extractLsb'_toNat]
        exact congrArg (· % 2 ^ 20) (Nat.shiftRight_eq_div_pow _ _).symm
      simp only [limit]
      split
      · rfl
      · rfl
  case cycle =>
    refine ⟨List.mem_cons_self, ?_⟩
    obtain ⟨o, a, w, left⟩ := State.leaveSeust_eq { s with fresh := [] }
    obtain ⟨p, o', flushed⟩ := ({ s with fresh := [] } : State).leaveSeust.flushCredits_eq (List.range 36)
    rw [State.newCycle, flushed, left]
  case limiters =>
    intro rate burst good
    have refuses (s : State) : (BitVec.ofNat 20 (bits w 43 24) != 0 && decide (w.truncate 16 = (0 : BitVec 16))) = true ↔ ¬ good := by
      rw [bits_eq w 43 24 20 rfl, truncate_eq, Bool.and_eq_true, bne_iff_ne, decide_eq_true_eq, not_or, not_not]
    refine ⟨moves_of (fun _ => rfl) fun s ok => ?set, moves_of (fun _ => rfl) fun s bad => if_pos ((refuses s).2 bad),
      moves_of (fun _ => rfl) fun s ok => ?setPorts, rests_of (fun _ => rfl) fun s bad => if_pos ((refuses s).2 bad),
      moves_of (fun _ => rfl) fun s ⟨channel, rate⟩ => (if_pos channel).trans (if_neg rate),
      rests_of (fun _ => rfl) fun s ⟨channel, rate⟩ => (if_pos channel).trans (if_pos rate),
      ⟨moves_of (fun _ => rfl) fun s ⟨port, rate, some_⟩ => ?refill, rests_of (fun _ => rfl) fun s ⟨port, off⟩ => ?still⟩,
      fun x cap refill => ⟨?bucket, ?requests⟩⟩
    case set =>
      refine (if_neg (fun h => (refuses s).1 h ok)).trans ?_
      rw [bits_eq w 43 24 20 rfl, truncate_eq]
    case setPorts =>
      refine (if_neg (fun h => (refuses s).1 h ok)).trans ?_
      rw [bits_eq w 43 24 20 rfl, truncate_eq]
    case refill =>
      refine (if_neg (Nat.not_lt.2 port)).trans (if_neg ?_)
      rw [Bool.or_eq_true, decide_eq_true_eq, decide_eq_true_eq]
      exact fun h => h.elim rate some_
    case still =>
      refine (if_neg (Nat.not_lt.2 port)).trans (if_pos ?_)
      rw [Bool.or_eq_true, decide_eq_true_eq, decide_eq_true_eq]
      exact off
    case bucket => exact (Map.get_set _ _ _ _ _).trans (if_pos rfl)
    case requests => exact (Map.get_set _ _ _ _ _).trans (if_pos rfl)

end Sys2Proof.Claims
end

section
/-! PROOFS. The key commands and the invalidations (R44, R47, R53, R54): O47. -/

namespace Sys2Proof.Machine

theorem State.mayFill_iff (s : State) : s.mayFill = true ↔ s.ksel ≠ 0 ∧ (s.slot s.ksel.toNat).state = 0 := by
  simp only [State.mayFill, Bool.and_eq_true, bne_iff_ne, decide_eq_true_eq]

/-- An access that is not faulted stands first in its queue, and its bytes meet a range that is to be invalidated. -/
theorem Core.queueUses_first {k : Core} {x : Access} {tail : List Access} {rs : List (Nat × Nat)} {r : Nat × Nat} (queue : k.mq = x :: tail)
    (sound : x.faulted = false) (due : x.op ≠ .returned) (member : r ∈ rs) (below : x.addr < r.2)
    (above : r.1 < x.addr + (if x.op = .tload then 128 else x.size)) : k.queueUses rs = true := by
  have touches : (x.op != .returned && meetsAny rs x.addr (if x.op = .tload then 128 else x.size)) = true := by
    refine Bool.and_eq_true_iff.2 ⟨bne_iff_ne.2 due, List.any_eq_true.2 ⟨r, member, ?_⟩⟩
    exact Bool.and_eq_true_iff.2 ⟨decide_eq_true below, decide_eq_true above⟩
  unfold Core.queueUses
  rw [queue, List.takeWhile_cons_of_pos (by rw [sound]; rfl), List.any_cons, touches, Bool.true_or]

end Sys2Proof.Machine

namespace Sys2Proof.Claims
open Sys2Proof.Machine

/-- Settles O47. -/
theorem keyAndInvalidationEvents : Obligations.KeyAndInvalidationEvents := by
  refine ⟨fun n => ?keys, fun v count p k rest => ?invalidations, fun s v r rs e x tail core owner job queue sound due member below above => ?uses⟩
  case keys =>
    intro slot empty fill refused
    have loads (s : State) : (s.mayFill && s.keyFrom 0 != s.keyFrom 4) = true ↔ empty s ∧ s.keyFrom 0 ≠ s.keyFrom 4 :=
      Bool.and_eq_true_iff.trans (and_congr s.mayFill_iff bne_iff_ne)
    have loaded (s : State) : (s.ksel.toNat != 0 && (s.slot s.ksel.toNat).state = 1) = true ↔ s.ksel ≠ 0 ∧ (slot s).state = 1 :=
      Bool.and_eq_true_iff.trans (and_congr (bne_iff_ne.trans (BitVec.toNat_inj (y := 0)).not) decide_eq_true_iff)
    refine ⟨moves_of (fun _ => rfl) fun s h => if_pos (s.mayFill_iff.2 h),
      moves_of (fun _ => rfl) fun s h => if_neg (h ∘ s.mayFill_iff.1),
      moves_of (fun _ => rfl) fun s h => if_pos ((loads s).2 h),
      moves_of (fun _ => rfl) fun s h => if_neg (h ∘ (loads s).1),
      moves_of (fun _ => rfl) fun s h => if_pos ((loaded s).2 h),
      moves_of (fun _ => rfl) fun s h => if_neg (h ∘ (loaded s).1),
      moves_of (fun _ => rfl) fun s h => if_pos h,
      rests_of (fun _ => rfl) fun s h => if_neg h⟩
  case invalidations =>
    refine ⟨moves_of (fun _ => rfl) fun s h => if_neg (Nat.not_le.2 h), moves_of (fun _ => rfl) fun s h => if_pos h,
      moves_of (fun _ => rfl) fun s ⟨oldest, free⟩ => ?completes, rests_of (fun _ => rfl) fun s h => ?rests⟩
    case completes => simp only [oldest, free, Bool.false_eq_true, if_false, dropRange]
    case rests =>
      rcases h with none_ | ⟨oldest, used⟩
      · simp only [none_]
      · simp only [oldest, used, if_true]
  case uses =>
    have use : e.2.usesRange rs = true := by
      rw [Core.usesRange, Core.queueUses_first queue sound due member below above, Bool.true_or, Bool.true_or]
    have any : (s.cores.any fun e => s.coreVd e.1 = v && e.2.job.isSome && e.2.usesRange rs) = true := by
      refine List.any_eq_true.2 ⟨e, core, ?_⟩
      rw [use, job, decide_eq_true owner]
      rfl
    rw [State.usesRange, any, Bool.true_or, Bool.true_or, Bool.true_or]

end Sys2Proof.Claims

end

section
/-! PROOFS. Requests of the host, and the links (R34, R45, R475-R479, R482, R485, R486): O48. -/

namespace Sys2Proof.Machine

/-! ### Requests (R475-R477) -/

theorem State.reaches_iff (s : State) (f tag : Nat) : s.reaches f tag = true ↔ s.seustUp = true ∧ f ≤ 256 ∧ tag < 4096 := by
  simp only [State.reaches, Bool.and_eq_true, decide_eq_true_eq, and_assoc]

/-- R477: a request that reaches the device is taken if its TAG is free. -/
theorem State.request_taken {s : State} {f tag : Nat} (n : Nat) (act : State → State)
    (h : s.seustUp = true ∧ f ≤ 256 ∧ tag < 4096 ∧ s.outstanding f tag = false) : s.request f tag n act = act (s.oweSeust f n) := by
  obtain ⟨up, func, name, free⟩ := h
  have free' : (s.oweSeust f n).outstanding f tag = false := free
  simp only [State.request, (s.reaches_iff f tag).2 ⟨up, func, name⟩, free', Bool.not_true, Bool.false_eq_true, if_false]

theorem State.request_again {s : State} {f tag : Nat} (n : Nat) (act : State → State)
    (h : s.seustUp = true ∧ f ≤ 256 ∧ tag < 4096 ∧ s.outstanding f tag = true) :
    s.request f tag n act = (s.oweSeust f n).ack f tag 3 [] := by
  obtain ⟨up, func, name, out⟩ := h
  have out' : (s.oweSeust f n).outstanding f tag = true := out
  simp only [State.request, (s.reaches_iff f tag).2 ⟨up, func, name⟩, out', Bool.not_true, Bool.false_eq_true, if_false, if_true]

theorem State.request_unheard {s : State} {f tag : Nat} (n : Nat) (act : State → State)
    (h : s.seustUp = false ∨ 256 < f ∨ 4096 ≤ tag) : s.request f tag n act = s := by
  refine if_pos (Bool.not_eq_true' _ ▸ Bool.eq_false_iff.2 fun reaches => ?_)
  obtain ⟨up, func, name⟩ := (s.reaches_iff f tag).1 reaches
  rcases h with down | h | h
  · exact absurd (up.symm.trans down) (by decide)
  · exact absurd func (Nat.not_le.2 h)
  · exact absurd name (Nat.not_lt.2 h)

theorem State.outstanding_iff (s : State) (f tag : Nat) :
    s.outstanding f tag = true ↔ ∃ st d n, Output.ack f tag st d n ∈ s.acks := by
  rw [State.outstanding, List.any_eq_true]
  constructor
  · rintro ⟨o, member, is⟩
    cases o with
    | ack f' t' st d n =>
      obtain ⟨rfl, rfl⟩ := of_decide_eq_true ((Bool.decide_and _ _).trans is)
      exact ⟨st, d, n, member⟩
    | _ => exact absurd is Bool.false_ne_true
  · rintro ⟨st, d, n, member⟩
    exact ⟨_, member, by simp only [decide_true, Bool.and_self]⟩

theorem windowRefusal_none (f off : Nat) : windowRefusal f off = none ↔ off % 8 = 0 ∧ (f = 0 ∨ off / 4096 = 512 + (f - 1)) := by
  unfold windowRefusal
  split_ifs with odd far
  · exact iff_of_false (nofun) fun h => bne_iff_ne.1 odd h.1
  · rw [Bool.and_eq_true, bne_iff_ne, bne_iff_ne] at far
    exact iff_of_false (nofun) fun h => h.2.elim far.1 far.2
  · refine iff_of_true rfl ⟨not_not.1 fun h => odd (bne_iff_ne.2 h), ?_⟩
    rw [Bool.and_eq_true, bne_iff_ne, bne_iff_ne] at far
    exact Decidable.or_iff_not_imp_left.2 fun h => not_not.1 fun h' => far ⟨h, h'⟩

/-- R477: when a Seust header is malformed. -/
theorem seustMalformed_iff (h : Nat) : seustMalformed h = true ↔ 4 ≤ fld h 63 60 ∨ 256 < fld h 57 49 ∨ fld h 15 0 ≠ 0 ∨
    (fld h 63 60 ≤ 1 ∧ (fld h 36 24 ≠ 8 ∨ fld h 23 16 ≠ 0)) ∨
    (2 ≤ fld h 63 60 ∧ (fld h 36 24 < 16 ∨ 4096 < fld h 36 24 ∨ fld h 36 24 % 16 ≠ 0 ∨ fld h 23 16 ≠ 0 ∧ fld h 57 49 ≠ 0)) := by
  unfold seustMalformed
  by_cases small : fld h 63 60 ≤ 1
  · have not_large : ¬ 2 ≤ fld h 63 60 := by omega
    simp only [small, not_large, if_true, Bool.or_eq_true, Bool.and_eq_true, decide_eq_true_eq, bne_iff_ne, true_and, false_and, or_false,
      true_or, and_true, or_assoc]
  · have large : 2 ≤ fld h 63 60 := by omega
    simp only [small, large, if_false, Bool.or_eq_true, Bool.and_eq_true, decide_eq_true_eq, bne_iff_ne, true_and, false_and, false_or, or_assoc]

/-! ### What leaves as a cycle ends (R477) -/

/-- An ACK among what leaves, but for the credits that ride with it. -/
def ackOf : Output → Option Output
  | .ack f t st d _ => some (.ack f t st d 0)
  | _ => none

theorem State.leaveAcks_out (s : State) (l : List Output) :
    (s.leaveAcks l).acks = [] ∧ (s.leaveAcks l).out.reverse.filterMap ackOf = s.out.reverse.filterMap ackOf ++ l.filterMap ackOf := by
  induction l generalizing s with
  | nil => exact ⟨rfl, (List.append_nil _).symm⟩
  | cons x l ih =>
    cases x with
    | ack f t st d n =>
      obtain ⟨acks, out⟩ := ih { s with
        out := .ack f t st d (if ackFlits d = 1 then 0 else min 65535 (Map.get 0 s.seustOwed f)) :: s.out
        seustOwed := Map.modify 0 s.seustOwed f (· - if ackFlits d = 1 then 0 else min 65535 (Map.get 0 s.seustOwed f)) }
      refine ⟨acks, out.trans ?_⟩
      rw [List.reverse_cons, List.filterMap_append, List.append_assoc]
      rfl
    | _ => exact ih s

theorem filterMap_ackOf_none {l : List Output} (no : ∀ o ∈ l, ackOf o = none) : l.filterMap ackOf = [] :=
  List.filterMap_eq_nil_iff.2 no

theorem State.leaveSeust_up {s : State} (up : s.seustUp = true) :
    s.leaveSeust.acks = [] ∧ s.leaveSeust.out.reverse.filterMap ackOf = s.out.reverse.filterMap ackOf ++ s.acks.filterMap ackOf := by
  unfold State.leaveSeust
  split_ifs with idle
  · rw [up, Bool.not_true, Bool.false_or, Bool.and_eq_true, List.isEmpty_iff] at idle
    rw [idle.1]
    exact ⟨rfl, (List.append_nil _).symm⟩
  · obtain ⟨acks, out⟩ := s.leaveAcks_out s.acks
    refine ⟨acks, ?_⟩
    rw [← out, List.reverse_append, List.reverse_reverse, List.filterMap_append]
    refine (congrArg _ (filterMap_ackOf_none fun o member => ?_)).trans (List.append_nil _)
    obtain ⟨e, -, rfl⟩ := List.mem_map.1 member
    rfl

theorem State.leaveSeust_down {s : State} (down : s.seustUp = false) : s.leaveSeust = s :=
  if_pos (by rw [down, Bool.not_false, Bool.true_or])

theorem State.flushCredits_acks (s : State) (l : List Nat) :
    (s.flushCredits l).acks = s.acks ∧ (s.flushCredits l).out.reverse.filterMap ackOf = s.out.reverse.filterMap ackOf := by
  induction l generalizing s with
  | nil => exact ⟨rfl, rfl⟩
  | cons q l ih =>
    unfold State.flushCredits
    split
    · obtain ⟨acks, out⟩ := ih { s.setPort q { s.port q with creditsDue := [] } with
        out := ((s.port q).creditsDue.map (Output.credit q)).reverse ++ s.out }
      refine ⟨acks, out.trans ?_⟩
      rw [List.reverse_append, List.reverse_reverse, List.filterMap_append]
      refine (congrArg _ (filterMap_ackOf_none fun o member => ?_)).trans (List.append_nil _)
      obtain ⟨e, -, rfl⟩ := List.mem_map.1 member
      rfl
    · exact ih s

/-! ### Routes (R485) -/

theorem Map.lookup_map {α : Type} (f : α → α) (m : Map α) (k : Nat) :
    (m.map fun e : Nat × α => (e.1, f e.2)).lookup k = (m.lookup k).map f := by
  induction m with
  | nil => rfl
  | cons e m ih =>
    obtain ⟨j, v⟩ := e
    cases is : k == j with
    | true => simp only [List.map_cons, List.lookup_cons, is, Option.map_some]
    | false => simpa only [List.map_cons, List.lookup_cons, is] using ih

/-- R485: the packets of a communicator that are bound to a port may go by any. -/
def Comm.freed (m : Comm) (p : Nat) : Comm := { m with owed := m.owed.map fun o => (if o.1 = [p] then portsOf m.mask else o.1, o.2) }

/-- R485: no packet is bound to a port any more. -/
def State.unbound (s : State) (p : Nat) : State :=
  { s with vds := s.vds.map fun e : Nat × VDev => (e.1, { e.2 with comms := e.2.comms.map fun e : Nat × Comm => (e.1, e.2.freed p) }) }

/-- R485: the first port of a partition with the port `p` that carries packets. -/
def State.detour (s : State) (p : Nat) : Option Nat :=
  (s.parts.find? fun e => e.2.ports.contains p).bind fun e => e.2.ports.find? s.portUp

theorem State.reroute_up {s : State} {p : Nat} (up : s.portUp p = true) : s.reroute p = s := if_pos up

theorem State.reroute_none {s : State} {p : Nat} (down : s.portUp p = false) (none_ : s.detour p = none) : s.reroute p = s.unbound p := by
  refine (if_neg (Bool.eq_false_iff.1 down)).trans ?_
  dsimp only
  split
  case h_1 q found => exact nomatch found.symm.trans none_
  case h_2 => rfl

theorem State.reroute_some {s : State} {p q : Nat} (down : s.portUp p = false) (some_ : s.detour p = some q) :
    s.reroute p =
      (((s.unbound p).setPort q { s.port q with sysWait := (s.port q).sysWait ++ (s.port p).sysWait }).setPort p
        { ((s.unbound p).setPort q { s.port q with sysWait := (s.port q).sysWait ++ (s.port p).sysWait }).port p with sysWait := [] }) := by
  refine (if_neg (Bool.eq_false_iff.1 down)).trans ?_
  dsimp only
  split
  case h_1 r found =>
    obtain rfl : q = r := Option.some.inj (some_.symm.trans found)
    rfl
  case h_2 none_ => exact nomatch none_.symm.trans some_

theorem State.detour_up {s : State} {p q : Nat} (some_ : s.detour p = some q) : s.portUp q = true := by
  obtain ⟨e, -, found⟩ := Option.bind_eq_some_iff.1 some_
  exact List.find?_some found

theorem State.port_setPort_self (s : State) (p : Nat) (x : QPort) : (s.setPort p x).port p = x := Map.get_put_self _ _ _ _

theorem State.port_setPort_ne (s : State) {p q : Nat} (x : QPort) (h : p ≠ q) : (s.setPort p x).port q = s.port q := Map.get_put_ne _ _ _ h

/-- R485: only the packets of communicators, and what waits at ports, take another route. -/
theorem State.reroute_vds {s : State} {p : Nat} (down : s.portUp p = false) : (s.reroute p).vds = (s.unbound p).vds := by
  cases is : s.detour p with
  | none => rw [State.reroute_none down is]
  | some q => rw [State.reroute_some down is] <;> rfl

theorem State.comm_unbound {s : State} {v n : Nat} {m : Comm} (p : Nat) (is : (s.vds.lookup v).bind (·.comms.lookup n) = some m) :
    ((s.unbound p).vds.lookup v).bind (·.comms.lookup n) = some (m.freed p) := by
  obtain ⟨x, vd, comm⟩ := Option.bind_eq_some_iff.1 is
  have vd' : (s.unbound p).vds.lookup v = some { x with comms := x.comms.map fun e : Nat × Comm => (e.1, e.2.freed p) } := by
    refine (Map.lookup_map (fun x : VDev => { x with comms := x.comms.map fun e : Nat × Comm => (e.1, e.2.freed p) }) s.vds v).trans ?_
    rw [vd, Option.map_some]
  rw [vd', Option.bind_some]
  exact (Map.lookup_map (Comm.freed · p) x.comms n).trans (by rw [comm, Option.map_some])

theorem State.reroute_waits {s : State} {p q : Nat} (down : s.portUp p = false) (some_ : s.detour p = some q) :
    ((s.reroute p).port p).sysWait = [] ∧ ((s.reroute p).port q).sysWait = (s.port q).sysWait ++ (s.port p).sysWait := by
  have other : p ≠ q := fun same => absurd ((same ▸ down).symm.trans (State.detour_up some_)) (by decide)
  rw [State.reroute_some down some_, State.port_setPort_self, State.port_setPort_ne _ _ other, State.port_setPort_self]
  exact ⟨rfl, rfl⟩

theorem State.rerouteAll_eq (s : State) (ps : List Nat) : s.rerouteAll ps = ps.foldl State.reroute s := by
  induction ps generalizing s with
  | nil => rfl
  | cons p ps ih => exact ih (s.reroute p)

end Sys2Proof.Machine

namespace Sys2Proof.Claims
open Sys2Proof.Machine

/-- Settles O48. -/
theorem hostAndLinkEvents : Obligations.HostAndLinkEvents := by
  refine ⟨fun f tag vd len a v data b t p header e => ?events, fun s p q down => ⟨fun v n m is => ?bound, fun is => State.reroute_waits down is,
      fun is => by rw [State.reroute_none down is] <;> rfl⟩, fun s p up => State.reroute_up up, State.rerouteAll_eq, windowRefusal_none,
    fun s f tag => ?cycle, seustMalformed_iff⟩
  case bound => rw [State.reroute_vds down] <;> exact State.comm_unbound p is
  case cycle =>
    intro acks
    have acks_eq : acks = List.filterMap ackOf := rfl
    obtain ⟨kept, sent⟩ := State.flushCredits_acks ({ s with fresh := [] } : State).leaveSeust (List.range 36)
    refine ⟨fun up => ?_, fun down => kept.trans ?_, s.outstanding_iff f tag⟩
    · obtain ⟨none_, left⟩ := State.leaveSeust_up (s := { s with fresh := [] }) up
      rw [acks_eq]
      exact ⟨kept.trans none_, sent.trans left⟩
    · have still : ({ s with fresh := [] } : State).leaveSeust = _ := State.leaveSeust_down down
      rw [still]
  case events =>
    intro taken again unheard one many dev able refused off
    have dev_eq : spaceOf f vd = dev := rfl
    refine ⟨⟨moves_of (fun _ => rfl) fun s ⟨h, fine⟩ => ?mrd, moves_of (fun _ => rfl) fun s ⟨h, bad⟩ => ?mrdBad,
        moves_of (fun _ => rfl) fun s h => State.request_again _ _ h,
        moves_of (fun _ => rfl) fun s ⟨h, fine⟩ => ?mwr, moves_of (fun _ => rfl) fun s ⟨h, bad⟩ => ?mwrBad,
        moves_of (fun _ => rfl) fun s h => State.request_again _ _ h,
        moves_of (fun _ => rfl) fun s ⟨⟨h, good, on⟩, is⟩ => ?hrd, fun x => moves_of (fun _ => rfl) fun s ⟨⟨h, good, on⟩, is⟩ => ?hrdError,
        moves_of (fun _ => rfl) fun s ⟨h, bad⟩ => ?hrdBad, moves_of (fun _ => rfl) fun s ⟨h, good, off⟩ => ?hrdOff,
        moves_of (fun _ => rfl) fun s h => State.request_again _ _ h,
        moves_of (fun _ => rfl) fun s ⟨⟨h, good, on⟩, is⟩ => ?hwr, fun x => moves_of (fun _ => rfl) fun s ⟨⟨h, good, on⟩, is⟩ => ?hwrError,
        moves_of (fun _ => rfl) fun s ⟨h, bad⟩ => ?hwrBad, moves_of (fun _ => rfl) fun s ⟨h, good, off⟩ => ?hwrOff,
        moves_of (fun _ => rfl) fun s h => State.request_again _ _ h,
        rests_of (fun _ => rfl) fun s h => State.request_unheard _ _ h, rests_of (fun _ => rfl) fun s h => State.request_unheard _ _ h,
        rests_of (fun _ => rfl) fun s h => State.request_unheard _ _ h, rests_of (fun _ => rfl) fun s h => State.request_unheard _ _ h⟩,
      ?packets, moves_of (fun _ => rfl) fun s h => if_neg (Nat.not_lt.2 h), rests_of (fun _ => rfl) fun s h => if_pos h,
      moves_of (fun _ => rfl) fun s h => if_pos h, rests_of (fun _ => rfl) fun s h => if_neg (Bool.eq_false_iff.1 h),
      moves_of (fun _ => rfl) fun s _ => rfl, moves_of (fun _ => rfl) fun s h => if_pos h,
      moves_of (fun _ => rfl) fun s h => if_pos h, rests_of (fun _ => rfl) fun s h => if_neg (Bool.eq_false_iff.1 h),
      moves_of (fun _ => rfl) fun s h => if_pos h, rests_of (fun _ => rfl) fun s h => if_neg (Bool.eq_false_iff.1 h),
      moves_of (fun _ => rfl) fun s ⟨port, on, en⟩ => ?linkUp, rests_of (fun _ => rfl) fun s h => ?linkOff⟩
    case mrd => exact (State.request_taken _ _ h).trans (by simp only [fine] <;> rfl)
    case mrdBad => exact (State.request_taken _ _ h).trans (by simp only [bad] <;> rfl)
    case mwr => exact (State.request_taken _ _ h).trans (by simp only [fine] <;> rfl)
    case mwrBad => exact (State.request_taken _ _ h).trans (by simp only [bad] <;> rfl)
    case hrd =>
      have on' : ((s.oweSeust f 1).vd dev).trEn = true := on
      have is' : (s.oweSeust f 1).mReadExtent dev a.toNat len .hostRead = .ok (b, t) := is
      refine (State.request_taken _ _ h).trans ?_
      simp only [dev_eq, good, on', is', Bool.not_true, Bool.false_eq_true, if_false]
    case hrdError =>
      have on' : ((s.oweSeust f 1).vd dev).trEn = true := on
      have is' : (s.oweSeust f 1).mReadExtent dev a.toNat len .hostRead = .error x := is
      refine (State.request_taken _ _ h).trans ?_
      simp only [dev_eq, good, on', is', Bool.not_true, Bool.false_eq_true, if_false] <;> rfl
    case hrdBad => exact (State.request_taken _ _ h).trans (if_pos bad)
    case hrdOff =>
      have off' : ((s.oweSeust f 1).vd dev).trEn = false := off
      refine (State.request_taken _ _ h).trans ?_
      simp only [dev_eq, good, off', Bool.not_false, Bool.false_eq_true, if_false, if_true] <;> rfl
    case hwr =>
      have on' : ((s.oweSeust f (requestFlits data.length)).vd dev).trEn = true := on
      have is' : (s.oweSeust f (requestFlits data.length)).mWriteExtent dev a.toNat data .hostWrite = .ok t := is
      refine (State.request_taken _ _ h).trans ?_
      simp only [dev_eq, good, on', is', Bool.not_true, Bool.false_eq_true, if_false]
    case hwrError =>
      have on' : ((s.oweSeust f (requestFlits data.length)).vd dev).trEn = true := on
      have is' : (s.oweSeust f (requestFlits data.length)).mWriteExtent dev a.toNat data .hostWrite = .error x := is
      refine (State.request_taken _ _ h).trans ?_
      simp only [dev_eq, good, on', is', Bool.not_true, Bool.false_eq_true, if_false] <;> rfl
    case hwrBad => exact (State.request_taken _ _ h).trans (if_pos bad)
    case hwrOff =>
      have off' : ((s.oweSeust f (requestFlits data.length)).vd dev).trEn = false := off
      refine (State.request_taken _ _ h).trans ?_
      simp only [dev_eq, good, off', Bool.not_false, Bool.false_eq_true, if_false, if_true] <;> rfl
    case packets =>
      intro func name heard bad
      have named : name < 4096 := Nat.mod_lt _ (by decide)
      have accepts (readable : Bool) (s : State) : (readable && s.reaches func name && (seustMalformed header.toNat || s.outstanding func name)) = true ↔
          readable = true ∧ heard s ∧ bad s := by
        rw [Bool.and_eq_true, Bool.and_eq_true, Bool.or_eq_true, s.reaches_iff, and_assoc, and_iff_left named]
      refine ⟨moves_of (fun _ => rfl) fun s h => if_pos ((accepts true s).2 ⟨rfl, h⟩), fun readable => rests_of (fun _ => rfl) fun s h => if_neg fun is => ?_⟩
      obtain ⟨can, does, wrong⟩ := (accepts readable s).1 is
      rcases h with deaf | fine | not_
      · exact deaf does
      · exact fine wrong
      · exact absurd (can.symm.trans not_) (by decide)
    case linkUp => exact if_pos (by rw [decide_eq_true port, on, en] <;> rfl)
    case linkOff =>
      refine if_neg fun is => ?_
      rw [Bool.and_eq_true, Bool.and_eq_true] at is
      exact h.elim (fun off => absurd (is.1.2.symm.trans off) (by decide)) fun off => absurd (is.2.symm.trans off) (by decide)

end Sys2Proof.Claims

end

section
/-! PROOFS. A core's cycle (R144, R147, R183, R191, R376): O49. -/

namespace Sys2Proof.Machine

/-! ### One member's bundle -/

theorem filterMap_id_map_decoded (ws : List Word) : (ws.map decoded).filterMap id = ws.filterMap decoded := by
  rw [List.filterMap_map, Function.id_comp]

/-- R191: a bundle that could issue issues where the Governor allows it, and else freezes. -/
theorem State.memberIssue_ok {t v : State} {m pc : Nat} {ws : List Word} (fetched : (t.job m).fetchBundle m pc = some ws)
    (tried : ({ t with turn := m } : State).tryIssue pc (ws.map decoded) (ws.filterMap named) = .ok v) :
    t.memberIssue m pc = if t.bundleAllowed (t.core m) ((ws.filterMap decoded).map weight).sum = true then
      .ok (v.afterIssue m pc ws.length (ws.filterMap decoded) ((ws.filterMap decoded).map weight).sum) else .held (.freeze []) := by
  have fetched' : (({ t with turn := m } : State).job m).fetchBundle m pc = some ws := fetched
  unfold State.memberIssue
  simp only [fetched', tried, filterMap_id_map_decoded] <;> rfl

theorem State.memberIssue_not_ok {t : State} {m pc : Nat} {ws : List Word} (fetched : (t.job m).fetchBundle m pc = some ws)
    (tried : ∀ v, ({ t with turn := m } : State).tryIssue pc (ws.map decoded) (ws.filterMap named) ≠ .ok v) :
    t.memberIssue m pc = ({ t with turn := m } : State).tryIssue pc (ws.map decoded) (ws.filterMap named) := by
  have fetched' : (({ t with turn := m } : State).job m).fetchBundle m pc = some ws := fetched
  unfold State.memberIssue
  simp only [fetched']

/-- R191: the weight that a bundle held by the Governor has. -/
theorem State.weightAt_fetched {t : State} {m pc : Nat} {ws : List Word} (fetched : (t.job m).fetchBundle m pc = some ws) :
    t.weightAt m pc = ((ws.filterMap decoded).map weight).sum := by
  unfold State.weightAt
  rw [fetched]

theorem State.noteHold_governor {t : State} {m pc : Nat} {ws : List Word} (fetched : (t.job m).fetchBundle m pc = some ws) :
    t.noteHold m pc (.freeze []) = t.setCore m { t.core m with
      readyAt := some ((t.core m).readyAt.getD ((t.core m).wall, ((ws.filterMap decoded).map weight).sum)) } := by
  unfold State.noteHold
  rw [State.weightAt_fetched fetched]

theorem State.bundleAllowed_iff (s : State) (k : Core) (w : Nat) : s.bundleAllowed k w = true ↔
    s.govEn = false ∨ k.charged k.wall + (k.olderWave + w) ≤ s.governorLimit := by
  simp only [State.bundleAllowed, State.governorAllows, Bool.or_eq_true, Bool.not_eq_true', decide_eq_true_eq]

/-! ### A core that leads only itself -/

/-- A core that runs alone, waits at no barrier word, and that nothing holds. -/
structure State.Solo (s : State) (c : Nat) : Prop where
  runs : (s.core c).mode = .running
  alone : (s.core c).flen = 1
  free : (s.core c).barrier = none
  moves : s.holdsCore c = false

/-- What the end of a cycle with this mark leaves beside what it counts. -/
def State.cycled (s : State) (c : Nat) (m counted : Mark) : State := { s.countCycle c counted with mark := m, bun := Bundle.reset, turn := c }

theorem State.cycled_core (s : State) (c : Nat) (m x : Mark) : (s.cycled c m x).core c = { (s.core c).swapAll with
    wall := (s.core c).wall + 1, cycle := (s.core c).cycle + 1, freeze := if x.frozen then (s.core c).freeze + 1 else (s.core c).freeze
    stalled := x.stalls, cause := x.cause } :=
  State.core_setCore_self ..

namespace State.Solo
variable {s : State} {c : Nat} (solo : s.Solo c)
include solo

theorem members_eq : s.members c = [c] := by
  unfold State.members
  rw [solo.alone] <;> rfl

theorem duePc_eq : s.duePc c c = some (s.core c).pc := by
  simp only [State.duePc, solo.free, solo.runs, Option.isSome_none, Bool.false_eq_true, if_false, if_true]

theorem coreCycle_eq : s.coreCycle c = s.issueCycle c := by
  have goes : s.flightStopped c = false := by
    simp only [State.flightStopped, solo.members_eq, List.any_cons, List.any_nil, solo.runs, Bool.or_false]
  unfold State.coreCycle State.runCycle
  simp only [solo.moves, solo.runs, goes, solo.duePc_eq, Option.isSome_some, Bool.false_eq_true, if_false, Bool.true_or, if_true, reduceCtorEq,
    decide_false, Bool.or_self]

/-- R183: the bundle issues. -/
theorem coreCycle_ok {t : State} (is : s.memberIssue c (s.core c).pc = .ok t) :
    s.coreCycle c = ((t.setCore c { t.core c with trail := [], loopTrail := [] }).schedHeld c).cycled c .ok .ok := by
  have tried : s.flightTry c none false [c] = .ok t true := by simp only [State.flightTry, solo.duePc_eq, is]
  rw [solo.coreCycle_eq]
  unfold State.issueCycle
  simp only [solo.members_eq, tried, Bool.not_true, Bool.and_false, Bool.false_and, Bool.false_eq_true, if_false, List.length_singleton, Nat.sub_self,
    Nat.zero_mul, List.take_zero] <;> rfl

/-- R147: the bundle is held. -/
theorem coreCycle_held {x : Mark} (is : s.memberIssue c (s.core c).pc = .held x) :
    s.coreCycle c = (if x = .tick then (s.noteHold c (s.core c).pc x).schedHeld c else s.noteHold c (s.core c).pc x).cycled c x x := by
  have tried : s.flightTry c none false [c] = .held x c (s.core c).pc := by
    simp only [State.flightTry, solo.duePc_eq, is, List.isEmpty_nil, Bool.not_true, Bool.and_false, Bool.false_eq_true, if_false]
  rw [solo.coreCycle_eq]
  unfold State.issueCycle
  simp only [solo.members_eq, tried] <;> rfl

/-- R423: the bundle raises a fault. -/
theorem coreCycle_fault {x : Trap} (is : s.memberIssue c (s.core c).pc = .fault x) : s.coreCycle c = (s.raise c x).cycled c (.trap x) .ok := by
  have tried : s.flightTry c none false [c] = .fault c x := by
    simp only [State.flightTry, solo.duePc_eq, is, Option.orElse]
  rw [solo.coreCycle_eq]
  unfold State.issueCycle
  simp only [solo.members_eq, tried] <;> rfl

/-- R340, R436: a word acts in place of the bundle. -/
theorem coreCycle_replaced {md : Mode} (other : md ≠ .running) (is : s.memberIssue c (s.core c).pc = .replaced md) :
    s.coreCycle c = (s.stayAt c (s.core c).pc md).cycled c .ok .ok := by
  have tried : s.flightTry c none false [c] = .ok (s.stayAt c (s.core c).pc md) false := by
    simp only [State.flightTry, solo.duePc_eq, is, if_true]
  have mode : (((s.stayAt c (s.core c).pc md).core c).mode != .running) = true := by
    unfold State.stayAt
    rw [State.core_setCore_self]
    exact bne_iff_ne.2 other
  rw [solo.coreCycle_eq]
  unfold State.issueCycle
  simp only [solo.members_eq, tried, solo.duePc_eq, mode, Option.isSome_some, Bool.not_false, Bool.and_self, if_true] <;> rfl

end State.Solo

/-- R191: what a bundle that issues is charged. -/
theorem State.afterIssue_charges (u : State) (c x len : Nat) (is : List Instr) (w : Nat) :
    ((u.afterIssue c x len is w).core c).charges = ((u.core c).wall, w) :: (u.core c).charges.filter fun e => (u.core c).wall < e.1 + 64 := by
  obtain ⟨hs, reads⟩ := (u.core c).readsDone_eq is
  obtain ⟨fs, advance⟩ := Core.advanceRng_eq { u.core c with handles := hs } is
  simp only [State.afterIssue, reads, advance, Core.keepFlags, Core.charge, State.core_setCore_self]

end Sys2Proof.Machine

namespace Sys2Proof.Claims
open Sys2Proof.Machine

/-- Settles O49. -/
theorem governorTickChargesOrFreezes : Obligations.GovernorTickChargesOrFreezes := by
  intro s u c ws n k is w t limit charged starts v after started froze
  refine ⟨rfl, fun runs alone free moves fetched tried => ?_⟩
  have solo : n.Solo c := ⟨runs, alone, free, moves⟩
  have allowed : n.bundleAllowed (n.core c) w = true ↔ starts := n.bundleAllowed_iff k w
  have issue : n.memberIssue c (n.core c).pc = if n.bundleAllowed (n.core c) w = true then .ok v else .held (.freeze []) :=
    State.memberIssue_ok fetched tried
  have froze_eq : froze = (n.setCore c { k with readyAt := some (k.readyAt.getD (k.wall, w)) }).cycled c (.freeze []) (.freeze []) := rfl
  have stepped : step t = .next (n.coreCycle c) := rfl
  refine ⟨fun starts => ⟨?_, State.afterIssue_charges ..⟩, fun stays => ⟨?_, ?_⟩⟩
  · rw [stepped, solo.coreCycle_ok (issue.trans (if_pos (allowed.2 starts)))] <;> rfl
  · rw [stepped, solo.coreCycle_held (issue.trans (if_neg (stays ∘ allowed.1))), State.noteHold_governor fetched, if_neg nofun, froze_eq]
  · rw [froze_eq, State.cycled_core, State.core_setCore_self]
    simp only [Mark.frozen, if_true, Core.swapAll, and_self]

end Sys2Proof.Claims

end

section
/-! PROOFS. One step: the agenda, the words of a bundle, and the members of a flight (R144, R147, R169-R171, R183, R376, R423): O57. -/

namespace Sys2Proof.Machine

/-! ### The verdict on a bundle (R147) -/

/-- Words of which none stalls hold nothing by it. -/
theorem Run.no_stall {r : Run} (moves : ∀ m ∈ r.marks, m.2.stalls = false) :
    (r.marks.any fun x => decide (x.2 = .stall)) = false ∧ r.marks.find? (fun x => x.2.stalls) = none := by
  refine ⟨List.any_eq_false.2 fun m hm stall => ?_, List.find?_eq_none.2 fun m hm => Bool.eq_false_iff.1 (moves m hm)⟩
  have := moves m hm
  rw [of_decide_eq_true stall] at this
  exact absurd this (by decide)

theorem Run.no_tick {r : Run} (ticks : ∀ m ∈ r.marks, m.2 ≠ .tick) : (r.marks.any fun x => decide (x.2 = .tick)) = false :=
  List.any_eq_false.2 fun m hm tick => ticks m hm (of_decide_eq_true tick)

theorem Run.verdict_held {r : Run} {x : Nat × Mark} (static : Bool) (stays : ∀ m ∈ r.marks, m.2 ≠ .stall)
    (held : r.marks.find? (fun m => m.2.stalls) = some x) : r.verdict static = .held x.2 := by
  have stall : (r.marks.any fun x => decide (x.2 = .stall)) = false :=
    List.any_eq_false.2 fun m hm stall => stays m hm (of_decide_eq_true stall)
  simp only [Run.verdict, stall, held, Bool.false_eq_true, if_false]

theorem Run.verdict_replaced {r : Run} {md : Mode} (static : Bool) (moves : ∀ m ∈ r.marks, m.2.stalls = false) (acts : r.replaced = some md) :
    r.verdict static = .replaced md := by
  obtain ⟨stall, held⟩ := Run.no_stall moves
  simp only [Run.verdict, stall, held, acts, Bool.false_eq_true, if_false]

theorem Run.verdict_tick {r : Run} (static : Bool) (moves : ∀ m ∈ r.marks, m.2.stalls = false) (stays : r.replaced = none)
    (tick : ∃ m ∈ r.marks, m.2 = .tick) : r.verdict static = .held .tick := by
  obtain ⟨stall, held⟩ := Run.no_stall moves
  have ticks : (r.marks.any fun x => decide (x.2 = .tick)) = true :=
    let ⟨m, hm, is⟩ := tick
    List.any_eq_true.2 ⟨m, hm, decide_eq_true is⟩
  simp only [Run.verdict, stall, held, stays, ticks, Bool.false_eq_true, if_false, if_true]

/-- Words of which none stalls, acts in the bundle's place or waits for stores. -/
structure Run.Settled (r : Run) : Prop where
  moves : ∀ m ∈ r.marks, m.2.stalls = false
  stays : r.replaced = none
  ticks : ∀ m ∈ r.marks, m.2 ≠ .tick

theorem Run.Settled.fault {r : Run} (settled : r.Settled) {static : Bool} {x : Trap} (chosen : chooseTrap static r.marks = some x) :
    r.verdict static = .fault x := by
  obtain ⟨stall, held⟩ := Run.no_stall settled.moves
  simp only [Run.verdict, stall, held, settled.stays, Run.no_tick settled.ticks, chosen, Bool.false_eq_true, if_false]

theorem Run.Settled.frozen {r : Run} (settled : r.Settled) {static : Bool} (chosen : chooseTrap static r.marks = none)
    (freezes : ∃ m ∈ r.marks, m.2.frozen = true) : r.verdict static = .held (.freeze (r.marks.flatMap fun m => m.2.granules)) := by
  obtain ⟨stall, held⟩ := Run.no_stall settled.moves
  simp only [Run.verdict, stall, held, settled.stays, Run.no_tick settled.ticks, chosen, List.any_eq_true.2 freezes, Bool.false_eq_true, if_false,
    if_true]

theorem Run.Settled.ok {r : Run} (settled : r.Settled) {static : Bool} (chosen : chooseTrap static r.marks = none)
    (goes : ∀ m ∈ r.marks, m.2.frozen = false) : r.verdict static = .ok r.state := by
  obtain ⟨stall, held⟩ := Run.no_stall settled.moves
  have frozen : (r.marks.any fun x => x.2.frozen) = false := List.any_eq_false.2 fun m hm => Bool.eq_false_iff.1 (goes m hm)
  simp only [Run.verdict, stall, held, settled.stays, Run.no_tick settled.ticks, chosen, frozen, Bool.false_eq_true, if_false]

/-- R423: a bundle that breaks a rule never issues. -/
theorem Run.verdict_false_ne (r : Run) (t : State) : r.verdict false ≠ .ok t := by
  have chosen : chooseTrap false r.marks = some { cls := 1 } := rfl
  unfold Run.verdict
  rw [chosen]
  split
  · nofun
  · split
    · nofun
    · nofun
    · split
      · nofun
      · nofun

/-! ### Words one after another -/

/-- R340, R436: a word that takes effect acts in its bundle's place where it leaves the core in another mode. -/
def State.Acts (s t : State) (i : Instr) : Prop := t.mark = .ok ∧ s.replaces i = true ∧ t.cur.mode ≠ .running

theorem State.acts_iff (s t : State) (i : Instr) :
    (decide (t.mark = .ok) && s.replaces i && (t.cur.mode != .running)) = true ↔ s.Acts t i := by
  rw [Bool.and_eq_true, Bool.and_eq_true, decide_eq_true_eq, bne_iff_ne, and_assoc, State.Acts]

theorem State.not_acts_iff (s t : State) (i : Instr) :
    (decide (t.mark = .ok) && s.replaces i && (t.cur.mode != .running)) = false ↔ ¬ s.Acts t i :=
  Bool.eq_false_iff.trans (s.acts_iff t i).not

theorem State.runWords_effect {s t : State} {p : Placed} (ps : List Placed)
    (run : exec p.i { s with bun := { s.bun with ext := p.ext, pipe := p.pipe, draws := p.draws } } = .next t)
    (ok : t.mark = .ok) (stays : ¬ s.Acts t p.i) :
    s.runWords (p :: ps) = { t.runWords ps with marks := (p.idx, .ok) :: (t.runWords ps).marks } := by
  have no := (s.not_acts_iff t p.i).2 stays
  simp only [ok, decide_true, Bool.true_and] at no
  simp only [State.runWords, run, ok, decide_true, Bool.true_and, no, Bool.not_false, if_true, Bool.false_eq_true, if_false]

/-- The state with the unit of a word taken, where one is free. -/
def State.unitTaken (s : State) (i : Instr) : State :=
  match s.claimUnit i with
  | .ok u => u
  | .error _ => s

theorem State.runWords_none {s t : State} {p : Placed} (ps : List Placed)
    (run : exec p.i { s with bun := { s.bun with ext := p.ext, pipe := p.pipe, draws := p.draws } } = .next t) (no : t.mark ≠ .ok) :
    s.runWords (p :: ps) = { (s.unitTaken p.i).runWords ps with marks := (p.idx, t.mark) :: ((s.unitTaken p.i).runWords ps).marks } := by
  simp only [State.runWords, run, no, decide_false, Bool.false_and, Bool.false_eq_true, if_false] <;> rfl

theorem State.runWords_acts {s t : State} {p : Placed} (ps : List Placed)
    (run : exec p.i { s with bun := { s.bun with ext := p.ext, pipe := p.pipe, draws := p.draws } } = .next t) (acts : s.Acts t p.i) :
    s.runWords (p :: ps) =
      ⟨((s.unitTaken p.i).runWords ps).state, (p.idx, t.mark) :: ((s.unitTaken p.i).runWords ps).marks, some t.cur.mode⟩ := by
  have yes := (s.acts_iff t p.i).2 acts
  simp only [acts.1, decide_true, Bool.true_and] at yes
  simp only [State.runWords, run, acts.1, decide_true, Bool.true_and, yes, Bool.not_true, Bool.false_eq_true, if_false, if_true] <;> rfl

/-- The first word's mark stands first. -/
theorem State.runWords_head {s t : State} {p : Placed} (ps : List Placed)
    (run : exec p.i { s with bun := { s.bun with ext := p.ext, pipe := p.pipe, draws := p.draws } } = .next t) :
    (s.runWords (p :: ps)).marks.head? = some (p.idx, t.mark) := by
  simp only [State.runWords, run, List.head?_cons]

/-! ### A bundle tried (R147) -/

/-- R147: does a bundle keep the rules, and does no word of it raise IENC? -/
theorem State.fits_iff (b : Bool) (r : Run) :
    (b && !r.illegal) = true ↔ b = true ∧ ∀ m ∈ r.marks, ∀ x, m.2 = .trap x → x.cls ≠ 1 := by
  rw [Bool.and_eq_true, Bool.not_eq_true', Run.illegal, List.any_eq_false]
  refine and_congr_right fun _ => forall₂_congr fun m hm => ?_
  cases m.2 <;> simp

/-- R147: a bundle that keeps the rules, tried. -/
theorem State.tryIssue_fits {s : State} {x : Nat} {ws : List (Option Instr)} (stray : List Instr) (fits : s.bundleFits x ws = true)
    (legal : ∀ m ∈ ((s.openBundle x ws.length (ws.filterMap id)).runWords (s.orderedWords ws)).marks, ∀ y, m.2 = .trap y → y.cls ≠ 1) :
    let o := s.openBundle x ws.length (ws.filterMap id)
    let r := o.runWords (s.orderedWords ws)
    s.tryIssue x ws stray = Run.verdict { r with marks := r.marks ++ o.strayMarks stray } true := by
  have good := (State.fits_iff (s.bundleFits x ws) _).2 ⟨fits, legal⟩
  simp only [State.tryIssue, good, if_true]

theorem State.tryIssue_breaks {s : State} {x : Nat} {ws : List (Option Instr)} (stray : List Instr)
    (breaks : ¬ (s.bundleFits x ws = true ∧
      ∀ m ∈ ((s.openBundle x ws.length (ws.filterMap id)).runWords (s.orderedWords ws)).marks, ∀ y, m.2 = .trap y → y.cls ≠ 1)) :
    let o := s.openBundle x ws.length (ws.filterMap id)
    let r := o.runAlone (s.orderedWords ws)
    s.tryIssue x ws stray = Run.verdict { r with marks := r.marks ++ o.strayMarks stray } false := by
  have bad := Bool.eq_false_iff.2 (breaks ∘ (State.fits_iff (s.bundleFits x ws) _).1)
  simp only [State.tryIssue, bad, Bool.false_eq_true, if_false]

/-! ### A bundle of one word -/

theorem rank_lt (i : Instr) : rank i < 6 := by
  unfold rank
  split
  iterate 5 decide
  split
  case h_3 => split <;> decide
  all_goals decide

theorem ordered_single (p : Placed) : ordered [p] = [p] := by
  have := rank_lt p.i
  unfold ordered
  generalize is : rank p.i = n at this
  simp only [List.filter_cons, List.filter_nil, is]
  interval_cases n <;> rfl

theorem State.orderedWords_single (s : State) (i : Instr) :
    s.orderedWords [some i] = [{ idx := 0, i := i, ext := none, pipe := 0, draws := 0 }] := ordered_single _

theorem bundleFits_single (s : State) (x : Nat) (i : Instr) :
    s.bundleFits x [some i] = (bundleOk [i] && !loopEndClash s.cur x [i]) := by
  simp only [State.bundleFits, List.filterMap_cons_some (f := id) rfl, List.filterMap_nil, List.length_singleton, decide_true, Bool.true_and]

theorem bundleFits_turn (n : State) (c x : Nat) (i : Instr) :
    ({ n with turn := c } : State).bundleFits x [some i] = (bundleOk [i] && !loopEndClash (n.core c) x [i]) := bundleFits_single _ x i

/-- R423: a fault that a bundle of one word raises is the one that it raises as the bundle is tried. -/
theorem chooseTrap_illegal {static : Bool} {m : Mark} {y : Trap} (chosen : chooseTrap static [(0, m)] = some y)
    (illegal : ∃ x, m = .trap x ∧ x.cls = 1) : chooseTrap false [(0, m)] = some y := by
  obtain ⟨x, rfl, cls⟩ := illegal
  refine Eq.trans ?_ chosen
  cases static with
  | false => rfl
  | true => simp only [chooseTrap_eq, any_cls (ms := [(0, Mark.trap x)]) List.mem_cons_self cls, Bool.or_true, if_true]

/-- R147: a bundle of one word, tried: what its word comes to, and whether it is legal. -/
theorem State.tryIssue_single {u t : State} {x : Nat} {i : Instr} (run : exec i (u.openBundle x 1 [i]) = .next t) :
    ∃ (r : Run) (good : Bool), u.tryIssue x [some i] [] = r.verdict good ∧ r.marks = [(0, t.mark)] ∧
      ((u.openBundle x 1 [i]).Acts t i → r.replaced = some t.cur.mode) ∧
      (¬ (u.openBundle x 1 [i]).Acts t i → r.replaced = none) ∧
      ((∀ y, t.mark ≠ .trap y) → u.bundleFits x [some i] = true → good = true ∧
        (t.mark = .ok → ¬ (u.openBundle x 1 [i]).Acts t i → r.state = t)) ∧
      ∀ y, chooseTrap (u.bundleFits x [some i]) [(0, t.mark)] = some y → chooseTrap good [(0, t.mark)] = some y := by
  let p : Placed := { idx := 0, i := i, ext := none, pipe := 0, draws := 0 }
  let o := u.openBundle x 1 [i]
  have run' : exec p.i { o with bun := { o.bun with ext := p.ext, pipe := p.pipe, draws := p.draws } } = .next t := run
  have facts : (o.runWords [p]).marks = [(0, t.mark)] ∧ (o.Acts t i → (o.runWords [p]).replaced = some t.cur.mode) ∧
      (¬ o.Acts t i → (o.runWords [p]).replaced = none) ∧ (t.mark = .ok → ¬ o.Acts t i → (o.runWords [p]).state = t) := by
    by_cases acts : o.Acts t i
    · rw [State.runWords_acts [] run' acts]
      exact ⟨rfl, fun _ => rfl, fun no => absurd acts no, fun _ no => absurd acts no⟩
    · by_cases ok : t.mark = .ok
      · rw [State.runWords_effect [] run' ok acts, ok]
        exact ⟨rfl, fun yes => absurd yes acts, fun _ => rfl, fun _ _ => rfl⟩
      · rw [State.runWords_none [] run' ok]
        exact ⟨rfl, fun yes => absurd yes acts, fun _ => rfl, fun yes => absurd yes ok⟩
  obtain ⟨marks, acted, stayed, state⟩ := facts
  have words : (u.openBundle x [some i].length ([some i].filterMap id)).runWords (u.orderedWords [some i]) = o.runWords [p] := by
    rw [u.orderedWords_single i] <;> rfl
  by_cases good : u.bundleFits x [some i] = true ∧ ∀ m ∈ (o.runWords [p]).marks, ∀ y, m.2 = .trap y → y.cls ≠ 1
  · refine ⟨{ o.runWords [p] with marks := (o.runWords [p]).marks ++ [] }, true, ?_, (List.append_nil _).trans marks, acted, stayed, ?_, ?_⟩
    · refine (State.tryIssue_fits [] good.1 (words ▸ good.2)).trans ?_
      rw [words] <;> rfl
    · exact fun _ _ => ⟨rfl, state⟩
    · rw [good.1]
      exact fun y h => h
  · refine ⟨{ o.runAlone [p] with marks := (o.runAlone [p]).marks ++ [] }, false, ?_, ?_, ?_, ?_, ?_, ?_⟩
    · refine (State.tryIssue_breaks [] (words ▸ good)).trans ?_
      rw [u.orderedWords_single i] <;> rfl
    · exact (List.append_nil _).trans ((List.append_nil _).trans marks)
    · exact fun yes => congrArg (Option.orElse · fun _ => none) (acted yes)
    · exact fun no => congrArg (Option.orElse · fun _ => none) (stayed no)
    · refine fun legal fits => absurd ⟨fits, fun m hm y is => absurd ?_ (legal y)⟩ good
      rw [marks, List.mem_singleton] at hm
      rw [← is, hm]
    · intro y chosen
      by_cases fits : u.bundleFits x [some i] = true
      · refine chooseTrap_illegal chosen (by_contra fun no => good ⟨fits, fun m hm y is one => no ⟨y, ?_, one⟩⟩)
        rw [marks, List.mem_singleton] at hm
        rw [← is, hm]
      · rwa [Bool.eq_false_iff.2 fits] at chosen

theorem decoded_of_decodeWord {w : Word} {i : Instr} (h : decodeWord w = .ok i) : decoded w = some i ∧ named w = none := by
  have read : decoded w = some i := by
    cases is : decodeOp (w.toNat / 2 ^ 23 % 256) (w.toNat % 2 ^ 23) with
    | error e =>
      rw [decodeWord, is] at h
      exact nomatch h
    | ok j =>
      rw [decodeWord, is] at h
      have same : (if j.wf then Except.ok j else .error DecodeError.illegalOperand) = .ok i := h
      split_ifs at same
      obtain rfl : j = i := Except.ok.inj same
      rw [decoded, is]
  refine ⟨read, ?_⟩
  unfold named
  exact if_pos (by rw [read] <;> rfl)

/-- A cycle after which the turn passes on: the bundle is not held. -/
theorem State.runTurn_passes {s x : State} {m counted : Mark} (is : s.newCycle.coreCycle s.turn = x.cycled s.turn m counted) (goes : m.holds = false) :
    s.runTurn = (x.cycled s.turn m counted).passTurn := by
  unfold State.runTurn
  rw [is]
  exact if_neg (Bool.eq_false_iff.1 goes)

theorem State.step_core (s : State) (c : Nat) : step { s with agenda := .core c :: s.agenda } = .next (s.newCycle.coreCycle c) := by
  have served : step { s with agenda := .core c :: s.agenda } = s.serve (.core c) := rfl
  rw [served, State.serve]

theorem State.noteHold_stall (t : State) (m pc : Nat) : t.noteHold m pc .stall = t.unready m := rfl

theorem State.noteHold_tick (t : State) (m pc : Nat) : t.noteHold m pc .tick = t.unready m := rfl

theorem State.noteHold_tail (t : State) (m pc : Nat) (d : Demand) : t.noteHold m pc (.tail d) = (t.demandTail m d).unready m := rfl

theorem State.noteHold_freeze (t : State) (m pc : Nat) {gs : List Nat} (some_ : gs ≠ []) :
    t.noteHold m pc (.freeze gs) = (t.want (t.coreGid m) gs).unready m := by
  cases gs with
  | nil => exact absurd rfl some_
  | cons => rfl

/-- Does a bundle issue? -/
def Issue.issues : Issue → Bool
  | .ok _ => true
  | _ => false

theorem Issue.ne_ok {y : Issue} (no : y.issues = false) (v : State) : y ≠ .ok v := by
  rintro rfl
  exact nomatch no

/-- The only word's mark. -/
theorem Run.single {r : Run} {m : Mark} (marks : r.marks = [(0, m)]) {P : Mark → Prop} (p : P m) : ∀ e ∈ r.marks, P e.2 := by
  rw [marks]
  exact fun e he => (List.mem_singleton.1 he) ▸ p

/-- The only word, as it runs. -/
def State.wordAlone (n : State) (c : Nat) (i : Instr) : State := ({ n with turn := c } : State).openBundle (n.core c).pc 1 [i]

/-- R150, R218: does a word by itself keep the rules of a bundle? -/
def State.wordFits (n : State) (c : Nat) (i : Instr) : Bool := bundleOk [i] && !loopEndClash (n.core c) (n.core c).pc [i]

namespace State.Solo
variable {n t : State} {c : Nat} {w : Word} {i : Instr} (solo : n.Solo c) (fetched : (n.job c).fetchBundle c (n.core c).pc = some [w])
  (decodes : decodeWord w = .ok i) (run : exec i (n.wordAlone c i) = .next t)
include fetched decodes run

/-- R147: the word tried: the verdict on it, and what the cycle makes of the verdict. -/
theorem word_tried : ∃ (r : Run) (good : Bool), r.marks = [(0, t.mark)] ∧
    ((n.wordAlone c i).Acts t i → r.replaced = some t.cur.mode) ∧ (¬ (n.wordAlone c i).Acts t i → r.replaced = none) ∧
    ((∀ y, t.mark ≠ .trap y) → n.wordFits c i = true → good = true ∧ (t.mark = .ok → ¬ (n.wordAlone c i).Acts t i → r.state = t)) ∧
    (∀ y, chooseTrap (n.wordFits c i) [(0, t.mark)] = some y → chooseTrap good [(0, t.mark)] = some y) ∧
    (∀ y, r.verdict good = y → y.issues = false → n.memberIssue c (n.core c).pc = y) ∧
    (∀ v, r.verdict good = .ok v → n.memberIssue c (n.core c).pc = if n.bundleAllowed (n.core c) (weight i) = true then
      .ok (v.afterIssue c (n.core c).pc 1 [i] (weight i)) else .held (.freeze [])) := by
  obtain ⟨read, unread⟩ := decoded_of_decodeWord decodes
  obtain ⟨r, good, tried, marks, acted, stayed, state, chosen⟩ := State.tryIssue_single (u := { n with turn := c }) run
  rw [bundleFits_turn] at state chosen
  have tried' : ({ n with turn := c } : State).tryIssue (n.core c).pc ([w].map decoded) ([w].filterMap named) = r.verdict good := by
    rw [List.map_singleton, read, List.filterMap_cons_none unread, List.filterMap_nil, tried]
  refine ⟨r, good, marks, acted, stayed, state, chosen, fun y verdict no => ?_, fun v verdict => ?_⟩
  · exact (State.memberIssue_not_ok fetched fun v => (tried'.trans verdict) ▸ Issue.ne_ok no v).trans (tried'.trans verdict)
  · have issue := State.memberIssue_ok fetched (tried'.trans verdict)
    rwa [List.filterMap_cons_some read, List.filterMap_nil, List.map_singleton, List.sum_singleton] at issue

/-- R147: a word that takes effect could issue. -/
theorem word_issue (ok : t.mark = .ok) (stays : ¬ (n.wordAlone c i).Acts t i) (fits : n.wordFits c i = true) :
    n.memberIssue c (n.core c).pc = if n.bundleAllowed (n.core c) (weight i) = true then
      .ok (t.afterIssue c (n.core c).pc 1 [i] (weight i)) else .held (.freeze []) := by
  obtain ⟨r, good, marks, -, stayed, state, -, -, issue⟩ := word_tried fetched decodes run
  obtain ⟨rfl, left⟩ := state (by rw [ok]; exact fun y => nofun) fits
  obtain rfl := left ok stays
  rw [ok] at marks
  refine issue r.state (Run.Settled.ok ⟨Run.single marks (P := (·.stalls = false)) rfl, stayed stays, Run.single marks (P := (· ≠ .tick)) nofun⟩ ?_
    (Run.single marks (P := (·.frozen = false)) rfl))
  rw [marks] <;> rfl

include solo

theorem word_issues (ok : t.mark = .ok) (stays : ¬ (n.wordAlone c i).Acts t i) (fits : n.wordFits c i = true)
    (allowed : n.bundleAllowed (n.core c) (weight i) = true) :
    n.coreCycle c = (((t.afterIssue c (n.core c).pc 1 [i] (weight i)).setCore c
      { (t.afterIssue c (n.core c).pc 1 [i] (weight i)).core c with trail := [], loopTrail := [] }).schedHeld c).cycled c .ok .ok :=
  solo.coreCycle_ok ((word_issue fetched decodes run ok stays fits).trans (if_pos allowed))

theorem word_waits (ok : t.mark = .ok) (stays : ¬ (n.wordAlone c i).Acts t i) (fits : n.wordFits c i = true)
    (no : n.bundleAllowed (n.core c) (weight i) = false) :
    n.coreCycle c = (n.setCore c { n.core c with readyAt := some ((n.core c).readyAt.getD ((n.core c).wall, weight i)) }).cycled c
      (.freeze []) (.freeze []) := by
  refine (solo.coreCycle_held ((word_issue fetched decodes run ok stays fits).trans (if_neg (Bool.eq_false_iff.1 no)))).trans ?_
  rw [if_neg nofun, State.noteHold_governor fetched, List.filterMap_cons_some (decoded_of_decodeWord decodes).1, List.filterMap_nil,
    List.map_singleton, List.sum_singleton]

theorem word_acts (acts : (n.wordAlone c i).Acts t i) : n.coreCycle c = (n.stayAt c (n.core c).pc t.cur.mode).cycled c .ok .ok := by
  obtain ⟨r, good, marks, acted, -, -, -, other, -⟩ := word_tried fetched decodes run
  rw [acts.1] at marks
  exact solo.coreCycle_replaced acts.2.2 (other _ (Run.verdict_replaced good (Run.single marks (P := (·.stalls = false)) rfl) (acted acts)) rfl)

theorem word_stalls (stall : t.mark = .stall) : n.coreCycle c = (n.unready c).cycled c .stall .stall := by
  obtain ⟨r, good, marks, -, -, -, -, other, -⟩ := word_tried fetched decodes run
  refine (solo.coreCycle_held (other _ (Run.verdict_stall good ⟨_, marks ▸ List.mem_singleton_self _, stall⟩) rfl)).trans ?_
  rw [if_neg nofun, State.noteHold_stall]

theorem word_asks {d : Demand} (tail : t.mark = .tail d) : n.coreCycle c = ((n.demandTail c d).unready c).cycled c (.tail d) (.tail d) := by
  obtain ⟨r, good, marks, -, -, -, -, other, -⟩ := word_tried fetched decodes run
  rw [tail] at marks
  have held : r.marks.find? (fun m => m.2.stalls) = some (0, .tail d) := by rw [marks] <;> rfl
  refine (solo.coreCycle_held (other _ (Run.verdict_held good (Run.single marks (P := (· ≠ .stall)) nofun) held) rfl)).trans ?_
  rw [if_neg nofun, State.noteHold_tail]

theorem word_ticks (tick : t.mark = .tick) : n.coreCycle c = ((n.unready c).schedHeld c).cycled c .tick .tick := by
  obtain ⟨r, good, marks, -, stayed, -, -, other, -⟩ := word_tried fetched decodes run
  have stays := stayed fun acts => nomatch acts.1.symm.trans tick
  rw [tick] at marks
  have verdict := Run.verdict_tick good (Run.single marks (P := (·.stalls = false)) rfl) stays ⟨_, marks ▸ List.mem_singleton_self _, rfl⟩
  refine (solo.coreCycle_held (other _ verdict rfl)).trans ?_
  rw [if_pos rfl, State.noteHold_tick]

theorem word_freezes {gs : List Nat} (freeze : t.mark = .freeze gs) (some_ : gs ≠ []) (fits : n.wordFits c i = true) :
    n.coreCycle c = ((n.want (n.coreGid c) gs).unready c).cycled c (.freeze gs) (.freeze gs) := by
  obtain ⟨r, good, marks, -, stayed, state, -, other, -⟩ := word_tried fetched decodes run
  have stays := stayed fun acts => nomatch acts.1.symm.trans freeze
  obtain ⟨rfl, -⟩ := state (by rw [freeze]; exact fun y => nofun) fits
  rw [freeze] at marks
  have verdict : r.verdict true = .held (.freeze (r.marks.flatMap fun m => m.2.granules)) :=
    Run.Settled.frozen ⟨Run.single marks (P := (·.stalls = false)) rfl, stays, Run.single marks (P := (· ≠ .tick)) nofun⟩ (by rw [marks] <;> rfl)
      ⟨_, marks ▸ List.mem_singleton_self _, rfl⟩
  rw [marks, List.flatMap_singleton] at verdict
  refine (solo.coreCycle_held (other _ verdict rfl)).trans ?_
  rw [if_neg nofun, Mark.granules, State.noteHold_freeze _ _ _ some_]

theorem word_faults {y : Trap} (moves : t.mark.stalls = false) (ticks : t.mark ≠ .tick) (stays : ¬ (n.wordAlone c i).Acts t i)
    (trap : chooseTrap (n.wordFits c i) [(0, t.mark)] = some y) : n.coreCycle c = (n.raise c y).cycled c (.trap y) .ok := by
  obtain ⟨r, good, marks, -, stayed, -, chosen, other, -⟩ := word_tried fetched decodes run
  have verdict := Run.Settled.fault ⟨Run.single marks (P := (·.stalls = false)) moves, stayed stays, Run.single marks (P := (· ≠ .tick)) ticks⟩
    (marks ▸ chosen y trap)
  exact solo.coreCycle_fault (other _ verdict rfl)

end State.Solo

/-! ### The members of a flight (R376) -/

/-- The attempts of the first members of a flight: none is due, or each issues or faults. -/
def State.Tries (n : State) (c : Nat) (f : Nat → State) (upTo : Nat) : Prop := f 0 = n ∧ ∀ i < upTo,
  ((f i).duePc c (c + i) = none ∧ f (i + 1) = f i) ∨
  (∃ a, (f i).duePc c (c + i) = some a ∧
    ((f i).memberIssue (c + i) a = .ok (f (i + 1)) ∨ (∃ x, (f i).memberIssue (c + i) a = .fault x) ∧ f (i + 1) = f i))

/-- Does the member at this place raise a fault? -/
def FaultsAt (c : Nat) (f : Nat → State) (i : Nat) (x : Trap) : Prop :=
  ∃ a, (f i).duePc c (c + i) = some a ∧ (f i).memberIssue (c + i) a = .fault x

/-- What the first members of a flight have come to, after their attempts: the first fault, and whether a bundle has issued. -/
structure TriedUpTo (c : Nat) (f : Nat → State) (j : Nat) (bad : Option (Nat × Trap)) (issued : Bool) : Prop where
  sound : (∀ i < j, ∀ x, ¬ FaultsAt c f i x) → bad = none
  first : ∀ i < j, ∀ x, FaultsAt c f i x → (∀ h < i, ∀ y, ¬ FaultsAt c f h y) → bad = some (c + i, x)
  issues : (∀ i < j, ∀ x, ¬ FaultsAt c f i x) → ∀ i < j, (f i).duePc c (c + i) ≠ none → issued = true

theorem TriedUpTo.clear {c j : Nat} {f : Nat → State} {bad : Option (Nat × Trap)} {issued issued' : Bool} (tried : TriedUpTo c f j bad issued)
    (sound : ∀ x, ¬ FaultsAt c f j x) (due : (f j).duePc c (c + j) ≠ none → issued' = true) (keeps : issued = true → issued' = true) :
    TriedUpTo c f (j + 1) bad issued' where
  sound no := tried.sound fun i lt => no i (Nat.lt_succ_of_lt lt)
  first i lt x fault none_ := by
    rcases Nat.lt_succ_iff_lt_or_eq.1 lt with lt | rfl
    · exact tried.first i lt x fault none_
    · exact absurd fault (sound x)
  issues no i lt is := by
    rcases Nat.lt_succ_iff_lt_or_eq.1 lt with lt | rfl
    · exact keeps (tried.issues (fun i lt => no i (Nat.lt_succ_of_lt lt)) i lt is)
    · exact due is

theorem TriedUpTo.fault {c j : Nat} {f : Nat → State} {bad : Option (Nat × Trap)} {issued : Bool} {x : Trap} (tried : TriedUpTo c f j bad issued)
    (fault : FaultsAt c f j x) : TriedUpTo c f (j + 1) (bad.orElse fun _ => some (c + j, x)) issued where
  sound no := absurd fault (no j (Nat.lt_succ_self j) x)
  first i lt y this none_ := by
    rcases Nat.lt_succ_iff_lt_or_eq.1 lt with lt | rfl
    · rw [tried.first i lt y this none_] <;> rfl
    · obtain ⟨a, due, is⟩ := fault
      obtain ⟨b, due', is'⟩ := this
      obtain rfl : a = b := Option.some.inj (due.symm.trans due')
      obtain rfl : x = y := Issue.fault.inj (is.symm.trans is')
      rw [tried.sound none_] <;> rfl
  issues no := absurd fault (no j (Nat.lt_succ_self j) x)

/-- The members of a flight from one place on. -/
theorem members_drop (c : Nat) {len j : Nat} (lt : j < len) :
    ((List.range len).map (c + ·)).drop j = (c + j) :: ((List.range len).map (c + ·)).drop (j + 1) := by
  have lt : j < ((List.range len).map (c + ·)).length := by rwa [List.length_map, List.length_range]
  rw [List.drop_eq_getElem_cons lt, List.getElem_map, List.getElem_range]

theorem State.flightTry_upTo {n : State} {c len : Nat} {f : Nat → State} {j : Nat} (tries : n.Tries c f j) (le : j ≤ len) :
    ∃ bad issued, n.flightTry c none false ((List.range len).map (c + ·)) =
      (f j).flightTry c bad issued (((List.range len).map (c + ·)).drop j) ∧ TriedUpTo c f j bad issued := by
  induction j with
  | zero => exact ⟨none, false, by rw [tries.1] <;> rfl, fun _ => rfl, nofun, nofun⟩
  | succ j ih =>
    obtain ⟨bad, issued, eq, tried⟩ := ih ⟨tries.1, fun i lt => tries.2 i (Nat.lt_succ_of_lt lt)⟩ (Nat.le_of_succ_le le)
    rw [members_drop c le] at eq
    rcases tries.2 j (Nat.lt_succ_self j) with ⟨none_, same⟩ | ⟨a, due, ok | ⟨⟨x, fault⟩, same⟩⟩
    · refine ⟨bad, issued, eq.trans (by simp only [State.flightTry, none_, same]), tried.clear ?_ (absurd none_) id⟩
      rintro x ⟨a, due, -⟩
      exact nomatch none_.symm.trans due
    · refine ⟨bad, true, eq.trans (by simp only [State.flightTry, due, ok]), tried.clear ?_ (fun _ => rfl) fun _ => rfl⟩
      rintro x ⟨b, due', fault⟩
      obtain rfl : a = b := Option.some.inj (due.symm.trans due')
      exact nomatch ok.symm.trans fault
    · exact ⟨_, issued, eq.trans (by simp only [State.flightTry, due, fault, same]), tried.fault ⟨a, due, fault⟩⟩

theorem State.newCycle_now (s : State) : s.newCycle.now = s.now := by
  obtain ⟨o, a, w, left⟩ := State.leaveSeust_eq { s with fresh := [] }
  obtain ⟨p, o', flushed⟩ := ({ s with fresh := [] } : State).leaveSeust.flushCredits_eq (List.range 36)
  rw [State.newCycle, flushed, left]

theorem State.step_elapse (s : State) (rest : List Agent) (n : Nat) :
    step { s with agenda := .elapse n :: rest } =
      .next { ({ s with agenda := rest } : State).newCycle with now := ({ s with agenda := rest } : State).newCycle.now + n } := by
  have served : step { s with agenda := .elapse n :: rest } = ({ s with agenda := rest } : State).serve (.elapse n) := rfl
  have elapsed (u : State) : u.serve (.elapse n) = .next { u.newCycle with now := u.now + n } := rfl
  rw [served, elapsed, State.newCycle_now { s with agenda := rest }]

/-- R339: the first hold found holds the flight. -/
theorem State.flightTry_held {t : State} {c m pc : Nat} {x : Mark} {bad : Option (Nat × Trap)} {issued : Bool} {ms : List Nat}
    (due : t.duePc c m = some pc) (held : t.memberIssue m pc = .held x) (alone : x ≠ .tick ∨ m ≠ c ∨ ms = []) :
    t.flightTry c bad issued (m :: ms) = .held x m pc := by
  have no : (decide (x = .tick) && decide (m = c) && !ms.isEmpty) = false := by
    rcases alone with other | other | rfl
    · rw [decide_eq_false other, Bool.false_and, Bool.false_and]
    · rw [decide_eq_false other, Bool.and_false, Bool.false_and]
    · exact Bool.and_false _
  simp only [State.flightTry, due, held, no, Bool.false_eq_true, if_false]

/-- What the end of a flight's cycle leaves beside what it counts. -/
def State.flightCycled (s : State) (c : Nat) (ms : List Nat) (m counted : Mark) : State :=
  { s.countAll counted ms with mark := m, bun := Bundle.reset, turn := c }

/-- R147: a chain that is too long, or that leaves the image, does not issue. -/
theorem State.memberIssue_unfetched {t : State} {m pc : Nat} (none_ : (t.job m).fetchBundle m pc = none) (v : State) : t.memberIssue m pc ≠ .ok v := by
  have none' : (({ t with turn := m } : State).job m).fetchBundle m pc = none := none_
  unfold State.memberIssue
  simp only [none']
  generalize (({ t with turn := m } : State).job m).chainPart m 8 pc = ws
  have breaks : ({ t with turn := m } : State).bundleFits pc (ws.map decoded ++ [none]) = false := by
    have short : ((ws.map decoded ++ [none]).filterMap id).length ≠ (ws.map decoded ++ [none]).length := by
      have := List.length_filterMap_le (fun x => x) (ws.map decoded)
      rw [List.filterMap_append, List.length_append, List.length_append]
      simp only [List.filterMap_cons, id_eq, List.filterMap_nil, List.length_nil, List.length_singleton]
      omega
    simp only [State.bundleFits, short, decide_false, Bool.false_and]
  rw [State.tryIssue_illegal _ breaks]
  exact Run.verdict_false_ne _ v

/-- R183: a flight whose lead is not held runs a cycle. -/
theorem State.coreCycle_flight {n : State} {c : Nat} (works : (n.core c).mode ≠ .idle) (goes : (n.core c).mode ≠ .halted)
    (sound : n.flightStopped c = false) (free : n.holdsCore c = false) (due : n.duePc c c ≠ none ∨ ∃ e ∈ (n.core c).trail, e ≠ 0) :
    n.coreCycle c = n.issueCycle c := by
  have waits : ((n.duePc c c).isSome || (n.core c).trail.any (· != 0)) = true := by
    rw [Bool.or_eq_true, Option.isSome_iff_ne_none, List.any_eq_true]
    exact due.imp_right fun ⟨e, member, is⟩ => ⟨e, member, bne_iff_ne.2 is⟩
  simp only [State.coreCycle, State.runCycle, free, works, goes, sound, waits, decide_false, Bool.or_self, Bool.false_eq_true, if_false, if_true]

/-- The lead's bundle in the list of a flight's bundles: an address plus 1, or an empty entry where it has not issued. -/
def State.trailEntry (n t : State) (c : Nat) : Nat :=
  match n.duePc c c with
  | some a => if (t.core c).bundleNo = (n.core c).bundleNo then 0 else a + 1
  | none => 0

/-- R376: the lead keeps its bundle, and the loop sets that it left, for the other members. -/
def State.keepTrail (n t : State) (c size : Nat) : State :=
  t.setCore c { t.core c with
    trail := (n.trailEntry t c :: (t.core c).trail).take size
    loopTrail := (((t.core c).loops, (t.core c).depth) :: (t.core c).loopTrail).take size }

theorem State.issueCycle_ok {n t : State} {c : Nat} {issued : Bool} (tried : n.flightTry c none false (n.members c) = .ok t issued)
    (goes : n.duePc c c = none ∨ issued = true ∨ (t.core c).mode = .running) :
    n.issueCycle c = ((n.keepTrail t c (((n.members c).length - 1) * (t.job c).skew)).schedAll (n.members c)).flightCycled c (n.members c) .ok .ok := by
  have no : ((n.duePc c c).isSome && !issued && (t.core c).mode != .running) = false := by
    rcases goes with none_ | rfl | runs
    · rw [none_] <;> rfl
    · rw [Bool.not_true, Bool.and_false, Bool.false_and]
    · rw [runs]
      exact Bool.and_false _
  unfold State.issueCycle
  simp only [tried, no, Bool.false_eq_true, if_false] <;> rfl

/-- R215: what is due on the lead starts no cycle of a core that does not run. -/
theorem State.runs_of_due {n : State} {c : Nat} (due : n.duePc c c ≠ none) : (n.core c).mode = .running := by
  by_contra still
  refine due ?_
  simp only [State.duePc, still, if_true, if_false, ite_self]

theorem State.issueCycle_held {n : State} {c m pc : Nat} {x : Mark} (tried : n.flightTry c none false (n.members c) = .held x m pc) :
    n.issueCycle c = (if x = .tick then (n.noteHold m pc x).schedAll (n.members c) else n.noteHold m pc x).flightCycled c (n.members c) x x := by
  unfold State.issueCycle
  simp only [tried] <;> rfl

theorem State.issueCycle_fault {n : State} {c m : Nat} {x : Trap} (tried : n.flightTry c none false (n.members c) = .fault m x) :
    n.issueCycle c = (n.raise m x).flightCycled c (n.members c) (.trap x) .ok := by
  unfold State.issueCycle
  simp only [tried] <;> rfl

end Sys2Proof.Machine

namespace Sys2Proof.Claims
open Sys2Proof.Machine

/-- Settles O57. -/
theorem stepRunsTheFetchedWord : Obligations.StepRunsTheFetchedWord := by
  refine ⟨fun _ _ _ => rfl, State.step_elapse, fun s agenda ready => ?bringUp, fun s c w i => ?word, fun s t p ps => ?words,
    fun s start ws stray => ?bundle, fun t v m pc ws => ?member, fun s c j pc f => ?flight⟩
  case bringUp =>
    unfold step
    rw [agenda]
    exact if_neg (Bool.eq_false_iff.1 ready)
  case words =>
    refine ⟨rfl, rfl, rfl, fun run => ⟨State.runWords_head ps run, fun ok stays => ?_, fun no => ?_, fun acts => ?_⟩⟩
    · rw [State.runWords_effect ps run ok stays]
      exact ⟨rfl, rfl, rfl⟩
    · by_cases acts : s.Acts t p.i
      · rw [State.runWords_acts ps run acts]
        exact ⟨rfl, rfl⟩
      · rw [State.runWords_none ps run (no.resolve_right acts)]
        exact ⟨rfl, rfl⟩
    · rw [State.runWords_acts ps run acts]
  case bundle =>
    intro o r ms fits issue moves settled
    refine ⟨fun breaks t => ?_, fun ⟨good, legal⟩ => ?_⟩
    · have tried : issue = _ := State.tryIssue_breaks stray breaks
      rw [tried]
      exact Run.verdict_false_ne _ t
    · have tried : issue = Run.verdict { r with marks := ms } true := State.tryIssue_fits stray good legal
      rw [tried]
      exact ⟨Run.verdict_stall (r := { r with marks := ms }) true, fun x stays held => Run.verdict_held (r := { r with marks := ms }) true stays held, fun md moves acts => Run.verdict_replaced (r := { r with marks := ms }) true moves acts,
        fun moves stays tick => Run.verdict_tick (r := { r with marks := ms }) true moves stays tick, fun x ⟨moves, stays, ticks⟩ chosen => Run.Settled.fault (r := { r with marks := ms }) ⟨moves, stays, ticks⟩ chosen,
        fun ⟨moves, stays, ticks⟩ chosen freezes => Run.Settled.frozen (r := { r with marks := ms }) ⟨moves, stays, ticks⟩ chosen freezes,
        fun ⟨moves, stays, ticks⟩ chosen goes => Run.Settled.ok (r := { r with marks := ms }) ⟨moves, stays, ticks⟩ chosen goes⟩
  case member =>
    intro u is w tried waits
    refine ⟨fun fetched ok => ⟨fun allowed => (State.memberIssue_ok fetched ok).trans (if_pos allowed),
      fun no => (State.memberIssue_ok fetched ok).trans (if_neg (Bool.eq_false_iff.1 no))⟩,
      fun fetched no => State.memberIssue_not_ok fetched no, State.memberIssue_unfetched,
      t.noteHold_stall m pc, t.noteHold_tick m pc, t.noteHold_tail m pc, fun gs => t.noteHold_freeze m pc, State.noteHold_governor⟩
  case word =>
    intro n k a after waits cycle passes runs alone free moves fetched decodes t run acts static issued
    have solo : n.Solo c := ⟨runs, alone, free, moves⟩
    have stepped : step { s with agenda := .core c :: s.agenda } = .next (n.coreCycle c) := s.step_core c
    have cycles {x : State} {m counted : Mark} (is : n.coreCycle c = x.cycled c m counted) : cycle (after m counted x) :=
      stepped.trans (congrArg Host.Outcome.next is)
    have passing {x : State} {m counted : Mark} (is : n.coreCycle c = x.cycled c m counted) (goes : m.holds = false) : passes (after m counted x) := by
      refine ⟨cycles is, fun agenda ready turn => ?_⟩
      subst turn
      unfold step
      rw [agenda]
      exact (if_pos ready).trans (congrArg Host.Outcome.next (State.runTurn_passes is goes))
    exact ⟨fun ok stays is => ⟨fun allowed => passing (solo.word_issues fetched decodes run ok stays is allowed) rfl,
        fun no => cycles (solo.word_waits fetched decodes run ok stays is no)⟩,
      fun acts => passing (solo.word_acts fetched decodes run acts) rfl,
      fun stall => cycles (solo.word_stalls fetched decodes run stall),
      fun d tail => cycles (solo.word_asks fetched decodes run tail),
      fun tick => passing (solo.word_ticks fetched decodes run tick) rfl,
      fun gs freeze some_ is => cycles (solo.word_freezes fetched decodes run freeze some_ is),
      fun y moves ticks stays trap => passing (solo.word_faults fetched decodes run moves ticks stays trap) rfl⟩
  case flight =>
    intro n k ms due after cycle tries entry issued works goes sound free dues
    have stepped : step { s with agenda := .core c :: s.agenda } = .next (n.coreCycle c) := s.step_core c
    clear_value n
    have cycles {x : State} {m counted : Mark} (is : n.issueCycle c = x.flightCycled c ms m counted) : cycle (after m counted x) :=
      stepped.trans (congrArg Host.Outcome.next ((State.coreCycle_flight works goes sound free dues).trans is))
    have length : ms.length = k.flen := by rw [List.length_map, List.length_range]
    have done : ms.drop k.flen = [] := List.drop_eq_nil_of_le length.le
    refine ⟨fun tried faultless => ?_, fun x tried lt is held alone => ?_, fun x tried lt is fault first => ?_⟩
    · obtain ⟨bad, b, eq, is⟩ := State.flightTry_upTo tried le_rfl
      have no : ∀ i < k.flen, ∀ x, ¬ FaultsAt c f i x := fun i lt x ⟨a, due, fault⟩ => faultless i lt a x due fault
      have ok : n.flightTry c none false (n.members c) = .ok (f k.flen) b := by
        refine eq.trans ?_
        rw [is.sound no, done, State.flightTry]
      refine cycles ((State.issueCycle_ok ok ?_).trans ?_)
      · by_cases none_ : n.duePc c c = none
        · exact .inl none_
        · refine .inr ?_
          rcases Nat.eq_zero_or_pos k.flen with zero | pos
          · rw [zero, tried.1]
            exact .inr (State.runs_of_due none_)
          · refine .inl (is.issues no 0 pos ?_)
            rw [tried.1]
            exact none_
      · rw [show (n.members c).length = k.flen from length]
        rfl
    · obtain ⟨bad, b, eq, -⟩ := State.flightTry_upTo tried lt.le
      refine cycles (State.issueCycle_held (eq.trans ?_))
      rw [members_drop c lt]
      exact State.flightTry_held is held (alone.imp_right (Or.imp (fun later => by omega) fun one => List.drop_eq_nil_of_le (by rw [length]; omega)))
    · obtain ⟨bad, b, eq, tried⟩ := State.flightTry_upTo tried le_rfl
      refine cycles (State.issueCycle_fault (eq.trans ?_))
      rw [tried.first j lt x ⟨pc, is, fault⟩ fun h before y ⟨a, due, fault⟩ => first h before a y due fault, done, State.flightTry]

end Sys2Proof.Claims

end

section
/-! PROOFS. The package: temperature, resets and bring-up (R8, R14, R50, R480, R487-R490): O50, O51. -/

namespace Sys2Proof.Machine

/-- R488: a hold stops every core and Millstone, the Flume and the Windlass; a member refuses PREPARE. -/
theorem State.hold_stops {s : State} (hold : s.hold = true) (n : Nat) :
    s.holdsCore n = true ∧ s.holdsMill n = true ∧ s.holdsFlume n = true ∧ s.windlassRuns n = false := by
  simp only [State.holdsCore, State.holdsMill, State.holdsFlume, State.windlassRuns, hold, Bool.true_or, Bool.not_true,
    Bool.false_and, and_self]

theorem State.hold_refuses {s : State} (hold : s.hold = true) (g : Gang) : s.refusal g = some 2 := if_pos hold

theorem State.governorLimit_throttled {s : State} (throt : s.throt = true) : s.governorLimit = max (s.govLimit.toNat / 2) 256 := if_pos throt

theorem State.governorLimit_free {s : State} (free : s.throt = false) : s.governorLimit = s.govLimit.toNat := if_neg (Bool.eq_false_iff.1 free)

/-- R490: what a step of bring-up does: it leaves the bytes of device memory, and makes the device ready at step 7. -/
theorem State.bootAction_leaves (s : State) (n : Nat) :
    (s.bootAction n).pmem = s.pmem ∧ (s.ready = false → ((s.bootAction n).ready = true ↔ n = 7)) := by
  unfold State.bootAction
  split
  case h_4 => exact ⟨rfl, fun _ => iff_of_true rfl rfl⟩
  case h_5 other => exact ⟨rfl, fun not_ => iff_of_false (fun is => nomatch is.symm.trans not_) other⟩
  all_goals exact ⟨rfl, fun not_ => iff_of_false (fun is => nomatch is.symm.trans not_) (by decide)⟩

/-- R50: only slot 0 holds a key. -/
theorem State.systemKey_slot (s : State) : (s.systemKey.slot 0).state = 1 ∧ ∀ n, n ≠ 0 → (s.systemKey.slot n).state = 0 := by
  refine ⟨rfl, fun n other => ?_⟩
  have none_ : s.systemKey.slot n = KeySlot.reset := Map.get_put_ne KeySlot.reset [] _ other.symm
  rw [none_] <;> rfl

theorem State.pinsUp_false {s : State} (down : s.pwrok = false ∨ s.powered = false ∨ s.rst = true) : s.pinsUp = false := by
  unfold State.pinsUp
  rcases down with h | h | h <;> rw [h] <;> simp only [Bool.false_and, Bool.and_false, Bool.not_true]

end Sys2Proof.Machine

namespace Sys2Proof.Claims
open Sys2Proof.Machine

/-- Settles O50. -/
theorem temperatureEvents : Obligations.TemperatureEvents := by
  intro s tj c read
  have within {a b : Prop} [Decidable a] [Decidable b] (ha : a) (hb : b) : (decide a && decide b) = true :=
    Bool.and_eq_true_iff.2 ⟨decide_eq_true ha, decide_eq_true hb⟩
  refine ⟨fun above below => ⟨_, moved (fun _ => rfl) (if_pos (within above below)), rfl, State.governorLimit_throttled rfl, rfl⟩,
    fun above below => ⟨_, moved (fun _ => rfl) (if_pos (within above below)), rfl, State.hold_stops rfl, rfl, State.hold_refuses rfl⟩,
    fun below => ⟨_, moved (fun _ => rfl) (if_pos below), rfl, State.governorLimit_free rfl, rfl⟩,
    fun below => ⟨_, moved (fun _ => rfl) (if_pos below), rfl, State.governorLimit_free rfl, Bool.false_or _⟩,
    fun hold => moved (fun _ => rfl) (if_pos hold), fun off => moved (fun _ => rfl) (if_neg (Bool.eq_false_iff.1 off))⟩

/-- Settles O51. -/
theorem resetsAndBringUp : Obligations.ResetsAndBringUp := by
  refine ⟨fun s => ?resets, fun s ok down => ?waits, fun s off sound pwrok powered rst => ?step⟩
  case resets =>
    intro gone cleared lost ends
    have empty : gone { cleared with warm := true } := ⟨rfl, rfl, rfl, rfl, rfl, rfl, rfl, rfl, rfl, rfl, rfl, rfl, rfl, fun _ => rfl, rfl⟩
    exact ⟨⟨rfl, empty, rfl⟩, ⟨rfl, empty, rfl⟩, ⟨rfl, empty, rfl⟩, ⟨rfl, empty, rfl⟩⟩
  case waits => exact moved (fun _ => rfl) (if_pos (by rw [State.pinsUp_false down, Bool.not_false, Bool.or_true]))
  case step =>
    have goes : (s.ready || s.bootFail || !s.pinsUp) = false := by
      simp only [off, sound, State.pinsUp, pwrok, powered, rst, Bool.not_false, Bool.and_self, Bool.not_true, Bool.or_self]
    refine ⟨⟨_, moved (fun _ => rfl) ((if_neg (Bool.eq_false_iff.1 goes)).trans (if_neg Bool.false_ne_true)), rfl, rfl, off,
      fun ok => ⟨_, moved (fun _ => rfl) (if_pos ?_), rfl, off⟩⟩,
      ⟨_, moved (fun _ => rfl) ((if_neg (Bool.eq_false_iff.1 goes)).trans (if_pos rfl)), rfl, rfl, (s.bootAction_leaves s.nextBoot).1, fun is => ?_, fun is => ?_,
        fun is => ?_, (s.bootAction_leaves s.nextBoot).2 off⟩⟩
    · rw [off, Bool.false_or, Bool.true_or]
    · show (s.bootAction s.nextBoot).gmem = [] ∧ (s.bootAction s.nextBoot).granules = [] ∧ (s.bootAction s.nextBoot).cores = []
      rw [is]
      exact ⟨rfl, rfl, rfl⟩
    · show ((s.bootAction s.nextBoot).slot 0).state = 1 ∧ ∀ n, n ≠ 0 → ((s.bootAction s.nextBoot).slot n).state = 0
      rw [is]
      exact s.systemKey_slot
    · show (s.bootAction s.nextBoot).seustUp = true
      rw [is] <;> rfl

end Sys2Proof.Claims

end

section
/-! PROOFS. The Windlass: operations, chunks, packets and reductions (R341-R346, R413, R471, R482-R485): O53. -/

namespace Sys2Proof.Machine

/-! ### Frames -/

theorem State.paWrite_gmem (s : State) (key pa : Nat) (bs : List Byte) : (s.paWrite key pa bs).gmem = s.gmem := by
  obtain ⟨p, l, is⟩ := State.paWrite_eq bs s key pa
  rw [is]

theorem State.noteLeaf_gmem (s : State) (v va : Nat) (lf : Leaf) (k : MKind) : (s.noteLeaf v va lf k).gmem = s.gmem := by
  unfold State.noteLeaf
  split
  · rfl
  · exact (apply_ite State.gmem _ _ _).trans (ite_eq_left_iff.2 fun _ => State.paWrite_gmem ..)

theorem State.engineNote_gmem (s : State) (v : Nat) (k : MKind) (ps : Map Nat) : (s.engineNote v k ps).gmem = s.gmem := by
  induction ps generalizing s with
  | nil => rfl
  | cons p ps ih =>
    unfold State.engineNote
    split
    · exact (ih _).trans (State.noteLeaf_gmem ..)
    · exact ih s

theorem State.chargeLines_gmem (s : State) (v : Nat) (ls : List Nat) : (s.chargeLines v ls).gmem = s.gmem := by
  unfold State.chargeLines
  split_ifs <;> rfl

theorem State.takeAll_gmem (s : State) (gid : Nat) (l : List Nat) : (s.takeAll gid l).gmem = s.gmem := by
  obtain ⟨gs, is⟩ := s.takeAll_eq gid l
  rw [is]

/-- R341: credits change only ports and communicators. -/
theorem State.takeCredits_eq (s : State) (port : Nat) (cs : List Credit) :
    ∃ ps vs, s.takeCredits port cs = { s with ports := ps, vds := vs } := by
  induction cs generalizing s with
  | nil => exact ⟨s.ports, s.vds, rfl⟩
  | cons c cs ih =>
    have one : ∃ ps vs, s.takeCredit port c = { s with ports := ps, vds := vs } := by
      unfold State.takeCredit
      split
      · exact ⟨_, _, rfl⟩
      · split
        · exact ⟨s.ports, s.vds, rfl⟩
        · split
          · exact ⟨_, _, rfl⟩
          · exact ⟨s.ports, s.vds, rfl⟩
    obtain ⟨ps, vs, is⟩ := one
    obtain ⟨ps', vs', is'⟩ := ih (s.takeCredit port c)
    exact ⟨ps', vs', is'.trans (by rw [is])⟩

theorem State.countDrops_eq (s : State) (port n : Nat) : ∃ ps, s.countDrops port n = { s with ports := ps } := by
  unfold State.countDrops
  split_ifs
  · exact ⟨s.ports, rfl⟩
  · exact ⟨_, rfl⟩

theorem State.setComm_gid (s : State) (v n : Nat) (m : Comm) : ((s.setComm v n m).vd v).gid = (s.vd v).gid := by
  rw [State.setComm, State.vd_setVd_self]

theorem State.setComm_qRate (s : State) (v n : Nat) (m : Comm) : ((s.setComm v n m).vd v).qRate = (s.vd v).qRate := by
  rw [State.setComm, State.vd_setVd_self]

theorem State.vd_setGang (s : State) (gid v : Nat) (g : Gang) : (s.setGang gid g).vd v = s.vd v := rfl

/-! ### Operations (R342) -/

/-- R342, R411: the operation at a queue's head goes on while nothing holds it, its virtual device and its launch. -/
theorem State.operation_goes {s : State} {v : Nat} {o : WOp} (free : o.held = 0) (runs : s.windlassRuns v = true)
    (live : (s.launch o.launch).state = .running) :
    (o.held != 0) = false ∧ (!s.windlassRuns v) = false ∧ ((s.launch o.launch).state != .running) = false := by
  rw [free, runs, live]
  exact ⟨rfl, rfl, rfl⟩

theorem Comm.disagrees_iff (m : Comm) (o : WOp) : m.disagrees o = true ↔ ∃ x ∈ m.parts, x.index = o.index ∧ x.head ≠ o.headOf := by
  simp only [Comm.disagrees, List.any_eq_true, Bool.and_eq_true, decide_eq_true_eq, bne_iff_ne]

/-- R345: a communicator's next chunk for a port to which nothing else is bound. -/
theorem State.nextChunk_plan {s : State} {port v n q i : Nat} {m : Comm} {o : WOp} (none_ : ∀ e ∈ m.owed, e.1.contains port = false)
    (head : m.queue.head? = some o) (started : o.started = true) (free : o.held = 0) (link : m.mask.testBit port = true)
    (chunk : (o.plan m)[o.sent]? = some (q, i)) :
    s.nextChunk port v n m = some (s.packets v n m o q i, m.setHead { o with sent := o.sent + 1 }) := by
  have owed : m.owed.find? (fun e => e.1.contains port) = none := List.find?_eq_none.2 fun e member => Bool.eq_false_iff.1 (none_ e member)
  have held : (o.held != 0) = false := bne_eq_false_iff_eq.2 free
  simp only [State.nextChunk, Comm.nextOwed, owed, head, started, held, link, chunk, Bool.not_true, Bool.or_self, Bool.false_eq_true, if_false,
    Option.map_some]

theorem State.nextChunk_owed {s : State} {port v n : Nat} {m : Comm} {l : List Nat} {p : Packet}
    (found : m.owed.find? (·.1.contains port) = some (l, p)) :
    s.nextChunk port v n m = some ([p], { m with owed := m.owed.erase (l, p) }) := by
  simp only [State.nextChunk, Comm.nextOwed, found]

theorem State.sysDue_down {s : State} {port : Nat} (down : ¬ s.portUp port = true) : s.sysDue port = false := by
  unfold State.sysDue
  dsimp only
  split
  · rw [Bool.eq_false_iff.2 down, Bool.false_and, Bool.false_and]
  · rfl

/-- R344: an operation whose extents pass their checks starts. -/
theorem State.runOp_starts {s : State} {v n : Nat} {m : Comm} {o : WOp} (sound : s.extentCheck o.core (o.srcAccs m.rank m.size) (o.dstAccs m.size) = none)
    (landed : s.awaitsStores o (o.srcAccs m.rank m.size) = false)
    (there : s.granulesOk (s.vd v).gid (s.engineGranules o.core (o.srcAccs m.rank m.size ++ o.dstAccs m.size)) = true) :
    s.runOp v n m o =
      (let t := (((s.takeAll (s.vd v).gid (s.engineGranules o.core (o.srcAccs m.rank m.size ++ o.dstAccs m.size))).engineNote v .read
        (pagesOf (o.srcAccs m.rank m.size))).chargeLines v (mLines (o.srcAccs m.rank m.size))).engineNote v .write (pagesOf (o.dstAccs m.size))
      t.startOp v n m o ((o.srcAccs m.rank m.size).flatMap (t.engineRead o.core))) := by
  simp only [State.runOp, sound, landed, Bool.false_eq_true, if_false, State.touching_free _ there]

/-- R342: an operation of which everything has arrived, and whose writes pass their checks, completes. -/
theorem State.closeOp_free {s : State} {v n : Nat} {m : Comm} {o : WOp} (sound : s.finishFault v m o = none)
    (there : s.granulesOk (s.vd v).gid (s.engineGranules o.core (o.dstAccs m.size ++ if o.bar then [] else [recAcc o.ptr.toNat 0 8])) = true) :
    s.closeOp v n m o =
      (s.takeAll (s.vd v).gid (s.engineGranules o.core (o.dstAccs m.size ++ if o.bar then [] else [recAcc o.ptr.toNat 0 8]))).completeOp v n m o := by
  simp only [State.closeOp, sound, State.touching_free _ there]

/-! ### Packets (R345, R482) -/

/-- R482: credits ride in the flits of packets that are not the first of one. -/
theorem rideCredits_eq (cs : List Credit) (ps : List Packet) :
    (rideCredits cs ps).1.map (fun x => { x with credits := [] }) = ps.map (fun x => { x with credits := [] }) ∧
    (rideCredits cs ps).1.flatMap (·.credits) = cs.take (ps.map fun x => packetFlits x - 1).sum ∧
    (rideCredits cs ps).2 = cs.drop (ps.map fun x => packetFlits x - 1).sum := by
  induction ps generalizing cs with
  | nil => exact ⟨rfl, rfl, rfl⟩
  | cons p ps ih =>
    obtain ⟨same, carried, left⟩ := ih (cs.drop (packetFlits p - 1))
    refine ⟨congrArg (_ :: ·) same, ?_, ?_⟩
    · rw [List.map_cons, List.sum_cons, List.take_add]
      exact congrArg _ carried
    · rw [List.map_cons, List.sum_cons, ← List.drop_drop]
      exact left

theorem State.emit_eq (s : State) (port : Nat) (ps : List Packet) :
    (s.emit port ps).out = ((rideCredits (s.port port).creditsDue ps).1.map (Output.packet port)).reverse ++ s.out ∧
    ((s.emit port ps).port port).creditsDue = (rideCredits (s.port port).creditsDue ps).2 :=
  ⟨rfl, congrArg QPort.creditsDue (State.port_setPort_self s port _)⟩

/-- R471: the chunks of a barrier. -/
theorem State.barPackets_mem {s : State} {v n : Nat} {m : Comm} {o : WOp} {e : List Nat × Packet} (member : e ∈ s.barPackets v n m o) :
    o.bar = true ∧ e.2.payload = [] ∧ ∃ link, e.1 = [link] ∧ m.mask.testBit link = true := by
  unfold State.barPackets at member
  cases bar : o.bar with
  | false =>
    rw [bar] at member
    exact absurd member List.not_mem_nil
  | true =>
    rw [bar] at member
    obtain ⟨link, port, rest⟩ := List.mem_flatMap.1 member
    obtain ⟨q, -, rfl⟩ := List.mem_map.1 rest
    exact ⟨rfl, rfl, link, rfl, (List.mem_filter.1 port).2⟩

theorem State.barPackets_length {s : State} {v n : Nat} {m : Comm} {o : WOp} (bar : o.bar = true) :
    (s.barPackets v n m o).length = ((List.range 36).filter m.mask.testBit).length * m.peers.length := by
  unfold State.barPackets
  simp only [bar, Bool.not_true, Bool.false_eq_true, if_false, List.length_flatMap, List.length_map, List.map_const', List.sum_replicate,
    smul_eq_mul, portsOf]

/-! ### Arrivals (R413, R443, R482) -/

theorem State.arrives_mine {s : State} {port : Nat} {p : Packet} {g : Gang} (gang : s.gangs.lookup p.gang = some g) (user : p.comm ≠ 32)
    (here : p.dst = s.devnum.toNat) (live : g.retired = false) : s.arrives port p = s.arrivePacket port g p := by
  simp only [State.arrives, here, bne_self_eq_false, Bool.false_eq_true, if_false, user, gang, live]

theorem State.arrives_mirror {s : State} {port : Nat} {p : Packet} (system : p.comm = 32) (here : p.dst = s.devnum.toNat) :
    s.arrives port p = (s.storeMirror p).consumed (some port) p := by
  simp only [State.arrives, here, bne_self_eq_false, Bool.false_eq_true, if_false, system, if_true]

/-- R413: a packet for no gang here goes no further. -/
theorem State.arrives_other {s : State} {port : Nat} {p : Packet} {g : Gang} (other : p.dst ≠ s.devnum.toNat ∨
    p.comm ≠ 32 ∧ (s.gangs.lookup p.gang = none ∨ s.gangs.lookup p.gang = some g ∧ g.retired = true)) :
    s.arrives port p = s.consumed (some port) p := by
  by_cases here : p.dst = s.devnum.toNat
  · obtain ⟨user, none_ | ⟨gang, retired⟩⟩ := other.resolve_left (not_not.2 here)
    · simp only [State.arrives, here, bne_self_eq_false, Bool.false_eq_true, if_false, user, none_]
    · simp only [State.arrives, here, bne_self_eq_false, Bool.false_eq_true, if_false, user, gang, retired, if_true]
  · exact if_pos (bne_iff_ne.2 here)

/-! ### Reductions (R343) -/

theorem reduceElem_sum {dt : Nat} (wide : 2 ≤ dt) (x : Nat) (xs : List Nat) :
    reduceElem 0 dt (x :: xs) = xs.foldl (fun a b => (a + b) % 2 ^ 32) x := by
  have not_half : dt ≠ 1 := by omega
  have not_float : ¬ dt ≤ 1 := by omega
  simp only [reduceElem, Machine.narrow, widen, not_half, if_false, reduceStep, not_float]

theorem foldl_sum_mod {x : Nat} (small : x < 2 ^ 32) (xs : List Nat) : xs.foldl (fun a b => (a + b) % 2 ^ 32) x = (x + xs.sum) % 2 ^ 32 := by
  induction xs generalizing x with
  | nil => exact (Nat.mod_eq_of_lt small).symm
  | cons y xs ih =>
    rw [List.foldl_cons, ih (Nat.mod_lt _ (by decide)), List.sum_cons, Nat.mod_add_mod, Nat.add_assoc]

theorem reduceElem_natMax (x : Nat) (xs : List Nat) : reduceElem 2 3 (x :: xs) = (x :: xs).foldl max 0 := by
  simp only [reduceElem, Machine.narrow, widen, reduceStep, List.foldl_cons, Nat.zero_max]
  rfl

end Sys2Proof.Machine

namespace Sys2Proof.Claims
open Sys2Proof.Machine

theorem frameMalformed_first {f : Flit} (first : f.frame.toNat.testBit 59 = true) :
    frameMalformed f = true ↔ 32 < fld f.frame.toNat 57 52 ∨ 4096 < fld f.frame.toNat 29 17 ∨ f.frame.toNat.testBit 0 = true := by
  have first' : bit f.frame.toNat 59 = true := first
  simp only [frameMalformed, first', if_true, Bool.or_eq_true, decide_eq_true_eq, or_assoc]
  exact Iff.rfl

theorem frameMalformed_later {f : Flit} (later : f.frame.toNat.testBit 59 = false) :
    frameMalformed f = true ↔ fld f.frame.toNat 57 52 ≠ 0 ∨ fld f.frame.toNat 31 0 ≠ 0 := by
  have later' : bit f.frame.toNat 59 = false := later
  simp only [frameMalformed, later', Bool.false_eq_true, if_false, Bool.or_eq_true, bne_iff_ne]

/-- Settles O53. -/
theorem windlassEvents : Obligations.WindlassEvents := by
  refine ⟨fun v n port q i m o g p flits note => ?events, fun f => ⟨frameMalformed_first, frameMalformed_later⟩,
    fun dt x xs wide => reduceElem_sum wide x xs, fun xs small some_ => ?sums, fun x y => rfl, fun x => ⟨rfl, ite_self _⟩⟩
  case sums =>
    obtain ⟨x, xs, rfl⟩ := List.exists_cons_of_ne_nil some_
    exact ⟨(reduceElem_sum le_rfl x xs).trans (foldl_sum_mod (small x List.mem_cons_self) xs), reduceElem_natMax x xs⟩
  case events =>
    intro has runs starts put first live opened
    have op_started (s : State) (src : List Byte) : s.startOp v n m o src = opened src s := rfl
    refine ⟨moves_of (fun _ => rfl) fun s ⟨⟨⟨comm, head⟩, fresh, free, runs, on⟩, failed⟩ => ?_,
      moves_of (fun _ => rfl) fun s ⟨⟨⟨comm, head⟩, fresh, free, runs, on⟩, sound, bar⟩ => ?_,
      moves_of (fun _ => rfl) fun s ⟨⟨⟨comm, head⟩, fresh, free, runs, on⟩, sound, bar⟩ => ?_,
      fun s => ?runOp, rests_of (fun _ => rfl) fun s h => by simp only [h], fun s => ⟨fun e => State.barPackets_mem, State.barPackets_length⟩,
      fun s => State.nextChunk_plan, fun s l => State.nextChunk_owed,
      fun ps y => moves_of (fun _ => rfl) fun s ⟨sys, comm, gang, up, wants, choice, next⟩ => ?chunk,
      fun ps rest => moves_of (fun _ => rfl) fun s ⟨due, waits⟩ => ?system, fun s ps => ?emit, rests_of (fun _ => rfl) fun s dead => ?dead,
      ?complete, rests_of (fun _ => rfl) fun s h => by simp only [h], ?disagrees, ?packets⟩
    · obtain ⟨held, windlass, launch⟩ := State.operation_goes free runs on
      simp only [comm, head, fresh, held, windlass, launch, Bool.or_self, Bool.false_eq_true, if_false, failed, if_true]
    · obtain ⟨held, windlass, launch⟩ := State.operation_goes free runs on
      simp only [comm, head, fresh, held, windlass, launch, Bool.or_self, Bool.false_eq_true, if_false, sound, bar, if_true]
      exact op_started s []
    · obtain ⟨held, windlass, launch⟩ := State.operation_goes free runs on
      simp only [comm, head, fresh, held, windlass, launch, Bool.or_self, Bool.false_eq_true, if_false, sound, bar]
    case runOp =>
      intro src dst gs sound landed there t
      refine ⟨?_, (State.runOp_starts sound landed there).trans (op_started t _)⟩
      exact (State.engineNote_gmem ..).trans ((State.chargeLines_gmem ..).trans ((State.engineNote_gmem ..).trans (State.takeAll_gmem ..)))
    case chunk =>
      have up' : s.portUp port = true := up
      simp only [sys, comm, gang, next, up', wants, choice, Bool.and_self, Bool.not_true, Bool.false_eq_true, if_false, State.setComm_gid,
        State.vd_setGang, State.setComm_qRate]
      rfl
    case system => simp only [due, if_true, State.sendSystem, waits] <;> rfl
    case emit =>
      intro due room
      obtain ⟨same, carried, left⟩ := rideCredits_eq due ps
      obtain ⟨out, credits⟩ := s.emit_eq port ps
      exact ⟨_, out, same, carried, credits.trans left⟩
    case dead =>
      have down : s.portUp port = false := Bool.eq_false_iff.2 dead
      simp only [State.sysDue_down dead, Bool.false_eq_true, if_false, down, Bool.false_and, Bool.not_false, if_true]
      split
      · rfl
      · split
        · rfl
        · rfl
    case complete =>
      intro gs
      refine moves_of (fun _ => rfl) fun s ⟨⟨comm, head⟩, started, free, runs, on, agrees, sent, arrived, sound, there⟩ => ?_
      obtain ⟨held, windlass, launch⟩ := State.operation_goes free runs on
      simp only [comm, head, started, held, windlass, launch, Bool.not_true, Bool.or_self, Bool.false_eq_true, if_false, agrees, sent, arrived,
        decide_true, Bool.and_self, if_true]
      exact State.closeOp_free sound there
    case disagrees =>
      intro ready
      refine ⟨moves_of (fun _ => rfl) fun s ⟨⟨⟨comm, head⟩, started, free, runs, on⟩, differs, bar⟩ => ?_,
        moves_of (fun _ => rfl) fun s ⟨⟨⟨comm, head⟩, started, free, runs, on⟩, differs, bar⟩ => ?_,
        fun x => moves_of (fun _ => rfl) fun s ⟨⟨⟨comm, head⟩, started, free, runs, on⟩, agrees, sent, arrived, fault⟩ => ?_, m.disagrees_iff o⟩
      · obtain ⟨held, windlass, launch⟩ := State.operation_goes free runs on
        simp only [comm, head, started, held, windlass, launch, Bool.not_true, Bool.or_self, Bool.false_eq_true, if_false, differs, bar, if_true]
      · obtain ⟨held, windlass, launch⟩ := State.operation_goes free runs on
        simp only [comm, head, started, held, windlass, launch, Bool.not_true, Bool.or_self, Bool.false_eq_true, if_false, differs, bar, if_true]
      · obtain ⟨held, windlass, launch⟩ := State.operation_goes free runs on
        simp only [comm, head, started, held, windlass, launch, Bool.not_true, Bool.or_self, Bool.false_eq_true, if_false, agrees, sent, arrived,
          decide_true, Bool.and_self, if_true, State.closeOp, fault]
    case packets =>
      intro bad taken whole mine
      have kept (s : State) : (taken s).gangs = s.gangs ∧ (taken s).devnum = s.devnum := by
        obtain ⟨ps, is⟩ := s.countDrops_eq port bad
        obtain ⟨ps', vs, is'⟩ := (s.countDrops port bad).takeCredits_eq port (creditsOf flits note.owners)
        have all : taken s = { s with ports := ps', vds := vs } := is'.trans (by rw [is])
        rw [all]
        exact ⟨rfl, rfl⟩
      have here {s : State} (h : mine s) : (taken s).gangs.lookup p.gang = some g ∧ p.dst = (taken s).devnum.toNat := by
        obtain ⟨-, gang, -, dst, -⟩ := h
        obtain ⟨gangs, device⟩ := kept s
        rw [gangs, device]
        exact ⟨gang, dst⟩
      have arrives {s t : State} (h : whole s) (is : (taken s).arrives port p = t) :
          exec (.quijaPacketReceive port { flits := flits, note := note }) s = .next { t with mark := .ok } := by
        refine moved (fun _ => rfl) ?_
        have up : s.portUp port = true := h.1
        simp only [up, h.2, Bool.not_true, Bool.false_eq_true, if_false]
        exact is
      refine ⟨fun s ⟨h, caught⟩ => arrives h.1 ?_, fun s ⟨h, direct⟩ => arrives h.1 ?_, fun s ⟨h, system, dst⟩ => arrives h ?_,
        fun s ⟨h, other⟩ => arrives h ?_, moves_of (fun _ => rfl) fun s ⟨up, lost⟩ => ?_, rests_of (fun _ => rfl) fun s dead => ?_⟩
      · obtain ⟨gang, dst⟩ := here h
        obtain ⟨-, -, user, -, live⟩ := h
        exact (State.arrives_mine gang user dst live).trans (if_pos caught)
      · obtain ⟨gang, dst⟩ := here h
        obtain ⟨-, -, user, -, live⟩ := h
        exact (State.arrives_mine gang user dst live).trans (if_neg (Bool.eq_false_iff.1 direct))
      · exact State.arrives_mirror system (dst.trans (congrArg BitVec.toNat (kept s).2.symm))
      · obtain ⟨gangs, device⟩ := kept s
        rw [← gangs, ← device] at other
        exact State.arrives_other other
      · have up' : s.portUp port = true := up
        simp only [up', lost, Bool.not_true, Bool.false_eq_true, if_false] <;> rfl
      · have down : s.portUp port = false := Bool.eq_false_iff.2 dead
        exact if_pos (by rw [down] <;> rfl)

end Sys2Proof.Claims

end

section
/-! PROOFS. The partition control block (R394-R406, R408, R416, R418-R421): O54, O55. -/

namespace Sys2Proof.Machine

/-! ### What the device writes for a command leaves the control block -/

theorem State.saveZero_eq (s : State) (p key pa n : Nat) : ∃ m l, s.saveZero p key pa n = { s with pmem := m, lines := l } := by
  unfold State.saveZero
  split
  · exact ⟨_, _, rfl⟩
  · exact ⟨s.pmem, s.lines, rfl⟩

theorem State.writeHeader_eq (s : State) (gid : Nat) : ∃ m l, s.writeHeader gid = { s with pmem := m, lines := l } := by
  unfold State.writeHeader
  split
  · split
    · exact ⟨s.pmem, s.lines, rfl⟩
    · exact s.saveWrite_eq ..
  · exact ⟨s.pmem, s.lines, rfl⟩

theorem State.clearSpillMap_eq (s : State) (p key pa : Nat) : ∃ m l, s.clearSpillMap p key pa = { s with pmem := m, lines := l } := by
  obtain ⟨m, l, first⟩ := s.saveZero_eq p key (pa + 0x100) 64
  obtain ⟨m', l', second⟩ := (s.saveZero p key (pa + 0x100) 64).saveZero_eq p key (pa + 0x1000) 8192
  exact ⟨m', l', second.trans (by rw [first])⟩

theorem State.freeTagged_eq (s : State) (gid : Nat) : ∃ m gs, s.freeTagged gid = { s with gmem := m, granules := gs } := by
  unfold State.freeTagged
  dsimp only
  generalize (s.granules.filter fun e => e.2.gid = gid).map (·.1) = l
  induction l generalizing s with
  | nil => exact ⟨s.gmem, s.granules, rfl⟩
  | cons g l ih =>
    obtain ⟨m, gs, is⟩ := ih { s.zeroGranule g with granules := Map.put s.granules g Granule.reset }
    exact ⟨m, gs, is⟩

theorem State.loadPages_eq (s : State) (v base : Nat) (ps : List Nat) : ∃ m l, s.loadPages v base ps = { s with pmem := m, lines := l } := by
  induction ps generalizing s with
  | nil => exact ⟨s.pmem, s.lines, rfl⟩
  | cons p ps ih =>
    unfold State.loadPages
    split
    · next lf _ =>
      obtain ⟨m, l, first⟩ := State.paWrite_eq (s.paRead 0 (base + 4096 * p) 4096) s (fld lf.e 63 52) (fld lf.e 39 12 * 4096 + 4096 * p % lf.size)
      obtain ⟨m', l', rest⟩ := ih (s.paWrite (fld lf.e 63 52) (fld lf.e 39 12 * 4096 + 4096 * p % lf.size) (s.paRead 0 (base + 4096 * p) 4096))
      exact ⟨m', l', rest.trans (by rw [first])⟩
    · exact ih s

theorem State.loadMirror_eq (s : State) (v gid : Nat) : ∃ m l g, s.loadMirror v gid = { s with pmem := m, lines := l, gangs := g } := by
  unfold State.loadMirror
  split
  · next base g _ _ =>
    obtain ⟨m, l, first⟩ := s.saveWrite_eq g.part g.key g.savePa (s.paRead 0 base ((s.part g.part).saveSize g.sumpSize))
    dsimp only
    rw [first]
    exact (State.loadPages_eq _ v _ _).imp fun m' ⟨l', rest⟩ => ⟨l', _, rest⟩
  · exact ⟨s.pmem, s.lines, s.gangs, rfl⟩

theorem State.clearSpillMap_pbusy (s : State) (p key pa : Nat) : (s.clearSpillMap p key pa).pbusy = s.pbusy := by
  obtain ⟨m, l, is⟩ := s.clearSpillMap_eq p key pa
  rw [is]

theorem State.writeHeader_pbusy (s : State) (gid : Nat) : (s.writeHeader gid).pbusy = s.pbusy := by
  obtain ⟨m, l, is⟩ := s.writeHeader_eq gid
  rw [is]

theorem State.freeTagged_pbusy (s : State) (gid : Nat) : (s.freeTagged gid).pbusy = s.pbusy := by
  obtain ⟨m, gs, is⟩ := s.freeTagged_eq gid
  rw [is]

theorem State.loadMirror_pbusy (s : State) (v gid : Nat) : (s.loadMirror v gid).pbusy = s.pbusy := by
  obtain ⟨m, l, g, is⟩ := s.loadMirror_eq v gid
  rw [is]

theorem State.joinGang_pbusy (s : State) (v gid : Nat) (g : Gang) : (s.joinGang v gid g).pbusy = s.pbusy :=
  (State.writeHeader_pbusy ..).trans ((State.loadMirror_pbusy ..).trans ((State.clearSpillMap_pbusy ..).trans
    ((State.freeTagged_pbusy ..).trans (State.freeTagged_pbusy ..))))

theorem State.dropClusters_pbusy (s : State) (v : Nat) : (s.dropClusters v).pbusy = s.pbusy := rfl

theorem State.newVd_pbusy (s : State) (p v pa key : Nat) : (s.newVd p v pa key).pbusy = s.pbusy := by
  unfold State.newVd
  dsimp only
  split
  · rfl
  · exact (State.writeHeader_pbusy ..).trans (State.clearSpillMap_pbusy ..)

/-- R403: a virtual device without a save area. -/
theorem State.newVd_bare (s : State) (p v : Nat) : s.newVd p v 0 0 = s.setVd v
    { VDev.reset with part := p, gid := hiddenGid v, kickPage := v, saveArea := none, run := false } := rfl

theorem State.newVd_area (s : State) (p v key : Nat) {pa : Nat} (area : pa ≠ 0) : s.newVd p v pa key =
    (((s.setVd v { VDev.reset with part := p, gid := hiddenGid v, kickPage := v, saveArea := some (pa, key), run := true }).setGang (hiddenGid v)
      { Gang.new p v 0 [s.devnum.toNat] pa key 0 0 0 with vote := .run }).clearSpillMap p key pa).writeHeader (hiddenGid v) := by
  have runs : (pa != 0) = true := bne_iff_ne.2 area
  simp only [State.newVd, area, if_false, runs] <;> rfl

/-! ### The form of a command (R395-R397) -/

/-- R395-R397: the partition control block takes a command. -/
structure State.Commands (s : State) (p a b c d : Nat) (there : Bool) : Prop where
  free : s.pbusy = false
  number : 0 < p ∧ p ≤ 255
  exists_ : there = true → Map.has s.parts p = true
  args : s.argsWithin a b c d = true

theorem State.Commands.mk' {s : State} {p a b c d : Nat}
    (h : (s.pbusy = false ∧ 0 < p ∧ p ≤ 255) ∧ Map.has s.parts p = true ∧ s.argsWithin a b c d = true) : s.Commands p a b c d true :=
  ⟨h.1.1, h.1.2, fun _ => h.2.1, h.2.2⟩

/-- The state in which a command runs. -/
def State.commanded (s : State) (p : Nat) : State := { s with pcmdPart := p }

theorem State.paWord_commanded (s : State) (p key pa : Nat) : (s.commanded p).paWord key pa = s.paWord key pa := rfl

theorem State.leafCheck_commanded (s : State) (p va l tbl e : Nat) (x : Part) :
    (s.commanded p).leafCheck x va l tbl e = s.leafCheck x va l tbl e := by
  unfold State.leafCheck
  simp only [State.paWord_commanded] <;> rfl

theorem State.walkFrom_commanded (s : State) (p va l tbl : Nat) (x : Part) : (s.commanded p).walkFrom x va l tbl = s.walkFrom x va l tbl := by
  induction l generalizing tbl with
  | zero =>
    unfold State.walkFrom
    simp only [State.paWord_commanded, State.leafCheck_commanded]
  | succ l ih =>
    unfold State.walkFrom
    simp only [State.paWord_commanded, State.leafCheck_commanded, ih]

theorem State.logIn_commanded (s : State) (p v f n : Nat) : (s.commanded p).logIn v f n = s.logIn v f n := by
  have walks (va : Nat) : (s.commanded p).walk v va = s.walk v va := State.walkFrom_commanded ..
  unfold State.logIn
  simp only [walks] <;> rfl

theorem State.inUse_commanded (s : State) (p q t f n : Nat) : (s.commanded p).inUse q t f n = s.inUse q t f n := by
  unfold State.inUse
  simp only [State.logIn_commanded] <;> rfl
theorem State.command_runs {s : State} {p a b c d : Nat} {there : Bool} (h : s.Commands p a b c d there) (f : State → Cmdr) :
    s.command p a b c d there f = match f (s.commanded p) with
      | .error code => (s.commanded p).endCommand code
      | .ok (code, t) => if t.pbusy then t else t.endCommand code := by
  obtain ⟨free, ⟨pos, le⟩, exists_, args⟩ := h
  have args' : (s.commanded p).argsWithin a b c d = true := args
  have good : (decide (p = 0) || decide (255 < p) || (there && !Map.has s.parts p) || !(s.commanded p).argsWithin a b c d) = false := by
    have has : (there && !Map.has s.parts p) = false := by
      cases there with
      | false => rfl
      | true => rw [exists_ rfl] <;> rfl
    rw [decide_eq_false (Nat.pos_iff_ne_zero.1 pos), decide_eq_false (Nat.not_lt.2 le), has, args']
    rfl
  unfold State.command
  exact (if_neg (Bool.eq_false_iff.1 free)).trans (if_neg (Bool.eq_false_iff.1 good))

/-- R395: a command that is done. -/
theorem State.command_does {s t : State} {p a b c d n : Nat} {there : Bool} {f : State → Cmdr} (h : s.Commands p a b c d there)
    (is : f (s.commanded p) = .ok (n, t)) (idle : t.pbusy = false) : s.command p a b c d there f = t.endCommand n := by
  rw [State.command_runs h, is]
  exact if_neg (Bool.eq_false_iff.1 idle)

theorem State.command_fails {s : State} {p a b c d n : Nat} {there : Bool} {f : State → Cmdr} (h : s.Commands p a b c d there)
    (is : f (s.commanded p) = .error n) : s.command p a b c d there f = (s.commanded p).endCommand n := by
  rw [State.command_runs h, is]

/-- R420: a command that stays busy. -/
theorem State.command_stays {s t : State} {p a b c d n : Nat} {there : Bool} {f : State → Cmdr} (h : s.Commands p a b c d there)
    (is : f (s.commanded p) = .ok (n, t)) (busy : t.pbusy = true) : s.command p a b c d there f = t := by
  rw [State.command_runs h, is]
  exact if_pos busy

theorem State.command_busy {s : State} (busy : s.pbusy = true) (p a b c d : Nat) (there : Bool) (f : State → Cmdr) :
    s.command p a b c d there f = s := if_pos busy

theorem refuseIf_pass {c : Bool} (no : c = false) (n : Nat) (f : Cmdr) : refuseIf c n f = f := if_neg (Bool.eq_false_iff.1 no)

theorem refuseIf_hit {c : Bool} (yes : c = true) (n : Nat) (f : Cmdr) : refuseIf c n f = .error n := if_pos yes

/-- R403: the place and the key of a save area. -/
def State.Placed (s : State) (p pa key size : Nat) : Prop :=
  pa % 2 ^ 21 = 0 ∧ pa + size ≤ 2 ^ 40 ∧ ownsRange (s.part p) pa size = true ∧ (s.part p).keys.contains key = true

theorem State.placed_iff (s : State) (p pa key size : Nat) :
    (pa % 0x200000 != 0 || decide (2 ^ 40 < pa + size) || !ownsRange (s.part p) pa size || !(s.part p).keys.contains key) = false ↔
      s.Placed p pa key size := by
  rw [Bool.or_eq_false_iff, Bool.or_eq_false_iff, Bool.or_eq_false_iff, bne_eq_false_iff_eq, decide_eq_false_iff_not, Bool.not_eq_false',
    Bool.not_eq_false', Nat.not_lt, and_assoc, and_assoc]
  rfl

theorem State.areaCheck_pass {s : State} {p pa key size : Nat} (placed : s.Placed p pa key size) (loaded : (s.slot key).state = 1) (f : Cmdr) :
    s.areaCheck p pa key size f = f :=
  (refuseIf_pass ((s.placed_iff p pa key size).2 placed) 2 _).trans (refuseIf_pass (bne_eq_false_iff_eq.2 loaded) 4 f)

theorem State.areaCheck_away {s : State} {p pa key size : Nat} (away : ¬ s.Placed p pa key size) (f : Cmdr) :
    s.areaCheck p pa key size f = .error 2 :=
  refuseIf_hit (eq_true_of_ne_false (mt (s.placed_iff p pa key size).1 away)) 2 _

theorem State.areaCheck_unloaded {s : State} {p pa key size : Nat} (placed : s.Placed p pa key size) (unloaded : (s.slot key).state ≠ 1) (f : Cmdr) :
    s.areaCheck p pa key size f = .error 4 :=
  (refuseIf_pass ((s.placed_iff p pa key size).2 placed) 2 _).trans (refuseIf_hit (bne_iff_ne.2 unloaded) 4 f)

/-- R403: the numbers that a member of a gang may have. -/
theorem formed_iff (gid sump pdl tdrain top : Nat) :
    (decide (gid = 0) || decide (sump < 16) || decide (pdl < 10) || decide (tdrain = 0) || decide (2 ^ 40 < top)) = false ↔
      gid ≠ 0 ∧ 16 ≤ sump ∧ 10 ≤ pdl ∧ tdrain ≠ 0 ∧ top ≤ 2 ^ 40 := by
  simp only [Bool.or_eq_false_iff, decide_eq_false_iff_not, Nat.not_lt, and_assoc, ne_eq]

/-- R403: is a virtual device free to join, and is its gang not here yet? -/
theorem State.joinable_iff (s : State) (v gid : Nat) :
    ((s.vd v).joined || s.vdBusy v || s.gangs.any fun e => decide (e.1 = gid) && !e.2.retired) = false ↔
      (s.vd v).joined = false ∧ s.vdBusy v = false ∧ ∀ e ∈ s.gangs, e.1 = gid → e.2.retired = true := by
  simp only [Bool.or_eq_false_iff, and_assoc, List.any_eq_false, Bool.and_eq_true, decide_eq_true_eq, Bool.not_eq_true', not_and, Bool.not_eq_false]

/-- R403: does a member list hold this device at its rank, in increasing order? -/
theorem listed_iff (n rank self : Nat) (ms : List Nat) :
    (decide (n ≤ rank) || ms.getD rank 0 != self || !rising ms) = false ↔ rank < n ∧ ms.getD rank 0 = self ∧ rising ms = true := by
  rw [Bool.or_eq_false_iff, Bool.or_eq_false_iff, decide_eq_false_iff_not, bne_eq_false_iff_eq, Bool.not_eq_false', Nat.not_le, and_assoc]

/-- R405: may a gang be retired? -/
theorem retirable_iff (run resuming named : Bool) (cs : Map Comm) :
    (run || resuming || named || !List.isEmpty cs) = false ↔ run = false ∧ resuming = false ∧ named = false ∧ cs = [] := by
  rw [Bool.or_eq_false_iff, Bool.or_eq_false_iff, Bool.or_eq_false_iff, Bool.not_eq_false', List.isEmpty_iff, and_assoc, and_assoc]

theorem State.isVd_iff (s : State) (p v : Nat) : (!s.isVd p v) = false ↔ (s.vd v).part = p := by
  rw [Bool.not_eq_false', State.isVd, decide_eq_true_eq]

theorem State.isVd_not_iff (s : State) (p v : Nat) : (!s.isVd p v) = true ↔ (s.vd v).part ≠ p := by
  rw [Bool.not_eq_true', State.isVd, decide_eq_false_iff_not]

end Sys2Proof.Machine

namespace Sys2Proof.Claims
open Sys2Proof.Machine

/-- A command that does what its conditions let it. -/
theorem does_of {i : Instr} {p a b c d n : Nat} {there : Bool} {f : State → Cmdr} {ok : State → Prop} {g : State → State}
    (he : ∀ s, exec i s = s.move fun s => s.command p a b c d there f)
    (h : ∀ s, ok s → s.Commands p a b c d there ∧ f (s.commanded p) = .ok (n, g (s.commanded p)) ∧ (g (s.commanded p)).pbusy = false) :
    Moves i ok fun s => (g (s.commanded p)).endCommand n :=
  moves_of he fun s is => let ⟨runs, does, idle⟩ := h s is; State.command_does runs does idle

/-- A command that a check refuses. -/
theorem fails_of {i : Instr} {p a b c d n : Nat} {there : Bool} {f : State → Cmdr} {ok : State → Prop}
    (he : ∀ s, exec i s = s.move fun s => s.command p a b c d there f)
    (h : ∀ s, ok s → s.Commands p a b c d there ∧ f (s.commanded p) = .error n) : Moves i ok fun s => (s.commanded p).endCommand n :=
  moves_of he fun s is => let ⟨runs, does⟩ := h s is; State.command_fails runs does

/-- Settles O54: each command by its checks. -/
theorem partitionCommands : Obligations.PartitionCommands := by
  intro p x g m arg inArg free runs on ends does fails own cap put vd busy gid joiner placed
  refine ⟨?_, ?_, ?_, ?_, ?_, ?_, ?_, ?vdcreate, ?_, ?_, ?_, ?_, ?_, ?_, ?_, ?gjoin, ?gretire, ?_, ?_, ?_, ?comms, ?busy⟩
  · exact does_of (n := 0) (g := fun s => s.setPart p Part.reset) (fun _ => rfl) fun s ⟨⟨free, number⟩, new, args⟩ =>
      ⟨⟨free, number, nofun, args⟩, refuseIf_pass new 3 _, free⟩
  · exact fails_of (fun _ => rfl) fun s ⟨⟨free, number⟩, has, args⟩ => ⟨⟨free, number, nofun, args⟩, refuseIf_hit has 3 _⟩
  · refine does_of (n := 0) (g := fun s => { s with parts := Map.erase s.parts p }) (fun _ => rfl) fun s ⟨h, vds, gangs⟩ =>
      ⟨.mk' h, refuseIf_pass ?_ 3 _, h.1.1⟩
    exact (congrArg₂ (fun a b => !List.isEmpty a || !List.isEmpty b) vds gangs)
  · refine fails_of (fun _ => rfl) fun s ⟨h, some_⟩ => ⟨.mk' h, refuseIf_hit ?_ 3 _⟩
    exact Bool.or_eq_true_iff.2 (.inl (congrArg not (List.isEmpty_eq_false_iff.2 some_)))
  · refine does_of (n := 0) (g := fun s => put (fun y => y.grant x.typ (arg s 1) (arg s 2)) s) (fun _ => rfl) fun s ⟨h, cap, user, good, room, free⟩ =>
      ⟨.mk' h, ?_, h.1.1⟩
    have cap' : caps.find? (fun c => decide (c.typ = (s.commanded p).arg 0)) = some x := cap
    simp only [cap']
    refine (refuseIf_pass good 1 _).trans ((refuseIf_pass room 4 _).trans ((refuseIf_pass (congrArg not free) 2 _).trans ?_))
    rw [if_neg user] <;> rfl
  · refine fails_of (fun _ => rfl) fun s ⟨h, none_⟩ => ⟨.mk' h, ?_⟩
    have none' : caps.find? (fun c => decide (c.typ = (s.commanded p).arg 0)) = none := none_
    simp only [none']
  · refine does_of (n := 0) (g := fun s => put (fun y => y.revoke x.typ (arg s 1) (arg s 2)) s) (fun _ => rfl)
      fun s ⟨h, cap, indexed, some_, first, last, held, unused⟩ => ⟨.mk' h, ?_, h.1.1⟩
    have cap' : caps.find? (fun c => decide (c.typ = (s.commanded p).arg 0)) = some x := cap
    have typ : (s.commanded p).arg 0 = x.typ := (of_decide_eq_true (List.find?_some (p := fun c : Cap => decide (c.typ = (s.commanded p).arg 0)) cap')).symm
    have range : (decide (arg s 2 = 0) || (decide (arg s 1 < x.first) || decide (x.first + x.count < arg s 1 + arg s 2))) = false := by
      rw [decide_eq_false some_, decide_eq_false (Nat.not_lt.2 first), decide_eq_false (Nat.not_lt.2 last)] <;> rfl
    have units : (!((List.range (arg s 2)).all fun i => ((s.part p).units x.typ).contains (arg s 1 + i))) = false :=
      congrArg not (List.all_eq_true.2 fun i member => held i (List.mem_range.1 member))
    have free : (s.commanded p).inUse p x.typ ((s.commanded p).arg 1) ((s.commanded p).arg 2) = false := (s.inUse_commanded ..).trans unused
    simp only [cap']
    simp only [typ, indexed, Bool.false_eq_true, if_false]
    exact (refuseIf_pass range 1 _).trans ((refuseIf_pass units 2 _).trans (refuseIf_pass free 3 _))
  case vdcreate =>
    intro given device
    refine ⟨does_of (n := 0) (g := device none false) (fun _ => rfl) fun s ⟨⟨h, page, new⟩, zero⟩ => ⟨.mk' h, ?_, h.1.1⟩,
      does_of (n := 0) (g := fun s => (((device (some (arg s 1, arg s 2)) true s).setGang (65536 + vd s)
        { Gang.new p (vd s) 0 [s.devnum.toNat] (arg s 1) (arg s 2) 0 0 0 with vote := .run }).clearSpillMap p (arg s 2) (arg s 1)).writeHeader
          (65536 + vd s)) (fun _ => rfl) fun s ⟨⟨h, page, new⟩, area, place, loaded⟩ => ⟨.mk' h, ?_, ?_⟩,
      fails_of (fun _ => rfl) fun s ⟨⟨h, page, new⟩, area, place⟩ => ⟨.mk' h, ?_⟩,
      fails_of (fun _ => rfl) fun s ⟨⟨h, page, new⟩, area, place, unloaded⟩ => ⟨.mk' h, ?_⟩,
      fails_of (fun _ => rfl) fun s ⟨h, page⟩ => ⟨.mk' h, refuseIf_hit (congrArg not page) 2 _⟩,
      fails_of (fun _ => rfl) fun s ⟨h, page, old⟩ => ⟨.mk' h, (refuseIf_pass (congrArg not page) 2 _).trans (refuseIf_hit (bne_iff_ne.2 old) 3 _)⟩⟩
    · exact (refuseIf_pass (congrArg not page) 2 _).trans ((refuseIf_pass (bne_eq_false_iff_eq.2 new) 3 _).trans (if_pos zero))
    · refine (refuseIf_pass (congrArg not page) 2 _).trans ((refuseIf_pass (bne_eq_false_iff_eq.2 new) 3 _).trans ((if_neg area).trans ?_))
      exact (State.areaCheck_pass (s := s.commanded p) place loaded _).trans (congrArg done ((s.commanded p).newVd_area p _ _ area))
    · exact (State.writeHeader_pbusy ..).trans ((State.clearSpillMap_pbusy ..).trans h.1.1)
    · refine (refuseIf_pass (congrArg not page) 2 _).trans ((refuseIf_pass (bne_eq_false_iff_eq.2 new) 3 _).trans ((if_neg area).trans ?_))
      exact State.areaCheck_away (s := s.commanded p) place _
    · refine (refuseIf_pass (congrArg not page) 2 _).trans ((refuseIf_pass (bne_eq_false_iff_eq.2 new) 3 _).trans ((if_neg area).trans ?_))
      exact State.areaCheck_unloaded (s := s.commanded p) place unloaded _
  · refine does_of (n := 0) (g := fun s => s.setVd (vd s)
      { s.vd (vd s) with weight := BitVec.ofNat 8 (arg s 1), quant := BitVec.ofNat 20 (arg s 2) }) (fun _ => rfl) fun s ⟨h, mine, long⟩ =>
      ⟨.mk' h, ?_, h.1.1⟩
    refine (refuseIf_pass ((State.isVd_iff s p _).2 mine) 2 _).trans ((refuseIf_pass (decide_eq_false ?_) 5 _).trans (if_neg (Nat.not_lt.2 long)))
    exact fun zero : arg s 2 = 0 => by omega
  · exact fails_of (fun _ => rfl) fun s ⟨h, mine, zero⟩ =>
      ⟨.mk' h, (refuseIf_pass ((State.isVd_iff s p _).2 mine) 2 _).trans (refuseIf_hit (decide_eq_true zero) 5 _)⟩
  · refine does_of (n := 6) (g := fun s => (s.setVd (vd s)
      { s.vd (vd s) with weight := BitVec.ofNat 8 (arg s 1), quant := 100, qRaised := true }).w1cSet (.qRaised (vd s))) (fun _ => rfl)
      fun s ⟨h, mine, some_, short⟩ => ⟨.mk' h, ?_, h.1.1⟩
    exact (refuseIf_pass ((State.isVd_iff s p _).2 mine) 2 _).trans ((refuseIf_pass (decide_eq_false (Nat.pos_iff_ne_zero.1 some_)) 5 _).trans (if_pos short))
  · refine does_of (n := 0) (g := fun s => { s.freeTagged (65536 + vd s) with
      vds := Map.erase s.vds (vd s), gangs := Map.erase s.gangs (65536 + vd s) }) (fun _ => rfl) fun s ⟨h, mine, stopped, hidden⟩ => ⟨.mk' h, ?_, ?_⟩
    · refine (refuseIf_pass ((State.isVd_iff s p _).2 mine) 2 _).trans (refuseIf_pass ?_ 3 _)
      exact congrArg₂ (fun a b => !a || b) stopped hidden
    · exact (State.freeTagged_pbusy ..).trans h.1.1
  · refine fails_of (fun _ => rfl) fun s ⟨h, mine, runs⟩ => ⟨.mk' h, ?_⟩
    refine (refuseIf_pass ((State.isVd_iff s p _).2 mine) 2 _).trans (refuseIf_hit ?_ 3 _)
    exact Bool.or_eq_true_iff.2 (.inl (congrArg not runs))
  · refine moves_of (fun _ => rfl) fun s ⟨h, mine, runs, calm, top, owned⟩ => ?_
    have room : (decide (2 ^ 40 < arg s 1 + reportSize (s.vd (vd s)).pages) ||
        !ownsRange (s.part p) (arg s 1) (reportSize (s.vd (vd s)).pages)) = false := by
      rw [decide_eq_false (Nat.not_lt.2 top), owned] <;> rfl
    refine congrArg State.resumeStop ((State.command_stays (n := 0) (.mk' h) ?_ rfl).trans rfl)
    refine (refuseIf_pass ((State.isVd_iff s p _).2 mine) 2 _).trans ((refuseIf_pass ?_ 3 _).trans (refuseIf_pass room 2 _))
    exact congrArg₂ or runs calm
  · refine moves_of (fun _ => rfl) fun s ⟨h, mine, stops⟩ => ?_
    refine congrArg State.resumeStop (State.command_fails (.mk' h) ?_)
    refine (refuseIf_pass ((State.isVd_iff s p _).2 mine) 2 _).trans (refuseIf_hit ?_ 3 _)
    exact Bool.or_eq_true_iff.2 stops
  case gjoin =>
    intro asked n formed idle area loaded room foreign listed ready
    have owns {s : State} {f : Cmdr} (h : own s (joiner s).vd) : refuseIf (!(s.commanded p).isVd p (joiner s).vd) 2 f = f :=
      refuseIf_pass ((State.isVd_iff s p _).2 h) 2 f
    have forms {s : State} {f : Cmdr} (h : formed s) := refuseIf_pass ((formed_iff _ _ _ _ _).2 h) 1 f
    have idles {s : State} {f : Cmdr} (h : idle s) := refuseIf_pass (((s.commanded p).joinable_iff (joiner s).vd (gid s)).2 h) 3 f
    have areas {s : State} {f : Cmdr} (h : area s) (h' : loaded s) : (s.commanded p).areaCheck p (joiner s).savePa (joiner s).key _ f = f :=
      State.areaCheck_pass (s := s.commanded p) h h' f
    have rooms {s : State} {f : Cmdr} (h : room s) := refuseIf_pass (decide_eq_false (Nat.not_lt.2 h)) 4 f
    have locals {s : State} {f : Cmdr} (h : ¬ foreign s) := refuseIf_pass (Bool.eq_false_iff.2 h) 2 f
    refine ⟨does_of (n := 0) (g := fun s => s.joinGang (joiner s).vd (gid s) (joiner s)) (fun _ => rfl)
        fun s ⟨⟨h, mine, good, calm, place, key⟩, fits, here, members⟩ => ⟨.mk' h, ?_, (State.joinGang_pbusy ..).trans h.1.1⟩,
      fails_of (fun _ => rfl) fun s ⟨h, other⟩ => ⟨.mk' h, refuseIf_hit ((State.isVd_not_iff s p _).2 other) 2 _⟩,
      fails_of (fun _ => rfl) fun s ⟨h, mine, bad⟩ => ⟨.mk' h, ?_⟩,
      fails_of (fun _ => rfl) fun s ⟨h, mine, good, busy⟩ => ⟨.mk' h, ?_⟩,
      fails_of (fun _ => rfl) fun s ⟨h, mine, good, calm, away⟩ => ⟨.mk' h, ?_⟩,
      fails_of (fun _ => rfl) fun s ⟨h, mine, good, calm, place, unloaded⟩ => ⟨.mk' h, ?_⟩,
      fails_of (fun _ => rfl) fun s ⟨⟨h, mine, good, calm, place, key⟩, full⟩ => ⟨.mk' h, ?_⟩,
      fails_of (fun _ => rfl) fun s ⟨⟨h, mine, good, calm, place, key⟩, fits, away⟩ => ⟨.mk' h, ?_⟩,
      fails_of (fun _ => rfl) fun s ⟨⟨h, mine, good, calm, place, key⟩, fits, here, other⟩ => ⟨.mk' h, ?_⟩⟩
    · exact (owns mine).trans ((forms good).trans ((idles calm).trans ((areas place key).trans ((rooms fits).trans ((locals here).trans
        (refuseIf_pass ((listed_iff _ _ _ _).2 members) 1 _))))))
    · exact (owns mine).trans (refuseIf_hit (eq_true_of_ne_false (mt (formed_iff _ _ _ _ _).1 bad)) 1 _)
    · exact (owns mine).trans ((forms good).trans (refuseIf_hit (eq_true_of_ne_false (mt ((s.commanded p).joinable_iff _ _).1 busy)) 3 _))
    · exact (owns mine).trans ((forms good).trans ((idles calm).trans (State.areaCheck_away (s := s.commanded p) away _)))
    · exact (owns mine).trans ((forms good).trans ((idles calm).trans (State.areaCheck_unloaded (s := s.commanded p) place unloaded _)))
    · exact (owns mine).trans ((forms good).trans ((idles calm).trans ((areas place key).trans
        (refuseIf_hit (decide_eq_true (Nat.not_le.1 full)) 4 _))))
    · exact (owns mine).trans ((forms good).trans ((idles calm).trans ((areas place key).trans ((rooms fits).trans (refuseIf_hit away 2 _)))))
    · exact (owns mine).trans ((forms good).trans ((idles calm).trans ((areas place key).trans ((rooms fits).trans ((locals here).trans
        (refuseIf_hit (eq_true_of_ne_false (mt (listed_iff _ _ _ _).1 other)) 1 _))))))
  case gretire =>
    intro named quiet
    refine ⟨does_of (n := 0) (g := fun s => ((s.setGang (arg s 0) { g with
         retired := true, saved := [], heldOut := [], sump := [], ckpt := none, undo := [], mirroring := false, hostLines := [] }).setVd g.vd
       { s.vd g.vd with gid := 65536 + g.vd, joined := false, saveArea := none }).dropClusters g.vd) (fun _ => rfl) fun s ⟨⟨h, gang, mine, live⟩, calm⟩ => ⟨.mk' h, ?_, (State.dropClusters_pbusy ..).trans h.1.1⟩,
      fails_of (fun _ => rfl) fun s ⟨⟨h, gang, mine, live⟩, busy⟩ => ⟨.mk' h, ?_⟩⟩
    · have gang' : (s.commanded p).gangs.lookup ((s.commanded p).arg 0) = some g := gang
      obtain ⟨runs, vote, unnamed, bare⟩ := calm
      have quiet : ((s.vd g.vd).run || decide (g.vote = .resuming) || (s.part p).names (arg s 0) || !List.isEmpty (s.vd g.vd).comms) = false :=
        (retirable_iff ..).2 ⟨runs, decide_eq_false vote, unnamed, bare⟩
      simp only [gang']
      exact (refuseIf_pass (congrArg₂ or (bne_eq_false_iff_eq.2 mine) live) 2 _).trans (refuseIf_pass quiet 3 _)
    · have gang' : (s.commanded p).gangs.lookup ((s.commanded p).arg 0) = some g := gang
      have loud : ((s.vd g.vd).run || decide (g.vote = .resuming) || (s.part p).names (arg s 0) || !List.isEmpty (s.vd g.vd).comms) = true :=
        eq_true_of_ne_false fun quiet =>
          let ⟨runs, vote, unnamed, bare⟩ := (retirable_iff ..).1 quiet
          busy ⟨runs, of_decide_eq_false vote, unnamed, bare⟩
      simp only [gang']
      exact (refuseIf_pass (congrArg₂ or (bne_eq_false_iff_eq.2 mine) live) 2 _).trans (refuseIf_hit loud 3 _)
  · refine fails_of (fun _ => rfl) fun s ⟨h, none_⟩ => ⟨.mk' h, ?_⟩
    have none' : (s.commanded p).gangs.lookup ((s.commanded p).arg 0) = none := none_
    simp only [none']
  · refine does_of (n := 0) (g := fun s => put (fun y => { y with
        cells := Map.put y.cells (arg s 0) (cellGangs (arg s 1)), durs := Map.put y.durs (arg s 0) (max 100 (arg s 2)), rows := arg s 3 }) s)
      (fun _ => rfl) fun s ⟨h, pos, top, here⟩ => ⟨.mk' h, ?_, h.1.1⟩
    have rows : (decide (arg s 3 = 0) || decide (64 < arg s 3)) = false := by
      rw [decide_eq_false (Nat.pos_iff_ne_zero.1 pos), decide_eq_false (Nat.not_lt.2 top)] <;> rfl
    exact (refuseIf_pass rows 1 _).trans (refuseIf_pass (congrArg not (List.all_eq_true.2 here)) 2 _)
  · exact does_of (n := 0) (g := fun s => put (fun y =>
        { y with
          bfill := Map.set 0 y.bfill (arg s 0) (arg s 1),
          rowFill := if s.voting p then y.rowFill else Map.set 0 y.rowFill (arg s 0) (arg s 1) }) s) (fun _ => rfl) fun s h => ⟨.mk' h, rfl, h.1.1⟩
  case comms =>
    intro v n new
    refine ⟨does_of (n := 0) (g := fun s => s.setComm (v s) (n s) (new s)) (fun _ => rfl) fun s ⟨h, mine, quota, fresh, room, links⟩ => ⟨.mk' h, ?_, h.1.1⟩,
      does_of (n := 0) (g := fun s => s.setVd (v s) { s.vd (v s) with comms := Map.erase (s.vd (v s)).comms (n s) }) (fun _ => rfl)
        fun s ⟨h, mine, comm, idle⟩ => ⟨.mk' h, ?_, h.1.1⟩⟩
    · have ports : (decide ((s.part p).comms.length ≤ s.commsUsed p) ||
          (List.range 36).any fun i => (arg s 1).testBit i && !(s.part p).ports.contains i) = false := by
        rw [Bool.or_eq_false_iff, decide_eq_false_iff_not, List.any_eq_false]
        refine ⟨Nat.not_le.2 room, fun i member is => ?_⟩
        obtain ⟨bit, no⟩ := Bool.and_eq_true_iff.1 is
        rw [links i (List.mem_range.1 member) bit] at no
        exact nomatch no
      exact (refuseIf_pass ((State.isVd_iff s p _).2 mine) 2 _).trans ((refuseIf_pass (decide_eq_false quota) 1 _).trans
        ((refuseIf_pass fresh 3 _).trans (refuseIf_pass ports 4 _)))
    · have comm' : ((s.commanded p).vd (fld ((s.commanded p).arg 0) 7 0)).comms.lookup (fld ((s.commanded p).arg 0) 12 8) = some m := comm
      refine (refuseIf_pass ((State.isVd_iff s p _).2 mine) 2 _).trans ?_
      simp only [comm']
      exact refuseIf_pass (congrArg (fun l => !List.isEmpty l) idle) 3 _
  case busy =>
    intro i is
    rcases is with rfl | rfl | rfl | rfl | rfl | rfl | rfl | rfl | rfl | rfl | rfl | rfl | rfl
    all_goals exact rests_of (fun _ => rfl) fun s busy => State.command_busy busy _ _ _ _ _ _ _

end Sys2Proof.Claims

/-! ### Units (R394, R399) -/

namespace Sys2Proof.Machine

theorem mem_insertNat {n u : Nat} {l : List Nat} (h : u ∈ insertNat n l) : u = n ∨ u ∈ l := by
  induction l with
  | nil => exact .inl (List.mem_singleton.1 h)
  | cons m l ih =>
    unfold insertNat at h
    split at h
    · exact List.mem_cons.1 h
    · rcases List.mem_cons.1 h with rfl | h
      · exact .inr List.mem_cons_self
      · exact (ih h).imp_right (List.mem_cons_of_mem m)

theorem mem_insertAll {u : Nat} {l us : List Nat} (h : u ∈ insertAll l us) : u ∈ us ∨ u ∈ l := by
  induction us generalizing l with
  | nil => exact .inr h
  | cons n us ih =>
    rcases ih h with h | h
    · exact .inl (List.mem_cons_of_mem n h)
    · refine (mem_insertNat h).imp_left fun is => ?_
      rw [is]
      exact List.mem_cons_self

theorem Part.units_clusters (x : Part) (l : List Nat) (k : Nat) : ({ x with clusters := l } : Part).units k = if k = 1 then l else x.units k := by
  match k with
  | 0 | 1 | 2 | 3 | 4 | 5 | 6 | 7 | 8 | 9 | _ + 10 => rfl

theorem Part.units_granules (x : Part) (l : List Nat) (k : Nat) : ({ x with granules := l } : Part).units k = if k = 2 then l else x.units k := by
  match k with
  | 0 | 1 | 2 | 3 | 4 | 5 | 6 | 7 | 8 | 9 | _ + 10 => rfl

theorem Part.units_keys (x : Part) (l : List Nat) (k : Nat) : ({ x with keys := l } : Part).units k = if k = 3 then l else x.units k := by
  match k with
  | 0 | 1 | 2 | 3 | 4 | 5 | 6 | 7 | 8 | 9 | _ + 10 => rfl

theorem Part.units_ports (x : Part) (l : List Nat) (k : Nat) : ({ x with ports := l } : Part).units k = if k = 4 then l else x.units k := by
  match k with
  | 0 | 1 | 2 | 3 | 4 | 5 | 6 | 7 | 8 | 9 | _ + 10 => rfl

theorem Part.units_routes (x : Part) (l : List Nat) (k : Nat) : ({ x with routes := l } : Part).units k = if k = 5 then l else x.units k := by
  match k with
  | 0 | 1 | 2 | 3 | 4 | 5 | 6 | 7 | 8 | 9 | _ + 10 => rfl

theorem Part.units_comms (x : Part) (l : List Nat) (k : Nat) : ({ x with comms := l } : Part).units k = if k = 6 then l else x.units k := by
  match k with
  | 0 | 1 | 2 | 3 | 4 | 5 | 6 | 7 | 8 | 9 | _ + 10 => rfl

theorem Part.units_kickPages (x : Part) (l : List Nat) (k : Nat) : ({ x with kickPages := l } : Part).units k = if k = 9 then l else x.units k := by
  match k with
  | 0 | 1 | 2 | 3 | 4 | 5 | 6 | 7 | 8 | 9 | _ + 10 => rfl

theorem Part.units_nodes (x : Part) (l : List (Nat × Nat)) (k : Nat) :
    ({ x with nodes := l } : Part).units k = if k = 7 then runNodes l else x.units k := by
  match k with
  | 0 | 1 | 2 | 3 | 4 | 5 | 6 | 7 | 8 | 9 | _ + 10 => rfl

/-- R399: allotments are no units. -/
theorem Part.units_allotments (x : Part) (a b c k : Nat) : ({ x with sump := a, hbmBw := b, quijaBw := c } : Part).units k = x.units k := by
  match k with
  | 0 | 1 | 2 | 3 | 4 | 5 | 6 | 7 | 8 | 9 | _ + 10 => rfl

theorem mem_runNodes {u : Nat} {rs : List (Nat × Nat)} : u ∈ runNodes rs ↔ ∃ r ∈ rs, r.1 ≤ u ∧ u < r.1 + r.2 := by
  unfold runNodes
  rw [List.mem_flatMap]
  refine exists_congr fun r => and_congr_right fun _ => ?_
  rw [List.mem_map]
  constructor
  · rintro ⟨i, member, rfl⟩
    have := List.mem_range.1 member
    omega
  · rintro ⟨low, high⟩
    exact ⟨u - r.1, List.mem_range.2 (by omega), by omega⟩

/-- R396: a grant adds units of its type from its range alone. -/
theorem Part.mem_grant {x : Part} {t f n k u : Nat} (h : u ∈ (x.grant t f n).units k) :
    u ∈ x.units k ∨ k = t ∧ f ≤ u ∧ u < f + n := by
  have indexed {y : Part} (j : Nat) {l : List Nat} (is : ∀ k, y.units k = if k = j then insertAll l ((List.range n).map (f + ·)) else x.units k)
      (own : x.units j = l) (h : u ∈ y.units k) : u ∈ x.units k ∨ k = j ∧ f ≤ u ∧ u < f + n := by
    rw [is] at h
    split at h
    · next same =>
      subst same
      rcases mem_insertAll h with h | h
      · obtain ⟨i, member, rfl⟩ := List.mem_map.1 h
        have := List.mem_range.1 member
        exact .inr ⟨rfl, by omega, by omega⟩
      · exact .inl (own ▸ h)
    · exact .inl h
  unfold Part.grant at h
  dsimp only at h
  split at h
  · exact indexed 1 (x.units_clusters _) rfl h
  · exact indexed 2 (x.units_granules _) rfl h
  · exact indexed 3 (x.units_keys _) rfl h
  · exact indexed 4 (x.units_ports _) rfl h
  · exact indexed 5 (x.units_routes _) rfl h
  · exact indexed 6 (x.units_comms _) rfl h
  · rw [x.units_nodes] at h
    split at h
    · next same =>
      subst same
      obtain ⟨r, member, low, high⟩ := mem_runNodes.1 h
      rcases List.mem_append.1 member with old | new
      · exact .inl (mem_runNodes.2 ⟨r, old, low, high⟩)
      · rw [List.mem_singleton.1 new] at low high
        exact .inr ⟨rfl, low, high⟩
    · exact .inl h
  · exact .inl ((x.units_allotments _ _ _ k) ▸ h)
  · exact indexed 9 (x.units_kickPages _) rfl h
  · exact .inl ((x.units_allotments _ _ _ k) ▸ h)
  · exact .inl ((x.units_allotments _ _ _ k) ▸ h)
  · exact .inl h

/-- R396: taking units back adds none. -/
theorem Part.mem_revoke {x : Part} {t f n k u : Nat} (h : u ∈ (x.revoke t f n).units k) : u ∈ x.units k := by
  have indexed {y : Part} (j : Nat) {l : List Nat} {q : Nat → Bool} (is : ∀ k, y.units k = if k = j then l.filter q else x.units k)
      (own : x.units j = l) (h : u ∈ y.units k) : u ∈ x.units k := by
    rw [is] at h
    split at h
    · next same =>
      subst same
      exact own ▸ List.mem_of_mem_filter h
    · exact h
  unfold Part.revoke at h
  dsimp only at h
  split at h
  · exact indexed 1 (x.units_clusters _) rfl h
  · exact indexed 2 (x.units_granules _) rfl h
  · exact indexed 3 (x.units_keys _) rfl h
  · exact indexed 4 (x.units_ports _) rfl h
  · exact indexed 5 (x.units_routes _) rfl h
  · exact indexed 6 (x.units_comms _) rfl h
  · rw [x.units_nodes] at h
    split at h
    · next same =>
      subst same
      obtain ⟨r, member, low, high⟩ := mem_runNodes.1 h
      obtain ⟨r', old, cut⟩ := List.mem_flatMap.1 member
      rcases List.mem_cons.1 (List.mem_of_mem_filter cut) with rfl | cut
      · exact mem_runNodes.2 ⟨r', old, low, by omega⟩
      · obtain rfl := List.mem_singleton.1 cut
        exact mem_runNodes.2 ⟨r', old, by omega, by omega⟩
    · exact h
  · exact (x.units_allotments _ _ _ k) ▸ h
  · exact indexed 9 (x.units_kickPages _) rfl h
  · exact (x.units_allotments _ _ _ k) ▸ h
  · exact (x.units_allotments _ _ _ k) ▸ h
  · exact h

/-! ### Units stay apart (R394) -/

theorem Map.lookup_erase {α : Type} {m : Map α} {k j : Nat} {v : α} (h : (Map.erase m k).lookup j = some v) : m.lookup j = some v := by
  induction m with
  | nil => exact h
  | cons e m ih =>
    obtain ⟨i, w⟩ := e
    unfold Map.erase at h ih
    rw [List.filter_cons] at h
    split at h
    · rw [List.lookup_cons] at h ⊢
      split at h
      · exact h
      · exact ih h
    · next gone =>
      have is : i = k := of_not_not fun other => gone (bne_iff_ne.2 other)
      rw [List.lookup_cons]
      split
      · next same =>
        have none : (List.filter (fun e => e.1 != k) m).lookup j = none := by
          rw [List.lookup_eq_none_iff]
          intro e member
          have := bne_iff_ne.1 (List.mem_filter.1 member).2
          rw [bne_iff_ne, eq_of_beq same, is]
          exact this.symm
        rw [none] at h
        cases h
      · exact ih h

theorem Map.mem_of_lookup {α : Type} {m : Map α} {k : Nat} {v : α} (h : m.lookup k = some v) : (k, v) ∈ m := by
  obtain ⟨l₁, l₂, rfl, -⟩ := List.lookup_eq_some_iff.1 h
  exact List.mem_append_right l₁ List.mem_cons_self

/-- R395: how a command that was run ends. -/
def State.answered (s : State) : Cmdr → State
  | .error code => s.endCommand code
  | .ok (code, t) => if t.pbusy then t else t.endCommand code

theorem State.answered_parts (s : State) (r : Cmdr) : (s.answered r).parts = s.parts ∨ ∃ n t, r = .ok (n, t) ∧ (s.answered r).parts = t.parts := by
  cases r with
  | error n => exact .inl rfl
  | ok r =>
    refine .inr ⟨r.1, r.2, rfl, ?_⟩
    change (if r.2.pbusy then r.2 else r.2.endCommand r.1).parts = r.2.parts
    split
    · rfl
    · rfl

theorem State.command_eq (s : State) (p a b c d : Nat) (there : Bool) (f : State → Cmdr) :
    s.command p a b c d there f =
      if s.pbusy then s
      else if p = 0 || 255 < p || (there && !Map.has s.parts p) || !(s.commanded p).argsWithin a b c d then (s.commanded p).endCommand 1
      else (s.commanded p).answered (f (s.commanded p)) := by
  unfold State.command State.answered
  rfl

/-- R395: what a command leaves of the partitions. -/
theorem State.command_parts (s : State) (p a b c d : Nat) (there : Bool) (f : State → Cmdr) :
    (s.command p a b c d there f).parts = s.parts ∨ ∃ n t, f (s.commanded p) = .ok (n, t) ∧ (s.command p a b c d there f).parts = t.parts := by
  rw [State.command_eq]
  split
  · exact .inl rfl
  · split
    · exact .inl rfl
    · exact State.answered_parts (s.commanded p) _

/-- R394: no unit of a resource is held by two partitions. -/
def Apart (k : Nat) (m : Map Part) : Prop :=
  ∀ q r x y n, q ≠ r → m.lookup q = some x → m.lookup r = some y → n ∈ x.units k → n ∉ y.units k

theorem Apart.erase {k : Nat} {m : Map Part} (h : Apart k m) (p : Nat) : Apart k (Map.erase m p) :=
  fun q r x y n other hx hy => h q r x y n other (Map.lookup_erase hx) (Map.lookup_erase hy)

/-- A partition whose units no other one holds takes its place. -/
theorem Apart.put {k : Nat} {m : Map Part} (h : Apart k m) {p : Nat} {x : Part}
    (alone : ∀ r y n, p ≠ r → m.lookup r = some y → n ∈ x.units k → n ∉ y.units k) : Apart k (Map.put m p x) := by
  intro q r a b n other ha hb
  rw [Map.lookup_put] at ha hb
  split at ha
  · next isP =>
    obtain rfl := Option.some.inj ha
    rw [if_neg fun isR => other (isP.symm.trans isR)] at hb
    exact alone r b n (isP ▸ other) hb
  · next notP =>
    split at hb
    · next isR =>
      obtain rfl := Option.some.inj hb
      exact fun held new => alone q a n notP ha new held
    · exact h q r a b n other ha hb

theorem Part.units_reset (k : Nat) : Part.reset.units k = [] := by
  match k with
  | 0 | 1 | 2 | 3 | 4 | 5 | 6 | 7 | 8 | 9 | _ + 10 => rfl

/-- What a partition holds no other does. -/
theorem Apart.part {k : Nat} {s : State} (h : Apart k s.parts) {p r : Nat} {y : Part} {n : Nat} (other : p ≠ r)
    (hy : s.parts.lookup r = some y) (held : n ∈ (s.part p).units k) : n ∉ y.units k := by
  unfold State.part at held
  rw [Map.get_of_lookup] at held
  cases hx : s.parts.lookup p with
  | none =>
    rw [hx, Option.getD_none, Part.units_reset] at held
    cases held
  | some x =>
    rw [hx] at held
    exact h p r x y n other hx hy held

theorem refuseIf_ok {c : Bool} {n : Nat} {f : Cmdr} {r : Nat × State} (h : refuseIf c n f = .ok r) : c = false ∧ f = .ok r := by
  cases c with
  | false => exact ⟨rfl, h⟩
  | true => cases h

/-- R394: units that are free are held by no partition. -/
theorem State.unitsFree_lookup {s : State} {t f n r u : Nat} {y : Part} (free : s.unitsFree t f n = true) (hy : s.parts.lookup r = some y)
    (low : f ≤ u) (high : u < f + n) : u ∉ y.units t := by
  intro held
  have := List.all_eq_true.1 (List.all_eq_true.1 free _ (Map.mem_of_lookup hy)) u held
  rw [Bool.or_eq_true, decide_eq_true_iff, decide_eq_true_iff] at this
  omega

/-- A command that keeps the units apart where it succeeds keeps them apart. -/
theorem Apart.command {k : Nat} {s t : State} {p a b c d : Nat} {there : Bool} {f : State → Cmdr} (h : Apart k s.parts)
    (keeps : ∀ u, Apart k u.parts → ∀ r, f u = .ok r → Apart k r.2.parts)
    (is : s.move (fun s => s.command p a b c d there f) = .next t) : Apart k t.parts := by
  obtain rfl : { s.command p a b c d there f with mark := .ok } = t := Host.Outcome.next.inj is
  change Apart k (s.command p a b c d there f).parts
  rcases State.command_parts s p a b c d there f with same | ⟨n, u, ok, same⟩
  · rw [same]
    exact h
  · rw [same]
    exact keeps (s.commanded p) h _ ok

theorem Apart.pcreate {k p : Nat} {s t : State} (h : Apart k s.parts) (is : exec (.pcreate p) s = .next t) : Apart k t.parts := by
  refine h.command (p := p) (fun u h r ok => ?_) is
  obtain ⟨-, rfl⟩ := (refuseIf_ok ok).imp_right Except.ok.inj
  refine h.put fun _ _ _ _ _ new => ?_
  rw [Part.units_reset] at new
  cases new

theorem Apart.pdestroy {k p : Nat} {s t : State} (h : Apart k s.parts) (is : exec (.pdestroy p) s = .next t) : Apart k t.parts := by
  refine h.command (p := p) (fun u h r ok => ?_) is
  obtain ⟨-, rfl⟩ := (refuseIf_ok ok).imp_right Except.ok.inj
  exact h.erase p

theorem Apart.pgrant {k p : Nat} {s t : State} (h : Apart k s.parts) (is : exec (.pgrant p) s = .next t) : Apart k t.parts := by
  refine h.command (p := p) (fun u h r ok => ?_) is
  dsimp only at ok
  split at ok
  · cases ok
  · next c found =>
    obtain ⟨-, ok⟩ := refuseIf_ok ok
    obtain ⟨-, ok⟩ := refuseIf_ok ok
    obtain ⟨free, ok⟩ := refuseIf_ok ok
    obtain rfl := Except.ok.inj ok
    have free : u.unitsFree c.typ (u.arg 1) (u.arg 2) = true := by simpa only [Bool.not_eq_false'] using free
    have same : (if c.typ = 7 then u.clearNodes (u.arg 1) (u.arg 2) else u).parts = u.parts := by
      split
      · rfl
      · rfl
    change Apart k (Map.put (if c.typ = 7 then u.clearNodes (u.arg 1) (u.arg 2) else u).parts p _)
    rw [same]
    refine h.put fun r y n other hy held => ?_
    rcases Part.mem_grant held with old | ⟨rfl, low, high⟩
    · exact h.part other hy old
    · exact State.unitsFree_lookup free hy low high

theorem Apart.prevoke {k p : Nat} {s t : State} (h : Apart k s.parts) (is : exec (.prevoke p) s = .next t) : Apart k t.parts := by
  refine h.command (p := p) (fun u h r ok => ?_) is
  dsimp only at ok
  split at ok
  · cases ok
  · next c found =>
    obtain ⟨-, ok⟩ := refuseIf_ok ok
    obtain ⟨-, ok⟩ := refuseIf_ok ok
    obtain ⟨-, ok⟩ := refuseIf_ok ok
    obtain rfl := Except.ok.inj ok
    exact h.put fun r y n other hy held => h.part other hy (Part.mem_revoke held)

end Sys2Proof.Machine

namespace Sys2Proof.Claims
open Sys2Proof.Machine

/-- Settles O55: a grant takes units that no partition holds, and a revocation adds none. -/
theorem unitsStayExclusive : Obligations.UnitsStayExclusive := by
  unfold Obligations.UnitsStayExclusive
  intro s t p k i is apart h next
  rcases is with rfl | rfl | rfl | rfl
  · exact Apart.pcreate h next
  · exact Apart.pdestroy h next
  · exact Apart.pgrant h next
  · exact Apart.prevoke h next

end Sys2Proof.Claims

end

section
/-! What decodes and what does not, and the bytes of a word (R5, R143-R167). -/

namespace Sys2Proof.Machine

/-- R148, R157: the dashes of the opcode map, and the opcodes past it. -/
def Reserved (op : Nat) : Prop :=
  0x49 ≤ op ∧ op ≤ 0x4F ∨ 0x5A ≤ op ∧ op ≤ 0x5F ∨ 0x87 ≤ op ∧ op ≤ 0x8F ∨ op = 0x9B ∨ op = 0x9F ∨ 0xB9 ≤ op ∧ op ≤ 0xBF ∨
    0xCC ≤ op ∧ op ≤ 0xCF ∨ 0xD8 ≤ op ∧ op ≤ 0xDF ∨ 0xE9 ≤ op

theorem decodeOp_reserved {op : Nat} (h : Reserved op) (small : op < 256) (w : Nat) : decodeOp op w = .error .reservedOpcode := by
  rcases h with ⟨low, high⟩ | ⟨low, high⟩ | ⟨low, high⟩ | rfl | rfl | ⟨low, high⟩ | ⟨low, high⟩ | ⟨low, high⟩ | low
  case inr.inr.inr.inl | inr.inr.inr.inr.inl => rfl
  all_goals interval_cases op <;> rfl

theorem wordOfBytes_bytesOfWord (w : BitVec 32) :
    wordOfBytes (w.extractLsb' 0 8) (w.extractLsb' 8 8) (w.extractLsb' 16 8) (w.extractLsb' 24 8) = w := by
  unfold wordOfBytes
  ext i small
  simp only [BitVec.getElem_append, BitVec.getElem_extractLsb']
  split_ifs
  all_goals
    rw [← BitVec.getLsbD_eq_getElem]
    congr 1
    omega

theorem decodeBytes_bytesOfWord {w : BitVec 32} {i : Instr} (h : decodeWord w = .ok i) (rest : List Byte) :
    decodeBytes (bytesOfWord w ++ rest) = .ok (w.getLsbD 31, i, rest) := by
  unfold bytesOfWord
  simp only [List.cons_append, List.nil_append, decodeBytes, wordOfBytes_bytesOfWord, h, chainBit]

end Sys2Proof.Machine

namespace Sys2Proof.Claims
open Sys2Proof.Machine

/-- Settles O1: the words written out are evaluated; a reserved opcode is a row of the map without an instruction. -/
theorem decodingIsRight : Obligations.DecodingIsRight := by
  unfold Obligations.DecodingIsRight
  refine ⟨by decide, fun w reserved => ?_, fun w rest i h => decodeBytes_bytesOfWord h rest⟩
  unfold decodeWord
  rw [decodeOp_reserved reserved (Nat.mod_lt _ (by decide))]

end Sys2Proof.Claims

end

section
/-! What reset leaves, and the bring-up from there (R480, R490). -/

namespace Sys2Proof.Machine

/-- R490: a step of bring-up that succeeds. -/
def State.booted (s : State) (n : Nat) : State := { s.bootAction n with bootStep := n, warm := false, mark := .ok }

/-- R490: the device after the first steps of the bring-up from reset. -/
def bootStage : Nat → State
  | 0 => State.reset
  | n + 1 => (bootStage n).booted (n + 1)

theorem step_booted {s : State} (agenda : s.agenda = []) (off : s.ready = false) (sound : s.bootFail = false) (pins : s.pinsUp = true)
    (cold : s.warm = false) : step s = .next (s.booted (s.bootStep + 1)) := by
  have goes : (s.ready || s.bootFail || !s.pinsUp) = false := by rw [off, sound, pins]; rfl
  have next : s.nextBoot = s.bootStep + 1 := if_neg (Bool.eq_false_iff.1 cold)
  have served : step s = exec (.bringUp true) s := by
    unfold step
    rw [agenda]
    exact if_neg (Bool.eq_false_iff.1 off)
  rw [served]
  unfold State.booted
  rw [← next]
  exact congrArg (fun u : State => Host.Outcome.next { u with mark := .ok }) ((if_neg (Bool.eq_false_iff.1 goes)).trans (if_pos rfl))

theorem bootStage_off {n : Nat} (h : n < 7) : (bootStage n).ready = false ∧ (bootStage n).bootStep = n := by
  interval_cases n
  all_goals exact ⟨rfl, rfl⟩

theorem bootStage_steps {n : Nat} (h : n < 7) : step (bootStage n) = .next (bootStage (n + 1)) := by
  obtain ⟨off, at_⟩ := bootStage_off h
  have ⟨agenda, sound, pins, cold⟩ :
      (bootStage n).agenda = [] ∧ (bootStage n).bootFail = false ∧ (bootStage n).pinsUp = true ∧ (bootStage n).warm = false := by
    interval_cases n
    all_goals exact ⟨rfl, rfl, rfl, rfl⟩
  rw [step_booted agenda off sound pins cold, at_]
  rfl

/-- R490: what the bring-up from reset comes to. -/
theorem bootStage_seven :
    (bootStage 7).ready = true ∧ (bootStage 7).seustUp = true ∧ (bootStage 7).launches = [] ∧ (bootStage 7).parts = [] ∧
      (bootStage 7).pmem = State.reset.pmem := ⟨rfl, rfl, rfl, rfl, rfl⟩

/-- R50, R490: the system key is in slot 0, and no other slot holds one. -/
theorem bootStage_seven_slot (n : Nat) : ((bootStage 7).slot n).state = if n = 0 then 1 else 0 := by
  cases n with
  | zero => rfl
  | succ n => rfl

end Sys2Proof.Machine

namespace Sys2Proof.Claims
open Sys2Proof.Machine

/-- Settles O58: the registers of the state after reset are read, and the seven steps are those of `bootStage`. -/
theorem resetLeaves : Obligations.ResetLeaves := by
  unfold Obligations.ResetLeaves
  refine ⟨by decide +kernel, by decide +kernel, by decide +kernel, by decide +kernel, by decide +kernel, by decide +kernel,
    by decide +kernel, by decide +kernel, fun _ => rfl, fun _ => rfl, fun _ => rfl, State.reset_canonical, bootStage, rfl,
    fun n h => ⟨bootStage_steps h, (bootStage_off h).1⟩, ?_⟩
  obtain ⟨up, seust, launches, parts, pmem⟩ := bootStage_seven
  exact ⟨up, seust, launches, parts, pmem, bootStage_seven_slot⟩

end Sys2Proof.Claims

end

section
/-! PROOFS. Gangs: the switch vote, the slot column, settling, checkpoints and rollback (R403-R418, R441-R443): O56. -/

namespace Sys2Proof.Machine

/-! ### A gang, its messages -/

theorem State.lookup_setGang (s : State) (n : Nat) (g : Gang) : (s.setGang n g).gangs.lookup n = some g :=
  (Map.lookup_put _ _ _ _).trans (if_pos rfl)

theorem State.setGang_setGang (s : State) (n : Nat) (g h : Gang) : (s.setGang n g).setGang n h = s.setGang n h := by
  unfold State.setGang
  dsimp only
  rw [Map.put_put]

theorem State.current_of {s : State} {n : Nat} {e : Word} {g : Gang} (is : s.gangs.lookup n = some g) (epoch : g.epoch = e)
    (live : g.retired = false) : s.current n e = some g := by
  unfold State.current
  rw [is]
  exact if_pos (by rw [epoch, live, decide_eq_true rfl]; rfl)

theorem State.current_stale {s : State} {n : Nat} {e : Word} {g : Gang} (is : s.gangs.lookup n = some g) (epoch : g.epoch ≠ e) :
    s.current n e = none := by
  unfold State.current
  rw [is]
  exact if_neg (by rw [decide_eq_false epoch]; exact Bool.false_ne_true)

/-- R485, R494: a message leaves where the gang's partition has a port that carries packets. -/
theorem State.sendLane_of {s : State} {g : Gang} {m : Control} (is : s.gangs.lookup m.gang = some g) (d : Nat) :
    s.sendLane [d] m =
      { s with out := if s.routed g.part = true then .control { m with src := s.devnum.toNat, dst := [d] } :: s.out else s.out } := by
  have up : (match s.gangs.lookup m.gang with | some g => s.routed g.part | none => false) = s.routed g.part := by rw [is]
  change (if ([d].isEmpty || !(match s.gangs.lookup m.gang with | some g => s.routed g.part | none => false)) = true then s else _) = _
  rw [up]
  cases s.routed g.part with
  | false => rfl
  | true => rfl

theorem State.sendLane_nobody (s : State) (m : Control) : s.sendLane [] m = s := rfl

theorem State.sendLane_frame (s : State) (ds : List Nat) (m : Control) : ∃ o, s.sendLane ds m = { s with out := o } := by
  refine (Decidable.em _).elim (fun no => ⟨s.out, if_pos no⟩) fun goes => ⟨_, if_neg goes⟩

theorem State.sendLane_gangs (s : State) (ds : List Nat) (m : Control) : (s.sendLane ds m).gangs = s.gangs := by
  obtain ⟨o, is⟩ := s.sendLane_frame ds m
  rw [is]

theorem State.toCoordinator_other {s : State} {n : Nat} {g : Gang} (is : s.gangs.lookup n = some g) (other : g.rank ≠ 0) (type arg : Nat)
    (sums : List DWord) (own : State → State) :
    s.toCoordinator n type arg sums own =
      { s with out := if s.routed g.part = true then
          .control { Control.flit n type arg g.epoch with src := s.devnum.toNat, dst := [g.members.headD 0], sums := sums } :: s.out
        else s.out } := by
  unfold State.toCoordinator
  rw [is]
  exact (if_neg other).trans (State.sendLane_of (m := { Control.flit n type arg g.epoch with sums := sums }) is _)

/-- R410: REPORT of a member that does not lead. -/
theorem State.sendReport_other {s : State} {n : Nat} {g : Gang} (is : s.gangs.lookup n = some g) (other : g.rank ≠ 0) :
    s.sendReport n g =
      { s with out := if s.routed g.part = true then
          .control {
            Control.flit n 3 0 g.epoch with
            src := s.devnum.toNat, dst := [g.members.headD 0], sums := (g.sums.1.zip g.sums.2).flatMap fun e => [e.1, e.2] } :: s.out
        else s.out } :=
  State.toCoordinator_other is other 3 0 _ (·.onReport n g.epoch s.devnum.toNat g.sums.1 g.sums.2)

theorem State.resumeStop_none {s : State} (h : s.pwait = none) : s.resumeStop = s := by
  unfold State.resumeStop
  rw [h]

/-! ### Settling (R414) -/

/-- Which state has cores and granules alone changed. -/
def State.Emptied (s t : State) : Prop := ∃ cs gr, t = { s with cores := cs, granules := gr }

theorem State.Emptied.refl (s : State) : s.Emptied s := ⟨s.cores, s.granules, rfl⟩

theorem State.Emptied.trans {s t u : State} (h : s.Emptied t) (h' : t.Emptied u) : s.Emptied u := by
  obtain ⟨_, _, rfl⟩ := h
  obtain ⟨cs, gr, rfl⟩ := h'
  exact ⟨cs, gr, rfl⟩

theorem State.emptied_setCore (s : State) (c : Nat) (k : Core) : s.Emptied (s.setCore c k) := ⟨_, _, rfl⟩

theorem State.emptied_unpin (s : State) (gs : List Nat) : s.Emptied (s.unpin gs) := by
  induction gs generalizing s with
  | nil => exact .refl s
  | cons g gs ih => exact .trans ⟨s.cores, _, rfl⟩ (ih _)

theorem State.emptied_unclaimAll (s : State) (c : Nat) (hs : List Nat) : s.Emptied (s.unclaimAll c hs) := by
  induction hs generalizing s with
  | nil => exact .refl s
  | cons h hs ih => exact (s.emptied_setCore c _).trans (ih _)

theorem State.emptied_withdraw (s : State) (c : Nat) (x : FlumeRec) : s.Emptied (s.withdraw c x) := by
  unfold State.withdraw
  split
  · exact .refl s
  · exact s.emptied_setCore c _

theorem State.emptied_abandon (s : State) (c : Nat) (x : FlumeRec) : s.Emptied (s.abandon c x) := by
  have filled (t : State) : t.Emptied (match x.dst with | some h => t.updHandle c h Handle.filled | none => t) := by
    cases x.dst with
    | none => exact .refl t
    | some h => exact t.emptied_setCore c _
  exact ((s.emptied_withdraw c x).trans (State.emptied_unclaimAll _ c x.src)).trans ((filled _).trans (State.emptied_unpin _ _))

theorem State.emptied_abandonAll (s : State) (c : Nat) (xs : List FlumeRec) : s.Emptied (s.abandonAll c xs) := by
  induction xs generalizing s with
  | nil => exact .refl s
  | cons x xs ih => exact (s.emptied_abandon c x).trans (ih _)

theorem State.emptied_clearCore (s : State) (c : Nat) : s.Emptied (s.clearCore c) :=
  ((s.emptied_abandonAll c _).trans (State.emptied_abandonAll _ c _)).trans (State.emptied_setCore _ c _)

theorem State.emptied_clearCores (s : State) (cs : List Nat) : s.Emptied (s.clearCores cs) := by
  induction cs generalizing s with
  | nil => exact .refl s
  | cons c cs ih => exact (s.emptied_clearCore c).trans (ih _)

theorem mem_clusterCores {i c : Nat} : i ∈ clusterCores c ↔ i / 16 = c := by
  unfold clusterCores tabulate
  rw [List.mem_map]
  constructor
  · rintro ⟨j, member, rfl⟩
    have := List.mem_range.1 member
    omega
  · rintro rfl
    exact ⟨i % 16, List.mem_range.2 (Nat.mod_lt _ (by decide)), by omega⟩

theorem State.core_onCores (s : State) (f : Core → Core) (cs : List Nat) (i : Nat) (once : cs.Nodup) :
    (s.onCores (fun _ => f) cs).core i = if i ∈ cs then f (s.core i) else s.core i := by
  induction cs generalizing s with
  | nil => exact (if_neg List.not_mem_nil).symm
  | cons c cs ih =>
    obtain ⟨new, once⟩ := List.nodup_cons.1 once
    unfold State.onCores
    rw [ih _ once]
    by_cases same : i = c
    · subst same
      rw [if_neg new, if_pos List.mem_cons_self, State.core_setCore_self]
    · rw [State.core_setCore_ne _ _ (Ne.symm same)]
      refine if_congr ?_ rfl rfl
      rw [List.mem_cons]
      exact (or_iff_right same).symm

theorem clusterCores_nodup (c : Nat) : (clusterCores c).Nodup := by
  unfold clusterCores tabulate
  refine List.nodup_range.map fun a b h => ?_
  omega

theorem State.onCores_eq (s : State) (f : Nat → Core → Core) (cs : List Nat) : ∃ m, s.onCores f cs = { s with cores := m } := by
  induction cs generalizing s with
  | nil => exact ⟨s.cores, rfl⟩
  | cons c cs ih =>
    obtain ⟨m, is⟩ := ih (s.setCore c (f c (s.core c)))
    exact ⟨m, is⟩

/-- R418: the running row's counters. -/
theorem State.count_sstat (s : State) (p : Nat) (f : SStat → SStat) :
    Map.get SStat.reset ((s.count p f).part p).sstat (s.part p).row = f (Map.get SStat.reset (s.part p).sstat (s.part p).row) := by
  unfold State.count
  have put (x : Part) : (s.setPart p x).part p = x := Map.get_put_self _ _ _ _
  rw [put]
  exact Map.get_put_self _ _ _ _

/-- R414: what a cluster that is to be saved leaves of the gang, of the row's counters, and of the launches. -/
theorem State.beginSave_leaves {s : State} {n c : Nat} {g : Gang} (is : s.gangs.lookup n = some g) (missed : Bool) :
    (∀ i, (s.beginSave n c missed).core i = if i / 16 = c then { s.core i with mill := (s.core i).mill.ask } else s.core i) ∧
    (s.beginSave n c missed).gangs.lookup n = some { g with saving := c :: g.saving, missed := if missed then g.missed + 1 else g.missed } ∧
    (missed = true → (Map.get SStat.reset ((s.beginSave n c missed).part g.part).sstat (s.part g.part).row).miss =
      min 65535 ((Map.get SStat.reset (s.part g.part).sstat (s.part g.part).row).miss + 1)) ∧
    (s.beginSave n c missed).launches = s.launches := by
  have asked (i : Nat) := s.core_onCores (fun k => { k with mill := k.mill.ask }) (clusterCores c) i (clusterCores_nodup c)
  obtain ⟨m, cores⟩ := s.onCores_eq (fun _ k => { k with mill := k.mill.ask }) (clusterCores c)
  simp only [mem_clusterCores, cores] at asked
  unfold State.beginSave
  rw [is]
  dsimp only
  rw [cores]
  cases missed with
  | false => exact ⟨asked, State.lookup_setGang _ n _, nofun, rfl⟩
  | true => exact ⟨asked, State.lookup_setGang _ n _, fun _ => congrArg SStat.miss (State.count_sstat _ g.part _), rfl⟩

theorem Core.kept_kept (k : Core) : k.kept.kept = k.kept := rfl

/-- What leaving the clusters changes. -/
theorem State.offClusters_eq (s : State) (n l : Nat) : ∃ v gs ls, s.offClusters n l = { s with vds := v, gangs := gs, launches := ls } := by
  unfold State.offClusters
  split
  · exact ⟨_, _, _, rfl⟩
  · split
    · split
      · unfold State.discard
        dsimp only
        split
        all_goals exact ⟨_, _, _, rfl⟩
      · exact ⟨_, _, _, rfl⟩
    · exact ⟨_, _, _, rfl⟩

/-- R358, R414: a launch that is discarded leaves of its contexts the held stores. -/
theorem State.discard_leaves {s : State} {n : Nat} {g : Gang} (is : s.gangs.lookup n = some g) (l : Nat) :
    (s.discard n l).gangs.lookup n = some { g with
      saved := g.saved.map (fun ((i, k) : Nat × Core) => (i, if k.job = some l then Core.kept k else k)), rerun := g.rerun.filter (· != l) } ∧
    ((s.discard n l).launch l).state = .discarded ∧ ((s.discard n l).launch l).items = [] ∧ ((s.discard n l).launch l).pool = [] ∧
    ((s.discard n l).launch l).suspended = [] := by
  unfold State.discard
  dsimp only
  rw [show (s.setVd (s.launch l).vd _).gangs.lookup n = some g from is]
  refine ⟨State.lookup_setGang _ n _, ?_⟩
  unfold State.launch State.setLaunch
  dsimp only
  rw [Map.get_put_self]
  exact ⟨rfl, rfl, rfl, rfl⟩

/-- R414: an element that a discarded cluster's gang keeps stands in it after its launch has left the clusters. -/
theorem State.offClusters_saved {s : State} {n : Nat} {g : Gang} (is : s.gangs.lookup n = some g) (l : Nat) :
    ∃ h, (s.offClusters n l).gangs.lookup n = some h ∧ ∀ i k, (i, Core.kept k) ∈ g.saved → (i, Core.kept k) ∈ h.saved := by
  unfold State.offClusters
  split
  · exact ⟨g, is, fun _ _ h => h⟩
  · rw [is]
    dsimp only
    split
    · refine ⟨_, (State.discard_leaves is l).1, fun i k member => List.mem_map.2 ⟨_, member, ?_⟩⟩
      dsimp only
      split
      all_goals rfl
    · exact ⟨g, is, fun _ _ h => h⟩

theorem Map.get_map_key {α : Type} {d : α} {f : Nat → α → α} (m : Map α) {k : Nat} (fixed : f k d = d) :
    Map.get d (m.map fun (j, v) => (j, f j v)) k = f k (Map.get d m k) := by
  induction m with
  | nil => exact fixed.symm
  | cons e m ih =>
    obtain ⟨j, v⟩ := e
    rw [List.map_cons, Map.get, Map.get]
    split
    · next same => rw [same]
    · exact ih

theorem State.cluster_freeClusters (s : State) (c d : Nat) :
    (s.freeClusters [c]).cluster d = if d = c then { s.cluster d with launch := none } else s.cluster d := by
  unfold State.freeClusters State.cluster
  dsimp only
  rw [Map.get_map_key (f := fun c' k => if [c].contains c' then { k with launch := none } else k) s.clusters
    (by split <;> rfl)]
  refine if_congr ?_ rfl rfl
  rw [List.contains_iff_mem, List.mem_singleton]

theorem State.core_freeClusters {s : State} {c i : Nat} (at_ : i / 16 = c) :
    (s.freeClusters [c]).core i = { s.core i with job := none, mode := .idle } := by
  unfold State.freeClusters State.core
  dsimp only
  rw [Map.get_map_key (f := fun i k => if [c].contains (i / 16) then { k with job := none, mode := .idle } else k) s.cores
    (by split <;> rfl)]
  exact if_pos (List.contains_iff_mem.2 (List.mem_singleton.2 at_))

/-- R414: a discarded cluster is off, its cores are empty, its held stores are kept; with the last one off, the launch starts again. -/
theorem State.discardCluster_leaves {s : State} {n : Nat} {g : Gang} (is : s.gangs.lookup n = some g) (l c : Nat) :
    ((s.discardCluster n l c).cluster c).launch = none ∧
    (∀ i, i / 16 = c → ((s.discardCluster n l c).core i).job = none ∧ ((s.discardCluster n l c).core i).mode = .idle) ∧
    (∃ h, (s.discardCluster n l c).gangs.lookup n = some h ∧ ∀ i, i / 16 = c → (i, (s.core i).kept) ∈ h.saved) ∧
    ((∀ d ∈ (s.launch l).clusters, d = c ∨ (s.cluster d).launch = none) →
      ((s.discardCluster n l c).launch l).state = .discarded ∧ ((s.discardCluster n l c).launch l).items = [] ∧
      ((s.discardCluster n l c).launch l).pool = [] ∧ ((s.discardCluster n l c).launch l).suspended = []) := by
  let kept := (clusterCores c).map fun i => (i, (s.core i).kept)
  let g' : Gang := { g with saved := g.saved ++ kept, rerun := l :: g.rerun.filter (· != l) }
  obtain ⟨cs, gr, cleared⟩ := (s.setGang n g').emptied_clearCores (clusterCores c)
  let u : State := ({ s.setGang n g' with cores := cs, granules := gr } : State).freeClusters [c]
  have runs : s.discardCluster n l c = u.offClusters n l := by
    unfold State.discardCluster
    rw [is]
    change (((s.setGang n g').clearCores (clusterCores c)).freeClusters [c]).offClusters n l = _
    rw [cleared]
  have gang : u.gangs.lookup n = some g' := State.lookup_setGang s n g'
  have off (d : Nat) : u.cluster d = if d = c then { s.cluster d with launch := none } else s.cluster d :=
    State.cluster_freeClusters { s.setGang n g' with cores := cs, granules := gr } c d
  have empty {i : Nat} (at_ : i / 16 = c) : (u.core i).job = none ∧ (u.core i).mode = .idle := by
    have := State.core_freeClusters (s := { s.setGang n g' with cores := cs, granules := gr }) at_
    exact this ▸ ⟨rfl, rfl⟩
  rw [runs]
  obtain ⟨v, gs, ls, frame⟩ := u.offClusters_eq n l
  have cluster (d : Nat) : (u.offClusters n l).cluster d = u.cluster d := by rw [frame]; rfl
  have core (i : Nat) : (u.offClusters n l).core i = u.core i := by rw [frame]; rfl
  refine ⟨?_, fun i at_ => ?_, ?_, fun others => ?_⟩
  · rw [cluster, off, if_pos rfl]
  · rw [core]
    exact empty at_
  · obtain ⟨h, found, keeps⟩ := State.offClusters_saved gang l
    refine ⟨h, found, fun i at_ => keeps i (s.core i) ?_⟩
    exact List.mem_append_right _ (List.mem_map.2 ⟨i, mem_clusterCores.2 at_, rfl⟩)
  · have all : ((u.launch l).clusters.all fun d => (u.cluster d).launch.isNone) = true := by
      refine List.all_eq_true.2 fun d member => ?_
      rw [off]
      rcases others d member with rfl | free
      · rw [if_pos rfl]
        rfl
      · split
        · rfl
        · rw [free]
          rfl
    have rerun : g'.rerun.contains l = true := List.contains_iff_mem.2 List.mem_cons_self
    have discards : u.offClusters n l = u.discard n l := by
      unfold State.offClusters
      rw [all, gang]
      exact (if_neg (by rw [Bool.not_true]; exact Bool.false_ne_true)).trans (if_pos rerun)
    rw [discards]
    exact (State.discard_leaves gang l).2

/-! ### Rollback (R441-R443) -/

/-- R442: ROLLBACK leaves for the coordinator, or from it for the members, and this member goes back. -/
theorem State.rollBack_to {s : State} {n : Nat} {g : Gang} {ck : Checkpoint} (is : s.gangs.lookup n = some g) (live : g.retired = false)
    (ckpt : g.ckpt = some ck) (few : g.rollbacks < 3) : s.rollBack n = (((s.rollTo n g ck).err 4).markReady).resumeStop := by
  unfold State.rollBack
  rw [is]
  dsimp only
  rw [if_neg (by rw [live]; exact Bool.false_ne_true), ckpt]
  exact if_neg (by omega)

theorem State.rollBack_fails {s : State} {n : Nat} {g : Gang} {ck : Checkpoint} (is : s.gangs.lookup n = some g) (live : g.retired = false)
    (ckpt : g.ckpt = some ck) (many : 3 ≤ g.rollbacks) : s.rollBack n = s.deviceFails := by
  unfold State.rollBack
  rw [is]
  dsimp only
  rw [if_neg (by rw [live]; exact Bool.false_ne_true), ckpt]
  exact if_pos many

theorem State.rollBack_none {s : State} {n : Nat} {g : Gang} (is : s.gangs.lookup n = some g) (live : g.retired = false)
    (ckpt : g.ckpt = none) : s.rollBack n = (s.failGang n).resumeStop := by
  unfold State.rollBack
  rw [is]
  dsimp only
  rw [if_neg (by rw [live]; exact Bool.false_ne_true), ckpt]

/-- R442: an error of this member. -/
theorem State.onRollback_of {s : State} {n : Nat} {g : Gang} (is : s.gangs.lookup n = some g) (live : g.retired = false) :
    s.onRollback n = ((s.sendRollback n g).setGang n { g with rolled := decide (g.rank ≠ 0) }).rollBack n := by
  unfold State.onRollback
  rw [is]
  refine (if_neg (by rw [live]; exact Bool.false_ne_true)).trans ?_
  rw [show (g.rank != 0) = decide (g.rank ≠ 0) from by cases g.rank <;> rfl]

/-! ### The vote (R411-R417) -/

theorem State.onPrepare_halts {s : State} {n : Nat} {g : Gang} {e : Word} (is : s.gangs.lookup n = some g) (vote : g.vote = .run)
    (live : g.retired = false) (runs : (s.vd g.vd).run = true) (lead : g.rank = 0 → g.epoch = e)
    (free : s.refusal { g with epoch := e } = none) :
    s.onPrepare n e = s.setGang n { g with
      epoch := e, vote := .halting, resumeAtOnce := if g.rank = 0 then g.resumeAtOnce else g.ckptDue,
      ckptDue := decide (g.rank = 0) && g.ckptDue } := by
  unfold State.onPrepare
  rw [is]
  refine (if_neg ?_).trans ?_
  · simp only [vote, live, runs, Bool.or_eq_true, Bool.and_eq_true, decide_eq_true_eq, bne_iff_ne, ne_eq, not_true, Bool.not_true,
      Bool.false_eq_true, or_self, false_or]
    exact fun ⟨zero, other⟩ => other (lead zero)
  · dsimp only
    rw [free]
    exact State.setGang_setGang s n _ _

theorem State.onPrepare_refuses {s : State} {n why : Nat} {g : Gang} {e : Word} (is : s.gangs.lookup n = some g) (vote : g.vote = .run)
    (live : g.retired = false) (runs : (s.vd g.vd).run = true) (other : g.rank ≠ 0)
    (refuses : s.refusal { g with epoch := e } = some why) :
    s.onPrepare n e = { s.setGang n { g with epoch := e } with
      out := if s.routed g.part = true then
          .control { Control.flit n 2 why e with src := s.devnum.toNat, dst := [g.members.headD 0] } :: s.out
        else s.out } := by
  unfold State.onPrepare
  rw [is]
  refine (if_neg ?_).trans ?_
  · simp only [vote, live, runs, other, Bool.or_eq_true, Bool.and_eq_true, decide_eq_true_eq, bne_iff_ne, ne_eq, not_true, Bool.not_true,
      Bool.false_eq_true, or_self, false_and]
    exact id
  · dsimp only
    rw [refuses]
    exact State.toCoordinator_other (g := { g with epoch := e }) (s.lookup_setGang n _) other 2 why [] _

theorem State.onPrepare_rests {s : State} {n : Nat} {g : Gang} (is : s.gangs.lookup n = some g) (vote : g.vote ≠ .run) (e : Word) :
    s.onPrepare n e = s := by
  unfold State.onPrepare
  rw [is]
  refine if_pos ?_
  rw [bne_iff_ne.2 vote]
  rfl

theorem State.onAbort_runs {s : State} {n : Nat} {g : Gang} {e : Word} (is : s.current n e = some g)
    (vote : g.vote = .halting ∨ g.vote = .halted) :
    s.onAbort n e = ((s.setGang n { g with vote := .run }).unstart g.part n).resumeStop := by
  unfold State.onAbort
  rw [is]
  exact if_pos (by rw [Bool.or_eq_true, decide_eq_true_eq, decide_eq_true_eq]; exact vote)

theorem State.onAbort_out {s : State} {n : Nat} {g : Gang} {e : Word} (is : s.current n e = some g) (vote : g.vote = .out) :
    s.onAbort n e = s := by
  unfold State.onAbort
  rw [is]
  exact if_neg (by rw [vote]; decide)

/-- R412, R418: REFUSE at a coordinator without other members, which is out. -/
theorem State.onRefuse_alone {s : State} {n : Nat} {g : Gang} {e : Word} (is : s.gangs.lookup n = some g) (epoch : g.epoch = e)
    (live : g.retired = false) (lead : g.rank = 0) (voting : g.voting = true) (alone : ∀ d ∈ g.members, d = s.devnum.toNat)
    (vote : g.vote = .out) (dev : Nat) :
    s.onRefuse n e dev = (s.setGang n { g with
        voting := false, trigger := g.trigger || !g.resumeAtOnce, ckptDue := g.ckptDue || g.resumeAtOnce, reports := [] }).count g.part
      fun x => { x with rdev := dev, refuse := min 65535 (x.refuse + 1) } := by
  have others : s.othersOf g = [] := List.filter_eq_nil_iff.2 fun d member => by rw [alone d member, bne_self_eq_false]; exact Bool.false_ne_true
  unfold State.onRefuse
  rw [State.current_of is epoch live]
  refine (if_neg (by rw [lead, voting]; decide)).trans ?_
  unfold State.toMembers
  have found := s.lookup_setGang n { g with
    voting := false, trigger := g.trigger || !g.resumeAtOnce, ckptDue := g.ckptDue || g.resumeAtOnce, reports := [] }
  dsimp only
  rw [show ((s.setGang n _).count g.part _).gangs.lookup n = some _ from found]
  change ((State.sendLane _ (s.othersOf g) _).onAbort n e) = _
  rw [others, State.sendLane_nobody]
  exact State.onAbort_out (State.current_of found epoch live) vote

theorem State.onReport_of {s : State} {n dev : Nat} {g : Gang} {e : Word} (is : s.current n e = some g) (lead : g.rank = 0)
    (voting : g.voting = true) (member : g.members.contains dev = true) (a b : List DWord) :
    s.onReport n e dev a b = s.setGang n { g with reports := (dev, a, b) :: g.reports.filter (·.1 != dev) } := by
  unfold State.onReport
  rw [is]
  exact if_neg (by rw [lead, voting, member]; decide)

/-- R414: COMMIT settles the clusters of the launches that run, each by its own choice. -/
theorem State.onCommit_of {s : State} {n : Nat} {g : Gang} {e : Word} (is : s.current n e = some g)
    (vote : g.vote = .halted ∨ g.vote = .capturing) :
    s.onCommit n e =
      (let t := (s.setGang n { g with vote := .committing, saving := [], rerun := [] }).settleAll n (s.settleChoices g (s.runningOf g.vd))
       let live := (t.onClusters g.vd).flatMap fun l => (t.launch l).clusters.filter fun c => (t.cluster c).launch = some l
       match t.gangs.lookup n with
       | some h => (t.setGang n { h with unsettled := live }).goOutIfSettled n
       | none => t) := by
  unfold State.onCommit
  rw [is]
  refine (if_neg ?_).trans rfl
  rw [Bool.and_eq_true, bne_iff_ne, bne_iff_ne]
  exact fun ⟨no, no'⟩ => vote.elim no no'

/-- R411: DONE from all members but one. -/
theorem State.onDone_waits {s : State} {n dev : Nat} {g : Gang} {e : Word} (is : s.current n e = some g) (lead : g.rank = 0)
    (voting : g.voting = true) (member : g.members.contains dev = true) (waits : ∃ d ∈ g.members, d ≠ dev ∧ g.doneBy.contains d = false) :
    s.onDone n e dev = s.setGang n { g with doneBy := dev :: g.doneBy.filter (· != dev) } := by
  unfold State.onDone
  rw [is]
  refine (if_neg (by rw [lead, voting, member]; decide)).trans (if_pos ?_)
  obtain ⟨d, listed, other, silent⟩ := waits
  rw [Bool.not_eq_true', List.all_eq_false]
  refine ⟨d, listed, ?_⟩
  rw [List.contains_iff_mem, List.mem_cons, List.mem_filter]
  rintro (same | ⟨done, -⟩)
  · exact other same
  · rw [List.contains_iff_mem.2 done] at silent
    cases silent

/-- R412: DONE from every member. -/
theorem State.onDone_all {s : State} {n dev : Nat} {g : Gang} {e : Word} (is : s.current n e = some g) (lead : g.rank = 0)
    (voting : g.voting = true) (member : g.members.contains dev = true) (all : ∀ d ∈ g.members, d = dev ∨ g.doneBy.contains d = true) :
    s.onDone n e dev =
      (let t := (s.setGang n { g with
        doneBy := dev :: g.doneBy.filter (· != dev), voting := false, trigger := g.resumeAtOnce && g.trigger, ckptDue := false }).count g.part
          fun x => { x with switch := (x.switch + 1) % 2 ^ 16 }
       (if g.resumeAtOnce then t.onResume n e else t.rewalk g.part).resumeStop) := by
  unfold State.onDone
  rw [is]
  refine (if_neg (by rw [lead, voting, member]; decide)).trans ((if_neg ?_).trans rfl)
  rw [Bool.not_eq_true', Bool.not_eq_false, List.all_eq_true]
  intro d listed
  rw [List.contains_iff_mem, List.mem_cons, List.mem_filter]
  refine (Decidable.em (d = dev)).imp_right fun other => ⟨List.contains_iff_mem.1 ((all d listed).resolve_left other), bne_iff_ne.2 other⟩

theorem State.onResume_of {s : State} {n : Nat} {g : Gang} {e : Word} (is : s.current n e = some g) (vote : g.vote = .out)
    (voting : g.voting = false) (stopped : (s.vd g.vd).stopped = false) (stopping : (s.vd g.vd).stopping = false) :
    s.onResume n e = if decide (g.rank = 0) && !s.resumeDue n g then s
      else if g.rank = 0 then (s.setGang n { g with vote := .resuming }).sendLane (s.othersOf g) (.flit n 9 0 g.epoch)
      else s.setGang n { g with vote := .resuming } := by
  unfold State.onResume
  rw [is]
  dsimp only
  rw [vote, voting, stopped, stopping]
  rfl

theorem State.settled_eq (s : State) (n c : Nat) :
    s.settled n c = match s.gangs.lookup n with
      | some h => (s.setGang n { h with unsettled := h.unsettled.filter (· != c) }).goOutIfSettled n
      | none => s := rfl

/-- R414: a cluster that is out has settled. -/
theorem State.settled_of {s : State} {n c : Nat} {g : Gang} (is : s.gangs.lookup n = some g) :
    s.settled n c = (s.setGang n { g with unsettled := g.unsettled.filter (· != c) }).goOutIfSettled n := by
  unfold State.settled
  rw [is]

/-- R407, R412, R417: a trigger of a gang that runs. -/
theorem State.trigger_of {s : State} {n : Nat} {g : Gang} (is : s.gangs.lookup n = some g) (live : g.retired = false)
    (runs : (s.vd g.vd).run = true) :
    s.trigger n false =
      if g.rank ≠ 0 then s.setGang n g
      else if g.voting || g.vote != .run then s.setGang n { g with trigger := true } else s.startVote n { g with trigger := true } := by
  unfold State.trigger
  rw [is]
  refine (if_neg (by rw [live, runs]; decide)).trans (if_congr bne_iff_ne ?_ ?_)
  · rw [Bool.or_false]
  · rw [Bool.not_false, Bool.or_true, Bool.or_false]

end Sys2Proof.Machine

namespace Sys2Proof.Claims
open Sys2Proof.Machine

/-- What an event makes of a state is what a function makes of it. -/
theorem move_congr' {s : State} {f g : State → State} (h : g s = f s) : s.move g = s.move f := by rw [State.move_eq, State.move_eq, h]

theorem move_congr {i : Instr} {t : State} {f g : State → State} (he : ∀ s, exec i s = s.move g) (h : g t = f t) :
    exec i t = t.move f := (he t).trans (move_congr' h)

theorem moves_eq {i : Instr} {ok : State → Prop} {f g : State → State} (he : ∀ s, ok s → exec i s = s.move f) (h : ∀ s, f s = g s) : Moves i ok g :=
  fun s is => (he s is).trans (by rw [State.move_eq, h])

theorem clusterCores_all {c : Nat} {q : Nat → Bool} (h : ∀ i, i / 16 = c → q i = true) : (clusterCores c).all q = true :=
  List.all_eq_true.2 fun i member => h i (mem_clusterCores.1 member)

theorem clusterCores_some {c : Nat} {q : Nat → Bool} (h : ∃ i, i / 16 = c ∧ q i = false) : (clusterCores c).all q = false := by
  obtain ⟨i, at_, no⟩ := h
  exact List.all_eq_false.2 ⟨i, mem_clusterCores.2 at_, by rw [no]; exact Bool.false_ne_true⟩

section
variable {s : State} {n c l : Nat} {g : Gang} (is : s.gangs.lookup n = some g) (vote : g.vote = .committing)
  (waits : g.unsettled.contains c = true) (on : (s.cluster c).launch = some l) (vd : (s.launch l).vd = g.vd) (saving : g.saving.contains c = true)
  (state : (s.launch l).state = .running) (ready : ∀ i, i / 16 = c → (s.core i).saveReady = true)
include is vote waits on vd saving state ready

/-- R414: the cores of a cluster that are ready to be saved are saved, or let what is in flight land. -/
theorem clusterSettled_on : exec (.clusterSettled n c) s = s.move fun s =>
    if !((clusterCores c).all fun i => (s.core i).flightFits) then s.landCores (clusterCores c) else (s.saveCluster n l c).settled n c := by
  refine move_congr (t := s) (i := .clusterSettled n c) (fun _ => rfl) ?_
  rw [is]
  refine (if_neg (by rw [vote, waits]; decide)).trans ?_
  rw [on]
  exact (if_neg (by rw [vd, bne_self_eq_false]; decide)).trans
    (if_neg (by rw [saving, state, clusterCores_all (q := fun i => (s.core i).saveReady) ready]; decide))

theorem clusterSettled_saves (fits : ∀ i, i / 16 = c → (s.core i).flightFits = true) :
    exec (.clusterSettled n c) s = s.move fun s => (s.saveCluster n l c).settled n c := by
  refine (clusterSettled_on is vote waits on vd saving state ready).trans (move_congr' (if_neg ?_))
  rw [clusterCores_all (q := fun i => (s.core i).flightFits) fits]
  decide

theorem clusterSettled_lands (full : ∃ i, i / 16 = c ∧ (s.core i).flightFits = false) :
    exec (.clusterSettled n c) s = s.move fun s => s.landCores (clusterCores c) := by
  refine (clusterSettled_on is vote waits on vd saving state ready).trans (move_congr' (if_pos ?_))
  rw [clusterCores_some (q := fun i => (s.core i).flightFits) full]
  rfl

end

theorem clusterSettled_busy {s : State} {n c l : Nat} {g : Gang} (is : s.gangs.lookup n = some g)
    (on : (s.cluster c).launch = some l) (vd : (s.launch l).vd = g.vd) (busy : ∃ i, i / 16 = c ∧ (s.core i).saveReady = false) :
    exec (.clusterSettled n c) s = .next { s with mark := .ok } := by
  refine moved (fun _ => rfl) ?_
  rw [is]
  refine (ite_eq_left_iff).2 fun _ => ?_
  rw [on]
  exact (if_neg (by rw [vd, bne_self_eq_false]; decide)).trans
    (if_pos (by rw [clusterCores_some (q := fun i => (s.core i).saveReady) busy, Bool.not_false, Bool.or_true]))

/-- Settles O56: each event is the model's function of it, where the gang is in the state that it asks for. -/
theorem gangEvents : Obligations.GangEvents := by
  intro n dev p row word epoch g flag a b bf c ck k is now set leads stale runs sole sums told sends tell counted
  refine ⟨?prepare, ?refused, ?notRunning, ?abort, ?abortStale, ?drained, ?query, ?capture, ?queryStale, ?captureStale, ?commitStale, ?report,
    ?refuse, ?poll, ?commit, ?choice, ?settle, ?settledOff, ?saves, ?done, ?doneAll, ?resume, ?resumeStale, ?restore, ?restoreRetired, ?retry,
    ?quantum, ?quantumWaits, ?quantumMember, ?quantumRests, ?timer, ?undo, ?mirror, ?rollback, ?fail, ?silent, ?arrival, ?release, ?flag,
    ?result, ?slot, ?expire, ?expireRests, ?sram, ?hbm, ?unowned⟩
  case prepare => exact moves_of (fun _ => rfl) fun s ⟨is, vote, live, runs, lead, free⟩ => State.onPrepare_halts is vote live runs lead free
  case refused =>
    exact fun why => moves_of (fun _ => rfl) fun s ⟨is, vote, live, runs, other, refuses⟩ =>
      State.onPrepare_refuses is vote live runs other refuses
  case notRunning => exact rests_of (fun _ => rfl) fun s ⟨is, vote⟩ => State.onPrepare_rests is vote epoch
  case abort =>
    exact moves_of (fun _ => rfl) fun s ⟨⟨is, same, live⟩, vote, free⟩ =>
      (State.onAbort_runs (State.current_of is same live) vote).trans (State.resumeStop_none free)
  case abortStale =>
    refine rests_of (fun _ => rfl) fun s ⟨is, other⟩ => ?_
    unfold State.onAbort
    rw [State.current_stale is other]
  case drained =>
    refine moves_of (fun _ => rfl) fun s ⟨is, vote, other⟩ => ?_
    have sent := State.sendReport_other (g := { g with vote := .halted }) (s.lookup_setGang n _) other
    rw [is]
    exact (if_pos vote).trans sent
  case query =>
    refine moves_of (fun _ => rfl) fun s ⟨⟨is, same, live⟩, vote, other⟩ => ?_
    unfold State.onQuery
    rw [State.current_of is same live]
    exact (if_pos (by rw [Bool.or_eq_true, decide_eq_true_eq, decide_eq_true_eq]; exact vote)).trans (State.sendReport_other is other)
  case capture =>
    refine moves_of (fun _ => rfl) fun s ⟨⟨is, same, live⟩, vote, other⟩ => ?_
    have sent := State.sendReport_other (g := { g with vote := .capturing }) (s.lookup_setGang n _) other
    unfold State.onCapture
    rw [State.current_of is same live]
    exact (if_pos vote).trans sent
  case queryStale =>
    refine rests_of (fun _ => rfl) fun s ⟨is, other⟩ => ?_
    unfold State.onQuery
    rw [State.current_stale is other]
  case captureStale =>
    refine rests_of (fun _ => rfl) fun s ⟨is, other⟩ => ?_
    unfold State.onCapture
    rw [State.current_stale is other]
  case commitStale =>
    refine rests_of (fun _ => rfl) fun s ⟨is, other⟩ => ?_
    unfold State.onCommit
    rw [State.current_stale is other]
  case report =>
    exact moves_of (fun _ => rfl) fun s ⟨⟨⟨is, same, live⟩, lead, voting⟩, member⟩ =>
      State.onReport_of (State.current_of is same live) lead voting member a b
  case refuse =>
    exact moves_of (fun _ => rfl) fun s ⟨⟨⟨is, same, live⟩, lead, voting⟩, alone, vote⟩ =>
      State.onRefuse_alone is same live lead voting alone vote dev
  case poll =>
    refine moves_of (fun _ => rfl) fun s ⟨is, lead, voting, all, balanced⟩ => ?_
    have every : (g.members.all fun d => g.reports.any fun r => r.1 = d) = true := List.all_eq_true.2 all
    dsimp only
    rw [is]
    exact (if_neg (by rw [lead, voting, every]; decide)).trans (if_pos balanced)
  case commit =>
    exact moves_of (fun _ => rfl) fun s ⟨⟨is, same, live⟩, vote⟩ => State.onCommit_of (State.current_of is same live) vote
  case choice =>
    intro s l stopping resumes drains fits restarts
    unfold State.settleBy
    exact ⟨fun h => if_pos h, fun no h => (if_neg no).trans (if_pos h), fun no no' h => (if_neg no).trans ((if_neg no').trans (if_pos h)),
      fun no no' no₃ h => (if_neg no).trans ((if_neg no').trans ((if_neg no₃).trans (if_pos h))),
      fun no no' no₃ no₄ h => (if_neg no).trans ((if_neg no').trans ((if_neg no₃).trans ((if_neg no₄).trans (if_pos h)))),
      fun no no' no₃ no₄ no₅ => (if_neg no).trans ((if_neg no').trans ((if_neg no₃).trans ((if_neg no₄).trans (if_neg no₅))))⟩
  case settle =>
    exact fun s l rest missed => ⟨rfl, rfl, rfl, rfl, fun is => State.beginSave_leaves is missed, fun is => State.discardCluster_leaves is l c⟩
  case settledOff =>
    refine moves_of (fun _ => rfl) fun s ⟨is, vote, waits, off⟩ => ?_
    dsimp only
    rw [is]
    refine (if_neg (by rw [vote, waits]; decide)).trans ?_
    rw [off]
    exact State.settled_of is
  case saves =>
    intro l saves
    refine ⟨moves_eq (f := fun s => (s.saveCluster n l c).settled n c)
        (fun s ⟨⟨is, vote, waits, on, vd, saving, state, ready⟩, fits⟩ => clusterSettled_saves is vote waits on vd saving state ready fits)
        fun s => ?_,
      fun s ⟨⟨is, vote, waits, on, vd, saving, state, ready⟩, full⟩ => clusterSettled_lands is vote waits on vd saving state ready full,
      fun s ⟨is, vote, on, vd, busy⟩ => clusterSettled_busy is on vd busy⟩
    generalize s.saveCluster n l c = t
    rfl
  case done =>
    exact moves_of (fun _ => rfl) fun s ⟨⟨⟨is, same, live⟩, lead, voting⟩, member, waits⟩ =>
      State.onDone_waits (State.current_of is same live) lead voting member waits
  case doneAll =>
    exact moves_of (fun _ => rfl) fun s ⟨⟨⟨is, same, live⟩, lead, voting⟩, member, all⟩ =>
      State.onDone_all (State.current_of is same live) lead voting member all
  case resume =>
    refine ⟨moves_of (fun _ => rfl) fun s ⟨⟨⟨is, same, live⟩, vote, voting, stopped, stopping⟩, other⟩ => ?_,
      moves_of (fun _ => rfl) fun s ⟨⟨⟨is, same, live⟩, vote, voting, stopped, stopping⟩, lead, due⟩ => ?_,
      rests_of (fun _ => rfl) fun s ⟨⟨⟨is, same, live⟩, vote, voting, stopped, stopping⟩, lead, early⟩ => ?_⟩
    · refine (State.onResume_of (State.current_of is same live) vote voting stopped stopping).trans ?_
      exact (if_neg (by rw [decide_eq_false other]; exact Bool.false_ne_true)).trans (if_neg other)
    · refine (State.onResume_of (State.current_of is same live) vote voting stopped stopping).trans ?_
      exact (if_neg (by rw [due]; simp)).trans (if_pos lead)
    · refine (State.onResume_of (State.current_of is same live) vote voting stopped stopping).trans ?_
      exact if_pos (by rw [decide_eq_true lead, early]; rfl)
  case resumeStale =>
    refine rests_of (fun _ => rfl) fun s ⟨is, other⟩ => ?_
    dsimp only
    unfold State.onResume
    rw [State.current_stale is other]
  case restore =>
    intro returns
    refine ⟨moves_of (fun _ => rfl) fun s ⟨⟨is, vote, live, idle⟩, free⟩ => ?_,
      moves_of (fun _ => rfl) fun s ⟨⟨is, vote, live, idle⟩, waits⟩ => ?_⟩
    · rw [is]
      exact (if_pos (by rw [vote, live, idle]; rfl)).trans (State.touching_free _ free)
    · rw [is]
      exact (if_pos (by rw [vote, live, idle]; rfl)).trans (State.touching_waits _ (Bool.eq_false_iff.1 waits))
  case restoreRetired =>
    refine rests_of (fun _ => rfl) fun s ⟨is, gone⟩ => ?_
    rw [is]
    exact if_neg (by rw [gone, Bool.not_true, Bool.and_false]; exact Bool.false_ne_true)
  case retry =>
    refine moves_of (fun _ => rfl) fun s ⟨is, lead, voting, due, vote, runs⟩ => ?_
    rw [is]
    refine if_pos ?_
    rw [lead, voting, vote, runs]
    rcases due with due | due
    · rw [due]
      rfl
    · rw [due, Bool.or_true]
      rfl
  case quantum =>
    refine moves_of (fun _ => rfl) fun s ⟨is, lead, live, runs, voting, vote⟩ => ?_
    exact (State.trigger_of is live runs).trans ((if_neg (not_not_intro lead)).trans (if_neg (by rw [voting, vote]; decide)))
  case quantumWaits =>
    refine moves_of (fun _ => rfl) fun s ⟨is, lead, live, runs, waits⟩ => ?_
    refine (State.trigger_of is live runs).trans ((if_neg (not_not_intro lead)).trans (if_pos ?_))
    rw [Bool.or_eq_true, bne_iff_ne]
    exact waits
  case quantumMember => exact moves_of (fun _ => rfl) fun s ⟨is, other, live, runs⟩ => (State.trigger_of is live runs).trans (if_pos other)
  case quantumRests =>
    refine rests_of (fun _ => rfl) fun s ⟨is, off⟩ => ?_
    unfold State.trigger
    rw [is]
    exact if_pos (by rw [off, Bool.not_false, Bool.or_true])
  case timer =>
    refine moves_of (fun _ => rfl) fun s ⟨is, on, interval⟩ => ?_
    rw [is]
    exact if_pos (by rw [on, bne_iff_ne.2 interval]; rfl)
  case undo =>
    refine moves_of (fun _ => rfl) fun s ⟨is, on, full, idle⟩ => ?_
    have full' : s.undoFull g = true := decide_eq_true full
    rw [is]
    exact if_pos (by rw [on, full', idle]; rfl)
  case mirror =>
    refine moves_of (fun _ => rfl) fun s ⟨is, place, mirroring, sent⟩ => ?_
    have peer : (s.peer g).isNone = false := by
      unfold State.peer
      dsimp only
      rw [if_neg place]
      rfl
    rw [is]
    exact if_neg (by rw [peer, mirroring, sent]; decide)
  case rollback =>
    intro back heard forward failed first
    have lookup {s : State} (is : s.gangs.lookup n = some g) : (forward s).gangs.lookup n = some g := by
      unfold forward
      split
      · rw [State.sendLane_gangs]
        exact is
      · exact is
    have forwards (s : State) : (if g.rank = 0 then s.sendRollback n g else s) = forward s := by
      unfold forward
      split
      · next lead =>
        unfold State.sendRollback
        rw [if_pos lead]
      · rfl
    have announced {s : State} (is : s.gangs.lookup n = some g) (live : g.retired = false) :
        s.onRollback n = (first s).rollBack n := State.onRollback_of is live
    have led (s : State) : (first s).gangs.lookup n = some { g with rolled := decide (g.rank ≠ 0) } :=
      State.lookup_setGang (s.sendLane (if g.rank = 0 then s.othersOf g else [g.members.headD 0]) (.flit n 10 0 g.epoch)) n _
    refine ⟨moves_of (fun _ => rfl) fun s ⟨⟨is, live, new⟩, ckpt, few⟩ => ?_, moves_of (fun _ => rfl) fun s ⟨⟨is, live, new⟩, ckpt, many⟩ => ?_,
      moves_of (fun _ => rfl) fun s ⟨⟨is, live, new⟩, ckpt⟩ => ?_, moves_of (fun _ => rfl) fun s ⟨is, live, old⟩ => ?_,
      rests_of (fun _ => rfl) fun s ⟨is, gone⟩ => ?_, moves_of (fun _ => rfl) fun s ⟨⟨is, live⟩, ckpt, few⟩ => ?_,
      moves_of (fun _ => rfl) fun s ⟨⟨is, live⟩, ckpt⟩ => ?_,
      moves_of (fun _ => rfl) fun s ⟨⟨is, live⟩, gid, active, missed, ckpt, few⟩ => ?_,
      fun m => moves_of (fun _ => rfl) fun s ⟨active, missed⟩ => ?_, rests_of (fun _ => rfl) fun s idle => ?_, moves_of (fun _ => rfl) fun _ _ => rfl⟩
    · rw [is]
      refine (if_neg (by rw [live]; exact Bool.false_ne_true)).trans ((if_neg (by rw [new]; exact Bool.false_ne_true)).trans ?_)
      rw [forwards]
      exact State.rollBack_to (lookup is) live ckpt few
    · rw [is]
      refine (if_neg (by rw [live]; exact Bool.false_ne_true)).trans ((if_neg (by rw [new]; exact Bool.false_ne_true)).trans ?_)
      rw [forwards]
      exact State.rollBack_fails (lookup is) live ckpt many
    · rw [is]
      refine (if_neg (by rw [live]; exact Bool.false_ne_true)).trans ((if_neg (by rw [new]; exact Bool.false_ne_true)).trans ?_)
      rw [forwards]
      exact State.rollBack_none (lookup is) live ckpt
    · rw [is]
      exact (if_neg (by rw [live]; exact Bool.false_ne_true)).trans (if_pos old)
    · rw [is]
      exact if_pos gone
    · exact (announced (s := counted 3 s) is live).trans (State.rollBack_to (led _) live ckpt few)
    · exact (announced (s := counted 3 s) is live).trans (State.rollBack_none (led _) live ckpt)
    · dsimp only
      rw [if_neg (by rw [Option.isNone_iff_eq_none]; exact active), missed, gid]
      exact (announced (s := counted 3 (counted 2 s)) is live).trans (State.rollBack_to (led _) live ckpt few)
    · dsimp only
      rw [if_neg (by rw [Option.isNone_iff_eq_none]; exact active), missed]
      rfl
    · exact if_pos (by rw [idle]; rfl)
  case fail =>
    intro s l x ended
    unfold State.failLaunch
    refine ⟨fun off => ?_, fun d ds state on => ?_, fun state free => ?_, fun over_ => ?_⟩
    · rcases off with state | state | ⟨state, none⟩
      · dsimp only
        rw [show (s.launch l).state = .saved from state]
      · dsimp only
        rw [show (s.launch l).state = .discarded from state]
      · dsimp only
        rw [show (s.launch l).state = .running from state, none]
    · dsimp only
      rw [show (s.launch l).state = .running from state, on]
    · dsimp only
      rw [show (s.launch l).state = .waiting from state]
      exact if_pos free
    · rcases over_ with state | state
      · dsimp only
        rw [show (s.launch l).state = .ending from state]
      · dsimp only
        rw [show (s.launch l).state = .complete from state]
  case silent =>
    refine moves_of (fun _ => rfl) fun s ⟨is, lead, voting, member, other⟩ => ?_
    dsimp only
    rw [is]
    exact if_pos (by rw [lead, voting, member, bne_iff_ne.2 other]; rfl)
  case arrival =>
    refine moves_of (fun _ => rfl) fun s is => ?_
    rw [is]
    rfl
  case release =>
    refine moves_of (fun _ => rfl) fun s is => ?_
    rw [is]
    rfl
  case flag =>
    refine moves_of (fun _ => rfl) fun s is => ?_
    rw [is]
    rfl
  case result =>
    refine moves_of (fun _ => rfl) fun s is => ?_
    rw [is]
    rfl
  case slot =>
    refine moves_of (fun _ => rfl) fun s ⟨there, new⟩ => ?_
    unfold State.onSlot
    refine (if_neg (by rw [there]; decide)).trans (if_neg ?_)
    rw [Bool.and_eq_true, Bool.and_eq_true, decide_eq_true_eq, decide_eq_true_eq]
    rintro ⟨⟨on, same⟩, here⟩
    rcases new with off | other | other
    · rw [on] at off
      cases off
    · exact other same
    · exact other here
  case expire => exact moves_of (fun _ => rfl) fun s there => if_neg (by rw [there]; decide)
  case expireRests => exact rests_of (fun _ => rfl) fun s none => if_pos (by rw [none]; rfl)
  case sram => exact moves_of (fun _ => rfl) fun _ _ => rfl
  case hbm => exact moves_of (fun _ => rfl) fun _ _ => rfl
  case unowned => exact moves_of (fun _ => rfl) fun _ _ => rfl

end Sys2Proof.Claims

end

section
/-! PROOFS. Every step keeps the two memories in canonical form (log 5): O59. One rule per operation on the state, in the order of the model. -/

namespace Sys2Proof.Machine

/-! ### What is kept, and how a result keeps it -/

/-- The memories of a state are in canonical form. -/
def Canon (s : State) : Prop := s.canonical = true

theorem canon_iff (s : State) : Canon s ↔ Memory.wf s.gmem = true ∧ Memory.wf s.pmem = true := by
  unfold Canon State.canonical
  exact Bool.and_eq_true_iff

@[simp] theorem Canon.gmem {s : State} (h : Canon s) : Memory.wf s.gmem = true := ((canon_iff s).1 h).1

@[simp] theorem Canon.pmem {s : State} (h : Canon s) : Memory.wf s.pmem = true := ((canon_iff s).1 h).2

/-- Only the two memories of a state written out field by field matter. -/
@[simp] theorem canon_mk
    {agenda turn mark bun out now draws useTlb fresh colds devnum qen bootStep warm bootFail ready holds hold throt tj thermtrip rst pwrok
     powered govEn govRaised govLimit errcnt ksel kerr kdata slots ports seustUp seustRetraining ints acks seustOwed mirrors snap p
     lines g granules touches tlb held parts vds gangs parg pcmdPart pseq pbusy pcode pwait launches nextLaunch nodes clusters cores} :
    Canon ⟨agenda, turn, mark, bun, out, now, draws, useTlb, fresh, colds, devnum, qen, bootStep, warm, bootFail, ready, holds, hold, throt, tj,
      thermtrip, rst, pwrok, powered, govEn, govRaised, govLimit, errcnt, ksel, kerr, kdata, slots, ports, seustUp, seustRetraining, ints,
      acks, seustOwed, mirrors, snap, p, lines, g, granules, touches, tlb, held, parts, vds, gangs, parg, pcmdPart, pseq, pbusy, pcode,
      pwait, launches, nextLaunch, nodes, clusters, cores⟩ ↔ Memory.wf g = true ∧ Memory.wf p = true := canon_iff _

/-- Where a result gives a state, its memories are in canonical form. -/
def Sound {ε α : Type} (at_ : α → State) : Except ε α → Prop
  | .ok a => Canon (at_ a)
  | .error _ => True

@[simp] theorem sound_ok {ε α : Type} (at_ : α → State) (a : α) : Sound at_ (.ok a : Except ε α) ↔ Canon (at_ a) := .rfl

@[simp] theorem sound_error {ε α : Type} (at_ : α → State) (e : ε) : Sound at_ (.error e : Except ε α) := trivial

theorem Sound.intro {ε α : Type} {at_ : α → State} {r : Except ε α} (h : ∀ a, r = .ok a → Canon (at_ a)) : Sound at_ r := by
  cases r with
  | ok a => exact h a rfl
  | error e => trivial

theorem Sound.ok {ε α : Type} {at_ : α → State} {r : Except ε α} {a : α} (h : Sound at_ r) (is : r = .ok a) : Canon (at_ a) := by
  subst is
  exact h

@[simp] theorem sound_trapped {α : Type} (at_ : α → State) (cls addr : Nat) : Sound at_ (trapped cls addr) := trivial

@[simp] theorem sound_ienc {α : Type} (at_ : α → State) : Sound at_ ienc := trivial

@[simp] theorem sound_isch {α : Type} (at_ : α → State) : Sound at_ isch := trivial

@[simp] theorem sound_stalled {α : Type} (at_ : α → State) : Sound at_ stalled := trivial

/-- Where there is a state, its memories are in canonical form. -/
def SoundIf {α : Type} (at_ : α → State) : Option α → Prop
  | some a => Canon (at_ a)
  | none => True

@[simp] theorem soundIf_some {α : Type} (at_ : α → State) (a : α) : SoundIf at_ (some a) ↔ Canon (at_ a) := .rfl

@[simp] theorem soundIf_none {α : Type} (at_ : α → State) : SoundIf at_ (none : Option α) := trivial

theorem SoundIf.some {α : Type} {at_ : α → State} {r : Option α} {a : α} (h : SoundIf at_ r) (is : r = .some a) : Canon (at_ a) := by
  subst is
  exact h

/-- The next state, where there is one, has its memories in canonical form. -/
def Lands : Host.Outcome State Fault Refusal → Prop
  | .next t => Canon t
  | _ => True

@[simp] theorem lands_next (t : State) : Lands (.next t) ↔ Canon t := .rfl

@[simp] theorem lands_refused (r : Refusal) : Lands (.refused r) := trivial

@[simp] theorem lands_fault (r : Fault) : Lands (.fault r) := trivial

theorem foldl_canon {α : Type} {f : State → α → State} (hf : ∀ t a, Canon t → Canon (f t a)) (xs : List α) {s : State} (hs : Canon s) :
    Canon (xs.foldl f s) := by
  induction xs generalizing s with
  | nil => exact hs
  | cons x xs ih => exact ih (hf s x hs)

/-! ### The operations on memory -/

@[simp] theorem State.setCore_canon {s : State} (hs : Canon s) (c : Nat) (k : Core) : Canon (s.setCore c k) := hs

@[simp] theorem State.w1cSet_canon {s : State} (hs : Canon s) (w : W1c) : Canon (s.w1cSet w) := hs

@[simp] theorem State.setCur_canon {s : State} (hs : Canon s) (k : Core) : Canon (s.setCur k) := hs

@[simp] theorem State.setVd_canon {s : State} (hs : Canon s) (v : Nat) (x : VDev) : Canon (s.setVd v x) := hs

@[simp] theorem State.gWrite_canon {s : State} (hs : Canon s) (a : Nat) (bs : List Byte) : Canon (s.gWrite a bs) := State.gWrite_canonical a bs hs

@[simp] theorem State.paSet_canon {s : State} (hs : Canon s) (key pa : Nat) (b : Byte) :
    Canon (s.paSet key pa b) := State.paSet_canonical key pa b hs

@[simp] theorem State.paWrite_canon {s : State} (hs : Canon s) (key pa : Nat) (bs : List Byte) :
    Canon (s.paWrite key pa bs) := State.paWrite_canonical bs key pa hs

@[simp] theorem State.paZero_canon {s : State} (hs : Canon s) (key line n : Nat) :
    Canon (s.paZero key line n) := State.paZero_canonical key line n hs

@[simp] theorem State.saveWrite_canon {s : State} (hs : Canon s) (p key pa : Nat) (bs : List Byte) :
    Canon (s.saveWrite p key pa bs) := State.saveWrite_canonical p key pa bs hs

@[simp] theorem State.saveZero_canon {s : State} (hs : Canon s) (p key pa n : Nat) :
    Canon (s.saveZero p key pa n) := State.saveZero_canonical p key pa n hs

@[simp] theorem State.gStore_canon {s : State} (hs : Canon s) (gid a : Nat) (bs : List Byte) :
    Canon (s.gStore gid a bs) := State.gStore_canonical gid a bs hs

@[simp] theorem State.paStore_canon {s : State} (hs : Canon s) (gid key pa : Nat) (bs : List Byte) :
    Canon (s.paStore gid key pa bs) := State.paStore_canonical gid key pa bs hs

@[simp] theorem State.noteLeaf_canon {s : State} (hs : Canon s) (v va : Nat) (lf : Leaf) (k : MKind) :
    Canon (s.noteLeaf v va lf k) := State.noteLeaf_canonical v va lf k hs

@[simp] theorem State.chargeMem_canon {s : State} (hs : Canon s) (v pa n : Nat) :
    Canon (s.chargeMem v pa n) := (State.chargeMem_canonical s v pa n).trans hs

@[simp] theorem State.mLoad_sound {s : State} (hs : Canon s) (v va n : Nat) (k : MKind) :
    Sound (·.2) (s.mLoad v va n k) := Sound.intro fun _ => State.mLoad_canonical hs

@[simp] theorem State.paPut_canon {s : State} (hs : Canon s) (v key pa : Nat) (bs : List Byte) (k : MKind) :
    Canon (s.paPut v key pa bs k) := State.paPut_canonical v key pa bs k hs

@[simp] theorem State.mStore_sound {s : State} (hs : Canon s) (v va : Nat) (bs : List Byte) (k : MKind) :
    Sound id (s.mStore v va bs k) := Sound.intro fun _ => State.mStore_canonical hs

@[simp] theorem State.mPoke_canon {s : State} (hs : Canon s) (v va : Nat) (bs : List Byte) :
    Canon (s.mPoke v va bs) := State.mPoke_canonical v va bs hs

@[simp] theorem State.noteHeld_canon {s : State} (hs : Canon s) (v va : Nat) : Canon (s.noteHeld v va) := State.noteHeld_canonical v va hs

@[simp] theorem State.chargeLines_canon {s : State} (hs : Canon s) (v : Nat) (ls : List Nat) : Canon (s.chargeLines v ls) := by
  unfold State.chargeLines
  split <;> simp [hs]

@[simp] theorem State.mReadAll_sound {s : State} (hs : Canon s) (v : Nat) (k : MKind) (fuel va n : Nat) :
    Sound (·.2) (s.mReadAll v k fuel va n) := by
  induction fuel generalizing s va n with
  | zero => cases n <;> exact hs
  | succ fuel ih =>
    cases n with
    | zero => exact hs
    | succ n =>
      unfold State.mReadAll
      split
      · simp
      · next bs t is =>
        have made : Canon t := Sound.ok (at_ := (·.2)) (by simp [hs]) is
        split
        · simp
        · next rest u is => exact Sound.ok (at_ := (·.2)) (ih made _ _) is

@[simp] theorem State.mReadExtent_sound {s : State} (hs : Canon s) (v va n : Nat) (k : MKind) : Sound (·.2) (s.mReadExtent v va n k) := by
  unfold State.mReadExtent
  split <;> simp [hs]

@[simp] theorem State.mWriteAll_sound {s : State} (hs : Canon s) (v : Nat) (k : MKind) (fuel va : Nat) (bs : List Byte) :
    Sound id (s.mWriteAll v k fuel va bs) :=
  Sound.intro fun _ => State.mWriteAll_canonical fuel hs

@[simp] theorem State.mWriteExtent_sound {s : State} (hs : Canon s) (v va : Nat) (bs : List Byte) (k : MKind) :
    Sound id (s.mWriteExtent v va bs k) :=
  Sound.intro fun _ => State.mWriteExtent_canonical hs

@[simp] theorem State.setSpillBit_canon {s : State} (hs : Canon s) (gid g : Nat) (b : Bool) :
    Canon (s.setSpillBit gid g b) := State.setSpillBit_canonical gid g b hs

@[simp] theorem State.takeGranule_canon {s : State} (hs : Canon s) (gid g : Nat) : Canon (s.takeGranule gid g) := by
  unfold State.takeGranule
  split <;> simp [hs]

@[simp] theorem State.takeAll_canon {s : State} (hs : Canon s) (gid : Nat) (xs : List Nat) : Canon (s.takeAll gid xs) := by
  induction xs generalizing s with
  | nil => exact hs
  | cons x xs ih => exact ih (by simp [hs])

@[simp] theorem State.want_canon {s : State} (hs : Canon s) (gid : Nat) (gs : List Nat) : Canon (s.want gid gs) := by
  induction gs generalizing s with
  | nil => exact hs
  | cons g gs ih =>
    refine ih ?_
    split <;> simp [hs]

@[simp] theorem State.touching_canon {s : State} (hs : Canon s) (gid : Nat) (gs : List Nat) {f : State → State}
    (hf : ∀ x0, Canon x0 → Canon (f x0)) : Canon (s.touching gid gs f) := by
  unfold State.touching
  split <;> simp [hs, hf]

@[simp] theorem State.pin_canon {s : State} (hs : Canon s) (xs : List Nat) : Canon (s.pin xs) := by
  induction xs generalizing s with
  | nil => exact hs
  | cons x xs ih => exact ih (by simp [hs])

@[simp] theorem State.unpin_canon {s : State} (hs : Canon s) (xs : List Nat) : Canon (s.unpin xs) := by
  induction xs generalizing s with
  | nil => exact hs
  | cons x xs ih => exact ih (by simp [hs])

@[simp] theorem State.setLaunch_canon {s : State} (hs : Canon s) (l : Nat) (x : Launch) : Canon (s.setLaunch l x) := hs

@[simp] theorem State.landAt_sound {s : State} (hs : Canon s) (lat : Nat) (l : Landing) : Sound id (s.landAt lat l) := by
  unfold State.landAt
  dsimp only
  split <;> simp [hs]

@[simp] theorem State.landAll_sound {s : State} (hs : Canon s) (lat : Nat) (ls : List Landing) : Sound id (s.landAll lat ls) := by
  induction ls generalizing s with
  | nil => exact hs
  | cons l ls ih =>
    unfold State.landAll
    split
    · next t is => exact ih (Sound.ok (at_ := id) (by simp [hs]) is)
    · simp

@[simp] theorem State.putScalar_sound {s : State} (hs : Canon s) (lat : Nat) (w : Width) (d : Nat) (v : Nat) (latch : Option Nat) :
    Sound id (s.putScalar lat w d v latch) := by
  unfold State.putScalar
  simp [hs]

@[simp] theorem State.laneStore_canon {s : State} (hs : Canon s) (c gid : Nat) (xs : List (Nat × Word)) : Canon (s.laneStore c gid xs) := by
  induction xs generalizing s with
  | nil => exact hs
  | cons x xs ih => exact ih (by simp [hs])

@[simp] theorem State.land_canon {s : State} (hs : Canon s) (c : Nat) (l : Landing) : Canon (s.land c l) := by
  unfold State.land
  split <;> simp [hs]

@[simp] theorem State.keepOld_canon {s : State} (hs : Canon s) (c : Nat) (f : InFlight) : Canon (s.keepOld c f) := by
  unfold State.keepOld
  dsimp only
  split <;> simp [hs]

@[simp] theorem State.landList_canon {s : State} (hs : Canon s) (c : Nat) (xs : List InFlight) : Canon (s.landList c xs) := by
  induction xs generalizing s with
  | nil => exact hs
  | cons x xs ih => exact ih (by simp [hs])

@[simp] theorem State.landDue_canon {s : State} (hs : Canon s) (c : Nat) : Canon (s.landDue c) := by
  unfold State.landDue
  simp [hs]

@[simp] theorem State.schedStep_canon {s : State} (hs : Canon s) (c : Nat) : Canon (s.schedStep c) := by
  unfold State.schedStep
  simp [hs]

@[simp] theorem State.drainFlight_canon {s : State} (hs : Canon s) (c n : Nat) : Canon (s.drainFlight c n) := by
  induction n generalizing s with
  | zero => exact hs
  | succ n ih =>
    unfold State.drainFlight
    split <;> simp [ih, hs]

@[simp] theorem State.claimUnit_sound {s : State} (hs : Canon s) (i : Instr) : Sound id (s.claimUnit i) := by
  unfold State.claimUnit
  (repeat' split) <;> simp [hs]

@[simp] theorem State.haltCore_canon {s : State} (hs : Canon s) (c : Nat) : Canon (s.haltCore c) := by
  unfold State.haltCore
  dsimp only
  split <;> simp [hs]

@[simp] theorem State.setPort_canon {s : State} (hs : Canon s) (p : Nat) (x : QPort) : Canon (s.setPort p x) := hs

@[simp] theorem State.sendLane_canon {s : State} (hs : Canon s) (dst : List Nat) (m : Control) : Canon (s.sendLane dst m) := by
  unfold State.sendLane
  dsimp only
  (repeat' split) <;> simp [hs]

@[simp] theorem State.sendTrigger_canon {s : State} (hs : Canon s) (gid : Nat) : Canon (s.sendTrigger gid) := by
  unfold State.sendTrigger
  split <;> simp [hs]

@[simp] theorem State.fireSnapshot_canon {s : State} (hs : Canon s) (v : Nat) (tag src : Nat) : Canon (s.fireSnapshot v tag src) := by
  unfold State.fireSnapshot
  dsimp only
  (repeat' split) <;> simp (maxDischargeDepth := 9) [hs]

@[simp] theorem State.faultSeen_canon {s : State} (hs : Canon s) (v cls : Nat) : Canon (s.faultSeen v cls) := by
  unfold State.faultSeen
  split <;> simp [hs]

@[simp] theorem State.takeFault_canon {s : State} (hs : Canon s) (c : Nat) (t : Trap) : Canon (s.takeFault c t) := by
  unfold State.takeFault
  split <;> simp (maxDischargeDepth := 9) [hs]

@[simp] theorem State.beginPark_canon {s : State} (hs : Canon s) (c : Nat) (t : Trap) : Canon (s.beginPark c t) := by
  unfold State.beginPark
  split <;> simp [hs]

@[simp] theorem State.raise_canon {s : State} (hs : Canon s) (c : Nat) (t : Trap) : Canon (s.raise c t) := by
  unfold State.raise
  split <;> simp [hs]

@[simp] theorem State.unpark_canon {s : State} (hs : Canon s) (c frm lead : Nat) (saved : Core) (mask : Nat) :
    Canon (s.unpark c frm lead saved mask) := hs

@[simp] theorem State.gate_sound {s : State} (hs : Canon s) (i : Instr) : Sound id (s.gate i) := by
  unfold State.gate
  dsimp only
  (repeat' split) <;> simp [hs]

@[simp] theorem State.close_canon {s : State} (hs : Canon s) {r : Eff} (hr : Sound id r) : Canon (s.close r) := by
  unfold State.close
  split
  · exact hr
  all_goals simp [hs]

@[simp] theorem behindGate_sound (e : Stop) (r : Eff) : Sound id (behindGate e r) := by
  unfold behindGate
  split
  · simp
  · simp
  · split <;> simp

@[simp] theorem State.attempt_sound {s : State} (hs : Canon s) (i : Instr) {f : State → Eff} (hf : ∀ x0, Canon x0 → Sound id (f x0)) :
    Sound id (s.attempt i f) := by
  unfold State.attempt
  split
  · next t is =>
    have made : Canon t := Sound.ok (at_ := id) (by simp [hs]) is
    simp [made, hf]
  · simp

theorem State.word_lands {s : State} (hs : Canon s) {i : Instr} {f : State → Eff} (hf : ∀ t, Canon t → Sound id (f t)) : Lands (s.word i f) :=
  State.close_canon hs (State.attempt_sound hs i hf)

theorem State.move_lands {s : State} (hs : Canon s) {f : State → State} (hf : Canon s → Canon (f s)) : Lands (s.move f) := hf hs

@[simp] theorem State.goto_canon {s : State} (hs : Canon s) (taken : Bool) (t : Nat) : Canon (s.goto taken t) := by
  unfold State.goto
  split <;> simp [hs]

@[simp] theorem State.link_sound {s : State} (hs : Canon s) (d : Nat) : Sound id (s.link d) := by
  unfold State.link
  simp [hs]

@[simp] theorem State.loopIssue_sound {s : State} (hs : Canon s) (n : Nat) (fin v : Nat) : Sound id (s.loopIssue n fin v) := by
  unfold State.loopIssue
  dsimp only
  (repeat' split) <;> simp [hs]

@[simp] theorem State.planeOut_sound {s : State} (hs : Canon s) (lat interval n : Nat) (d : Fin 16) (mask : Fin 8) (f : Nat → Nat → Word × Flags) :
    Sound id (s.planeOut lat interval n d mask f) := by
  unfold State.planeOut
  simp [hs]

@[simp] theorem State.planeQuiet_sound {s : State} (hs : Canon s) (lat n : Nat) (d : Fin 16) (mask : Fin 8) (f : Nat → Nat → Word) :
    Sound id (s.planeQuiet lat n d mask f) := by
  unfold State.planeQuiet
  simp [hs]

@[simp] theorem State.planeArith_sound {s : State} (hs : Canon s) (lat : Nat) (d : Fin 16) (mask : Fin 8) (pw : Fin 4) (ty sub : Fin 8)
    (src : Nat → Nat → List Word) (ff : List Num → Option Num) (fi : List Int → Int) : Sound id (s.planeArith lat d mask pw ty sub src ff fi) := by
  unfold State.planeArith
  simp [hs]

@[simp] theorem State.planeElem_sound {s : State} (hs : Canon s) (d : Fin 16) (mask : Fin 8) (pw : Fin 4) (ty : Fin 8)
    (f : Nat → Nat → Nat → Nat × Flags) : Sound id (s.planeElem d mask pw ty f) := by
  unfold State.planeElem
  simp [hs]

@[simp] theorem State.updHandle_canon {s : State} (hs : Canon s) (c h : Nat) (f : Handle → Handle) : Canon (s.updHandle c h f) := hs

@[simp] theorem State.unclaimAll_canon {s : State} (hs : Canon s) (c : Nat) (xs : List Nat) : Canon (s.unclaimAll c xs) := by
  induction xs generalizing s with
  | nil => exact hs
  | cons x xs ih => exact ih (by simp [hs])

@[simp] theorem State.touch_sound {s : State} (hs : Canon s) (c a n : Nat) : Sound id (s.touch c a n) := by
  unfold State.touch
  dsimp only
  split <;> simp [hs]

@[simp] theorem State.local_sound {s : State} (hs : Canon s) (a n unit : Nat) {f : State → Eff} (hf : ∀ t, Canon t → Sound id (f t)) :
    Sound id (s.local a n unit f) := by
  unfold State.local
  split
  · simp
  · split
    · next t is => exact hf t (Sound.ok (at_ := id) (by simp [hs]) is)
    · simp

@[simp] theorem State.handleRead_sound {s : State} (hs : Canon s) (h : Fin 64) (gen : Bool) (off : Int) (n : Nat) {f : Nat → State → Eff}
    (hf : ∀ a t, Canon t → Sound id (f a t)) : Sound id (s.handleRead h gen off n f) := by
  unfold State.handleRead
  dsimp only
  split
  · simp
  · split
    · simp
    · split
      · simp
      · split
        · simp
        · exact State.local_sound hs _ _ _ fun t ht => hf _ _ ht

@[simp] theorem State.handleWrite_sound {s : State} (hs : Canon s) (h : Fin 64) (off : Int) (n : Nat) {f : Nat → State → Eff}
    (hf : ∀ a t, Canon t → Sound id (f a t)) : Sound id (s.handleWrite h off n f) := by
  unfold State.handleWrite
  dsimp only
  split
  · simp
  · split
    · simp
    · split
      · simp
      · split
        · simp
        · exact State.local_sound hs _ _ _ fun t ht => hf _ _ ht

@[simp] theorem State.push_sound {s : State} (hs : Canon s) (x : Access) : Sound id (s.push x) := by
  unfold State.push
  dsimp only
  (repeat' split) <;> simp [hs]

@[simp] theorem State.remote_sound {s : State} (hs : Canon s) (x : Access) : Sound id (s.remote x) := by
  unfold State.remote
  split <;> simp [hs]

@[simp] theorem State.localLoad_sound {s : State} (hs : Canon s) (w : Width) (d a : Nat) : Sound id (s.localLoad w d a) := by
  unfold State.localLoad
  simp [hs]

@[simp] theorem State.engineNote_canon {s : State} (hs : Canon s) (v : Nat) (k : MKind) (m : Map Nat) : Canon (s.engineNote v k m) := by
  induction m generalizing s with
  | nil => exact hs
  | cons e m ih =>
    unfold State.engineNote
    split <;> simp [ih, hs]

@[simp] theorem State.storeEach_canon {s : State} (hs : Canon s) (v : Nat) (xs : List EngineWrite) : Canon (s.storeEach v xs) := by
  induction xs generalizing s with
  | nil => exact hs
  | cons x xs ih =>
    unfold State.storeEach
    (repeat' split) <;> simp (maxDischargeDepth := 9) [ih, hs]

@[simp] theorem State.engineStore_canon {s : State} (hs : Canon s) (v : Nat) (ws : List EngineWrite) : Canon (s.engineStore v ws) := by
  unfold State.engineStore
  simp [hs]

@[simp] theorem State.withdraw_canon {s : State} (hs : Canon s) (c : Nat) (x : FlumeRec) : Canon (s.withdraw c x) := by
  unfold State.withdraw
  split <;> simp [hs]

@[simp] theorem State.abandon_canon {s : State} (hs : Canon s) (c : Nat) (x : FlumeRec) : Canon (s.abandon c x) := by
  unfold State.abandon
  split <;> simp (maxDischargeDepth := 9) [hs]

@[simp] theorem State.abandonAll_canon {s : State} (hs : Canon s) (c : Nat) (xs : List FlumeRec) : Canon (s.abandonAll c xs) := by
  induction xs generalizing s with
  | nil => exact hs
  | cons x xs ih => exact ih (by simp [hs])

@[simp] theorem State.issueCmd_sound {s : State} (hs : Canon s) (x : Cmd) : Sound id (s.issueCmd x) := by
  unfold State.issueCmd
  dsimp only
  split <;> simp [hs]

@[simp] theorem State.landedStores_canon {s : State} (hs : Canon s) (c : Nat) : Canon (s.landedStores c) := by
  unfold State.landedStores
  simp [hs]

@[simp] theorem State.claimAll_canon {s : State} (hs : Canon s) (c : Nat) (xs : List Nat) : Canon (s.claimAll c xs) := by
  induction xs generalizing s with
  | nil => exact hs
  | cons x xs ih => exact ih (by simp [hs])

@[simp] theorem State.issueProduct_sound {s : State} (hs : Canon s) (op : MOp) (acc : Fin 8) (clr : Bool) (pf : Fin 32) (a b : Fin 16)
    (ix : List Word) : Sound id (s.issueProduct op acc clr pf a b ix) := by
  unfold State.issueProduct
  dsimp only
  (repeat' split) <;> simp [hs]

@[simp] theorem State.suspend_sound {s : State} (hs : Canon s) (kind h : Nat) (gen : Bool) : Sound id (s.suspend kind h gen) := by
  unfold State.suspend
  split <;> simp [hs]

@[simp] theorem State.programTrap_sound {s : State} (hs : Canon s) (code : Nat) : Sound id (s.programTrap code) := by
  unfold State.programTrap
  split <;> simp [hs]

@[simp] theorem State.unparkAll_canon {s : State} (hs : Canon s) (lead c : Nat) (e : FqEntry) (mask : Nat) (val : Word) (ks : List (Nat × Core)) :
    Canon (s.unparkAll lead c e mask val ks) := by
  induction ks generalizing s c with
  | nil => exact hs
  | cons k ks ih =>
    refine ih ?_ _
    split <;> simp [hs]

@[simp] theorem State.resumeInPlace_canon {s : State} (hs : Canon s) (v : Nat) (e : FqEntry) (mask : Nat) (val : Word) :
    Canon (s.resumeInPlace v e mask val) := by
  unfold State.resumeInPlace
  dsimp only
  (repeat' split) <;> simp [hs]

@[simp] theorem State.resolve_canon {s : State} (hs : Canon s) (v seq mask : Nat) (val : Word) : Canon (s.resolve v seq mask val) := by
  unfold State.resolve
  dsimp only
  (repeat' split) <;> simp [hs]

@[simp] theorem State.haltChannel_canon {s : State} (hs : Canon s) (c n : Nat) : Canon (s.haltChannel c n) := by
  unfold State.haltChannel
  dsimp only
  split <;> simp [hs]

@[simp] theorem State.onHandle_sound (s : State) (h : Nat) {f : Handle → Eff} (hf : ∀ x, Sound id (f x)) : Sound id (s.onHandle h f) := by
  unfold State.onHandle
  split <;> simp [hf]

@[simp] theorem State.changeHandle_sound {s : State} (hs : Canon s) (h : Nat) (x : Option Handle) : Sound id (s.changeHandle h x) := by
  cases x with
  | none => simp [State.changeHandle]
  | some x => exact hs

@[simp] theorem State.onComm_sound (s : State) (a : Fin 64) {f : Nat → Comm → Eff} (hf : ∀ n m, Sound id (f n m)) : Sound id (s.onComm a f) := by
  unfold State.onComm
  dsimp only
  split <;> simp [hf]

@[simp] theorem State.setComm_canon {s : State} (hs : Canon s) (v n : Nat) (m : Comm) : Canon (s.setComm v n m) := hs

@[simp] theorem State.post_sound {s : State} (hs : Canon s) (n : Nat) (m : Comm) (bar : Bool) (ptr : Nat) : Sound id (s.post n m bar ptr) := by
  unfold State.post
  split <;> simp [hs]

@[simp] theorem State.performCells_canon {s : State} (hs : Canon s) (v : Nat) (m : Bool) (xs : List (Nat × Byte)) :
    Canon (s.performCells v m xs) := by
  induction xs generalizing s with
  | nil => exact hs
  | cons x xs ih =>
    unfold State.performCells
    (repeat' split) <;> simp (maxDischargeDepth := 9) [ih, hs]

@[simp] theorem State.performLines_canon {s : State} (hs : Canon s) (v : Nat) (xs : List SqLine) : Canon (s.performLines v xs) := by
  induction xs generalizing s with
  | nil => exact hs
  | cons x xs ih =>
    unfold State.performLines
    (repeat' split) <;> simp (maxDischargeDepth := 9) [ih, hs]

@[simp] theorem State.release_canon {s : State} (hs : Canon s) (v sc c : Nat) : Canon (s.release v sc c) := by
  unfold State.release
  simp [hs]

@[simp] theorem State.releaseAll_canon {s : State} (hs : Canon s) (v sc : Nat) (xs : List Nat) : Canon (s.releaseAll v sc xs) := by
  induction xs generalizing s with
  | nil => exact hs
  | cons x xs ih => exact ih (by simp [hs])

@[simp] theorem State.planeLoad_sound {s : State} (hs : Canon s) (d a : Nat) (m : BitVec 1024) : Sound id (s.planeLoad d a m) := by
  unfold State.planeLoad
  simp [hs]

@[simp] theorem State.planeStore_sound {s : State} (hs : Canon s) (d a : Nat) (m : BitVec 1024) : Sound id (s.planeStore d a m) := hs

@[simp] theorem State.touchLanes_sound {s : State} (hs : Canon s) (ls : List (Nat × Nat)) : Sound id (s.touchLanes ls) := by
  induction ls generalizing s with
  | nil => exact hs
  | cons l ls ih =>
    unfold State.touchLanes
    split
    · next t is => exact ih (Sound.ok (at_ := id) (by simp [hs]) is)
    · simp

@[simp] theorem State.scalarFloat_sound {s : State} (hs : Canon s) (d : Fin 64) (v : Core → Nat) : Sound id (s.scalarFloat d v) := by
  unfold State.scalarFloat
  simp [hs]

@[simp] theorem State.inScope_sound (s : State) (sc : Nat) {f : Eff} (hf : Sound id f) : Sound id (s.inScope sc f) := by
  unfold State.inScope
  (repeat' split) <;> simp [hf]

@[simp] theorem State.arrive_canon {s : State} (hs : Canon s) (i : Instr) (kind scope : Nat) (flag : Bool) (d : Nat) :
    Canon (s.arrive i kind scope flag d) := hs

@[simp] theorem State.sendUpdates_sound {s : State} (hs : Canon s) (n : Nat) (us : List OUpdate) : Sound id (s.sendUpdates n us) := by
  unfold State.sendUpdates
  split <;> simp [hs]

@[simp] theorem State.tensorLoad_sound {s : State} (hs : Canon s) (c : Nat) (x : Access) : Sound (·.2) (s.tensorLoad c x) := by
  unfold State.tensorLoad
  dsimp only
  split
  · simp
  · split
    · simp
    · next b t is =>
      have made : Canon t := Sound.ok (at_ := (·.2)) (by simp [hs]) is
      split
      · simp
      · split
        · simp [made]
        · split
          · split
            · simp
            · next cb u is => exact Sound.ok (at_ := (·.2)) (by simp [made]) is
          · (repeat' split) <;> simp [made]

@[simp] theorem State.landOver_canon {s : State} (hs : Canon s) (c : Nat) (p : Res → Bool) : Canon (s.landOver c p) := by
  unfold State.landOver
  simp [hs]

@[simp] theorem State.landHidden_canon {s : State} (hs : Canon s) (c d n : Nat) (v : Nat) : Canon (s.landHidden c d n v) := by
  unfold State.landHidden
  simp [hs]

@[simp] theorem State.performHead_canon {s : State} (hs : Canon s) (c : Nat) (m : Bool) (x : Access) : Canon (s.performHead c m x) := by
  unfold State.performHead
  dsimp only
  split
  · split
    · split
      · next b t is =>
        have made : Canon t := Sound.ok (at_ := (·.2)) (by simp [hs]) is
        simp [made]
      · exact hs
    · simp [hs]
  all_goals simp (maxDischargeDepth := 9) [hs]

@[simp] theorem State.atomDone_canon {s : State} (hs : Canon s) (c : Nat) (m : Bool) (x : Access) (old : Nat) : Canon (s.atomDone c m x old) := hs

@[simp] theorem State.performAtomic_canon {s : State} (hs : Canon s) (c : Nat) (m : Bool) (x : Access) : Canon (s.performAtomic c m x) := by
  unfold State.performAtomic
  dsimp only
  (repeat' split) <;> simp (maxDischargeDepth := 9) [hs]

@[simp] theorem State.logWrite_sound {s : State} (hs : Canon s) (u : OUpdate) (i : Nat) : SoundIf id (s.logWrite u i) := by
  unfold State.logWrite
  dsimp only
  (repeat' split) <;> simp (maxDischargeDepth := 9) [hs]

@[simp] theorem State.applyUpdate_canon {s : State} (hs : Canon s) (u : OUpdate) : Canon (s.applyUpdate u) := by
  unfold State.applyUpdate
  (repeat' split) <;> simp (maxDischargeDepth := 9) [hs]

@[simp] theorem State.applyUpdates_canon {s : State} (hs : Canon s) (xs : List OUpdate) : Canon (s.applyUpdates xs) := by
  induction xs generalizing s with
  | nil => exact hs
  | cons x xs ih => exact ih (by simp [hs])

@[simp] theorem State.closeUpdates_canon {s : State} (hs : Canon s) (v sc : Nat) (cs : List Nat) : Canon (s.closeUpdates v sc cs) := by
  unfold State.closeUpdates
  simp [hs]

@[simp] theorem State.settleFirst_sound {s : State} (hs : Canon s) (v sc : Nat) (cs : List Nat) : SoundIf id (s.settleFirst v sc cs) := by
  unfold State.settleFirst
  dsimp only
  (repeat' split) <;> simp [hs]

@[simp] theorem State.settle_canon {s : State} (hs : Canon s) (v sc : Nat) (cs : List Nat) : Canon (s.settle v sc cs) := by
  unfold State.settle
  simp [hs]

@[simp] theorem State.demandTail_canon {s : State} (hs : Canon s) (c : Nat) (d : Demand) : Canon (s.demandTail c d) := hs

@[simp] theorem State.pushEntry_sound {s : State} (hs : Canon s) (lat : Nat) (h : Header) (body : List Byte) :
    Sound id (s.pushEntry lat h body) := by
  unfold State.pushEntry
  dsimp only
  (repeat' split) <;> simp [hs]

@[simp] theorem State.popEntry_sound {s : State} (hs : Canon s) (op tag ty var param : Nat) (arg : Option Nat) :
    Sound (·.2.2) (s.popEntry op tag ty var param arg) := by
  unfold State.popEntry
  dsimp only
  (repeat' split) <;> simp [hs]

@[simp] theorem State.forward_sound {s : State} (hs : Canon s) (lat : Nat) (d a : Fin 16) (mask : Fin 8) (h : Header) (r : List Fwd)
    (body : List Byte) :
    Sound id (s.forward lat d a mask h r body) := by
  unfold State.forward
  dsimp only
  split
  · simp
  · next t is =>
    have made : Canon t := Sound.ok (at_ := id) (by simp [hs]) is
    simp [made]

@[simp] theorem State.undo_sound {s : State} (hs : Canon s) (lat : Nat) (d : Fin 16) (op tag ty var param fixed : Nat)
    (f : Header → List Byte → Nat → Word) : Sound id (s.undo lat d op tag ty var param fixed f) := by
  unfold State.undo
  split
  · simp
  · next h b t is =>
    have made : Canon t := Sound.ok (at_ := (·.2.2)) (by simp [hs]) is
    simp [made]

@[simp] theorem State.writeParts_canon {s : State} (hs : Canon s) (p key pa : Nat) (xs : List (Nat × List Byte)) :
    Canon (s.writeParts p key pa xs) := by
  induction xs generalizing s with
  | nil => exact hs
  | cons x xs ih => exact ih (by simp [hs])

@[simp] theorem State.zeroParts_canon {s : State} (hs : Canon s) (p key pa : Nat) (xs : List (Nat × Nat)) : Canon (s.zeroParts p key pa xs) := by
  induction xs generalizing s with
  | nil => exact hs
  | cons x xs ih => exact ih (by simp [hs])

@[simp] theorem State.writeContext_canon {s : State} (hs : Canon s) (p key pa c st : Nat) (x : Launch) (k : Core) :
    Canon (s.writeContext p key pa c st x k) := by
  unfold State.writeContext
  simp [hs]

/-- The definition is unfolded as a whole: the kernel would evaluate the frame's address to compare the two applications. -/
@[simp] theorem State.saveFrame_canon {s : State} (hs : Canon s) (v i c st : Nat) (k : Core) : Canon (s.saveFrame v i c st k) := by
  have body : @State.saveFrame = @State.saveFrame := rfl
  conv at body =>
    rhs
    delta State.saveFrame
  rw [body]
  beta_reduce
  generalize s.frameAt v i = o
  cases o with
  | none => exact hs
  | some pa => exact State.writeContext_canon hs _ _ _ _ _ _ _

@[simp] theorem State.ownPcs_canon {s : State} (hs : Canon s) (xs : List Nat) : Canon (s.ownPcs xs) := by
  induction xs generalizing s with
  | nil => exact hs
  | cons x xs ih => exact ih (by simp [hs])

@[simp] theorem State.setGang_canon {s : State} (hs : Canon s) (g : Nat) (x : Gang) : Canon (s.setGang g x) := hs

@[simp] theorem State.sendControl_canon {s : State} (hs : Canon s) (gid : Nat) (g : Gang) (type arg : Nat) (w : GangWord) :
    Canon (s.sendControl gid g type arg w) := by
  unfold State.sendControl
  simp [hs]

@[simp] theorem State.announce_canon {s : State} (hs : Canon s) (gid : Nat) (g : Gang) (w : GangWord) : Canon (s.announce gid g w) := by
  unfold State.announce
  dsimp only
  split <;> simp [hs]

/-- The state of either answer. -/
def GangGate.state : GangGate → State
  | .complete s => s
  | .wait s => s

@[simp] theorem State.gangGate_canon {s : State} (hs : Canon s) (v : Nat) (w : GangWord) : Canon (s.gangGate v w).state := by
  unfold State.gangGate
  dsimp only
  (repeat' split) <;> simp [hs, GangGate.state]

@[simp] theorem State.leavePhase_canon {s : State} (hs : Canon s) (xs : List Nat) : Canon (s.leavePhase xs) := by
  induction xs generalizing s with
  | nil => exact hs
  | cons x xs ih => exact ih (by simp [hs])

@[simp] theorem State.leaveBar_canon {s : State} (hs : Canon s) (xs : List Nat) : Canon (s.leaveBar xs) := by
  induction xs generalizing s with
  | nil => exact hs
  | cons x xs ih => exact ih (by simp [hs])

@[simp] theorem State.endPhase_canon {s : State} (hs : Canon s) (v : Nat) (w : GangWord) (cs : List Nat) : Canon (s.endPhase v w cs) := by
  have gate : Canon (s.gangGate v w).state := by simp [hs]
  unfold State.endPhase
  split
  · next t is => exact SoundIf.some (at_ := id) (by simp [hs]) is
  · split
    · next t is =>
      rw [is] at gate
      exact gate
    · next t is =>
      rw [is] at gate
      have made : Canon t := gate
      simp [made]

@[simp] theorem State.endBar_canon {s : State} (hs : Canon s) (v : Nat) (w : GangWord) (cs : List Nat) : Canon (s.endBar v w cs) := by
  have gate : Canon (s.gangGate v w).state := by simp [hs]
  unfold State.endBar
  split
  · next t is =>
    rw [is] at gate
    exact gate
  · next t is =>
    rw [is] at gate
    have made : Canon t := gate
    simp [made]

@[simp] theorem State.answerWords_canon {s : State} (hs : Canon s) (v : Nat) (xs : List GangWord) : Canon (s.answerWords v xs) := by
  induction xs generalizing s with
  | nil => exact hs
  | cons x xs ih =>
    unfold State.answerWords
    (repeat' split) <;> simp [ih, hs]

@[simp] theorem State.answerBarrier_canon {s : State} (hs : Canon s) (gid : Nat) : Canon (s.answerBarrier gid) := by
  unfold State.answerBarrier
  split <;> simp [hs]

@[simp] theorem State.leaveVote_canon {s : State} (hs : Canon s) (step : Word) (d : Bool) (cs : List Nat) : Canon (s.leaveVote step d cs) := by
  induction cs generalizing s with
  | nil => exact hs
  | cons c cs ih =>
    refine ih ?_
    split <;> simp (maxDischargeDepth := 9) [hs]

@[simp] theorem State.tally_canon {s : State} (hs : Canon s) (gid : Nat) (g : Gang) (flag : Bool) : Canon (s.tally gid g flag) := hs

@[simp] theorem State.endVote_canon {s : State} (hs : Canon s) (l : Nat) (flag : Bool) (cs : List Nat) : Canon (s.endVote l flag cs) := by
  unfold State.endVote
  dsimp only
  split <;> simp (maxDischargeDepth := 9) [hs]

@[simp] theorem State.castFlag_canon {s : State} (hs : Canon s) (gid : Nat) (g : Gang) (f : GangFlag) : Canon (s.castFlag gid g f) := by
  unfold State.castFlag
  dsimp only
  split <;> simp [hs]

/-- The state of either answer. -/
def VoteGate.state : VoteGate → State
  | .result _ s => s
  | .wait s => s

@[simp] theorem State.voteGate_canon {s : State} (hs : Canon s) (gid : Nat) (g : Gang) (f : GangFlag) : Canon (s.voteGate gid g f).state := by
  unfold State.voteGate
  dsimp only
  (repeat' split) <;> simp [hs, VoteGate.state]

/-! ### The engines, the launches and the Flume -/

@[simp] theorem State.answerVotes_canon {s : State} (hs : Canon s) (gid : Nat) (ls : List Nat) : Canon (s.answerVotes gid ls) := by
  induction ls generalizing s with
  | nil => exact hs
  | cons lid ls ih =>
    refine ih ?_
    split
    · exact hs
    · next g _ =>
      have gate : Canon (s.voteGate gid g { lid := lid, flag := false }).state := by simp [hs]
      split
      · exact hs
      · split
        · next t is =>
          rw [is] at gate
          exact gate
        · next r t is =>
          rw [is] at gate
          have made : Canon t := gate
          split <;> simp [made]

@[simp] theorem State.answerVote_canon {s : State} (hs : Canon s) (gid : Nat) : Canon (s.answerVote gid) := by
  unfold State.answerVote
  split <;> simp [hs]

@[simp] theorem State.answerGang_canon {s : State} (hs : Canon s) (gid : Nat) : Canon (s.answerGang gid) := by
  unfold State.answerGang
  simp [hs]

@[simp] theorem State.zeroGranule_canon {s : State} (hs : Canon s) (g : Nat) : Canon (s.zeroGranule g) :=
  (canon_iff _).2 ⟨Map.filter_wf _ hs.gmem, hs.pmem⟩

@[simp] theorem State.saveTrap_canon {s : State} (hs : Canon s) (gid c cls addr : Nat) : Canon (s.saveTrap gid c cls addr) := by
  unfold State.saveTrap
  dsimp only
  (repeat' split) <;> simp [hs]

@[simp] theorem State.spillGranule_canon {s : State} (hs : Canon s) (g : Nat) : Canon (s.spillGranule g) := by
  unfold State.spillGranule
  dsimp only
  (repeat' split) <;> simp (maxDischargeDepth := 9) [hs]

@[simp] theorem State.restoreGranule_canon {s : State} (hs : Canon s) (gid g : Nat) : Canon (s.restoreGranule gid g) := by
  have marked {t : State} (ht : Canon t) (m : Map Granule) : Canon { t with granules := m } := ht
  unfold State.restoreGranule
  split
  · exact hs
  · split
    · simp [hs]
    · exact marked (State.gWrite_canon (State.zeroGranule_canon (State.setSpillBit_canon hs gid g false) g) _ _) _

@[simp] theorem State.settleTouch_canon {s : State} (hs : Canon s) (g : Nat) : Canon (s.settleTouch g) := hs

@[simp] theorem State.spillFor_canon {s : State} (hs : Canon s) (gid g : Nat) : Canon (s.spillFor gid g) := by
  unfold State.spillFor
  dsimp only
  split <;> simp (maxDischargeDepth := 9) [hs]

@[simp] theorem State.settleNow_canon {s : State} (hs : Canon s) (gid : Nat) (gs : List Nat) : Canon (s.settleNow gid gs) := by
  induction gs generalizing s with
  | nil => exact hs
  | cons g gs ih =>
    refine ih ?_
    split <;> split <;> simp [hs]

@[simp] theorem State.restAll_canon {s : State} (hs : Canon s) (xs : List Nat) : Canon (s.restAll xs) := by
  induction xs generalizing s with
  | nil => exact hs
  | cons x xs ih => exact ih (by simp [hs])

@[simp] theorem State.poolWrite_sound {s : State} (hs : Canon s) (v va : Nat) (bs : List Byte) : Sound id (s.poolWrite v va bs) := by
  unfold State.poolWrite
  split
  · simp
  · split
    · next t is => exact Sound.ok (at_ := id) (by simp [hs]) is
    · simp

@[simp] theorem State.poolRead_sound {s : State} (hs : Canon s) (v va : Nat) : Sound (·.2) (s.poolRead v va) := by
  unfold State.poolRead
  split
  · simp
  · split
    · next r is => exact Sound.ok (at_ := (·.2)) (by simp [hs]) is
    · simp

@[simp] theorem State.suspendNow_canon {s : State} (hs : Canon s) (c kind h : Nat) (gen : Bool) (ms : List Nat) :
    Canon (s.suspendNow c kind h gen ms) := by
  unfold State.suspendNow
  dsimp only
  split
  · exact hs
  · split
    · simp [hs]
    · next b t is =>
      have read : Canon t := Sound.ok (at_ := (·.2)) (by simp [hs]) is
      split
      · simp [read]
      · next u is =>
        have made : Canon u := Sound.ok (at_ := id) (by simp [read]) is
        simp [made]

@[simp] theorem State.sendInt_canon {s : State} (hs : Canon s) (v kind : Nat) (seq : DWord) : Canon (s.sendInt v kind seq) := by
  unfold State.sendInt
  split <;> simp [hs]

@[simp] theorem State.signalCompletion_canon {s : State} (hs : Canon s) (v : Nat) : Canon (s.signalCompletion v) := by
  unfold State.signalCompletion
  dsimp only
  (repeat' split) <;> simp [hs]

@[simp] theorem State.signalFault_canon {s : State} (hs : Canon s) (v : Nat) : Canon (s.signalFault v) := by
  unfold State.signalFault
  dsimp only
  (repeat' split) <;> simp [hs]

@[simp] theorem State.fqWrite_sound {s : State} (hs : Canon s) (v : Nat) (e : FqWords) : Sound id (s.fqWrite v e) := by
  unfold State.fqWrite
  dsimp only
  split
  · simp
  · split
    · simp
    · next t is =>
      have made : Canon t := Sound.ok (at_ := id) (by simp [hs]) is
      simp [made]

@[simp] theorem State.parkAll_canon {s : State} (hs : Canon s) (v frame : Nat) (n_0 : Nat) (xs1 : List Nat) :
    Canon (s.parkAll v frame n_0 xs1) := by
  induction xs1 generalizing s n_0 with
  | nil => exact hs
  | cons x xs ih =>
    unfold State.parkAll
    simp (maxDischargeDepth := 9) [ih, hs]

@[simp] theorem State.waitAll_canon {s : State} (hs : Canon s) (seq : Nat) (xs : List Nat) : Canon (s.waitAll seq xs) := by
  induction xs generalizing s with
  | nil => exact hs
  | cons x xs ih => exact ih (by simp [hs])

@[simp] theorem State.parkFlight_canon {s : State} (hs : Canon s) (c m : Nat) (t : Trap) : Canon (s.parkFlight c m t) := by
  unfold State.parkFlight
  extract_lets v ms frame l arg e
  split
  · simp [hs]
  · split
    · simp [hs]
    · next u is =>
      have made : Canon u := Sound.ok (at_ := id) (by simp [hs]) is
      dsimp only
      split <;> simp (maxDischargeDepth := 9) [made]

@[simp] theorem State.parkOrLand_canon {s : State} (hs : Canon s) (c m : Nat) (t : Trap) : Canon (s.parkOrLand c m t) := by
  unfold State.parkOrLand
  split
  · simp [hs]
  · exact foldl_canon (fun u i hu => by simp [hu]) _ hs

@[simp] theorem State.parkChannel_canon {s : State} (hs : Canon s) (v c n : Nat) (t : Trap) : Canon (s.parkChannel v c n t) := by
  unfold State.parkChannel
  dsimp only
  split
  · simp [hs]
  · next s is =>
    have made : Canon s := Sound.ok (at_ := id) (by simp [hs]) is
    (repeat' split) <;> simp [made]

@[simp] theorem State.endedEntry_canon {s : State} (hs : Canon s) (l c : Nat) (k : Core) : Canon (s.endedEntry l c k) := by
  unfold State.endedEntry
  dsimp only
  generalize (if (s.launch l).faultSeq = 0 then (s.faultFrame (s.launch l).vd).getD 0xFFFF else 0xFFFF) = frame
  split
  · exact hs
  · split
    · exact hs
    · next u is =>
      have made : Canon u := Sound.ok (at_ := id) (by simp [hs]) is
      split
      · exact made
      · exact made

@[simp] theorem State.endedEntries_canon {s : State} (hs : Canon s) (l : Nat) (xs : List (Nat × Core)) : Canon (s.endedEntries l xs) := by
  induction xs generalizing s with
  | nil => exact hs
  | cons x xs ih => exact ih (by simp [hs])

@[simp] theorem State.fillFaultFrame_canon {s : State} (hs : Canon s) (v c st : Nat) (k : Core) : Canon (s.fillFaultFrame v c st k) := by
  have body : @State.fillFaultFrame = @State.fillFaultFrame := rfl
  conv at body =>
    rhs
    delta State.fillFaultFrame
  rw [body]
  beta_reduce
  generalize s.faultFrame v = o
  cases o with
  | none => exact hs
  | some i => exact State.setVd_canon (State.saveFrame_canon hs v i c st k) v _

@[simp] theorem State.endCore_canon {s : State} (hs : Canon s) (l c : Nat) : Canon (s.endCore l c) := by
  unfold State.endCore
  dsimp only
  split <;> simp (maxDischargeDepth := 9) [hs]

@[simp] theorem State.stopChannels_canon {s : State} (hs : Canon s) (c : Nat) : Canon (s.stopChannels c) := by
  unfold State.stopChannels
  simp [hs]

@[simp] theorem State.clearCore_canon {s : State} (hs : Canon s) (c : Nat) : Canon (s.clearCore c) := by
  unfold State.clearCore
  simp [hs]

@[simp] theorem State.clearCores_canon {s : State} (hs : Canon s) (xs : List Nat) : Canon (s.clearCores xs) := by
  induction xs generalizing s with
  | nil => exact hs
  | cons x xs ih => exact ih (by simp [hs])

@[simp] theorem State.emit_canon {s : State} (hs : Canon s) (port : Nat) (ps : List Packet) : Canon (s.emit port ps) := hs

@[simp] theorem State.oweCredit_canon {s : State} (hs : Canon s) (port : Nat) (c : Credit) : Canon (s.oweCredit port c) := hs

@[simp] theorem State.flushCredits_canon {s : State} (hs : Canon s) (xs : List Nat) : Canon (s.flushCredits xs) := by
  induction xs generalizing s with
  | nil => exact hs
  | cons x xs ih =>
    unfold State.flushCredits
    split <;> simp [ih, hs]

@[simp] theorem State.tellFailed_canon {s : State} (hs : Canon s) (v n : Nat) (m : Comm) (i : Nat) (h : OpHead) :
    Canon (s.tellFailed v n m i h) := by
  unfold State.tellFailed
  (repeat' split) <;> simp [hs]

@[simp] theorem State.returnCredits_canon {s : State} (hs : Canon s) (v n : Nat) (p : Nat → Bool) : Canon (s.returnCredits v n p) := by
  unfold State.returnCredits
  split
  · exact hs
  · exact foldl_canon (fun u e hu => by simp [hu]) _ hs

@[simp] theorem State.tellAbandoned_canon {s : State} (hs : Canon s) (v l : Nat) (ms : Map Comm) : Canon (s.tellAbandoned v l ms) := by
  induction ms generalizing s with
  | nil => exact hs
  | cons e ms ih =>
    refine ih ?_
    have told : Canon (if e.2.failed then s
        else (e.2.queue.filter (·.launch = l)).foldl (fun s o => s.tellFailed v e.1 e.2 o.index (o.head.getD unreadHead)) s) := by
      split
      · exact hs
      · exact foldl_canon (fun u o hu => by simp [hu]) _ hs
    split
    · exact told
    · exact State.returnCredits_canon told v e.1 _

@[simp] theorem State.forget_canon {s : State} (hs : Canon s) (l : Nat) : Canon (s.forget l) := by
  unfold State.forget
  dsimp only
  split <;> simp [hs]

@[simp] theorem State.endLaunch_canon {s : State} (hs : Canon s) (l : Nat) : Canon (s.endLaunch l) := by
  unfold State.endLaunch
  simp (maxDischargeDepth := 9) [hs]

@[simp] theorem State.setNode_canon {s : State} (hs : Canon s) (n : Nat) (x : Node) : Canon (s.setNode n x) := hs

@[simp] theorem State.disarm_canon {s : State} (hs : Canon s) (l : Nat) : Canon (s.disarm l) := by
  unfold State.disarm
  dsimp only
  (repeat' split) <;> simp [hs]

@[simp] theorem State.signal_canon {s : State} (hs : Canon s) (status n : Nat) : Canon (s.signal status n) := by
  unfold State.signal
  simp [hs]

@[simp] theorem State.updateSuccs_canon {s : State} (hs : Canon s) (ns : List (Nat × Nat)) (status : Nat) (xs : List Nat) :
    Canon (s.updateSuccs ns status xs) := by
  induction xs generalizing s with
  | nil => exact hs
  | cons x xs ih =>
    unfold State.updateSuccs
    split <;> simp [ih, hs]

@[simp] theorem State.readyOne_canon {s : State} (hs : Canon s) (l : Nat) : Canon (s.readyOne l) := by
  unfold State.readyOne
  dsimp only
  split <;> simp [hs]

@[simp] theorem State.markAll_canon {s : State} (hs : Canon s) (xs : List Nat) : Canon (s.markAll xs) := by
  induction xs generalizing s with
  | nil => exact hs
  | cons x xs ih => exact ih (by simp [hs])

@[simp] theorem State.markReady_canon {s : State} (hs : Canon s) : Canon s.markReady := by
  unfold State.markReady
  simp [hs]

@[simp] theorem State.mReadChecked_sound {s : State} (hs : Canon s) (v va n : Nat) : Sound (·.2) (s.mReadChecked v va n) := by
  unfold State.mReadChecked
  split <;> simp [hs]

@[simp] theorem State.enter_canon {s : State} (hs : Canon s) (x : Launch) : Canon (s.enter x) := hs

@[simp] theorem State.enterRecord_canon {s : State} (hs : Canon s) (x : Launch) : Canon (s.enterRecord x) := by
  unfold State.enterRecord
  (repeat' split) <;> simp [hs]

@[simp] theorem State.setCluster_canon {s : State} (hs : Canon s) (c : Nat) (x : Cluster) : Canon (s.setCluster c x) := hs

@[simp] theorem State.imageOf_sound {s : State} (hs : Canon s) (x : Launch) : SoundIf (·.2) (s.imageOf x) := by
  unfold State.imageOf
  split
  · simp
  · split
    · next b t is => exact Sound.ok (at_ := (·.2)) (by simp [hs]) is
    · simp

@[simp] theorem State.preloadBank_canon {s : State} (hs : Canon s) (c : Nat) (x : Launch) (l : Option Nat) : Canon (s.preloadBank c x l) := by
  unfold State.preloadBank
  split
  · simp [hs]
  · next w s is =>
    have made : Canon s := SoundIf.some (at_ := (·.2)) (by simp [hs]) is
    simp [made]

@[simp] theorem State.serveHint_canon {s : State} (hs : Canon s) (c v va : Nat) : Canon (s.serveHint c v va) := by
  unfold State.serveHint
  dsimp only
  split
  · exact hs
  · split
    · exact hs
    · next b u is =>
      have made : Canon u := Sound.ok (at_ := (·.2)) (by simp [hs]) is
      split <;> simp [made]

@[simp] theorem State.dropDependents_canon {s : State} (hs : Canon s) (l : Nat) : Canon (s.dropDependents l) := hs

@[simp] theorem State.writeRecord_canon {s : State} (hs : Canon s) (l : Nat) : Canon (s.writeRecord l) := by
  unfold State.writeRecord
  dsimp only
  split
  · exact hs
  · split
    · exact hs
    · split
      · exact hs
      · split
        · exact hs
        · next u is =>
          have made : Canon u := Sound.ok (at_ := id) (by simp [hs]) is
          simp (maxDischargeDepth := 9) [made]

@[simp] theorem State.freeClusters_canon {s : State} (hs : Canon s) (cs : List Nat) : Canon (s.freeClusters cs) := hs

@[simp] theorem State.finish_canon {s : State} (hs : Canon s) (l : Nat) : Canon (s.finish l) := by
  unfold State.finish
  dsimp only
  (repeat' split) <;> simp (maxDischargeDepth := 9) [hs]

@[simp] theorem State.roundRobin_canon {s : State} (hs : Canon s) (p : Nat) : Canon (s.roundRobin p) := by
  unfold State.roundRobin
  dsimp only
  split <;> simp [hs]

@[simp] theorem State.choose_canon {s : State} (hs : Canon s) (p : Nat) : Canon (s.choose p) := by
  unfold State.choose
  split <;> simp [hs]

@[simp] theorem State.onCores_canon {s : State} (hs : Canon s) (f : Nat → Core → Core) (xs : List Nat) : Canon (s.onCores f xs) := by
  induction xs generalizing s with
  | nil => exact hs
  | cons x xs ih => exact ih (by simp [hs])

@[simp] theorem State.takeClusters_canon {s : State} (hs : Canon s) (l : Nat) (x : Launch) (imgs : Map (Map Word)) (xs : List Nat) :
    Canon (s.takeClusters l x imgs xs) := by
  induction xs generalizing s with
  | nil => exact hs
  | cons x xs ih =>
    unfold State.takeClusters
    split <;> simp [ih, hs]

@[simp] theorem State.images_sound {s : State} (hs : Canon s) (x : Launch) (cs : List Nat) : Sound (·.2) (s.images x cs) := by
  unfold State.images
  dsimp only
  split
  · exact hs
  · split
    · simp
    · next b t is => exact Sound.ok (at_ := (·.2)) (by simp [hs]) is

@[simp] theorem State.fillWindow_sound {s : State} (hs : Canon s) (x : Launch) : Sound (·.2) (s.fillWindow x) := by
  unfold State.fillWindow
  split
  · simp
  · next b t is =>
    have made : Canon t := Sound.ok (at_ := (·.2)) (by simp [hs]) is
    simp [made]

@[simp] theorem State.startOn_canon {s : State} (hs : Canon s) (l : Nat) (cs : List Nat) : Canon (s.startOn l cs) := by
  unfold State.startOn
  dsimp only
  split
  · simp (maxDischargeDepth := 9) [hs]
  · next imgs t is =>
    have ht : Canon t := Sound.ok (at_ := (·.2)) (by simp [hs]) is
    split
    · simp (maxDischargeDepth := 9) [ht]
    · next kw w is =>
      have hw : Canon w := Sound.ok (at_ := (·.2)) (by simp (maxDischargeDepth := 9) [ht]) is
      simp [hw]

@[simp] theorem State.restoreCores_canon {s : State} (hs : Canon s) (ostep : Word) (xs : List (Nat × Core)) : Canon (s.restoreCores ostep xs) := by
  induction xs generalizing s with
  | nil => exact hs
  | cons x xs ih => exact ih (by simp [hs])

@[simp] theorem State.restartLaunch_canon {s : State} (hs : Canon s) (l : Nat) : Canon (s.restartLaunch l) := by
  unfold State.restartLaunch
  dsimp only
  split <;> simp (maxDischargeDepth := 9) [hs]

/-- The state of either outcome. -/
def eitherState : Except State State → State
  | .ok s => s
  | .error s => s

@[simp] theorem State.wavePhase_canon {s : State} (hs : Canon s) (l w : Nat) (a : WaveAt) (cs : List Nat) :
    Canon (eitherState (s.wavePhase l w a cs)) := by
  unfold State.wavePhase
  extract_lets x key v sc pass
  have hpass {t : State} (ht : Canon t) : Canon (pass t) := State.setLaunch_canon (by simp [ht]) _ _
  have gate : Canon (s.gangGate v { lid := s.gangLid l, kind := 0, scope := sc }).state := by simp [hs]
  split
  · exact hs
  · split
    · exact hs
    · split
      · next t is => exact SoundIf.some (at_ := id) (by simp [hs]) is
      · split
        · next t is =>
          rw [is] at gate
          exact hpass gate
        · next t is =>
          rw [is] at gate
          exact gate

@[simp] theorem State.wavePhases_canon {s : State} (hs : Canon s) (l w : Nat) (a : WaveAt) (ls : List (List Nat)) :
    Canon (eitherState (s.wavePhases l w a ls)) := by
  induction ls generalizing s with
  | nil => exact hs
  | cons cs ls ih =>
    have first : Canon (eitherState (s.wavePhase l w a cs)) := by simp [hs]
    unfold State.wavePhases
    split
    · next t is =>
      rw [is] at first
      exact ih first
    · next t is =>
      rw [is] at first
      exact first

@[simp] theorem State.passWaves_canon {s : State} (hs : Canon s) (l w : Nat) (ws : List WaveAt) : Canon (eitherState (s.passWaves l w ws)) := by
  induction ws generalizing s with
  | nil => exact hs
  | cons a ws ih =>
    have first : Canon (eitherState (if a.wave = 0 then .ok s else s.wavePhases l w a ((s.launch l).scopeParts a.g.scope a.region))) := by
      split
      · exact hs
      · simp [hs]
    unfold State.passWaves
    split
    · next t is =>
      rw [is] at first
      exact ih first
    · next t is =>
      rw [is] at first
      exact first

@[simp] theorem State.board_canon {s : State} (hs : Canon s) (x : Launch) (c entry pc widx : Nat) (cs : List Word) :
    Canon (s.board x c entry pc widx cs) := by
  unfold State.board
  simp [hs]

@[simp] theorem State.beginItem_canon {s : State} (hs : Canon s) (l c w entry : Nat) : Canon (s.beginItem l c w entry) := by
  unfold State.beginItem
  dsimp only
  split
  · simp [hs]
  · next s is =>
    have made : Canon s := Sound.ok (at_ := id) (by simp [hs]) is
    simp [made]

@[simp] theorem afterStep_canon {s : State} (hs : Canon s) {o : Host.Outcome State Fault Refusal} (ho : Lands o) : Canon (afterStep s o) := by
  unfold afterStep
  split
  · exact ho
  · exact hs

@[simp] theorem State.writeDevctl_canon {s : State} (hs : Canon s) (v : DWord) : Canon (s.writeDevctl v) := hs

@[simp] theorem State.writeReg_canon {s : State} (hs : Canon s) (r : MReg) (v : DWord) : Canon (s.writeReg r v) := by
  unfold State.writeReg
  (repeat' split) <;> simp [hs]

@[simp] theorem State.clearKdata_canon {s : State} (hs : Canon s) : Canon s.clearKdata := hs

@[simp] theorem State.refuseKey_canon {s : State} (hs : Canon s) : Canon s.refuseKey := hs

@[simp] theorem State.fillSlot_canon {s : State} (hs : Canon s) (k1 k2 : BitVec 256) (mat : Config.KeyMat) : Canon (s.fillSlot k1 k2 mat) := hs

@[simp] theorem State.unhalt_canon {s : State} (hs : Canon s) (cs : List Nat) : Canon (s.unhalt cs) := by
  induction cs generalizing s with
  | nil => exact hs
  | cons c cs ih =>
    refine ih ?_
    split <;> simp [hs]

@[simp] theorem State.putFrame_canon {s : State} (hs : Canon s) (c : Nat) (k : Core) : Canon (s.putFrame c k) := by
  unfold State.putFrame
  exact State.touching_canon (State.settleNow_canon hs _ _) _ _ fun _ ht => by simp (maxDischargeDepth := 9) [ht]

@[simp] theorem State.millFill_canon {s : State} (hs : Canon s) (c : Nat) : Canon (s.millFill c) := by
  unfold State.millFill
  dsimp only
  split
  · exact hs
  · split
    · exact hs
    · split
      · simp [hs]
      · exact State.touching_canon hs _ _ fun _ ht => by simp (maxDischargeDepth := 9) [ht]

@[simp] theorem State.millWave_canon {s : State} (hs : Canon s) (c : Nat) : Canon (s.millWave c) := by
  unfold State.millWave
  dsimp only
  (repeat' split) <;> simp [hs]

@[simp] theorem State.returnTile_canon {s : State} (hs : Canon s) (c : Nat) (x : Cmd) (h fmt rm : Nat) (pub clr sat : Bool) :
    Canon (s.returnTile c x h fmt rm pub clr sat) := by
  unfold State.returnTile
  dsimp only
  (repeat' split) <;> simp (maxDischargeDepth := 9) [hs]

@[simp] theorem State.finishCmd_canon {s : State} (hs : Canon s) (c : Nat) (x : Cmd) (stays : Bool) : Canon (s.finishCmd c x stays) := by
  unfold State.finishCmd
  (repeat' split) <;> simp [hs]

@[simp] theorem State.millServed_canon {s : State} (hs : Canon s) (c : Nat) : Canon (s.millServed c) := by
  unfold State.millServed
  dsimp only
  split <;> simp [hs]

@[simp] theorem State.millComplete_canon {s : State} (hs : Canon s) (c : Nat) : Canon (s.millComplete c) := by
  unfold State.millComplete
  dsimp only
  split
  · exact hs
  · split
    · exact hs
    · split
      · simp [hs]
      · exact State.touching_canon hs _ _ fun _ ht => by simp (maxDischargeDepth := 9) [ht]

@[simp] theorem State.recWrite_canon {s : State} (hs : Canon s) (c ptr off : Nat) (bs : List Byte) : Canon (s.recWrite c ptr off bs) := by
  unfold State.recWrite
  split <;> simp [hs]

@[simp] theorem State.writeCtrl_canon {s : State} (hs : Canon s) (c : Nat) (x : FlumeRec) (own : Bool) (stat : Nat) :
    Canon (s.writeCtrl c x own stat) := by
  unfold State.writeCtrl
  simp [hs]

@[simp] theorem State.updChannel_canon {s : State} (hs : Canon s) (c n : Nat) (f : Channel → Channel) : Canon (s.updChannel c n f) := hs

@[simp] theorem State.failChannel_canon {s : State} (hs : Canon s) (c n stat : Nat) (t : Trap) : Canon (s.failChannel c n stat t) := by
  unfold State.failChannel
  simp [hs]

@[simp] theorem State.parkRecord_canon {s : State} (hs : Canon s) (c n : Nat) (x : FlumeRec) (t : Trap) : Canon (s.parkRecord c n x t) := by
  unfold State.parkRecord
  simp (maxDischargeDepth := 9) [hs]

@[simp] theorem State.endRecord_canon {s : State} (hs : Canon s) (c n : Nat) (x : FlumeRec) (stat : Nat) (t : Trap) :
    Canon (s.endRecord c n x stat t) := by
  unfold State.endRecord
  (repeat' split) <;> simp [hs]

@[simp] theorem State.refuse_canon {s : State} (hs : Canon s) (c n : Nat) (x : FlumeRec) (stat : Nat) : Canon (s.refuse c n x stat) := by
  unfold State.refuse
  simp [hs]

@[simp] theorem State.recordFault_canon {s : State} (hs : Canon s) (c n : Nat) (x : FlumeRec) (t : Trap) : Canon (s.recordFault c n x t) := by
  unfold State.recordFault
  split <;> simp [hs]

@[simp] theorem State.fetchRecord_canon {s : State} (hs : Canon s) (c n : Nat) (x : FlumeRec) : Canon (s.fetchRecord c n x) := by
  unfold State.fetchRecord
  dsimp only
  split
  · simp [hs]
  · split
    · exact hs
    · split
      · split <;> simp [hs]
      · refine State.touching_canon hs _ _ fun _ ht => ?_
        split
        · simp (maxDischargeDepth := 9) [ht]
        · split <;> simp (maxDischargeDepth := 9) [ht]

@[simp] theorem State.pendRelease_canon {s : State} (hs : Canon s) (c : Nat) (x : FlumeRec) : Canon (s.pendRelease c x).1 := by
  unfold State.pendRelease
  split <;> simp [hs]

@[simp] theorem State.claimSource_canon {s : State} (hs : Canon s) (c h : Nat) (x : FlumeRec) : Canon (s.claimSource c h x).1 := by
  unfold State.claimSource
  dsimp only
  split <;> simp [hs]

@[simp] theorem State.waitRecord_canon {s : State} (hs : Canon s) (c n st : Nat) (x : FlumeRec) : Canon (s.waitRecord c n st x) := hs

@[simp] theorem State.pinFor_canon {s : State} (hs : Canon s) (x : FlumeRec) (gs : List Nat) : Canon (s.pinFor x gs).1 := by
  unfold State.pinFor
  simp [hs]

@[simp] theorem State.beginStream_canon {s : State} (hs : Canon s) (c n : Nat) (x : FlumeRec) (list gs : List Nat) :
    Canon (s.beginStream c n x list gs) := by
  unfold State.beginStream
  simp (maxDischargeDepth := 9) [hs]

@[simp] theorem State.openExtent_canon {s : State} (hs : Canon s) (c n : Nat) (x : FlumeRec) : Canon (s.openExtent c n x) := by
  unfold State.openExtent
  dsimp only
  split
  · simp [hs]
  · exact State.touching_canon (by simp [hs]) _ _ fun _ ht => by simp [ht]

@[simp] theorem State.startRecord_canon {s : State} (hs : Canon s) (c n : Nat) (x : FlumeRec) : Canon (s.startRecord c n x) := by
  unfold State.startRecord
  dsimp only
  split
  · simp [hs]
  · exact State.touching_canon (by simp [hs]) _ _ fun _ ht => by simp (maxDischargeDepth := 9) [ht]

/-! ### Partitions, gangs, checkpoints and messages -/

@[simp] theorem State.completeHandles_sound {s : State} (hs : Canon s) (c : Nat) (x : FlumeRec) : SoundIf id (s.completeHandles c x) := by
  unfold State.completeHandles
  dsimp only
  (repeat' split) <;> simp (maxDischargeDepth := 9) [hs]

@[simp] theorem State.completeRecord_canon {s : State} (hs : Canon s) (c n : Nat) (x : FlumeRec) : Canon (s.completeRecord c n x) := by
  unfold State.completeRecord
  have noted {t : State} (ht : Canon t) : Canon (if x.ckm != 0 then t.recWrite c x.ptr.toNat 0x60 (leBytes 4 x.crc) else t) := by
    split <;> simp [ht]
  have written := noted (State.engineStore_canon hs (s.coreVd c) x.writes)
  dsimp only
  generalize (if x.ckm != 0 then (s.engineStore (s.coreVd c) x.writes).recWrite c x.ptr.toNat 0x60 (leBytes 4 x.crc)
    else s.engineStore (s.coreVd c) x.writes) = t at written
  split
  · simp [written]
  · split
    · simp [written]
    · next u is =>
      have made : Canon u := SoundIf.some (at_ := id) (by simp [written]) is
      simp [made]

@[simp] theorem State.closeRecord_canon {s : State} (hs : Canon s) (c n : Nat) (x : FlumeRec) : Canon (s.closeRecord c n x) := by
  unfold State.closeRecord
  (repeat' split) <;> simp [hs]

@[simp] theorem done_sound {s : State} (hs : Canon s) : Sound Prod.snd (done s) := hs

@[simp] theorem refuseIf_sound (c : Bool) (code : Nat) {f : Cmdr} (hf : Sound Prod.snd f) : Sound Prod.snd (refuseIf c code f) := by
  unfold refuseIf
  split <;> simp [hf]

@[simp] theorem State.endCommand_canon {s : State} (hs : Canon s) (code : Nat) : Canon (s.endCommand code) := hs

@[simp] theorem State.setPart_canon {s : State} (hs : Canon s) (p : Nat) (x : Part) : Canon (s.setPart p x) := hs

@[simp] theorem State.command_canon {s : State} (hs : Canon s) (p a b c d : Nat) (there : Bool) {f : State → Cmdr}
    (hf : ∀ t, Canon t → Sound Prod.snd (f t)) : Canon (s.command p a b c d there f) := by
  have answered := hf (s.commanded p) hs
  unfold State.command
  dsimp only
  split
  · exact hs
  · split
    · exact hs
    · split
      · exact hs
      · next code t is =>
        have made : Canon t := Sound.ok (at_ := Prod.snd) answered is
        split
        · exact made
        · exact made

@[simp] theorem State.clearNodes_canon {s : State} (hs : Canon s) (f n : Nat) : Canon (s.clearNodes f n) := hs

@[simp] theorem State.clearSpillMap_canon {s : State} (hs : Canon s) (p key pa : Nat) : Canon (s.clearSpillMap p key pa) := by
  unfold State.clearSpillMap
  simp [hs]

@[simp] theorem State.writeHeader_canon {s : State} (hs : Canon s) (gid : Nat) : Canon (s.writeHeader gid) := by
  unfold State.writeHeader
  (repeat' split) <;> simp [hs]

@[simp] theorem State.sumpWrite_canon {s : State} (hs : Canon s) (g : Gang) (fuel off : Nat) (b : List Byte) :
    Canon (s.sumpWrite g fuel off b) := by
  induction fuel generalizing s off b with
  | zero => exact hs
  | succ fuel ih =>
    unfold State.sumpWrite
    split <;> simp [ih, hs]

@[simp] theorem State.capture_canon {s : State} (hs : Canon s) (gid : Nat) (g : Gang) (p : Packet) : Canon (s.capture gid g p) := by
  unfold State.capture
  split <;> simp (maxDischargeDepth := 9) [hs]

@[simp] theorem State.areaCheck_sound (s : State) (p pa key size : Nat) {f : Cmdr} (hf : Sound Prod.snd f) :
    Sound Prod.snd (s.areaCheck p pa key size f) := by
  unfold State.areaCheck
  simp [hf]

@[simp] theorem State.newVd_canon {s : State} (hs : Canon s) (p v pa key : Nat) : Canon (s.newVd p v pa key) := by
  unfold State.newVd
  split <;> simp (maxDischargeDepth := 9) [hs]

@[simp] theorem State.freeTagged_canon {s : State} (hs : Canon s) (gid : Nat) : Canon (s.freeTagged gid) := by
  unfold State.freeTagged
  refine foldl_canon (fun t g ht => ?_) _ hs
  exact State.zeroGranule_canon ht g

@[simp] theorem State.loadPages_canon {s : State} (hs : Canon s) (v base : Nat) (xs : List Nat) : Canon (s.loadPages v base xs) := by
  induction xs generalizing s with
  | nil => exact hs
  | cons x xs ih =>
    unfold State.loadPages
    split <;> simp [ih, hs]

@[simp] theorem State.loadMirror_canon {s : State} (hs : Canon s) (v gid : Nat) : Canon (s.loadMirror v gid) := by
  unfold State.loadMirror
  split <;> simp (maxDischargeDepth := 9) [hs]

@[simp] theorem State.joinGang_canon {s : State} (hs : Canon s) (v gid : Nat) (g : Gang) : Canon (s.joinGang v gid g) := by
  unfold State.joinGang
  simp (maxDischargeDepth := 9) [hs]

@[simp] theorem State.dropClusters_canon {s : State} (hs : Canon s) (v : Nat) : Canon (s.dropClusters v) := hs

@[simp] theorem State.emptyGang_canon {s : State} (hs : Canon s) (v : Nat) : Canon (s.emptyGang v) := by
  unfold State.emptyGang
  split <;> simp [hs]

@[simp] theorem State.stopLaunches_canon {s : State} (hs : Canon s) (xs : List Nat) : Canon (s.stopLaunches xs) := by
  induction xs generalizing s with
  | nil => exact hs
  | cons x xs ih => exact ih (by simp [hs])

@[simp] theorem State.haltTenant_canon {s : State} (hs : Canon s) (v : Nat) : Canon (s.haltTenant v) := by
  unfold State.haltTenant
  simp (maxDischargeDepth := 9) [hs]

@[simp] theorem State.clearD_canon {s : State} (hs : Canon s) (as : List Nat) : Canon (s.clearD as) := by
  induction as generalizing s with
  | nil => exact hs
  | cons a as ih =>
    refine ih ?_
    split <;> simp [hs]

@[simp] theorem State.stopVd_canon {s : State} (hs : Canon s) (w : StopWait) : Canon (s.stopVd w) := by
  unfold State.stopVd
  refine State.touching_canon hs _ _ fun t ht => ?_
  dsimp only
  split <;> simp (maxDischargeDepth := 9) [ht]

@[simp] theorem State.dueSwitch_canon {s : State} (hs : Canon s) (gid : Nat) : Canon (s.dueSwitch gid) := by
  unfold State.dueSwitch
  split <;> simp [hs]

@[simp] theorem State.resumeStop_canon {s : State} (hs : Canon s) : Canon s.resumeStop := by
  unfold State.resumeStop
  (repeat' split) <;> simp [hs]

@[simp] theorem State.acceptStop_canon {s : State} (hs : Canon s) (v pa : Nat) : Canon (s.acceptStop v pa) := hs

@[simp] theorem State.endPoster_canon {s : State} (hs : Canon s) (c l : Nat) (t : Trap) : Canon (s.endPoster c l t) := by
  unfold State.endPoster
  dsimp only
  split <;> simp [hs]

@[simp] theorem State.failOp_canon {s : State} (hs : Canon s) (v n : Nat) (m : Comm) (o : WOp) (addr : Nat) : Canon (s.failOp v n m o addr) := by
  unfold State.failOp
  split <;> simp (maxDischargeDepth := 9) [hs]

@[simp] theorem State.writeDesc_canon {s : State} (hs : Canon s) (o : WOp) (own : Bool) (stat : Nat) : Canon (s.writeDesc o own stat) := by
  unfold State.writeDesc
  simp [hs]

@[simp] theorem State.holdOp_canon {s : State} (hs : Canon s) (v n : Nat) (m : Comm) (o : WOp) (t : Trap) : Canon (s.holdOp v n m o t) := by
  unfold State.holdOp
  dsimp only
  split
  · exact hs
  · split
    · simp [hs]
    · next u is =>
      have made : Canon u := Sound.ok (at_ := id) (by simp [hs]) is
      simp (maxDischargeDepth := 9) [made]

@[simp] theorem State.statOp_canon {s : State} (hs : Canon s) (v n : Nat) (m : Comm) (o : WOp) (stat : Nat) : Canon (s.statOp v n m o stat) := by
  unfold State.statOp
  split
  · split <;> simp [hs]
  · exact State.touching_canon hs _ _ fun _ ht => by simp [ht]

@[simp] theorem State.statPeer_canon {s : State} (hs : Canon s) (v : Nat) (o : WOp) : Canon (s.statPeer v o) := by
  unfold State.statPeer
  split
  · exact hs
  · exact State.touching_canon (by simp [hs]) _ _ fun _ ht => by simp [ht]

@[simp] theorem State.peerFailed_canon {s : State} (hs : Canon s) (v n : Nat) (m : Comm) (i : Nat) (h : OpHead) :
    Canon (s.peerFailed v n m i h) := by
  unfold State.peerFailed
  dsimp only
  (repeat' split) <;> simp (maxDischargeDepth := 9) [hs]

@[simp] theorem State.faultOp_canon {s : State} (hs : Canon s) (v n : Nat) (m : Comm) (o : WOp) (t : Trap) : Canon (s.faultOp v n m o t) := by
  unfold State.faultOp
  split <;> simp [hs]

@[simp] theorem State.startOp_canon {s : State} (hs : Canon s) (v n : Nat) (m : Comm) (o : WOp) (source : List Byte) :
    Canon (s.startOp v n m o source) := by
  unfold State.startOp
  simp [hs]

@[simp] theorem State.runOp_canon {s : State} (hs : Canon s) (v n : Nat) (m : Comm) (o : WOp) : Canon (s.runOp v n m o) := by
  unfold State.runOp
  dsimp only
  split
  · simp [hs]
  · split
    · exact hs
    · exact State.touching_canon hs _ _ fun _ ht => by simp (maxDischargeDepth := 9) [ht]

@[simp] theorem State.checkOp_canon {s : State} (hs : Canon s) (v n : Nat) (m : Comm) (o : WOp) : Canon (s.checkOp v n m o) := by
  unfold State.checkOp
  (repeat' split) <;> simp [hs]

@[simp] theorem State.readOp_canon {s : State} (hs : Canon s) (v n : Nat) (m : Comm) (o : WOp) : Canon (s.readOp v n m o) := by
  unfold State.readOp
  dsimp only
  split
  · simp [hs]
  · split
    · split <;> simp [hs]
    · split
      · exact hs
      · exact State.touching_canon hs _ _ fun _ ht => by simp (maxDischargeDepth := 9) [ht]

@[simp] theorem State.sendSystem_canon {s : State} (hs : Canon s) (port : Nat) : Canon (s.sendSystem port) := by
  unfold State.sendSystem
  dsimp only
  split <;> simp [hs]

@[simp] theorem State.completeOp_canon {s : State} (hs : Canon s) (v n : Nat) (m : Comm) (o : WOp) : Canon (s.completeOp v n m o) := by
  unfold State.completeOp
  dsimp only
  (repeat' split) <;> simp (maxDischargeDepth := 9) [hs]

@[simp] theorem State.closeOp_canon {s : State} (hs : Canon s) (v n : Nat) (m : Comm) (o : WOp) : Canon (s.closeOp v n m o) := by
  unfold State.closeOp
  dsimp only
  split
  · simp [hs]
  · exact State.touching_canon hs _ _ fun _ ht => by simp [ht]

@[simp] theorem State.consumed_canon {s : State} (hs : Canon s) (port : Option Nat) (p : Packet) : Canon (s.consumed port p) := by
  unfold State.consumed
  split <;> simp [hs]

@[simp] theorem State.deliver_canon {s : State} (hs : Canon s) (port : Option Nat) (g : Gang) (p : Packet) : Canon (s.deliver port g p) := by
  unfold State.deliver
  dsimp only
  (repeat' split) <;> simp [hs]

@[simp] theorem State.takeCredit_canon {s : State} (hs : Canon s) (port : Nat) (c : Credit) : Canon (s.takeCredit port c) := by
  unfold State.takeCredit
  (repeat' split) <;> simp [hs]

@[simp] theorem State.takeCredits_canon {s : State} (hs : Canon s) (port : Nat) (cs : List Credit) : Canon (s.takeCredits port cs) :=
  foldl_canon (fun _ c ht => State.takeCredit_canon ht port c) cs hs

@[simp] theorem State.countDrops_canon {s : State} (hs : Canon s) (port n : Nat) : Canon (s.countDrops port n) := by
  unfold State.countDrops
  split <;> simp [hs]

@[simp] theorem State.storeMirror_canon {s : State} (hs : Canon s) (p : Packet) : Canon (s.storeMirror p) := by
  unfold State.storeMirror
  dsimp only
  split <;> simp [hs]

@[simp] theorem State.arrivePacket_canon {s : State} (hs : Canon s) (port : Nat) (g : Gang) (p : Packet) : Canon (s.arrivePacket port g p) := by
  unfold State.arrivePacket
  dsimp only
  split <;> simp [hs]

@[simp] theorem State.arrives_canon {s : State} (hs : Canon s) (port : Nat) (p : Packet) : Canon (s.arrives port p) := by
  unfold State.arrives
  (repeat' split) <;> simp [hs]

@[simp] theorem State.toMembers_canon {s : State} (hs : Canon s) (gid type : Nat) (epoch : Word) {own : State → State}
    (hown : ∀ x0, Canon x0 → Canon (own x0)) : Canon (s.toMembers gid type epoch own) := by
  unfold State.toMembers
  split <;> simp [hs, hown]

@[simp] theorem State.toCoordinator_canon {s : State} (hs : Canon s) (gid type arg : Nat) (sums : List DWord) {own : State → State}
    (hown : ∀ x0, Canon x0 → Canon (own x0)) : Canon (s.toCoordinator gid type arg sums own) := by
  unfold State.toCoordinator
  (repeat' split) <;> simp [hs, hown]

@[simp] theorem State.count_canon {s : State} (hs : Canon s) (p : Nat) (f : SStat → SStat) : Canon (s.count p f) := hs

@[simp] theorem State.unstart_canon {s : State} (hs : Canon s) (p gid : Nat) : Canon (s.unstart p gid) := hs

@[simp] theorem State.onAbort_canon {s : State} (hs : Canon s) (gid : Nat) (epoch : Word) : Canon (s.onAbort gid epoch) := by
  unfold State.onAbort
  (repeat' split) <;> simp (maxDischargeDepth := 9) [hs]

@[simp] theorem State.onRefuse_canon {s : State} (hs : Canon s) (gid : Nat) (epoch : Word) (dev : Nat) : Canon (s.onRefuse gid epoch dev) := by
  unfold State.onRefuse
  split
  · exact hs
  · split
    · exact hs
    · exact State.toMembers_canon (by simp [hs]) _ _ _ fun _ ht => by simp [ht]

@[simp] theorem State.onReport_canon {s : State} (hs : Canon s) (gid : Nat) (epoch : Word) (dev : Nat) (sent received : List DWord) :
    Canon (s.onReport gid epoch dev sent received) := by
  unfold State.onReport
  (repeat' split) <;> simp [hs]

@[simp] theorem State.sendReport_canon {s : State} (hs : Canon s) (gid : Nat) (g : Gang) : Canon (s.sendReport gid g) :=
  State.toCoordinator_canon hs _ _ _ _ fun _ ht => State.onReport_canon ht _ _ _ _ _

@[simp] theorem State.onPrepare_canon {s : State} (hs : Canon s) (gid : Nat) (epoch : Word) : Canon (s.onPrepare gid epoch) := by
  unfold State.onPrepare
  dsimp only
  split
  · exact hs
  · split
    · exact hs
    · split
      · exact State.toCoordinator_canon (by simp [hs]) _ _ _ _ fun _ ht => by simp [ht]
      · simp [hs]

@[simp] theorem State.startVote_canon {s : State} (hs : Canon s) (gid : Nat) (g : Gang) : Canon (s.startVote gid g) :=
  State.toMembers_canon (State.setGang_canon hs _ _) _ _ _ fun _ ht => State.onPrepare_canon ht _ _

@[simp] theorem State.trigger_canon {s : State} (hs : Canon s) (gid : Nat) (ckpt : Bool) : Canon (s.trigger gid ckpt) := by
  unfold State.trigger
  dsimp only
  (repeat' split) <;> simp [hs]

@[simp] theorem State.onQuery_canon {s : State} (hs : Canon s) (gid : Nat) (epoch : Word) : Canon (s.onQuery gid epoch) := by
  unfold State.onQuery
  (repeat' split) <;> simp [hs]

@[simp] theorem State.onCapture_canon {s : State} (hs : Canon s) (gid : Nat) (epoch : Word) : Canon (s.onCapture gid epoch) := by
  unfold State.onCapture
  (repeat' split) <;> simp [hs]

@[simp] theorem State.triggerAll_canon {s : State} (hs : Canon s) (xs : List Nat) : Canon (s.triggerAll xs) := by
  induction xs generalizing s with
  | nil => exact hs
  | cons x xs ih => exact ih (by simp [hs])

@[simp] theorem State.lapse_canon {s : State} (hs : Canon s) (xs : List Nat) : Canon (s.lapse xs) := by
  induction xs generalizing s with
  | nil => exact hs
  | cons x xs ih =>
    unfold State.lapse
    split <;> simp [ih, hs]

@[simp] theorem State.startRow_canon {s : State} (hs : Canon s) (p row epoch : Nat) (bf : List Nat) : Canon (s.startRow p row epoch bf) := by
  unfold State.startRow
  simp (maxDischargeDepth := 9) [hs]

@[simp] theorem State.onSlot_canon {s : State} (hs : Canon s) (p row epoch : Nat) (backfill : List Nat) :
    Canon (s.onSlot p row epoch backfill) := by
  unfold State.onSlot
  dsimp only
  (repeat' split) <;> simp [hs]

@[simp] theorem State.sendSlot_canon {s : State} (hs : Canon s) (p row epoch : Nat) (bf : List Nat) : Canon (s.sendSlot p row epoch bf) := by
  unfold State.sendSlot
  split <;> simp [hs]

@[simp] theorem State.rewalk_canon {s : State} (hs : Canon s) (p : Nat) : Canon (s.rewalk p) := by
  unfold State.rewalk
  dsimp only
  split <;> simp [hs]

@[simp] theorem State.onResume_canon {s : State} (hs : Canon s) (gid : Nat) (epoch : Word) : Canon (s.onResume gid epoch) := by
  unfold State.onResume
  dsimp only
  (repeat' split) <;> simp [hs]

@[simp] theorem State.onDone_canon {s : State} (hs : Canon s) (gid : Nat) (epoch : Word) (dev : Nat) : Canon (s.onDone gid epoch dev) := by
  unfold State.onDone
  dsimp only
  (repeat' split) <;> simp (maxDischargeDepth := 9) [hs]

@[simp] theorem State.discard_canon {s : State} (hs : Canon s) (gid l : Nat) : Canon (s.discard gid l) := by
  unfold State.discard
  dsimp only
  split <;> simp (maxDischargeDepth := 9) [hs]

@[simp] theorem State.offClusters_canon {s : State} (hs : Canon s) (gid l : Nat) : Canon (s.offClusters gid l) := by
  unfold State.offClusters
  (repeat' split) <;> simp [hs]

@[simp] theorem State.beginSave_canon {s : State} (hs : Canon s) (gid c : Nat) (missed : Bool) : Canon (s.beginSave gid c missed) := by
  unfold State.beginSave
  (repeat' split) <;> simp (maxDischargeDepth := 9) [hs]

@[simp] theorem State.discardCluster_canon {s : State} (hs : Canon s) (gid l c : Nat) : Canon (s.discardCluster gid l c) := by
  unfold State.discardCluster
  split <;> simp (maxDischargeDepth := 9) [hs]

@[simp] theorem State.settleCluster_canon {s : State} (hs : Canon s) (gid l c : Nat) (x : Settle) : Canon (s.settleCluster gid l c x) := by
  unfold State.settleCluster
  split <;> simp [hs]

@[simp] theorem State.settleAll_canon {s : State} (hs : Canon s) (gid : Nat) (xs : List (Nat × Nat × Settle)) : Canon (s.settleAll gid xs) := by
  induction xs generalizing s with
  | nil => exact hs
  | cons x xs ih => exact ih (by simp [hs])

@[simp] theorem State.mirror_canon {s : State} (hs : Canon s) (gid : Nat) (g : Gang) : Canon (s.mirror gid g) := by
  unfold State.mirror
  split <;> simp [hs]

@[simp] theorem State.reroute_canon {s : State} (hs : Canon s) (p : Nat) : Canon (s.reroute p) := by
  unfold State.reroute
  dsimp only
  (repeat' split) <;> simp (maxDischargeDepth := 9) [hs]

@[simp] theorem State.rerouteAll_canon {s : State} (hs : Canon s) (xs : List Nat) : Canon (s.rerouteAll xs) := by
  induction xs generalizing s with
  | nil => exact hs
  | cons x xs ih => exact ih (by simp [hs])

@[simp] theorem State.err_canon {s : State} (hs : Canon s) (i : Nat) : Canon (s.err i) := hs

@[simp] theorem State.checkpoint_canon {s : State} (hs : Canon s) (gid : Nat) : Canon (s.checkpoint gid) := by
  unfold State.checkpoint
  dsimp only
  (repeat' split) <;> simp (maxDischargeDepth := 9) [hs]

@[simp] theorem State.saveHeld_canon {s : State} (hs : Canon s) (gid : Nat) : Canon (s.saveHeld gid) := by
  unfold State.saveHeld
  split <;> simp [hs]

@[simp] theorem State.goOut_canon {s : State} (hs : Canon s) (gid : Nat) : Canon (s.goOut gid) := by
  unfold State.goOut
  dsimp only
  split
  · exact hs
  · exact State.toCoordinator_canon (by simp (maxDischargeDepth := 9) [hs]) _ _ _ _ fun _ ht => by simp [ht]

@[simp] theorem State.goOutIfSettled_canon {s : State} (hs : Canon s) (gid : Nat) : Canon (s.goOutIfSettled gid) := by
  unfold State.goOutIfSettled
  (repeat' split) <;> simp [hs]

@[simp] theorem State.onCommit_canon {s : State} (hs : Canon s) (gid : Nat) (epoch : Word) : Canon (s.onCommit gid epoch) := by
  unfold State.onCommit
  dsimp only
  (repeat' split) <;> simp (maxDischargeDepth := 9) [hs]

@[simp] theorem State.switchOut_canon {s : State} (hs : Canon s) (c : Nat) : Canon (s.switchOut c).1 := by
  unfold State.switchOut
  simp [hs]

@[simp] theorem State.saveCores_canon {s : State} (hs : Canon s) (gid : Nat) (cs : List Nat) : Canon (s.saveCores gid cs) := by
  induction cs generalizing s with
  | nil => exact hs
  | cons c cs ih =>
    have out : Canon (s.switchOut c).1 := by simp [hs]
    unfold State.saveCores
    dsimp only
    split
    · exact out
    · exact ih (State.setCore_canon (State.setGang_canon (State.writeContext_canon out _ _ _ _ _ _ _) _ _) _ _)

@[simp] theorem State.landCores_canon {s : State} (hs : Canon s) (xs : List Nat) : Canon (s.landCores xs) := by
  induction xs generalizing s with
  | nil => exact hs
  | cons x xs ih =>
    unfold State.landCores
    split <;> simp [ih, hs]

/-! ### Rollbacks, bring-up and the instructions -/

@[simp] theorem execPdot2_lands {s : State} (d : Fin 16) (a : Fin 16) (b : Fin 16) (mask : Fin 8) (pw : Fin 4) (ty : Fin 8) (sub : Fin 8)
    (hs : Canon s) : Lands (execPdot2 d a b mask pw ty sub s) := by
  refine State.word_lands hs fun t hs => ?_
  simp [hs]

@[simp] theorem execPins_lands {s : State} (d : Fin 16) (r : Fin 64) (mask : Fin 8) (ty : Fin 8) (sub : Fin 8) (hs : Canon s) :
    Lands (execPins d r mask ty sub s) := by
  refine State.word_lands hs fun t hs => ?_
  simp [hs]

@[simp] theorem execPext_lands {s : State} (a : Fin 16) (r : Fin 64) (ty : Fin 8) (sub : Fin 8) (hs : Canon s) : Lands (execPext a r ty sub s) := by
  refine State.word_lands hs fun t hs => ?_
  simp [hs]

@[simp] theorem execPxbar_lands {s : State} (d : Fin 16) (a : Fin 16) (b : Fin 16) (mask : Fin 8) (hs : Canon s) :
    Lands (execPxbar d a b mask s) := by
  refine State.word_lands hs fun t hs => ?_
  dsimp only
  (repeat' split) <;> simp [hs]

@[simp] theorem execLdk_lands {s : State} (d : Fin 64) (a : Fin 64) (b : Fin 64) (w : Width) (sh : Fin 4) (hs : Canon s) :
    Lands (execLdk d a b w sh s) := by
  refine State.word_lands hs fun t hs => ?_
  dsimp only
  (repeat' split) <;> simp [hs]

@[simp] theorem execMret_lands {s : State} (h : Fin 64) (r : Fin 64) (acc : Fin 8) (fmt : Fin 8) (pub : Bool) (clr : Bool) (rm : Fin 4)
    (sat : Bool) (hs : Canon s) : Lands (execMret h r acc fmt pub clr rm sat s) := by
  refine State.word_lands hs fun t hs => ?_
  dsimp only
  (repeat' split) <;> simp [hs]

@[simp] theorem execMld_lands {s : State} (h : Fin 64) (r : Fin 64) (acc : Fin 8) (fmt : Fin 4) (gen : Bool) (hs : Canon s) :
    Lands (execMld h r acc fmt gen s) := by
  refine State.word_lands hs fun t hs => ?_
  dsimp only
  (repeat' split) <;> simp [hs]

@[simp] theorem execMwaitAll_lands {s : State} (hs : Canon s) : Lands (execMwaitAll s) := by
  refine State.word_lands hs fun t hs => ?_
  split <;> simp [hs]

@[simp] theorem execMprof_lands {s : State} (pf : Fin 32) (hs : Canon s) : Lands (execMprof pf s) := by
  refine State.word_lands hs fun t hs => ?_
  dsimp only
  (repeat' split) <;> simp [hs]

@[simp] theorem execTload_lands {s : State} (d : Fin 64) (a : Fin 64) (imm : BitVec 11) (hs : Canon s) : Lands (execTload d a imm s) := by
  refine State.word_lands hs fun t hs => ?_
  dsimp only
  (repeat' split) <;> simp [hs]

@[simp] theorem execMtsr_lands {s : State} (d : Fin 64) (imm : BitVec 17) (hs : Canon s) : Lands (execMtsr d imm s) := by
  refine State.word_lands hs fun t hs => ?_
  split <;> simp [hs]

@[simp] theorem execHalt_lands {s : State} (hs : Canon s) : Lands (execHalt s) := by
  refine State.word_lands hs fun t hs => ?_
  (repeat' split) <;> simp [hs]

@[simp] theorem execSnap_lands {s : State} (imm : BitVec 17) (hs : Canon s) : Lands (execSnap imm s) := by
  refine State.word_lands hs fun t hs => ?_
  dsimp only
  (repeat' split) <;> simp [hs]

@[simp] theorem execResume_lands {s : State} (d : Fin 64) (a : Fin 64) (b : Fin 64) (hs : Canon s) : Lands (execResume d a b s) := by
  refine State.word_lands hs fun t hs => ?_
  dsimp only
  (repeat' split) <;> simp [hs]

@[simp] theorem execFlow_lands {s : State} (a : Fin 64) (ch : Fin 2) (hs : Canon s) : Lands (execFlow a ch s) := by
  refine State.word_lands hs fun t hs => ?_
  dsimp only
  (repeat' split) <;> simp [hs]

@[simp] theorem execHdef_lands {s : State} (h : Fin 64) (r : Fin 64) (dbl : Bool) (hs : Canon s) : Lands (execHdef h r dbl s) := by
  refine State.word_lands hs fun t hs => ?_
  dsimp only
  (repeat' split) <;> simp [hs]

@[simp] theorem execHset_lands {s : State} (h : Fin 64) (tag : Fin 4) (gen : Bool) (hs : Canon s) : Lands (execHset h tag gen s) := by
  refine State.word_lands hs fun t hs => ?_
  simp [hs]

@[simp] theorem execFence_lands {s : State} (hs : Canon s) : Lands (execFence s) := by
  refine State.word_lands hs fun t hs => ?_
  split <;> simp [hs]

@[simp] theorem execExposedResultLand_lands {s : State} (c : Nat) (hs : Canon s) : Lands (execExposedResultLand c s) := by
  refine State.move_lands hs fun hs => ?_
  simp [hs]

@[simp] theorem execGovernorTick_lands {s : State} (c : Nat) (hs : Canon s) : Lands (execGovernorTick c s) := by
  refine State.move_lands hs fun hs => ?_
  simp [hs]

@[simp] theorem execTableWalk_lands {s : State} (c : Nat) (hs : Canon s) : Lands (execTableWalk c s) := by
  refine State.move_lands hs fun hs => ?_
  (repeat' split) <;> simp [hs]

@[simp] theorem execLateFault_lands {s : State} (c : Nat) (hs : Canon s) : Lands (execLateFault c s) := by
  refine State.move_lands hs fun hs => ?_
  dsimp only
  (repeat' split) <;> simp [hs]

@[simp] theorem execPhaseComplete_lands {s : State} (c : Nat) (hs : Canon s) : Lands (execPhaseComplete c s) := by
  refine State.move_lands hs fun hs => ?_
  (repeat' split) <;> simp [hs]

@[simp] theorem execBarrierComplete_lands {s : State} (c : Nat) (hs : Canon s) : Lands (execBarrierComplete c s) := by
  refine State.move_lands hs fun hs => ?_
  (repeat' split) <;> simp [hs]

@[simp] theorem execGranuleSpill_lands {s : State} (c : Nat) (gran : Nat) (hs : Canon s) : Lands (execGranuleSpill c gran s) := by
  refine State.move_lands hs fun hs => ?_
  dsimp only
  (repeat' split) <;> simp [hs]

@[simp] theorem execGranuleRestore_lands {s : State} (c : Nat) (gran : Nat) (hs : Canon s) : Lands (execGranuleRestore c gran s) := by
  refine State.move_lands hs fun hs => ?_
  dsimp only
  (repeat' split) <;> simp [hs]

@[simp] theorem execHandleSwap_lands {s : State} (c : Nat) (h : Fin 64) (hs : Canon s) : Lands (execHandleSwap c h s) := by
  refine State.move_lands hs fun hs => ?_
  split <;> simp [hs]

@[simp] theorem execSuspendCommit_lands {s : State} (c : Nat) (hs : Canon s) : Lands (execSuspendCommit c s) := by
  refine State.move_lands hs fun hs => ?_
  dsimp only
  (repeat' split) <;> simp [hs]

@[simp] theorem execFaultEntryWrite_lands {s : State} (v : Nat) (hs : Canon s) : Lands (execFaultEntryWrite v s) := by
  refine State.move_lands hs fun hs => ?_
  (repeat' split) <;> simp [hs]

@[simp] theorem execFqresWrite_lands {s : State} (v : Nat) (seq : BitVec 32) (mask : BitVec 16) (hs : Canon s) :
    Lands (execFqresWrite v seq mask s) := by
  refine State.move_lands hs fun hs => ?_
  simp [hs]

@[simp] theorem execParkFrameConfigWrite_lands {s : State} (v : Nat) (cnt : Bool) (w : BitVec 64) (hs : Canon s) :
    Lands (execParkFrameConfigWrite v cnt w s) := by
  refine State.move_lands hs fun hs => ?_
  dsimp only
  (repeat' split) <;> simp [hs]

@[simp] theorem execKick_lands {s : State} (v : Nat) (q : Nat) (tail : BitVec 32) (hs : Canon s) : Lands (execKick v q tail s) := by
  refine State.move_lands hs fun hs => ?_
  dsimp only
  (repeat' split) <;> simp [hs]

@[simp] theorem execLaunchSkip_lands {s : State} (l : Nat) (hs : Canon s) : Lands (execLaunchSkip l s) := by
  refine State.move_lands hs fun hs => ?_
  dsimp only
  (repeat' split) <;> simp [hs]

@[simp] theorem execPreload_lands {s : State} (c : Nat) (l : Nat) (hs : Canon s) : Lands (execPreload c l s) := by
  refine State.move_lands hs fun hs => ?_
  dsimp only
  (repeat' split) <;> simp [hs]

@[simp] theorem execHint_lands {s : State} (v : Nat) (va : BitVec 64) (hs : Canon s) : Lands (execHint v va s) := by
  refine State.move_lands hs fun hs => ?_
  simp [hs]

@[simp] theorem execLstatInv_lands {s : State} (v : Nat) (hs : Canon s) : Lands (execLstatInv v s) := by
  refine State.move_lands hs fun hs => ?_
  simp [hs]

@[simp] theorem execCcfgWrite_lands {s : State} (v : Nat) (w : BitVec 64) (hs : Canon s) : Lands (execCcfgWrite v w s) := by
  refine State.move_lands hs fun hs => ?_
  simp [hs]

@[simp] theorem execCoalesceWindowClose_lands {s : State} (v : Nat) (hs : Canon s) : Lands (execCoalesceWindowClose v s) := by
  refine State.move_lands hs fun hs => ?_
  dsimp only
  (repeat' split) <;> simp (maxDischargeDepth := 9) [hs]

@[simp] theorem execLaunchStart_lands {s : State} (l : Nat) (grant : List Nat) (hs : Canon s) : Lands (execLaunchStart l grant s) := by
  refine State.move_lands hs fun hs => ?_
  dsimp only
  (repeat' split) <;> simp (maxDischargeDepth := 9) [hs]

@[simp] theorem execRegisterWrite_lands {s : State} (r : MReg) (v : BitVec 64) (hs : Canon s) : Lands (execRegisterWrite r v s) := by
  refine State.move_lands hs fun hs => ?_
  simp [hs]

@[simp] theorem execBwlimWrite_lands {s : State} (v : Nat) (w : BitVec 64) (hs : Canon s) : Lands (execBwlimWrite v w s) := by
  refine State.move_lands hs fun hs => ?_
  dsimp only
  (repeat' split) <;> simp [hs]

@[simp] theorem execQbwlimWrite_lands {s : State} (v : Nat) (w : BitVec 64) (hs : Canon s) : Lands (execQbwlimWrite v w s) := by
  refine State.move_lands hs fun hs => ?_
  dsimp only
  (repeat' split) <;> simp [hs]

@[simp] theorem execLimiterTick_lands {s : State} (v : Nat) (b : Nat) (hs : Canon s) : Lands (execLimiterTick v b s) := by
  refine State.move_lands hs fun hs => ?_
  dsimp only
  (repeat' split) <;> simp [hs]

@[simp] theorem execKeyGenerate_lands {s : State} (hs : Canon s) : Lands (execKeyGenerate s) := by
  refine State.move_lands hs fun hs => ?_
  split <;> simp [hs]

@[simp] theorem execKeyLoad_lands {s : State} (hs : Canon s) : Lands (execKeyLoad s) := by
  refine State.move_lands hs fun hs => ?_
  split <;> simp [hs]

@[simp] theorem execKeyZeroise_lands {s : State} (hs : Canon s) : Lands (execKeyZeroise s) := by
  refine State.move_lands hs fun hs => ?_
  dsimp only
  (repeat' split) <;> simp [hs]

@[simp] theorem execKeyZeroiseComplete_lands {s : State} (n : Nat) (hs : Canon s) : Lands (execKeyZeroiseComplete n s) := by
  refine State.move_lands hs fun hs => ?_
  split <;> simp [hs]

@[simp] theorem execGovctlWrite_lands {s : State} (v : BitVec 64) (hs : Canon s) : Lands (execGovctlWrite v s) := by
  refine State.move_lands hs fun hs => ?_
  dsimp only
  (repeat' split) <;> simp [hs]

@[simp] theorem execDbgHalt_lands {s : State} (v : Nat) (hs : Canon s) : Lands (execDbgHalt v s) := by
  refine State.move_lands hs fun hs => ?_
  split <;> simp [hs]

@[simp] theorem execDbgRun_lands {s : State} (v : Nat) (hs : Canon s) : Lands (execDbgRun v s) := by
  refine State.move_lands hs fun hs => ?_
  simp [hs]

@[simp] theorem execDbgStep_lands {s : State} (v : Nat) (hs : Canon s) : Lands (execDbgStep v s) := by
  refine State.move_lands hs fun hs => ?_
  split <;> simp [hs]

@[simp] theorem execDbgRunMillstone_lands {s : State} (v : Nat) (c : Nat) (hs : Canon s) : Lands (execDbgRunMillstone v c s) := by
  refine State.move_lands hs fun hs => ?_
  split <;> simp [hs]

@[simp] theorem execDbgDump_lands {s : State} (v : Nat) (c : Nat) (hs : Canon s) : Lands (execDbgDump v c s) := by
  refine State.move_lands hs fun hs => ?_
  (repeat' split) <;> simp [hs]

@[simp] theorem execSnstatFire_lands {s : State} (v : Nat) (hs : Canon s) : Lands (execSnstatFire v s) := by
  refine State.move_lands hs fun hs => ?_
  split <;> simp [hs]

@[simp] theorem execSnapshotTrigger_lands {s : State} (v : Nat) (hs : Canon s) : Lands (execSnapshotTrigger v s) := by
  refine State.move_lands hs fun hs => ?_
  split <;> simp [hs]

@[simp] theorem execMillstoneLatchFill_lands {s : State} (c : Nat) (hs : Canon s) : Lands (execMillstoneLatchFill c s) := by
  refine State.move_lands hs fun hs => ?_
  split <;> simp [hs]

@[simp] theorem execMillstoneWave_lands {s : State} (c : Nat) (hs : Canon s) : Lands (execMillstoneWave c s) := by
  refine State.move_lands hs fun hs => ?_
  split <;> simp [hs]

@[simp] theorem execMillstoneCommandComplete_lands {s : State} (c : Nat) (hs : Canon s) : Lands (execMillstoneCommandComplete c s) := by
  refine State.move_lands hs fun hs => ?_
  split <;> simp [hs]

@[simp] theorem execFlumeRecordFetch_lands {s : State} (c : Nat) (ch : Fin 2) (hs : Canon s) : Lands (execFlumeRecordFetch c ch s) := by
  refine State.move_lands hs fun hs => ?_
  (repeat' split) <;> simp [hs]

@[simp] theorem execFlumeRecordComplete_lands {s : State} (c : Nat) (ch : Fin 2) (hs : Canon s) : Lands (execFlumeRecordComplete c ch s) := by
  refine State.move_lands hs fun hs => ?_
  dsimp only
  (repeat' split) <;> simp [hs]

@[simp] theorem execWindlassOpStart_lands {s : State} (v : Nat) (n : Nat) (hs : Canon s) : Lands (execWindlassOpStart v n s) := by
  refine State.move_lands hs fun hs => ?_
  (repeat' split) <;> simp [hs]

@[simp] theorem execWindlassChunkStart_lands {s : State} (port : Nat) (v : Nat) (n : Nat) (hs : Canon s) :
    Lands (execWindlassChunkStart port v n s) := by
  refine State.move_lands hs fun hs => ?_
  dsimp only
  (repeat' split) <;> simp (maxDischargeDepth := 9) [hs]

@[simp] theorem execWindlassOpComplete_lands {s : State} (v : Nat) (n : Nat) (hs : Canon s) : Lands (execWindlassOpComplete v n s) := by
  refine State.move_lands hs fun hs => ?_
  (repeat' split) <;> simp [hs]

@[simp] theorem execQuijaPacketReceive_lands {s : State} (port : Nat) (pkt : PacketIn) (hs : Canon s) :
    Lands (execQuijaPacketReceive port pkt s) := by
  refine State.move_lands hs fun hs => ?_
  (repeat' split) <;> simp (maxDischargeDepth := 9) [hs]

@[simp] theorem execAbort_lands {s : State} (gid : Nat) (epoch : BitVec 32) (hs : Canon s) : Lands (execAbort gid epoch s) := by
  refine State.move_lands hs fun hs => ?_
  simp [hs]

@[simp] theorem execRefuse_lands {s : State} (gid : Nat) (epoch : BitVec 32) (dev : Nat) (_reason : Nat) (hs : Canon s) :
    Lands (execRefuse gid epoch dev _reason s) := by
  refine State.move_lands hs fun hs => ?_
  simp [hs]

@[simp] theorem execReport_lands {s : State} (gid : Nat) (epoch : BitVec 32) (dev : Nat) (sent : List (BitVec 64))
    (received : List (BitVec 64)) (hs : Canon s) : Lands (execReport gid epoch dev sent received s) := by
  refine State.move_lands hs fun hs => ?_
  simp [hs]

@[simp] theorem execPrepare_lands {s : State} (gid : Nat) (epoch : BitVec 32) (hs : Canon s) : Lands (execPrepare gid epoch s) := by
  refine State.move_lands hs fun hs => ?_
  simp [hs]

@[simp] theorem execVoteRetry_lands {s : State} (gid : Nat) (hs : Canon s) : Lands (execVoteRetry gid s) := by
  refine State.move_lands hs fun hs => ?_
  (repeat' split) <;> simp [hs]

@[simp] theorem execChunksDrained_lands {s : State} (gid : Nat) (hs : Canon s) : Lands (execChunksDrained gid s) := by
  refine State.move_lands hs fun hs => ?_
  (repeat' split) <;> simp [hs]

@[simp] theorem execQuery_lands {s : State} (gid : Nat) (epoch : BitVec 32) (hs : Canon s) : Lands (execQuery gid epoch s) := by
  refine State.move_lands hs fun hs => ?_
  simp [hs]

@[simp] theorem execCapture_lands {s : State} (gid : Nat) (epoch : BitVec 32) (hs : Canon s) : Lands (execCapture gid epoch s) := by
  refine State.move_lands hs fun hs => ?_
  simp [hs]

@[simp] theorem execSlot_lands {s : State} (p : Nat) (row : Nat) (epoch : Nat) (backfill : List Nat) (hs : Canon s) :
    Lands (execSlot p row epoch backfill s) := by
  refine State.move_lands hs fun hs => ?_
  simp [hs]

@[simp] theorem execSlotRowExpire_lands {s : State} (p : Nat) (hs : Canon s) : Lands (execSlotRowExpire p s) := by
  refine State.move_lands hs fun hs => ?_
  split <;> simp [hs]

@[simp] theorem execQuantumExpire_lands {s : State} (gid : Nat) (hs : Canon s) : Lands (execQuantumExpire gid s) := by
  refine State.move_lands hs fun hs => ?_
  simp [hs]

@[simp] theorem execResumeMessage_lands {s : State} (gang : GangEpoch) (hs : Canon s) : Lands (execResumeMessage gang s) := by
  refine State.move_lands hs fun hs => ?_
  simp [hs]

@[simp] theorem execDoneMessage_lands {s : State} (gid : Nat) (epoch : BitVec 32) (dev : Nat) (hs : Canon s) :
    Lands (execDoneMessage gid epoch dev s) := by
  refine State.move_lands hs fun hs => ?_
  simp [hs]

@[simp] theorem execCommit_lands {s : State} (gid : Nat) (epoch : BitVec 32) (hs : Canon s) : Lands (execCommit gid epoch s) := by
  refine State.move_lands hs fun hs => ?_
  simp [hs]

@[simp] theorem State.saveCluster_canon {s : State} (hs : Canon s) (gid l c : Nat) : Canon (s.saveCluster gid l c) := by
  unfold State.saveCluster
  simp (maxDischargeDepth := 9) [hs]

@[simp] theorem State.settled_canon {s : State} (hs : Canon s) (gid c : Nat) : Canon (s.settled gid c) := by
  unfold State.settled
  split <;> simp [hs]

@[simp] theorem execClusterSettled_lands {s : State} (gid : Nat) (c : Nat) (hs : Canon s) : Lands (execClusterSettled gid c s) := by
  refine State.move_lands hs fun hs => ?_
  dsimp only
  (repeat' split) <;> simp [hs]

@[simp] theorem State.retake_canon {s : State} (hs : Canon s) (ls : List Nat) : Canon (s.retake ls) := by
  induction ls generalizing s with
  | nil => exact hs
  | cons l ls ih => exact ih (State.setLaunch_canon (foldl_canon (fun _ c ht => State.setCluster_canon ht c _) _ hs) _ _)

@[simp] theorem State.reinject_canon {s : State} (hs : Canon s) (gid : Nat) (xs : List Packet) : Canon (s.reinject gid xs) := by
  induction xs generalizing s with
  | nil => exact hs
  | cons x xs ih =>
    unfold State.reinject
    split <;> simp [ih, hs]

@[simp] theorem State.restart_canon {s : State} (hs : Canon s) (xs : List Nat) : Canon (s.restart xs) := by
  induction xs generalizing s with
  | nil => exact hs
  | cons x xs ih =>
    unfold State.restart
    split <;> simp [ih, hs]

@[simp] theorem State.goOnInPlace_canon {s : State} (hs : Canon s) (v : Nat) (xs : List FqEntry) : Canon (s.goOnInPlace v xs) := by
  induction xs generalizing s with
  | nil => exact hs
  | cons x xs ih =>
    unfold State.goOnInPlace
    (repeat' split) <;> simp [ih, hs]

@[simp] theorem State.dropStale_canon {s : State} (hs : Canon s) (p : Nat) : Canon (s.dropStale p) := hs

@[simp] theorem State.runAgain_canon {s : State} (hs : Canon s) (gid : Nat) : Canon (s.runAgain gid) := by
  unfold State.runAgain
  (repeat' split) <;> simp (maxDischargeDepth := 9) [hs]

@[simp] theorem State.faultHome_canon {s : State} (hs : Canon s) (t : Trap) (xs : List Nat) : Canon (s.faultHome t xs) := by
  induction xs generalizing s with
  | nil => exact hs
  | cons x xs ih =>
    unfold State.faultHome
    split <;> simp [ih, hs]

@[simp] theorem State.restoreGang_canon {s : State} (hs : Canon s) (gid : Nat) (g : Gang) : Canon (s.restoreGang gid g) := by
  unfold State.restoreGang
  dsimp only
  split <;> simp (maxDischargeDepth := 9) [hs]

@[simp] theorem execBarrierArrival_lands {s : State} (gid : Nat) (dev : Nat) (word : GangWord) (hs : Canon s) :
    Lands (execBarrierArrival gid dev word s) := by
  refine State.move_lands hs fun hs => ?_
  split <;> simp [hs]

@[simp] theorem execBarrierRelease_lands {s : State} (gid : Nat) (dev : Nat) (word : GangWord) (hs : Canon s) :
    Lands (execBarrierRelease gid dev word s) := by
  refine State.move_lands hs fun hs => ?_
  split <;> simp [hs]

@[simp] theorem execOstepFlag_lands {s : State} (gid : Nat) (dev : Nat) (flag : GangFlag) (hs : Canon s) :
    Lands (execOstepFlag gid dev flag s) := by
  refine State.move_lands hs fun hs => ?_
  split <;> simp [hs]

@[simp] theorem execOstepResult_lands {s : State} (gid : Nat) (result : GangFlag) (hs : Canon s) : Lands (execOstepResult gid result s) := by
  refine State.move_lands hs fun hs => ?_
  split <;> simp [hs]

@[simp] theorem execCheckpointTimer_lands {s : State} (gid : Nat) (hs : Canon s) : Lands (execCheckpointTimer gid s) := by
  refine State.move_lands hs fun hs => ?_
  (repeat' split) <;> simp [hs]

@[simp] theorem execUndoLogThreshold_lands {s : State} (gid : Nat) (hs : Canon s) : Lands (execUndoLogThreshold gid s) := by
  refine State.move_lands hs fun hs => ?_
  (repeat' split) <;> simp [hs]

@[simp] theorem execMirrorComplete_lands {s : State} (gid : Nat) (hs : Canon s) : Lands (execMirrorComplete gid s) := by
  refine State.move_lands hs fun hs => ?_
  (repeat' split) <;> simp [hs]

@[simp] theorem State.undoLineG_canon {s : State} (hs : Canon s) (gid : Nat) (u : UndoLine) : Canon (s.undoLineG gid u) := by
  unfold State.undoLineG
  dsimp only
  (repeat' split) <;> simp [hs]

@[simp] theorem State.undoLines_canon {s : State} (hs : Canon s) (gid : Nat) (xs : List UndoLine) : Canon (s.undoLines gid xs) := by
  induction xs generalizing s with
  | nil => exact hs
  | cons x xs ih =>
    unfold State.undoLines
    split <;> simp [ih, hs]

@[simp] theorem State.restoreNodes_canon {s : State} (hs : Canon s) (v : Nat) (xs : List (Nat × Node)) : Canon (s.restoreNodes v xs) := by
  induction xs generalizing s with
  | nil => exact hs
  | cons x xs ih =>
    unfold State.restoreNodes
    split <;> simp [ih, hs]

@[simp] theorem State.reread_canon {s : State} (hs : Canon s) (l : Nat) : Canon (s.reread l) := by
  unfold State.reread
  dsimp only
  (repeat' split) <;> simp (maxDischargeDepth := 9) [hs]

@[simp] theorem State.rewind_canon {s : State} (hs : Canon s) (xs : List (Nat × Launch)) : Canon (s.rewind xs) := by
  induction xs generalizing s with
  | nil => exact hs
  | cons x xs ih => exact ih (by simp [hs])

@[simp] theorem State.rereadAll_canon {s : State} (hs : Canon s) (xs : List Nat) : Canon (s.rereadAll xs) := by
  induction xs generalizing s with
  | nil => exact hs
  | cons x xs ih => exact ih (by simp [hs])

@[simp] theorem State.dropGang_canon {s : State} (hs : Canon s) (v : Nat) : Canon (s.dropGang v) := by
  unfold State.dropGang
  have off := foldl_canon (f := fun (s : State) l => (s.clearCores (s.launch l).cores).freeClusters (s.launch l).clusters)
    (fun t l ht => by simp [ht]) ((s.launches.filter fun e => e.2.vd = v && (e.2.state = .running || e.2.state = .ending)).map (·.1)) hs
  exact off

@[simp] theorem State.rewriteSaved_canon {s : State} (hs : Canon s) (g : Gang) (xs : List (Nat × Core)) : Canon (s.rewriteSaved g xs) := by
  induction xs generalizing s with
  | nil => exact hs
  | cons x xs ih => exact ih (by simp [hs])

@[simp] theorem State.rewriteParked_canon {s : State} (hs : Canon s) (v : Nat) (e : FqEntry) (i : Nat) (ks : List (Nat × Core)) :
    Canon (s.rewriteParked v e i ks) := by
  induction ks generalizing s i with
  | nil => exact hs
  | cons ck ks ih =>
    obtain ⟨c, k⟩ := ck
    rw [State.rewriteParked.eq_2]
    refine ih ?_ _
    generalize s.frameAt v i = o
    cases o with
    | none => exact hs
    | some pa => exact State.writeContext_canon hs _ _ _ _ _ _ _

@[simp] theorem State.rewriteFrames_canon {s : State} (hs : Canon s) (v : Nat) (xs : List FqEntry) : Canon (s.rewriteFrames v xs) := by
  induction xs generalizing s with
  | nil => exact hs
  | cons x xs ih =>
    unfold State.rewriteFrames
    split <;> simp [ih, hs]

@[simp] theorem State.rollTo_canon {s : State} (hs : Canon s) (gid : Nat) (g : Gang) (c : Checkpoint) : Canon (s.rollTo gid g c) := by
  have read : Canon ((((((s.dropGang g.vd).undoLines gid g.undo).restoreNodes g.vd c.nodes).rewind c.launches)).rereadAll
      (((((s.dropGang g.vd).undoLines gid g.undo).launches.filter fun e => e.2.vd = g.vd && c.nextLaunch ≤ e.1)).map (·.1))) := by
    simp (maxDischargeDepth := 9) [hs]
  exact State.saveHeld_canon (State.rewriteFrames_canon (State.rewriteSaved_canon (State.setGang_canon (State.setVd_canon read _ _) _ _) _ _) _ _) _

@[simp] theorem State.failLaunch_canon {s : State} (hs : Canon s) (l : Nat) : Canon (s.failLaunch l) := by
  unfold State.failLaunch
  dsimp only
  (repeat' split) <;> simp [hs]

@[simp] theorem State.failLaunches_canon {s : State} (hs : Canon s) (xs : List Nat) : Canon (s.failLaunches xs) := by
  induction xs generalizing s with
  | nil => exact hs
  | cons x xs ih => exact ih (by simp [hs])

@[simp] theorem State.leaveGang_canon {s : State} (hs : Canon s) (gid : Nat) (g : Gang) : Canon (s.leaveGang gid g) := by
  unfold State.leaveGang
  simp [hs]

@[simp] theorem State.dropVote_canon {s : State} (hs : Canon s) (gid : Nat) (g : Gang) : Canon (s.dropVote gid g) := by
  unfold State.dropVote
  dsimp only
  split <;> simp [hs]

@[simp] theorem State.failGang_canon {s : State} (hs : Canon s) (gid : Nat) : Canon (s.failGang gid) := by
  unfold State.failGang
  dsimp only
  (repeat' split) <;> simp (maxDischargeDepth := 9) [hs]

@[simp] theorem State.failGangs_canon {s : State} (hs : Canon s) (xs : List Nat) : Canon (s.failGangs xs) := by
  induction xs generalizing s with
  | nil => exact hs
  | cons x xs ih => exact ih (by simp [hs])

@[simp] theorem State.deviceFails_canon {s : State} (hs : Canon s) : Canon s.deviceFails := by
  unfold State.deviceFails
  simp [hs]

@[simp] theorem State.sendRollback_canon {s : State} (hs : Canon s) (gid : Nat) (g : Gang) : Canon (s.sendRollback gid g) := by
  unfold State.sendRollback
  simp [hs]

@[simp] theorem State.rollBack_canon {s : State} (hs : Canon s) (gid : Nat) : Canon (s.rollBack gid) := by
  unfold State.rollBack
  (repeat' split) <;> simp (maxDischargeDepth := 9) [hs]

@[simp] theorem State.onRollback_canon {s : State} (hs : Canon s) (gid : Nat) : Canon (s.onRollback gid) := by
  unfold State.onRollback
  (repeat' split) <;> simp (maxDischargeDepth := 9) [hs]

@[simp] theorem execRollback_lands {s : State} (gid : Nat) (hs : Canon s) : Lands (execRollback gid s) := by
  refine State.move_lands hs fun hs => ?_
  (repeat' split) <;> simp [hs]

@[simp] theorem execUncorrectableError_lands {s : State} (site : ErrorSite) (hs : Canon s) : Lands (execUncorrectableError site s) := by
  refine State.move_lands hs fun hs => ?_
  dsimp only
  (repeat' split) <;> simp (maxDischargeDepth := 9) [hs]

@[simp] theorem execThermalThrottle_lands {s : State} (tj : BitVec 16) (hs : Canon s) : Lands (execThermalThrottle tj s) := by
  refine State.move_lands hs fun hs => ?_
  split <;> simp [hs]

@[simp] theorem execThermalHold_lands {s : State} (tj : BitVec 16) (hs : Canon s) : Lands (execThermalHold tj s) := by
  refine State.move_lands hs fun hs => ?_
  split <;> simp [hs]

@[simp] theorem execThermalHoldEnd_lands {s : State} (tj : BitVec 16) (hs : Canon s) : Lands (execThermalHoldEnd tj s) := by
  refine State.move_lands hs fun hs => ?_
  split <;> simp [hs]

@[simp] theorem execThermalThrottleEnd_lands {s : State} (tj : BitVec 16) (hs : Canon s) : Lands (execThermalThrottleEnd tj s) := by
  refine State.move_lands hs fun hs => ?_
  split <;> simp [hs]

@[simp] theorem execThermalHoldTimeout_lands {s : State} (hs : Canon s) : Lands (execThermalHoldTimeout s) := by
  refine State.move_lands hs fun hs => ?_
  split <;> simp [hs]

@[simp] theorem State.cleared_canon {s : State} (hs : Canon s) : Canon s.cleared := (canon_iff _).2 ⟨rfl, hs.pmem⟩

@[simp] theorem State.resetDevice_canon {s : State} (hs : Canon s) : Canon s.resetDevice := by
  unfold State.resetDevice
  simp [hs]

@[simp] theorem execDeviceReset_lands {s : State} (hs : Canon s) : Lands (execDeviceReset s) := by
  refine State.move_lands hs fun hs => ?_
  simp [hs]

@[simp] theorem execRstNAssert_lands {s : State} (hs : Canon s) : Lands (execRstNAssert s) := by
  refine State.move_lands hs fun hs => ?_
  simp [hs]

@[simp] theorem State.lost_canon (s : State) : Canon s.lost := (canon_iff _).2 ⟨rfl, rfl⟩

@[simp] theorem execThermtrip_lands {s : State} (hs : Canon s) : Lands (execThermtrip s) := by
  refine State.move_lands hs fun hs => ?_
  simp

@[simp] theorem execPwrokDeassert_lands {s : State} (hs : Canon s) : Lands (execPwrokDeassert s) := by
  refine State.move_lands hs fun hs => ?_
  simp

@[simp] theorem State.powerUp_canon {s : State} (hs : Canon s) : Canon s.powerUp := hs

@[simp] theorem State.systemKey_canon {s : State} (hs : Canon s) : Canon s.systemKey := hs

@[simp] theorem State.bootAction_canon {s : State} (hs : Canon s) (n : Nat) : Canon (s.bootAction n) := by
  unfold State.bootAction
  split
  · exact (canon_iff _).2 ⟨rfl, hs.pmem⟩
  all_goals exact hs

@[simp] theorem execBringUp_lands {s : State} (ok : Bool) (hs : Canon s) : Lands (execBringUp ok s) := by
  refine State.move_lands hs fun hs => ?_
  (repeat' split) <;> simp [hs]

@[simp] theorem execInvalidationStart_lands {s : State} (v : Nat) (count : BitVec 52) (hs : Canon s) : Lands (execInvalidationStart v count s) := by
  refine State.move_lands hs fun hs => ?_
  dsimp only
  (repeat' split) <;> simp [hs]

@[simp] theorem execInvalidationComplete_lands {s : State} (v : Nat) (hs : Canon s) : Lands (execInvalidationComplete v s) := by
  refine State.move_lands hs fun hs => ?_
  dsimp only
  (repeat' split) <;> simp [hs]

@[simp] theorem execSeustLinkUp_lands {s : State} (hs : Canon s) : Lands (execSeustLinkUp s) := by
  refine State.move_lands hs fun hs => ?_
  split <;> simp [hs]

@[simp] theorem execSeustLinkRetrain_lands {s : State} (hs : Canon s) : Lands (execSeustLinkRetrain s) := by
  refine State.move_lands hs fun hs => ?_
  split <;> simp [hs]

@[simp] theorem execSeustRetrainTimeout_lands {s : State} (hs : Canon s) : Lands (execSeustRetrainTimeout s) := by
  refine State.move_lands hs fun hs => ?_
  simp [hs]

@[simp] theorem execLinkReplay_lands {s : State} (p : Nat) (hs : Canon s) : Lands (execLinkReplay p s) := by
  refine State.move_lands hs fun hs => ?_
  split <;> simp [hs]

@[simp] theorem execPortRetrain_lands {s : State} (p : Nat) (hs : Canon s) : Lands (execPortRetrain p s) := by
  refine State.move_lands hs fun hs => ?_
  split <;> simp [hs]

@[simp] theorem execLinkRetrainTimeout_lands {s : State} (p : Nat) (hs : Canon s) : Lands (execLinkRetrainTimeout p s) := by
  refine State.move_lands hs fun hs => ?_
  split <;> simp [hs]

@[simp] theorem execQuijaLinkUp_lands {s : State} (p : Nat) (hs : Canon s) : Lands (execQuijaLinkUp p s) := by
  refine State.move_lands hs fun hs => ?_
  split <;> simp [hs]

@[simp] theorem State.tailFault_canon {s : State} (hs : Canon s) (c : Nat) (t : Trap) : Canon (s.tailFault c t) := by
  unfold State.tailFault
  split <;> simp [hs]

@[simp] theorem State.setTail_canon {s : State} (hs : Canon s) (c : Nat) (t : Tail) : Canon (s.setTail c t) := hs

@[simp] theorem State.axisMove_sound {s : State} (hs : Canon s) (lat : Nat) (d a : Fin 16) (mask : Fin 8) (pw : Fin 4) (src : Nat → Nat → Nat) :
    Sound id (s.axisMove lat d a mask pw src) := by
  unfold State.axisMove
  simp [hs]

@[simp] theorem State.planeReduce_sound {α : Type} {s : State} (hs : Canon s) (lat : Nat) (row : Bool) (d a : Fin 16) (mask : Fin 8)
    (pw : Fin 4) (ty : Fin 8) (f : List Nat → α) (fin : Nat → Nat → Nat → α → Nat × Flags) :
    Sound id (s.planeReduce lat row d a mask pw ty f fin) := by
  unfold State.planeReduce
  simp [hs]

@[simp] theorem State.planeShift_sound {s : State} (hs : Canon s) (d a b : Fin 16) (mask : Fin 8) (pw : Fin 4) (ty : Fin 8)
    (f : Nat → Nat → Nat → Nat) : Sound id (s.planeShift d a b mask pw ty f) := by
  unfold State.planeShift
  simp [hs]

@[simp] theorem State.predOut_sound {s : State} (hs : Canon s) (q : Fin 16) (mask : Fin 8) (v : BitVec 1024) : Sound id (s.predOut q mask v) := by
  unfold State.predOut
  simp [hs]

@[simp] theorem execPvote_lands {s : State} (d : Fin 16) (a : Fin 16) (mask : Fin 8) (sub : Fin 8) (hs : Canon s) :
    Lands (execPvote d a mask sub s) := by
  refine State.word_lands hs fun t hs => ?_
  split <;> simp [hs]

@[simp] theorem execPflag_lands {s : State} (d : Fin 16) (mask : Fin 8) (sub : Fin 8) (hs : Canon s) : Lands (execPflag d mask sub s) := by
  refine State.word_lands hs fun t hs => ?_
  split <;> simp [hs]

@[simp] theorem execPrng_lands {s : State} (d : Fin 16) (mask : Fin 8) (pw : Fin 4) (sub : Fin 8) (hs : Canon s) :
    Lands (execPrng d mask pw sub s) := by
  refine State.word_lands hs fun t hs => ?_
  simp [hs]

@[simp] theorem State.planeSpecial_sound {s : State} (hs : Canon s) (d : Fin 16) (mask : Fin 8) (pw : Fin 4) (ty : Fin 8)
    (f : Nat → Nat → Nat → Nat × Flags) : Sound id (s.planeSpecial d mask pw ty f) := by
  unfold State.planeSpecial
  simp [hs]

@[simp] theorem execPtrig_lands {s : State} (d : Fin 16) (a : Fin 16) (mask : Fin 8) (pw : Fin 4) (ty : Fin 8) (sub : Fin 8) (hs : Canon s) :
    Lands (execPtrig d a mask pw ty sub s) := by
  refine State.word_lands hs fun t hs => ?_
  simp [hs]

@[simp] theorem State.rvExact_sound {s : State} (hs : Canon s) (mul : Bool) (lat op : Nat) (d a b : Fin 16) (mask : Fin 8) (tag : Nat) :
    Sound id (s.rvExact mul lat op d a b mask tag) := by
  unfold State.rvExact
  simp [hs]

@[simp] theorem execUnmul_lands {s : State} (d : Fin 16) (a : Fin 16) (b : Fin 16) (sub : Fin 8) (hs : Canon s) :
    Lands (execUnmul d a b sub s) := by
  refine State.word_lands hs fun t hs => ?_
  simp [hs]

@[simp] theorem execUnlrelu_lands {s : State} (d : Fin 16) (a : Fin 16) (sub : Fin 8) (hs : Canon s) : Lands (execUnlrelu d a sub s) := by
  refine State.word_lands hs fun t hs => ?_
  simp [hs]

@[simp] theorem execRvspill_lands {s : State} (r : Fin 64) (wt : Bool) (hs : Canon s) : Lands (execRvspill r wt s) := by
  refine State.word_lands hs fun t hs => ?_
  dsimp only
  (repeat' split) <;> simp [hs]

@[simp] theorem execRvinfo_lands {s : State} (r : Fin 64) (sub : Fin 8) (hs : Canon s) : Lands (execRvinfo r sub s) := by
  refine State.word_lands hs fun t hs => ?_
  split <;> simp [hs]

@[simp] theorem State.scalarInt_sound {s : State} (hs : Canon s) (lat : Nat) (w : Width) (d : Fin 64) (v : Core → Nat) :
    Sound id (s.scalarInt lat w d v) := by
  unfold State.scalarInt
  simp [hs]

@[simp] theorem execMin_lands {s : State} (d : Fin 64) (a : Fin 64) (b : Fin 64) (w : Width) (hs : Canon s) : Lands (execMin d a b w s) := by
  refine State.word_lands hs fun t hs => ?_
  simp [hs]

@[simp] theorem execMax_lands {s : State} (d : Fin 64) (a : Fin 64) (b : Fin 64) (w : Width) (hs : Canon s) : Lands (execMax d a b w s) := by
  refine State.word_lands hs fun t hs => ?_
  simp [hs]

@[simp] theorem execCmov_lands {s : State} (d : Fin 64) (a : Fin 64) (b : Fin 64) (w : Width) (hs : Canon s) : Lands (execCmov d a b w s) := by
  refine State.word_lands hs fun t hs => ?_
  simp [hs]

@[simp] theorem execLea_lands {s : State} (d : Fin 64) (a : Fin 64) (b : Fin 64) (w : Width) (nat : Bool) (sh : Fin 4) (hs : Canon s) :
    Lands (execLea d a b w nat sh s) := by
  refine State.word_lands hs fun t hs => ?_
  simp [hs]

/-! ### The instructions with several outcomes, and the management window -/

@[simp] theorem execAwait_lands {s : State} (hs : Canon s) (h : Fin 64) (y gen : Bool) : Lands (execAwait h y gen s) := by
  refine State.word_lands hs fun t hs => State.onHandle_sound _ _ fun x => ?_
  (repeat' split) <;> simp [hs]

@[simp] theorem execHrel_lands {s : State} (hs : Canon s) (h : Fin 64) : Lands (execHrel h s) := by
  refine State.word_lands hs fun t hs => State.onHandle_sound _ _ fun x => ?_
  dsimp only
  generalize (if x.defd then x.release else none) = o
  cases o with
  | none => simp
  | some y => exact hs

@[simp] theorem execHpub_lands {s : State} (hs : Canon s) (h : Fin 64) : Lands (execHpub h s) := by
  refine State.word_lands hs fun t hs => State.onHandle_sound _ _ fun x => ?_
  (repeat' split) <;> simp [hs]

@[simp] theorem execPgather_lands {s : State} (hs : Canon s) (d a : Fin 16) (mask : Fin 8) (g : Bool) : Lands (execPgather d a mask g s) := by
  refine State.word_lands hs fun t hs => ?_
  dsimp only
  split
  · trivial
  · split
    · simp [hs]
    · split
      · trivial
      · next t is =>
        have made : Canon t := Sound.ok (at_ := id) (by simp [hs]) is
        simp [made]

@[simp] theorem execPscatter_lands {s : State} (hs : Canon s) (d a : Fin 16) (mask : Fin 8) (g : Bool) : Lands (execPscatter d a mask g s) := by
  refine State.word_lands hs fun t hs => ?_
  dsimp only
  split
  · trivial
  · split
    · simp [hs]
    · split
      · trivial
      · next t is =>
        have made : Canon t := Sound.ok (at_ := id) (by simp [hs]) is
        simp [made]

@[simp] theorem execHiddenResultLand_lands {s : State} (hs : Canon s) (c : Nat) (q : Queue) : Lands (execHiddenResultLand c q s) := by
  refine State.move_lands hs fun hs => ?_
  dsimp only
  split
  · split
    · exact State.touching_canon hs _ _ fun _ ht => State.performHead_canon ht _ _ _
    · exact hs
  · exact hs

@[simp] theorem execAtomicPerform_lands {s : State} (hs : Canon s) (c : Nat) (q : Queue) : Lands (execAtomicPerform c q s) := by
  refine State.move_lands hs fun hs => ?_
  dsimp only
  split
  · split
    · exact State.touching_canon hs _ _ fun _ ht => State.performAtomic_canon ht _ _ _
    · exact hs
  · exact hs

@[simp] theorem execTloadComplete_lands {s : State} (hs : Canon s) (c : Nat) : Lands (execTloadComplete c s) := by
  refine State.move_lands hs fun hs => ?_
  split
  · exact hs
  · split
    · exact hs
    · split
      · exact hs
      · next t u is =>
        have made : Canon u := Sound.ok (at_ := (·.2)) (by simp [hs]) is
        split <;> simp [hs, made]

@[simp] theorem execOatomArrive_lands {s : State} (hs : Canon s) (c : Nat) : Lands (execOatomArrive c s) := by
  refine State.move_lands hs fun hs => ?_
  split
  · exact hs
  · split
    · exact hs
    · split
      · simp [hs]
      · split
        · simp [hs]
        · next t is =>
          have made : Canon t := SoundIf.some (at_ := id) (by simp [hs]) is
          exact made

@[simp] theorem execOstepVoteComplete_lands {s : State} (hs : Canon s) (c : Nat) : Lands (execOstepVoteComplete c s) := by
  refine State.move_lands hs fun hs => ?_
  split
  · simp [hs]
  · split
    · exact hs
    · dsimp only
      split
      · exact hs
      · next g is =>
        split
        · next t is =>
          exact (is ▸ State.voteGate_canon hs _ _ _ : Canon (VoteGate.wait t).state)
        · next r t is =>
          exact State.endVote_canon (is ▸ State.voteGate_canon hs _ _ _ : Canon (VoteGate.result r t).state) _ _ _

@[simp] theorem execLaunchFaultEnd_lands {s : State} (hs : Canon s) (c : Nat) : Lands (execLaunchFaultEnd c s) := by
  refine State.move_lands hs fun hs => ?_
  dsimp only
  split
  · exact hs
  · next l _ =>
    split
    · exact hs
    · have left : Canon (if ((s.core c).mode = .faulted && (s.core c).boardReady && (s.core c).tail.still) = true then s.endCore l c else s) := by
        split <;> simp [hs]
      generalize (if ((s.core c).mode = .faulted && (s.core c).boardReady && (s.core c).tail.still) = true then s.endCore l c else s) = t at left
      split
      · exact State.touching_canon left _ _ fun _ ht => State.endLaunch_canon ht _
      · exact left

@[simp] theorem execParkedRestore_lands {s : State} (hs : Canon s) (v seq core : Nat) : Lands (execParkedRestore v seq core s) := by
  refine State.move_lands hs fun hs => ?_
  split
  · exact hs
  · split
    · split
      · split
        · exact State.takeFault_canon (State.unparkAll_canon (State.setVd_canon hs _ _) _ _ _ _ _ _) _ _
        · exact State.touching_canon hs _ _ fun _ ht => State.unparkAll_canon (State.setVd_canon ht _ _) _ _ _ _ _ _
      · exact hs
    · exact hs

@[simp] theorem execLaunchRecordFetch_lands {s : State} (hs : Canon s) (v q : Nat) : Lands (execLaunchRecordFetch v q s) := by
  refine State.move_lands hs fun hs => ?_
  dsimp only
  split
  · exact hs
  · split
    · simp (maxDischargeDepth := 9) [hs]
    · next b t is =>
      have entry : Canon t := Sound.ok (at_ := (·.2)) (by simp (maxDischargeDepth := 9) [hs]) is
      split
      · simp (maxDischargeDepth := 9) [entry]
      · next r u is =>
        have record : Canon u := Sound.ok (at_ := (·.2)) (by simp (maxDischargeDepth := 9) [entry]) is
        simp (maxDischargeDepth := 9) [record]

@[simp] theorem execLaunchComplete_lands {s : State} (hs : Canon s) (l : Nat) : Lands (execLaunchComplete l s) := by
  refine State.move_lands hs fun hs => ?_
  dsimp only
  split
  · split <;> simp (maxDischargeDepth := 9) [hs]
  · split
    · exact hs
    · split
      · next t is => exact SoundIf.some (at_ := id) (by simp (maxDischargeDepth := 9) [hs]) is
      · simp (maxDischargeDepth := 9) [hs]
  · split
    · simp (maxDischargeDepth := 9) [hs]
    · split
      · exact State.touching_canon hs _ _ fun _ ht => State.endLaunch_canon ht _
      · exact hs
  · exact hs

@[simp] theorem execWorkItemStart_lands {s : State} (hs : Canon s) (c w entry : Nat) : Lands (execWorkItemStart c w entry s) := by
  refine State.move_lands hs fun hs => ?_
  split
  · exact hs
  · dsimp only
    split
    · split
      · next t is => exact State.beginItem_canon (is ▸ State.passWaves_canon hs _ _ _ : Canon (eitherState (.ok t))) _ _ _ _
      · next t is => exact (is ▸ State.passWaves_canon hs _ _ _ : Canon (eitherState (.error t)))
    · exact hs

@[simp] theorem execContinuationResume_lands {s : State} (hs : Canon s) (c entry : Nat) : Lands (execContinuationResume c entry s) := by
  refine State.move_lands hs fun hs => ?_
  split
  · exact hs
  · dsimp only
    split
    · exact hs
    · split
      · simp [hs]
      · next b t is =>
        have read : Canon t := Sound.ok (at_ := (·.2)) (by simp [hs]) is
        split
        · simp [read]
        · split
          · simp [read]
          · next u is =>
            have written : Canon u := Sound.ok (at_ := id) (by simp [read]) is
            simp [written]

/-- The three lookups are named first, so that no check evaluates the size of a frame. -/
@[simp] theorem execDbgLoad_lands {s : State} (hs : Canon s) (v c : Nat) : Lands (execDbgLoad v c s) := by
  refine State.move_lands hs fun hs => ?_
  obtain ⟨i, hi⟩ : ∃ i, s.faultFrame v = i := ⟨_, rfl⟩
  obtain ⟨f, hf⟩ : ∃ f, s.frameFault v = f := ⟨_, rfl⟩
  obtain ⟨o, ho⟩ : ∃ o, s.frameAt v = o := ⟨_, rfl⟩
  rw [hi, hf, ho]
  split
  · split
    · exact hs
    · split
      · exact State.takeFault_canon hs _ _
      · exact State.putFrame_canon hs _ _
      · exact hs
  · exact hs

/-- The state that a claim of handles answers, its memories in canonical form. -/
def ClaimLands : Claim → Prop
  | .done s _ => Canon s
  | .wait s _ => Canon s
  | .fault _ => True

theorem State.claimSources_canon {s : State} (hs : Canon s) (c : Nat) (ls : List Nat) (x : FlumeRec) : ClaimLands (s.claimSources c ls x) := by
  induction ls generalizing s x with
  | nil => exact hs
  | cons h ls ih =>
    unfold State.claimSources
    dsimp only
    split
    · exact ih hs _
    · split
      · trivial
      · split
        · exact ih (State.claimSource_canon hs _ _ _) _
        · exact hs

theorem State.claimDest_canon {s : State} (hs : Canon s) (c : Nat) (x : FlumeRec) : ClaimLands (s.claimDest c x) := by
  unfold State.claimDest
  split
  · dsimp only
    split
    · trivial
    · split <;> exact hs
  · exact hs

theorem State.claimHandles_canon {s : State} (hs : Canon s) (c : Nat) (x : FlumeRec) : ClaimLands (s.claimHandles c x) := by
  have sources := State.claimSources_canon hs c x.srcHandles x
  unfold State.claimHandles
  split
  · next t y is =>
    have dest := State.claimDest_canon (s := t) (by rw [is] at sources; exact sources) c y
    split
    · next is => exact State.pendRelease_canon (by rw [is] at dest; exact dest) _ _
    · exact dest
  · exact sources

@[simp] theorem execFlumeRecordStart_lands {s : State} (hs : Canon s) (c : Nat) (ch : Fin 2) : Lands (execFlumeRecordStart c ch s) := by
  refine State.move_lands hs fun hs => ?_
  dsimp only
  split
  · exact hs
  · next x _ =>
    have claimed := State.claimHandles_canon hs c x
    split
    · exact hs
    · split
      · exact State.waitRecord_canon hs _ _ _ _
      · split
        · exact State.waitRecord_canon hs _ _ _ _
        · split
          · exact State.recordFault_canon hs _ _ _ _
          · next is => exact State.waitRecord_canon (by rw [is] at claimed; exact claimed) _ _ _ _
          · next is => exact State.startRecord_canon (by rw [is] at claimed; exact claimed) _ _ _

@[simp] theorem execPcreate_lands {s : State} (hs : Canon s) (p : Nat) : Lands (execPcreate p s) :=
  State.move_lands hs fun hs => State.command_canon hs _ _ _ _ _ _ fun _ ht => refuseIf_sound _ _ ht

@[simp] theorem execPdestroy_lands {s : State} (hs : Canon s) (p : Nat) : Lands (execPdestroy p s) :=
  State.move_lands hs fun hs => State.command_canon hs _ _ _ _ _ _ fun _ ht => refuseIf_sound _ _ ht

@[simp] theorem execPgrant_lands {s : State} (hs : Canon s) (p : Nat) : Lands (execPgrant p s) := by
  refine State.move_lands hs fun hs => State.command_canon hs _ _ _ _ _ _ fun t ht => ?_
  dsimp only
  split
  · trivial
  · refine refuseIf_sound _ _ (refuseIf_sound _ _ (refuseIf_sound _ _ (done_sound ?_)))
    split <;> exact ht

@[simp] theorem execPrevoke_lands {s : State} (hs : Canon s) (p : Nat) : Lands (execPrevoke p s) := by
  refine State.move_lands hs fun hs => State.command_canon hs _ _ _ _ _ _ fun t ht => ?_
  dsimp only
  split
  · trivial
  · exact refuseIf_sound _ _ (refuseIf_sound _ _ (refuseIf_sound _ _ (done_sound ht)))

@[simp] theorem execVdcreate_lands {s : State} (hs : Canon s) (p : Nat) : Lands (execVdcreate p s) := by
  refine State.move_lands hs fun hs => State.command_canon hs _ _ _ _ _ _ fun t ht => ?_
  refine refuseIf_sound _ _ (refuseIf_sound _ _ ?_)
  split
  · exact done_sound (State.newVd_canon ht _ _ _ _)
  · exact State.areaCheck_sound _ _ _ _ _ (done_sound (State.newVd_canon ht _ _ _ _))

@[simp] theorem execVdsched_lands {s : State} (hs : Canon s) (p : Nat) : Lands (execVdsched p s) := by
  refine State.move_lands hs fun hs => State.command_canon hs _ _ _ _ _ _ fun t ht => ?_
  refine refuseIf_sound _ _ (refuseIf_sound _ _ ?_)
  split <;> exact ht

@[simp] theorem execVddestroy_lands {s : State} (hs : Canon s) (p : Nat) : Lands (execVddestroy p s) := by
  refine State.move_lands hs fun hs => State.command_canon hs _ _ _ _ _ _ fun t ht => ?_
  have freed := State.freeTagged_canon ht (hiddenGid (t.arg 0))
  exact refuseIf_sound _ _ (refuseIf_sound _ _ freed)

@[simp] theorem execGjoin_lands {s : State} (hs : Canon s) (p : Nat) : Lands (execGjoin p s) := by
  refine State.move_lands hs fun hs => State.command_canon hs _ _ _ _ _ _ fun t ht => ?_
  refine refuseIf_sound _ _ (refuseIf_sound _ _ (refuseIf_sound _ _ (State.areaCheck_sound _ _ _ _ _ ?_)))
  exact refuseIf_sound _ _ (refuseIf_sound _ _ (refuseIf_sound _ _ (done_sound (State.joinGang_canon ht _ _ _))))

@[simp] theorem execGretire_lands {s : State} (hs : Canon s) (p : Nat) : Lands (execGretire p s) := by
  refine State.move_lands hs fun hs => State.command_canon hs _ _ _ _ _ _ fun t ht => ?_
  dsimp only
  split
  · trivial
  · exact refuseIf_sound _ _ (refuseIf_sound _ _ (done_sound ht))

@[simp] theorem execSlotw_lands {s : State} (hs : Canon s) (p : Nat) : Lands (execSlotw p s) :=
  State.move_lands hs fun hs => State.command_canon hs _ _ _ _ _ _ fun _ ht => refuseIf_sound _ _ (refuseIf_sound _ _ ht)

@[simp] theorem execBfillw_lands {s : State} (hs : Canon s) (p : Nat) : Lands (execBfillw p s) :=
  State.move_lands hs fun hs => State.command_canon hs _ _ _ _ _ _ fun _ ht => done_sound ht

@[simp] theorem execCcreate_lands {s : State} (hs : Canon s) (p : Nat) : Lands (execCcreate p s) :=
  State.move_lands hs fun hs => State.command_canon hs _ _ _ _ _ _ fun _ ht =>
    refuseIf_sound _ _ (refuseIf_sound _ _ (refuseIf_sound _ _ (refuseIf_sound _ _ (done_sound ht))))

@[simp] theorem execCdestroy_lands {s : State} (hs : Canon s) (p : Nat) : Lands (execCdestroy p s) := by
  refine State.move_lands hs fun hs => State.command_canon hs _ _ _ _ _ _ fun t ht => refuseIf_sound _ _ ?_
  split
  · trivial
  · exact refuseIf_sound _ _ (done_sound ht)

@[simp] theorem execVdstop_lands {s : State} (hs : Canon s) (p : Nat) : Lands (execVdstop p s) :=
  State.move_lands hs fun hs => State.resumeStop_canon (State.command_canon hs _ _ _ _ _ _ fun _ ht =>
    refuseIf_sound _ _ (refuseIf_sound _ _ (refuseIf_sound _ _ (done_sound (State.acceptStop_canon ht _ _)))))

@[simp] theorem execVotePollTick_lands {s : State} (hs : Canon s) (gid : Nat) : Lands (execVotePollTick gid s) := by
  refine State.move_lands hs fun hs => ?_
  split
  · exact hs
  · split
    · exact hs
    · dsimp only
      split
      · exact State.toMembers_canon (State.setGang_canon hs _ _) _ _ _ fun _ ht => State.onCommit_canon ht _ _
      · split
        · exact State.toMembers_canon (State.setGang_canon hs _ _) _ _ _ fun _ ht => State.onCapture_canon ht _ _
        · exact State.toMembers_canon (State.setGang_canon hs _ _) _ _ _ fun _ ht => State.onQuery_canon ht _ _

@[simp] theorem execRestoreDone_lands {s : State} (hs : Canon s) (gid : Nat) : Lands (execRestoreDone gid s) := by
  refine State.move_lands hs fun hs => ?_
  split
  · exact hs
  · split
    · exact State.touching_canon hs _ _ fun _ ht => State.resumeStop_canon (State.restoreGang_canon ht _ _)
    · exact hs

@[simp] theorem execMemberSilentTimeout_lands {s : State} (hs : Canon s) (gid dev : Nat) : Lands (execMemberSilentTimeout gid dev s) := by
  refine State.move_lands hs fun hs => ?_
  split
  · exact hs
  · next g _ =>
    split
    · have told := State.toMembers_canon (own := (·.onAbort gid g.epoch))
        (State.setGang_canon hs gid { g with voting := false, reports := [], doneBy := [], lost := dev :: g.lost }) gid 7 g.epoch
        fun _ ht => State.onAbort_canon ht _ _
      dsimp only
      split
      · exact State.onRollback_canon told _
      · exact told
    · exact hs

@[simp] theorem execTailraceSpillComplete_lands {s : State} (hs : Canon s) (c : Nat) : Lands (execTailraceSpillComplete c s) := by
  refine State.move_lands hs fun hs => ?_
  dsimp only
  split
  · split
    · exact State.tailFault_canon (State.setTail_canon hs _ _) _ _
    · next is => exact State.setTail_canon (Sound.ok (at_ := id) (State.mWriteExtent_sound hs _ _ _ _) is) _ _
  · split
    · exact hs
    · split
      · exact State.tailFault_canon (State.setTail_canon hs _ _) _ _
      · next is => exact State.setTail_canon (Sound.ok (at_ := id) (State.mWriteExtent_sound hs _ _ _ _) is) _ _

@[simp] theorem execTailraceRefillComplete_lands {s : State} (hs : Canon s) (c : Nat) : Lands (execTailraceRefillComplete c s) := by
  refine State.move_lands hs fun hs => ?_
  dsimp only
  split
  · exact hs
  · split
    · exact State.tailFault_canon (State.setTail_canon hs _ _) _ _
    · split
      · exact State.tailFault_canon (State.setTail_canon hs _ _) _ _
      · next is => exact State.setTail_canon (Sound.ok (at_ := (·.2)) (State.mReadExtent_sound hs _ _ _ _) is) _ _

@[simp] theorem State.plain_canon {s : State} (hs : Canon s) (r : MReg) (v : DWord) : Canon (s.plain r v) := by
  unfold State.plain
  simp [hs]

@[simp] theorem State.writeDevice_canon {s : State} (hs : Canon s) (o : Nat) (v : DWord) : Canon (s.writeDevice o v) := by
  unfold State.writeDevice
  (repeat' split) <;> simp [hs]

@[simp] theorem State.writePcmd_canon {s : State} (hs : Canon s) (v : DWord) : Canon (s.writePcmd v) := by
  unfold State.writePcmd
  (repeat' split) <;> simp [hs]

@[simp] theorem State.writePartition_canon {s : State} (hs : Canon s) (o : Nat) (v : DWord) : Canon (s.writePartition o v) := by
  unfold State.writePartition
  (repeat' split) <;> simp [hs]

@[simp] theorem State.writeKeys_canon {s : State} (hs : Canon s) (o : Nat) (v : DWord) : Canon (s.writeKeys o v) := by
  unfold State.writeKeys
  (repeat' split) <;> simp [hs]

@[simp] theorem State.writeTranslation_canon {s : State} (hs : Canon s) (d o : Nat) (v : DWord) : Canon (s.writeTranslation d o v) := by
  unfold State.writeTranslation
  split <;> simp [hs]

@[simp] theorem State.writeControl_canon {s : State} (hs : Canon s) (d o : Nat) (v : DWord) : Canon (s.writeControl d o v) := by
  unfold State.writeControl
  split <;> simp [hs]

@[simp] theorem State.writeDbgcmd_canon {s : State} (hs : Canon s) (d : Nat) (v : DWord) : Canon (s.writeDbgcmd d v) := by
  unfold State.writeDbgcmd
  split <;> simp [hs]

@[simp] theorem State.writeDebug_canon {s : State} (hs : Canon s) (d o : Nat) (v : DWord) : Canon (s.writeDebug d o v) := by
  unfold State.writeDebug
  (repeat' split) <;> simp (maxDischargeDepth := 9) [hs]

@[simp] theorem State.writeKick_canon {s : State} (hs : Canon s) (d o : Nat) (v : DWord) : Canon (s.writeKick d o v) := by
  unfold State.writeKick
  (repeat' split) <;> simp (maxDischargeDepth := 9) [hs]

@[simp] theorem State.windowWrite_canon {s : State} (hs : Canon s) (off : Nat) (v : DWord) : Canon (s.windowWrite off v) := by
  unfold State.windowWrite
  dsimp only
  (repeat' split) <;> simp [hs]

@[simp] theorem State.ack_canon {s : State} (hs : Canon s) (func tag status : Nat) (data : List Byte) : Canon (s.ack func tag status data) := hs

@[simp] theorem State.oweSeust_canon {s : State} (hs : Canon s) (func n : Nat) : Canon (s.oweSeust func n) := hs

@[simp] theorem State.request_canon {s : State} (hs : Canon s) (func tag n : Nat) {f : State → State} (hf : ∀ x0, Canon x0 → Canon (f x0)) :
    Canon (s.request func tag n f) := by
  unfold State.request
  dsimp only
  (repeat' split) <;> simp [hs, hf]

@[simp] theorem execMrd_lands {s : State} (hs : Canon s) (func tag : Nat) (off : BitVec 64) : Lands (execMrd func tag off s) := by
  refine State.move_lands hs fun hs => State.request_canon hs _ _ _ fun t ht => ?_
  split <;> exact State.ack_canon ht _ _ _ _

@[simp] theorem execMwr_lands {s : State} (hs : Canon s) (func tag : Nat) (off v : BitVec 64) : Lands (execMwr func tag off v s) := by
  refine State.move_lands hs fun hs => State.request_canon hs _ _ _ fun t ht => ?_
  split
  · exact State.ack_canon ht _ _ _ _
  · exact State.ack_canon (State.windowWrite_canon ht _ _) _ _ _ _

@[simp] theorem execHrd_lands {s : State} (hs : Canon s) (func tag vd : Nat) (va : BitVec 64) (len : Nat) :
    Lands (execHrd func tag vd va len s) := by
  refine State.move_lands hs fun hs => State.request_canon hs _ _ _ fun t ht => ?_
  dsimp only
  split
  · exact State.ack_canon ht _ _ _ _
  · split
    · exact State.ack_canon ht _ _ _ _
    · split
      · exact State.ack_canon ht _ _ _ _
      · next is => exact State.ack_canon (Sound.ok (at_ := (·.2)) (State.mReadExtent_sound ht _ _ _ _) is) _ _ _ _

@[simp] theorem execHwr_lands {s : State} (hs : Canon s) (func tag vd : Nat) (va : BitVec 64) (data : List Byte) :
    Lands (execHwr func tag vd va data s) := by
  refine State.move_lands hs fun hs => State.request_canon hs _ _ _ fun t ht => ?_
  dsimp only
  split
  · exact State.ack_canon ht _ _ _ _
  · split
    · exact State.ack_canon ht _ _ _ _
    · split
      · exact State.ack_canon ht _ _ _ _
      · next is => exact State.ack_canon (Sound.ok (at_ := id) (State.mWriteExtent_sound ht _ _ _ _) is) _ _ _ _

@[simp] theorem execSeustMalformedPacket_lands {s : State} (readable : Bool) (header : BitVec 64) (flits : Nat) (hs : Canon s) :
    Lands (execSeustMalformedPacket readable header flits s) := by
  refine State.move_lands hs fun hs => ?_
  dsimp only
  (repeat' split) <;> simp [hs]

@[simp] theorem State.leaveAcks_canon {s : State} (hs : Canon s) (xs : List Output) : Canon (s.leaveAcks xs) := by
  induction xs generalizing s with
  | nil => exact hs
  | cons x xs ih =>
    cases x <;> exact ih hs

@[simp] theorem State.leaveSeust_canon {s : State} (hs : Canon s) : Canon s.leaveSeust := by
  unfold State.leaveSeust
  split <;> simp [hs]

@[simp] theorem State.newCycle_canon {s : State} (hs : Canon s) : Canon s.newCycle := by
  unfold State.newCycle
  simp (maxDischargeDepth := 9) [hs]

/-! ### Every instruction -/

/-- A state taken from a result is that which the result's own part of it is. -/
theorem Sound.map {ε α : Type} {r : Except ε α} {g : α → State} (h : Sound g r) : Sound id (r.map g) := by
  cases r with
  | ok a => exact h
  | error e => trivial

/-- Every instruction keeps the memories in canonical form: the words by the operation that they share, the others each by its own rule. -/
theorem exec_lands {s : State} (hs : Canon s) (i : Instr) : Lands (exec i s) := by
  cases i
  case add | sub | and | or | xor | andn | orn | shl | shr | sar | rotl | minn | maxn | ceq | clt | cltn | mul | mulh | mulhn | div | divn |
      rem | remn | clz | popc | brev | bext | bins | addi | andi | ori | xori | shli | shri | sari | ceqi | clti | cltni | movi | lui | madd
      | mov | ext =>
    exact State.word_lands hs fun _ ht => State.scalarInt_sound ht _ _ _ _
  case fadd | fsub | fmul | ffma | fmin | fmax | fcmp | fcvt =>
    exact State.word_lands hs fun _ ht => State.scalarFloat_sound ht _ _
  case loop | loopi =>
    exact State.word_lands hs fun _ ht => State.loopIssue_sound ht _ _ _
  case ldl | stl | pld | pst =>
    exact State.word_lands hs fun _ ht => State.local_sound ht _ _ _ fun _ hu => by simp [hu]
  case ldg | stg | ldm | stm | atom | cas =>
    exact State.word_lands hs fun _ ht => State.remote_sound ht _
  case ldh | pldh =>
    exact State.word_lands hs fun _ ht => State.handleRead_sound ht _ _ _ _ fun _ _ hu => by simp [hu]
  case sth | psth =>
    exact State.word_lands hs fun _ ht => State.handleWrite_sound ht _ _ _ fun _ _ hu => by simp [hu]
  case scope | phase | bar =>
    exact State.word_lands hs fun _ ht => State.inScope_sound _ _ (by simp [ht])
  case padd | psub | pmul | pfma | pfms | pmuls | pfmas | paddi | pabsd =>
    exact State.word_lands hs fun _ ht => State.planeArith_sound ht _ _ _ _ _ _ _ _ _
  case pmin | pmax | pabs | pneg | pclamp | pround =>
    exact State.word_lands hs fun _ ht => State.planeElem_sound ht _ _ _ _ _
  case psel | fpoll =>
    exact State.word_lands hs fun _ ht => State.landAll_sound ht _ _
  case pand | por | pxor | pnot | pmov | pbcs | piota | pxtr =>
    exact State.word_lands hs fun _ ht => State.planeQuiet_sound ht _ _ _ _ _
  case pshl | pshr | psar =>
    exact State.word_lands hs fun _ ht => State.planeShift_sound ht _ _ _ _ _ _ _
  case pmand | pmor | pmxor | pmnot =>
    exact State.word_lands hs fun _ ht => State.predOut_sound ht _ _ _
  case protRow | protCol | pbcRow | pbcCol =>
    exact State.word_lands hs fun _ ht => State.axisMove_sound ht _ _ _ _ _ _
  case psumRow | psumCol | predRow | predCol =>
    exact State.word_lands hs fun _ ht => State.planeReduce_sound ht _ _ _ _ _ _ _ _ _
  case pspf | pdiv =>
    exact State.word_lands hs fun _ ht => State.planeSpecial_sound ht _ _ _ _ _
  case rvadd | rvmul =>
    exact State.word_lands hs fun _ ht => State.rvExact_sound ht _ _ _ _ _ _ _ _
  case unadd | unnarrow | unscale | uncvt =>
    exact State.word_lands hs fun _ ht => State.undo_sound ht _ _ _ _ _ _ _ _ _
  case rvscale | rvlrelu =>
    exact State.word_lands hs fun _ ht => State.forward_sound ht _ _ _ _ _ _ _
  case rvmark =>
    exact State.word_lands hs fun _ ht => State.pushEntry_sound ht _ _ _
  case mma | mmag =>
    exact State.word_lands hs fun _ ht => State.issueProduct_sound ht _ _ _ _ _ _ _
  case mclr =>
    exact State.word_lands hs fun _ ht => State.issueCmd_sound ht _
  case wpost | wpoll | wbar =>
    exact State.word_lands hs fun _ ht => State.onComm_sound _ _ fun _ _ => by simp [ht]
  case oatom =>
    exact State.word_lands hs fun _ ht => State.sendUpdates_sound ht _ _
  case mbtag =>
    exact State.word_lands hs fun _ ht => State.landAt_sound ht _ _
  case trap =>
    exact State.word_lands hs fun _ ht => State.programTrap_sound ht _
  case yieldItem | endItem =>
    exact State.word_lands hs fun _ ht => State.suspend_sound ht _ _ _
  case mfsr =>
    exact State.word_lands hs fun _ ht => State.putScalar_sound ht _ _ _ _ _
  case nop | br | jmp | call | ret | jx | jxl | brv | pldg | pstg | limm | pcmp | pcvt | pscale | pxset | rvnarrow | rvcvt | tset | mwait |
      fhalt | wcomm | oatomP | ostep | sysc =>
    exact State.word_lands hs fun _ ht => by simp [ht]
  case unmark => exact State.word_lands hs fun _ ht => Sound.map (State.popEntry_sound ht _ _ _ _ _ _)
  case min => exact execMin_lands _ _ _ _ hs
  case max => exact execMax_lands _ _ _ _ hs
  case cmov => exact execCmov_lands _ _ _ _ hs
  case lea => exact execLea_lands _ _ _ _ _ _ hs
  case ldk => exact execLdk_lands _ _ _ _ _ hs
  case pgather d a mask g => exact execPgather_lands hs d a mask g
  case pscatter d a mask g => exact execPscatter_lands hs d a mask g
  case pins => exact execPins_lands _ _ _ _ _ hs
  case pext => exact execPext_lands _ _ _ _ hs
  case pvote => exact execPvote_lands _ _ _ _ hs
  case pflag => exact execPflag_lands _ _ _ hs
  case prng => exact execPrng_lands _ _ _ _ hs
  case pdot2 => exact execPdot2_lands _ _ _ _ _ _ _ hs
  case ptrig => exact execPtrig_lands _ _ _ _ _ _ hs
  case pxbar => exact execPxbar_lands _ _ _ _ hs
  case unmul => exact execUnmul_lands _ _ _ _ hs
  case unlrelu => exact execUnlrelu_lands _ _ _ hs
  case rvspill => exact execRvspill_lands _ _ hs
  case rvinfo => exact execRvinfo_lands _ _ hs
  case tload => exact execTload_lands _ _ _ hs
  case mret => exact execMret_lands _ _ _ _ _ _ _ _ hs
  case mld => exact execMld_lands _ _ _ _ _ hs
  case mwaitAll => exact execMwaitAll_lands hs
  case mprof => exact execMprof_lands _ hs
  case flow => exact execFlow_lands _ _ hs
  case hdef => exact execHdef_lands _ _ _ hs
  case hset => exact execHset_lands _ _ _ hs
  case await => exact execAwait_lands hs _ _ _
  case hrel => exact execHrel_lands hs _
  case hpub => exact execHpub_lands hs _
  case fence => exact execFence_lands hs
  case resume => exact execResume_lands _ _ _ hs
  case mtsr => exact execMtsr_lands _ _ hs
  case snap => exact execSnap_lands _ hs
  case halt => exact execHalt_lands hs
  case exposedResultLand => exact execExposedResultLand_lands _ hs
  case hiddenResultLand => exact execHiddenResultLand_lands hs _ _
  case governorTick => exact execGovernorTick_lands _ hs
  case tableWalk => exact execTableWalk_lands _ hs
  case lateFault => exact execLateFault_lands _ hs
  case faultEntryWrite => exact execFaultEntryWrite_lands _ hs
  case launchFaultEnd => exact execLaunchFaultEnd_lands hs _
  case atomicPerform => exact execAtomicPerform_lands hs _ _
  case oatomArrive => exact execOatomArrive_lands hs _
  case phaseComplete => exact execPhaseComplete_lands _ hs
  case barrierComplete => exact execBarrierComplete_lands _ hs
  case ostepVoteComplete => exact execOstepVoteComplete_lands hs _
  case granuleSpill => exact execGranuleSpill_lands _ _ hs
  case granuleRestore => exact execGranuleRestore_lands _ _ hs
  case handleSwap => exact execHandleSwap_lands _ _ hs
  case flumeRecordFetch => exact execFlumeRecordFetch_lands _ _ hs
  case flumeRecordStart => exact execFlumeRecordStart_lands hs _ _
  case flumeRecordComplete => exact execFlumeRecordComplete_lands _ _ hs
  case tloadComplete => exact execTloadComplete_lands hs _
  case millstoneLatchFill => exact execMillstoneLatchFill_lands _ hs
  case millstoneWave => exact execMillstoneWave_lands _ hs
  case millstoneCommandComplete => exact execMillstoneCommandComplete_lands _ hs
  case tailraceSpillComplete => exact execTailraceSpillComplete_lands hs _
  case tailraceRefillComplete => exact execTailraceRefillComplete_lands hs _
  case suspendCommit => exact execSuspendCommit_lands _ hs
  case windlassOpStart => exact execWindlassOpStart_lands _ _ hs
  case windlassChunkStart => exact execWindlassChunkStart_lands _ _ _ hs
  case windlassOpComplete => exact execWindlassOpComplete_lands _ _ hs
  case invalidationStart => exact execInvalidationStart_lands _ _ hs
  case invalidationComplete => exact execInvalidationComplete_lands _ hs
  case bwlimWrite => exact execBwlimWrite_lands _ _ hs
  case limiterTick => exact execLimiterTick_lands _ _ hs
  case keyGenerate => exact execKeyGenerate_lands hs
  case keyLoad => exact execKeyLoad_lands hs
  case keyZeroise => exact execKeyZeroise_lands hs
  case keyZeroiseComplete => exact execKeyZeroiseComplete_lands _ hs
  case govctlWrite => exact execGovctlWrite_lands _ hs
  case qbwlimWrite => exact execQbwlimWrite_lands _ _ hs
  case registerWrite => exact execRegisterWrite_lands _ _ hs
  case kick => exact execKick_lands _ _ _ hs
  case hint => exact execHint_lands _ _ hs
  case lstatInv => exact execLstatInv_lands _ hs
  case ccfgWrite => exact execCcfgWrite_lands _ _ hs
  case coalesceWindowClose => exact execCoalesceWindowClose_lands _ hs
  case launchRecordFetch => exact execLaunchRecordFetch_lands hs _ _
  case preload => exact execPreload_lands _ _ hs
  case launchStart => exact execLaunchStart_lands _ _ hs
  case launchSkip => exact execLaunchSkip_lands _ hs
  case workItemStart => exact execWorkItemStart_lands hs _ _ _
  case continuationResume => exact execContinuationResume_lands hs _ _
  case launchComplete => exact execLaunchComplete_lands hs _
  case fqresWrite => exact execFqresWrite_lands _ _ _ hs
  case parkedRestore => exact execParkedRestore_lands hs _ _ _
  case parkFrameConfigWrite => exact execParkFrameConfigWrite_lands _ _ _ hs
  case pcreate => exact execPcreate_lands hs _
  case pgrant => exact execPgrant_lands hs _
  case prevoke => exact execPrevoke_lands hs _
  case pdestroy => exact execPdestroy_lands hs _
  case vdcreate => exact execVdcreate_lands hs _
  case vdsched => exact execVdsched_lands hs _
  case vdstop => exact execVdstop_lands hs _
  case vddestroy => exact execVddestroy_lands hs _
  case gjoin => exact execGjoin_lands hs _
  case gretire => exact execGretire_lands hs _
  case slotw => exact execSlotw_lands hs _
  case bfillw => exact execBfillw_lands hs _
  case ccreate => exact execCcreate_lands hs _
  case cdestroy => exact execCdestroy_lands hs _
  case slotRowExpire => exact execSlotRowExpire_lands _ hs
  case quantumExpire => exact execQuantumExpire_lands _ hs
  case slot => exact execSlot_lands _ _ _ _ hs
  case prepare => exact execPrepare_lands _ _ hs
  case refuse gang epoch dev reason => exact execRefuse_lands gang epoch dev reason hs
  case report => exact execReport_lands _ _ _ _ _ hs
  case query => exact execQuery_lands _ _ hs
  case capture => exact execCapture_lands _ _ hs
  case commit => exact execCommit_lands _ _ hs
  case abort => exact execAbort_lands _ _ hs
  case doneMessage => exact execDoneMessage_lands _ _ _ hs
  case resumeMessage => exact execResumeMessage_lands _ hs
  case rollback => exact execRollback_lands _ hs
  case barrierArrival => exact execBarrierArrival_lands _ _ _ hs
  case barrierRelease => exact execBarrierRelease_lands _ _ _ hs
  case ostepFlag => exact execOstepFlag_lands _ _ _ hs
  case ostepResult => exact execOstepResult_lands _ _ hs
  case snapshotTrigger => exact execSnapshotTrigger_lands _ hs
  case votePollTick => exact execVotePollTick_lands hs _
  case voteRetry => exact execVoteRetry_lands _ hs
  case chunksDrained => exact execChunksDrained_lands _ hs
  case clusterSettled => exact execClusterSettled_lands _ _ hs
  case restoreDone => exact execRestoreDone_lands hs _
  case memberSilentTimeout => exact execMemberSilentTimeout_lands hs _ _
  case checkpointTimer => exact execCheckpointTimer_lands _ hs
  case undoLogThreshold => exact execUndoLogThreshold_lands _ hs
  case mirrorComplete => exact execMirrorComplete_lands _ hs
  case uncorrectableError => exact execUncorrectableError_lands _ hs
  case quijaPacketReceive => exact execQuijaPacketReceive_lands _ _ hs
  case linkReplay => exact execLinkReplay_lands _ hs
  case linkRetrainTimeout => exact execLinkRetrainTimeout_lands _ hs
  case seustRetrainTimeout => exact execSeustRetrainTimeout_lands hs
  case mrd => exact execMrd_lands hs _ _ _
  case mwr => exact execMwr_lands hs _ _ _ _
  case hrd => exact execHrd_lands hs _ _ _ _ _
  case hwr => exact execHwr_lands hs _ _ _ _ _
  case dbgHalt => exact execDbgHalt_lands _ hs
  case dbgRun => exact execDbgRun_lands _ hs
  case dbgStep => exact execDbgStep_lands _ hs
  case dbgRunMillstone => exact execDbgRunMillstone_lands _ _ hs
  case dbgDump => exact execDbgDump_lands _ _ hs
  case dbgLoad => exact execDbgLoad_lands hs _ _
  case snstatFire => exact execSnstatFire_lands _ hs
  case thermalThrottle => exact execThermalThrottle_lands _ hs
  case thermalHold => exact execThermalHold_lands _ hs
  case thermalHoldEnd => exact execThermalHoldEnd_lands _ hs
  case thermalHoldTimeout => exact execThermalHoldTimeout_lands hs
  case thermtrip => exact execThermtrip_lands hs
  case bringUp => exact execBringUp_lands _ hs
  case pwrokDeassert => exact execPwrokDeassert_lands hs
  case deviceReset => exact execDeviceReset_lands hs
  case thermalThrottleEnd => exact execThermalThrottleEnd_lands _ hs
  case quijaLinkUp => exact execQuijaLinkUp_lands _ hs
  case portRetrain => exact execPortRetrain_lands _ hs
  case seustLinkUp => exact execSeustLinkUp_lands hs
  case seustLinkRetrain => exact execSeustLinkRetrain_lands hs
  case rstNAssert => exact execRstNAssert_lands hs
  case seustMalformedPacket => exact execSeustMalformedPacket_lands _ _ _ hs

/-! ### A bundle, a flight, and a core cycle -/

@[simp] theorem State.openBundle_canon {s : State} (hs : Canon s) (start len : Nat) (is : List Instr) : Canon (s.openBundle start len is) := hs

@[simp] theorem State.runWords_canon {s : State} (hs : Canon s) (ps : List Machine.Placed) : Canon (s.runWords ps).state := by
  induction ps generalizing s with
  | nil => exact hs
  | cons p ps ih =>
    have ran := exec_lands (s := { s with bun := { s.bun with ext := p.ext, pipe := p.pipe, draws := p.draws } }) hs p.i
    unfold State.runWords
    dsimp only
    split
    · next t is =>
      refine ih ?_
      split
      · rw [is] at ran
        exact ran
      · split
        · next u claimed => exact Sound.ok (at_ := id) (State.claimUnit_sound hs _) claimed
        · exact hs
    · exact ih hs

theorem State.runAlone_state (s : State) (ps : List Machine.Placed) : (s.runAlone ps).state = s := by
  cases ps <;> rfl

/-- The state that an issued bundle answers, its memories in canonical form. -/
def Issues : Issue → Prop
  | .ok s => Canon s
  | _ => True

theorem Run.verdict_canon {r : Run} (h : Canon r.state) (static : Bool) : Issues (r.verdict static) := by
  unfold Run.verdict
  split
  · trivial
  · split
    · trivial
    · trivial
    · split
      · trivial
      · split
        · trivial
        · split
          · trivial
          · exact h

theorem State.tryIssue_canon {s : State} (hs : Canon s) (start : Nat) (ws : List (Option Instr)) (stray : List Instr) :
    Issues (s.tryIssue start ws stray) := by
  refine Run.verdict_canon ?_ _
  dsimp only
  split
  · exact State.runWords_canon (State.openBundle_canon hs _ _ _) _
  · rw [State.runAlone_state]
    exact hs

@[simp] theorem State.afterIssue_canon {s : State} (hs : Canon s) (c start len : Nat) (is : List Instr) (w : Nat) :
    Canon (s.afterIssue c start len is w) := hs

@[simp] theorem State.stayAt_canon {s : State} (hs : Canon s) (c start : Nat) (md : Mode) : Canon (s.stayAt c start md) := by
  unfold State.stayAt
  dsimp only
  split <;> simp [hs]

@[simp] theorem State.countCycle_canon {s : State} (hs : Canon s) (c : Nat) (m : Mark) : Canon (s.countCycle c m) := hs

theorem State.memberIssue_canon {s : State} (hs : Canon s) (m pc : Nat) : Issues (s.memberIssue m pc) := by
  have turned : Canon { s with turn := m } := hs
  unfold State.memberIssue
  dsimp only
  split
  · exact State.tryIssue_canon turned _ _ _
  · next ws _ =>
    have issued := State.tryIssue_canon turned pc (ws.map decoded) (ws.filterMap named)
    split
    · next t is =>
      rw [is] at issued
      split
      · exact State.afterIssue_canon issued _ _ _ _ _
      · trivial
    · exact issued

@[simp] theorem State.unready_canon {s : State} (hs : Canon s) (m : Nat) : Canon (s.unready m) := hs

/-- The state that an issued flight answers, its memories in canonical form. -/
def FlightLands : FlightResult → Prop
  | .ok s _ => Canon s
  | _ => True

theorem State.flightTry_canon {s : State} (hs : Canon s) (c : Nat) (bad : Option (Nat × Trap)) (issued : Bool) (ms : List Nat) :
    FlightLands (s.flightTry c bad issued ms) := by
  induction ms generalizing s bad issued with
  | nil => cases bad <;> trivial
  | cons m ms ih =>
    unfold State.flightTry
    split
    · exact ih hs _ _
    · next pc _ =>
      have tried := State.memberIssue_canon hs m pc
      split
      · split
        · exact ih (State.unready_canon hs _) _ _
        · trivial
      · exact ih hs _ _
      · split
        · exact ih (State.stayAt_canon hs _ _ _) _ _
        · trivial
      · next t is =>
        rw [is] at tried
        exact ih tried _ _

@[simp] theorem State.schedHeld_canon {s : State} (hs : Canon s) (m : Nat) : Canon (s.schedHeld m) := by
  unfold State.schedHeld
  split <;> simp [hs]

@[simp] theorem State.schedAll_canon {s : State} (hs : Canon s) (ms : List Nat) : Canon (s.schedAll ms) := by
  induction ms generalizing s with
  | nil => exact hs
  | cons m ms ih => exact ih (State.schedHeld_canon hs m)

@[simp] theorem State.countAll_canon {s : State} (hs : Canon s) (x : Mark) (ms : List Nat) : Canon (s.countAll x ms) := by
  induction ms generalizing s with
  | nil => exact hs
  | cons m ms ih => exact ih (State.countCycle_canon hs m x)

@[simp] theorem State.noteHold_canon {s : State} (hs : Canon s) (m pc : Nat) (x : Mark) : Canon (s.noteHold m pc x) := by
  unfold State.noteHold
  split <;> simp [hs]

theorem canon_ite {p : Prop} [Decidable p] {s t : State} (hs : Canon s) (ht : Canon t) : Canon (if p then s else t) := by
  split
  · exact hs
  · exact ht

@[simp] theorem State.issueCycle_canon {s : State} (hs : Canon s) (c : Nat) : Canon (s.issueCycle c) := by
  have tried := State.flightTry_canon hs c none false (s.members c)
  unfold State.issueCycle
  dsimp only
  split
  · next x m pc _ =>
    have noted := State.noteHold_canon hs m pc x
    exact State.countAll_canon (canon_ite (State.schedAll_canon noted _) noted) _ _
  · exact State.countAll_canon (State.raise_canon hs _ _) _ _
  · exact State.countAll_canon (canon_ite (State.haltCore_canon hs c) hs) _ _
  · next t issued is =>
    rw [is] at tried
    exact State.countAll_canon (canon_ite tried (State.schedAll_canon (State.setCore_canon tried _ _) _)) _ _

@[simp] theorem State.emptyCycle_canon {s : State} (hs : Canon s) (c : Nat) : Canon (s.emptyCycle c) := by
  unfold State.emptyCycle
  exact canon_ite (State.countAll_canon (State.schedAll_canon hs _) _ _) (State.countAll_canon hs _ _)

@[simp] theorem State.runCycle_canon {s : State} (hs : Canon s) (c : Nat) : Canon (s.runCycle c) := by
  unfold State.runCycle
  split
  · exact State.countAll_canon hs _ _
  · split
    · exact State.countAll_canon hs _ _
    · exact canon_ite (State.issueCycle_canon hs c) (State.emptyCycle_canon hs c)

@[simp] theorem State.coreCycle_canon {s : State} (hs : Canon s) (c : Nat) : Canon (s.coreCycle c) := by
  unfold State.coreCycle
  split
  · exact State.countAll_canon hs _ _
  · exact State.runCycle_canon hs c

/-! ### The moves of the device, and a step -/

/-- A move keeps the memories in canonical form. -/
def Keeps (f : Move) : Prop := ∀ t, Canon t → Lands (f t)

theorem State.firstMove_sound {s : State} (hs : Canon s) {fs : List Move} (hf : ∀ f ∈ fs, Keeps f) : SoundIf id (s.firstMove fs) := by
  induction fs with
  | nil => trivial
  | cons f fs ih =>
    have rest := ih fun g hg => hf g (List.mem_cons_of_mem _ hg)
    have first := hf f List.mem_cons_self s hs
    unfold State.firstMove
    split
    · next t is =>
      rw [is] at first
      split
      · exact rest
      · exact first
    · exact rest

theorem SoundIf.getD {r : Option State} {s : State} (h : SoundIf id r) (hs : Canon s) : Canon (r.getD s) := by
  cases r with
  | none => exact hs
  | some t => exact h

theorem channelMoves_keep (c : Nat) (ch : Fin 2) : ∀ f ∈ channelMoves c ch, Keeps f := by
  simp +contextual [channelMoves, Keeps]

theorem commMoves_keep (v n : Nat) : ∀ f ∈ commMoves v n, Keeps f := by
  simp +contextual [commMoves, Keeps]

theorem State.granuleMoves_keep (s : State) : ∀ f ∈ s.granuleMoves, Keeps f := by
  unfold State.granuleMoves
  simp only [List.forall_mem_flatMap]
  simp +contextual [Keeps]

theorem State.coreMoves_keep (s : State) (c : Nat) : ∀ f ∈ s.coreMoves c, Keeps f := by
  unfold State.coreMoves
  simp only [List.forall_mem_append, List.forall_mem_map]
  refine ⟨⟨⟨⟨⟨⟨?_, ?_⟩, channelMoves_keep _ _⟩, channelMoves_keep _ _⟩, ?_⟩, ?_⟩, State.granuleMoves_keep s⟩
  all_goals simp +contextual [Keeps]

theorem State.workMoves_keep (s : State) (c : Nat) : ∀ f ∈ s.workMoves c, Keeps f := by
  unfold State.workMoves
  dsimp only
  split
  · simp
  · simp only [List.forall_mem_append, List.forall_mem_map]
    simp +contextual [Keeps]

theorem State.idleMoves_keep (s : State) (c : Nat) : ∀ f ∈ s.idleMoves c, Keeps f := by
  unfold State.idleMoves
  split
  · simp
  · simp only [List.forall_mem_append, List.forall_mem_cons]
    exact ⟨⟨⟨fun _ ht => execTailraceSpillComplete_lands ht _, channelMoves_keep _ _⟩, channelMoves_keep _ _⟩, State.workMoves_keep s c⟩

theorem State.launchMoves_keep (s : State) (l : Nat) : ∀ f ∈ s.launchMoves l, Keeps f := by
  simp +contextual [State.launchMoves, Keeps]

theorem State.vdMoves_keep (s : State) (v : Nat) : ∀ f ∈ s.vdMoves v, Keeps f := by
  unfold State.vdMoves
  simp only [List.forall_mem_append, List.forall_mem_map, List.forall_mem_flatMap]
  refine ⟨⟨?_, fun e _ => commMoves_keep v e.1⟩, ?_⟩
  all_goals simp +contextual [Keeps]

theorem State.gangMoves_keep (s : State) (g : Nat) : ∀ f ∈ s.gangMoves g, Keeps f := by
  unfold State.gangMoves
  simp only [List.forall_mem_append, List.forall_mem_map]
  refine ⟨⟨⟨?_, ?_⟩, ?_⟩, ?_⟩
  case refine_4 => split <;> simp +contextual [Keeps]
  all_goals simp +contextual [Keeps]

theorem State.stopMove_keep : Keeps State.stopMove := fun _ ht => State.move_lands ht State.resumeStop_canon

theorem State.deviceMoves_keep (s : State) : ∀ f ∈ s.deviceMoves, Keeps f := by
  unfold State.deviceMoves
  simp only [List.forall_mem_append, List.forall_mem_map, List.forall_mem_flatMap, List.forall_mem_singleton]
  refine ⟨⟨⟨⟨⟨?_, ?_⟩, ?_⟩, ?_⟩, State.stopMove_keep⟩, ?_⟩
  · exact fun e _ => State.idleMoves_keep s e.1
  · exact fun e _ => State.vdMoves_keep s e.1
  · exact fun e _ => State.launchMoves_keep s e.1
  · exact fun e _ => State.gangMoves_keep s e.1
  · exact fun e _ _ ht => execKeyZeroiseComplete_lands e.1 ht

@[simp] theorem State.idleCycle_canon {s : State} (hs : Canon s) : Canon s.idleCycle := hs

@[simp] theorem State.passTurn_canon {s : State} (hs : Canon s) : Canon s.passTurn := by
  unfold State.passTurn
  exact canon_ite (State.idleCycle_canon hs) hs

/-- A move of the core, or else of the device, where one is due. -/
theorem State.moveOr_canon {u t : State} (hu : Canon u) (ht : Canon t) (c : Nat) :
    Canon ((u.firstMove (u.coreMoves c)).getD ((u.firstMove u.deviceMoves).getD t)) :=
  (State.firstMove_sound hu (State.coreMoves_keep u c)).getD ((State.firstMove_sound hu (State.deviceMoves_keep u)).getD ht)

@[simp] theorem State.runTurn_canon {s : State} (hs : Canon s) : Canon s.runTurn := by
  have cycled := State.coreCycle_canon (State.newCycle_canon hs) s.turn
  unfold State.runTurn
  generalize s.newCycle.coreCycle s.turn = t at cycled
  exact canon_ite (State.passTurn_canon (State.moveOr_canon (u := { t with mark := .ok }) cycled cycled _)) (State.passTurn_canon cycled)

theorem State.eachMove_canon {s : State} (hs : Canon s) {ls : List (List Move)} (hf : ∀ fs ∈ ls, ∀ f ∈ fs, Keeps f) : Canon (s.eachMove ls) := by
  induction ls generalizing s with
  | nil => exact hs
  | cons fs ls ih =>
    have moved := State.firstMove_sound hs (hf fs List.mem_cons_self)
    exact ih (moved.getD hs) fun gs hg => hf gs (List.mem_cons_of_mem _ hg)

@[simp] theorem State.stepEngines_canon {s : State} (hs : Canon s) (v : Nat) : Canon (s.stepEngines v) := by
  unfold State.stepEngines
  refine canon_ite hs (State.setVd_canon (State.eachMove_canon hs ?_) _ _)
  simp only [List.forall_mem_append, List.forall_mem_map, List.forall_mem_flatMap, List.forall_mem_cons]
  exact ⟨fun c _ => ⟨channelMoves_keep c 0, channelMoves_keep c 1, by simp⟩, fun e _ => commMoves_keep v e.1⟩

@[simp] theorem State.debugCycle_canon {s : State} (hs : Canon s) (c : Nat) : Canon (s.debugCycle c) := by
  have stepped := State.stepEngines_canon (State.newCycle_canon hs) (s.coreVd c)
  unfold State.debugCycle
  dsimp only
  generalize s.newCycle.stepEngines (s.coreVd c) = t at stepped
  have ran : Canon (if (t.core c).mode = .halted then (t.setCore c { t.core c with mode := .running }).runCycle c else t.runCycle c) :=
    canon_ite (State.runCycle_canon (State.setCore_canon stepped _ _) c) (State.runCycle_canon stepped c)
  generalize (if (t.core c).mode = .halted then (t.setCore c { t.core c with mode := .running }).runCycle c else t.runCycle c) = u at ran
  have held {p : Prop} [Decidable p] : Canon (if p then u.setCore c { u.core c with mode := .halted } else u) :=
    canon_ite (State.setCore_canon ran _ _) ran
  exact canon_ite held (State.setVd_canon held _ _)

/-- What the agenda names keeps the memories in canonical form. -/
theorem State.serve_lands {s : State} (hs : Canon s) (a : Agent) : Lands (s.serve a) := by
  cases a with
  | event i => exact exec_lands hs i
  | core c => exact State.coreCycle_canon (State.newCycle_canon hs) c
  | debugCore c => exact State.debugCycle_canon hs c
  | elapse n => simp [State.serve, hs]
  | power => exact State.powerUp_canon hs
  | tlb b => exact hs

theorem step_lands {s : State} (hs : Canon s) : Lands (step s) := by
  unfold step
  split
  · next a rest _ => exact State.serve_lands (s := { s with agenda := rest }) hs a
  · split
    · exact State.runTurn_canon hs
    · exact execBringUp_lands true hs

end Sys2Proof.Machine

namespace Sys2Proof.Claims
open Sys2Proof.Machine

/-- Settles O59, by one rule per operation on the state: each keeps the canonical form of both memories, and so does a step. -/
theorem memoryStaysCanonical : Obligations.MemoryStaysCanonical := by
  unfold Obligations.MemoryStaysCanonical
  intro s t canonical stepped
  have lands := step_lands canonical
  rw [stepped] at lands
  exact lands

end Sys2Proof.Claims
end
